-- ==== Sys2Proof/Word.lean ====
section
/-! DEFINITION. The words of the AX9 and the numbers that name its units: bytes, 32- and 64-bit words, cluster,
port, die, counter, job and rank numbers (00 R2, R3; 07 R190; 09 R247). -/

namespace Sys2Proof

/-- A byte. -/
abbrev Byte := BitVec 8
/-- A 32-bit word: a register word of R452, a binary32 value of R45. -/
abbrev Word := BitVec 32
/-- A 64-bit word: an integer register of R162, a module address of R187. -/
abbrev DWord := BitVec 64
/-- A cluster's flat index, 64 × d + 8 × r + c (R2). -/
abbrev ClusterId := BitVec 8
/-- A port number, P00 to P63 (R3). -/
abbrev Port := BitVec 6
/-- A quadrant die, Q0 to Q3. -/
abbrev Die := BitVec 2
/-- A counter name: die in bits [15:14], index in bits [13:0] (R190). -/
abbrev CounterName := BitVec 16
/-- A job number; 0 names no job (R459). -/
abbrev JobNo := BitVec 16
/-- A rank number (R247). -/
abbrev Rank := BitVec 12

/-- The die of a cluster (R2). -/
def ClusterId.die (c : ClusterId) : Die := c.extractLsb' 6 2
/-- The region of a cluster, numbered 8 × d + r (R2, R187). -/
def ClusterId.region (c : ClusterId) : BitVec 5 := c.extractLsb' 3 5
/-- The die of a port (R3). -/
def Port.die (p : Port) : Die := p.extractLsb' 4 2
/-- The region of a port, numbered 8 × d + r (R3). -/
def Port.region (p : Port) : BitVec 5 := p.extractLsb' 1 5
/-- The die of a counter (R190). -/
def CounterName.die (n : CounterName) : Die := n.extractLsb' 14 2

end Sys2Proof
end

