-- ==== Sys2Proof/Syntax.lean ====
section
/-! DEFINITION. The commands of the block: one constructor of Instr for every row of the opcode table, with the
operand types they carry. The rows of the slots of a bundle (07 R163) carry the place and the fields of their word;
the rows of events carry what the outside brings and the network time at which it happens. -/

namespace Sys2Proof

/-- Where a slot word stands: the cluster whose graver core issues it, whether more words of the same bundle follow, the bundle's
idle_after field, and the header's wide bits for the slots that the bundle does not have (R163 to R165). -/
structure Place where
  cl    : ClusterId
  more  : Bool
  idle  : BitVec 4
  stray : BitVec 6
  deriving DecidableEq, Repr

/-- The fields of a slot word (R166) with its 32-bit immediate and the header's wide bit for the slot (R164). -/
structure Fields where
  d    : BitVec 5
  a    : BitVec 5
  b    : BitVec 5
  c    : BitVec 5
  mod  : BitVec 4
  imm  : Word
  wide : Bool
  deriving DecidableEq, Repr

/-- What a checked read of a protected word finds (R150, R441). -/
inductive Syndrome where
  | clean
  | corrected
  | uncorrectable
  deriving DecidableEq, Repr

/-- How an instruction-cache fill ends (R157, R158). -/
inductive FillKind where
  | good
  | corrected
  | parity
  | uncorrectable
  deriving DecidableEq, Repr

/-- One external access to a cluster SRAM (R146). -/
inductive ExtAccess where
  | read  (offset : BitVec 23) (length : Nat) (found : Syndrome)
  | write (offset : BitVec 23) (bytes : List Byte)
  deriving DecidableEq, Repr

/-- A WZ frame: the header of R350, the payload, and the tail of R352; spare holds the reserved bits above stomp in tail bytes 0x08 to
0x17, which the CRC covers (R353). -/
structure Frame where
  kind      : BitVec 4
  cls       : BitVec 3
  mc        : Bool
  plen      : BitVec 8
  ecn       : Bool
  echo      : Bool
  fmt       : BitVec 4
  sigDie    : Die
  sig       : Bool
  job       : JobNo
  srcRank   : Rank
  dstModule : BitVec 9
  dstPort   : BitVec 6
  group     : BitVec 12
  transfer  : BitVec 16
  ttl       : BitVec 10
  ident     : Word
  offset    : Word
  detail    : DWord
  payload   : List Byte
  counter   : CounterName
  inc       : BitVec 16
  announced : Word
  stomp     : Bool
  crc       : DWord
  reserved  : Bool
  spare     : BitVec 127
  deriving DecidableEq, Repr

/-- A report of committed bytes from one die to the die that holds the pending-signal entry (R280), with the counter,
increment and announced bytes of the tail tag where the last frame was among them. -/
structure CommitReport where
  dst      : Die
  job      : JobNo
  rank     : Rank
  transfer : BitVec 16
  bytes    : Word
  tag      : Option (CounterName × BitVec 16 × Word)
  deriving DecidableEq, Repr

/-- The unit that adds to a counter, as R274 names it: a cluster, a port or its engine, a rank. -/
inductive Adder where
  | cluster (c : ClusterId)
  | port (p : Port)
  | rank (r : Rank)
  deriving DecidableEq, Repr

/-- An addition to an advance counter: the unit that makes it and the signed amount (R274). -/
structure Addition where
  who    : Adder
  amount : BitVec 32
  deriving DecidableEq, Repr

/-- The words of a training frame (R333, R334) and whether its marker came inverted (R332). -/
structure TrainWords where
  control  : Word
  status   : Word
  inverted : Bool
  deriving DecidableEq, Repr

/-- What a lane delivers for one codeword (R343): the 640 bytes of the decoded and descrambled block with the number
of corrected symbols, the 528 received symbols, or a codeword that does not decode. -/
inductive LaneData where
  | block (bytes : List Byte) (corrected : Nat)
  | codeword (symbols : List (BitVec 10))
  | uncorrectable
  deriving DecidableEq, Repr

/-- The classes that an egress polices (R405). -/
inductive PolicedClass where
  | c2
  | c3
  | c4
  deriving DecidableEq, Repr

/-- The four parameters of a policer (R405). -/
inductive PolicerParam where
  | cir
  | pir
  | cbs
  | pbs
  deriving DecidableEq, Repr

/-- What the scrub access of a refresh slot finds in the two code words of its line (R443). -/
structure ScrubFinding where
  lo : Syndrome
  hi : Syndrome
  deriving DecidableEq, Repr

/-- The key of a signature entry (R327). -/
structure SigKey where
  unitKind   : BitVec 8
  unit       : BitVec 8
  impression : Word
  step       : Word
  seq        : Word
  deriving DecidableEq, Repr

/-- A signature entry of proof mode (R327). -/
structure SigEntry where
  key    : SigKey
  object : BitVec 4
  state  : Word
  crc    : DWord
  bytes  : Word
  deriving DecidableEq, Repr

/-- One sample of the margin controller (R475): input voltage in 10 mV, input current in mA, core rails in mV, stack
and hub temperatures in 1/8 °C, the edges seen on PARTNER_HB_IN since the last sample (R487), and whether the system
processor has checked in. -/
structure Sample where
  vin        : Nat
  iin        : Nat
  vcore      : List Nat
  stackTemps : List Int
  hubTemp    : Int
  hbEdges    : Nat
  checkIn    : Bool
  deriving DecidableEq, Repr

/-- The rail groups of the power-up sequence (R477). -/
inductive RailGroup where
  | hub
  | dram
  | core
  deriving DecidableEq, Repr

/-- What the meter has measured when it writes a record (R493, R496): its clock in ms, the energy register in mJ, and
the extremes since the previous record. -/
structure MeterSample where
  ms     : Nat
  energy : DWord
  vmin   : BitVec 16
  vmax   : BitVec 16
  pmax   : BitVec 16
  imax   : BitVec 16
  range  : Bool
  deriving DecidableEq, Repr

/-- What arrives from the meter over its link (R500, R504). -/
inductive MeterAnswer where
  | command
  | record (seq : DWord)
  deriving DecidableEq, Repr

/-- A UDP datagram with its source and the port that it names (R470, R530). -/
structure Datagram where
  bytes   : List Byte
  srcAddr : List Byte
  srcPort : BitVec 16
  dstPort : BitVec 16
  deriving DecidableEq, Repr

/-- The way by which a message reached its processor (R458, R470, R473, R530). A remote agent comes with the right
that its enrolment grants (R471). -/
inductive Path where
  | internal
  | mailbox (die : Die) (k : BitVec 4)
  | mgmt (agent : DWord) (right : BitVec 2)
  | service (agent : DWord) (right : BitVec 2)
  | relay (agent : DWord) (right : BitVec 2)
  deriving DecidableEq, Repr

/-- A command message (R453, R457): the fields of a mailbox image, the data of its datagram, and its path. An
argument that the list does not hold is 0. -/
structure Msg where
  seq    : BitVec 16
  job    : JobNo
  target : BitVec 4
  args   : List Word
  data   : List Byte
  path   : Path
  deriving DecidableEq, Repr

/-- The commands: one constructor per row of the opcode table, in its order. -/
inductive Instr where
  /-- EMPTY_BUNDLE (R165). A bundle header with no slot present issues and occupies one step plus idle_after. -/
  | emptyBundle (cl : ClusterId) (hdr : BitVec 16)
  /-- BR (R172). Unconditional branch to a byte offset. -/
  | br (p : Place) (w : Fields)
  /-- BRZ (R172). Branch when an integer register is zero. -/
  | brz (p : Place) (w : Fields)
  /-- BRNZ (R172). Branch when an integer register is non-zero. -/
  | brnz (p : Place) (w : Fields)
  /-- LOOP (R173). Push a loop stack entry, or skip the body for a count of 0. -/
  | loop (p : Place) (w : Fields)
  /-- WAITC (R172). Wait until a counter reaches an operand and write the wait status. -/
  | waitc (p : Place) (w : Fields)
  /-- WAITG (R172). Hold until the start of a hatch-list entry. -/
  | waitg (p : Place) (w : Fields)
  /-- HALT (R155). End the program impression with a halt code. -/
  | halt (p : Place) (w : Fields)
  /-- PREF (R157). Request an instruction-cache line. -/
  | pref (p : Place) (w : Fields)
  /-- RDFLG (R175). Read the cluster's sticky numeric flags. -/
  | rdflg (p : Place) (w : Fields)
  /-- STAT (R176). Read one field of the cluster status snapshot. -/
  | stat (p : Place) (w : Fields)
  /-- ADD (R177). Scalar 64-bit integer addition. -/
  | add (p : Place) (w : Fields)
  /-- SUB (R177). Scalar 64-bit integer subtraction. -/
  | sub (p : Place) (w : Fields)
  /-- MUL (R177). Scalar 64-bit integer multiplication, low half. -/
  | mul (p : Place) (w : Fields)
  /-- AND (R177). Scalar bitwise AND. -/
  | and (p : Place) (w : Fields)
  /-- OR (R177). Scalar bitwise OR. -/
  | or (p : Place) (w : Fields)
  /-- XOR (R177). Scalar bitwise XOR. -/
  | xor (p : Place) (w : Fields)
  /-- SHL (R177). Scalar shift left. -/
  | shl (p : Place) (w : Fields)
  /-- SHR (R177). Scalar logical shift right. -/
  | shr (p : Place) (w : Fields)
  /-- SRA (R177). Scalar arithmetic shift right. -/
  | sra (p : Place) (w : Fields)
  /-- SLT (R177). Scalar signed less-than compare. -/
  | slt (p : Place) (w : Fields)
  /-- SLTU (R177). Scalar unsigned less-than compare. -/
  | sltu (p : Place) (w : Fields)
  /-- SEQ (R177). Scalar equality compare. -/
  | seq (p : Place) (w : Fields)
  /-- MIN (R177). Scalar signed minimum. -/
  | min (p : Place) (w : Fields)
  /-- MAX (R177). Scalar signed maximum. -/
  | max (p : Place) (w : Fields)
  /-- ADDI (R177). Add a sign-extended immediate. -/
  | addi (p : Place) (w : Fields)
  /-- LIH (R177). Load an immediate into the upper 32 bits. -/
  | lih (p : Place) (w : Fields)
  /-- LD (R177). Load 8 bytes from SRAM into an integer register. -/
  | ld (p : Place) (w : Fields)
  /-- ST (R177). Store 8 bytes of an integer register to SRAM. -/
  | st (p : Place) (w : Fields)
  /-- FLD (R177). Load 4 bytes from SRAM into a binary32 register. -/
  | fld (p : Place) (w : Fields)
  /-- FST (R177). Store a binary32 register to SRAM. -/
  | fst (p : Place) (w : Fields)
  /-- FADD (R177). Scalar binary32 addition. -/
  | fadd (p : Place) (w : Fields)
  /-- FSUB (R177). Scalar binary32 subtraction. -/
  | fsub (p : Place) (w : Fields)
  /-- FMUL (R177). Scalar binary32 multiplication. -/
  | fmul (p : Place) (w : Fields)
  /-- FFMA (R177). Scalar binary32 fused multiply-add. -/
  | ffma (p : Place) (w : Fields)
  /-- FDIV (R177). Scalar binary32 division. -/
  | fdiv (p : Place) (w : Fields)
  /-- FSQRT (R177). Scalar binary32 square root. -/
  | fsqrt (p : Place) (w : Fields)
  /-- FRSQRT (R177). Scalar binary32 reciprocal square root. -/
  | frsqrt (p : Place) (w : Fields)
  /-- FMAX (R177). Scalar binary32 maximum. -/
  | fmax (p : Place) (w : Fields)
  /-- FMIN (R177). Scalar binary32 minimum. -/
  | fmin (p : Place) (w : Fields)
  /-- FABS (R177). Scalar binary32 absolute value. -/
  | fabs (p : Place) (w : Fields)
  /-- FNEG (R177). Scalar binary32 negation. -/
  | fneg (p : Place) (w : Fields)
  /-- FCMP (R178). Scalar binary32 compare under a predicate code. -/
  | fcmp (p : Place) (w : Fields)
  /-- FMVXF (R177). Move binary32 bits to an integer register. -/
  | fmvxf (p : Place) (w : Fields)
  /-- FMVFX (R177). Move integer bits to a binary32 register. -/
  | fmvfx (p : Place) (w : Fields)
  /-- ICVTF (R177). Convert a signed integer to binary32. -/
  | icvtf (p : Place) (w : Fields)
  /-- FCVTI (R179). Truncate binary32 to a saturating signed integer. -/
  | fcvti (p : Place) (w : Fields)
  /-- SETCX (R177). Set the conversion context for VCVT. -/
  | setcx (p : Place) (w : Fields)
  /-- VADD (R180). Vector binary32 addition. -/
  | vadd (p : Place) (w : Fields)
  /-- VSUB (R180). Vector binary32 subtraction. -/
  | vsub (p : Place) (w : Fields)
  /-- VMUL (R180). Vector binary32 multiplication. -/
  | vmul (p : Place) (w : Fields)
  /-- VFMA (R180). Vector binary32 fused multiply-add. -/
  | vfma (p : Place) (w : Fields)
  /-- VDIV (R180). Vector binary32 division. -/
  | vdiv (p : Place) (w : Fields)
  /-- VSQRT (R180). Vector binary32 square root. -/
  | vsqrt (p : Place) (w : Fields)
  /-- VRSQRT (R180). Vector binary32 reciprocal square root. -/
  | vrsqrt (p : Place) (w : Fields)
  /-- VMAX (R180). Vector maximum. -/
  | vmax (p : Place) (w : Fields)
  /-- VMIN (R180). Vector minimum. -/
  | vmin (p : Place) (w : Fields)
  /-- VABS (R180). Vector absolute value. -/
  | vabs (p : Place) (w : Fields)
  /-- VNEG (R180). Vector negation. -/
  | vneg (p : Place) (w : Fields)
  /-- VCMP (R180). Vector compare into a mask register. -/
  | vcmp (p : Place) (w : Fields)
  /-- VSEL (R180). Vector select under a mask. -/
  | vsel (p : Place) (w : Fields)
  /-- VBCAST (R180). Broadcast a binary32 register to every lane. -/
  | vbcast (p : Place) (w : Fields)
  /-- VLD (R181). Load 512 codes from SRAM into a vector register. -/
  | vld (p : Place) (w : Fields)
  /-- VST (R181). Store the codes of a vector register to SRAM, merging disabled lanes. -/
  | vst (p : Place) (w : Fields)
  /-- VCVT (R182). Convert vector lanes into a short format with scales and rounding. -/
  | vcvt (p : Place) (w : Fields)
  /-- VDEC (R182). Decode short-format vector lanes to binary32. -/
  | vdec (p : Place) (w : Fields)
  /-- VSPLIT3 (R99). Split binary32 lanes into three HX16 parts. -/
  | vsplit3 (p : Place) (w : Fields)
  /-- VRED (R96). Reduce 512 lanes in a fixed tree into a binary32 register. -/
  | vred (p : Place) (w : Fields)
  /-- MAND (R180). Mask AND. -/
  | mand (p : Place) (w : Fields)
  /-- MOR (R180). Mask OR. -/
  | mor (p : Place) (w : Fields)
  /-- MXOR (R180). Mask XOR. -/
  | mxor (p : Place) (w : Fields)
  /-- MNOT (R180). Mask NOT. -/
  | mnot (p : Place) (w : Fields)
  /-- MMA (R183). Start one array tile operation from a tile descriptor. -/
  | mma (p : Place) (w : Fields)
  /-- MOVE (R188). Start a copy between module addresses with a completion counter increment. -/
  | move (p : Place) (w : Fields)
  /-- BALLOC (R186). Request an SRAM or DRAM granule from the buffer pool. -/
  | balloc (p : Place) (w : Fields)
  /-- BFREE (R304). Release a granule, refused unless by its releaser. -/
  | bfree (p : Place) (w : Fields)
  /-- SLAUNCH (R202). Pass a stream descriptor to a region stream engine's launch queue. -/
  | slaunch (p : Place) (w : Fields)
  /-- CADD (R190). Add an immediate to a counter. -/
  | cadd (p : Place) (w : Fields)
  /-- CADDR (R190). Add a register value to a counter. -/
  | caddr (p : Place) (w : Fields)
  /-- BARR (R287). Arrive locally at a barrier slot. -/
  | barr (p : Place) (w : Fields)
  /-- RESULT_LANDING (R168). An issued instruction's register or SRAM result lands after its fixed latency. -/
  | resultLanding (cl : ClusterId)
  /-- CLUSTER_STEP_END (R21). Every engine of a cluster acknowledges and the cluster step ends under the pace limiter. -/
  | clusterStepEnd (cl : ClusterId) (now : Nat)
  /-- MMA_TILE_COMPLETE (R192). The tile's C result is written to SRAM after issue length plus pipeline latency. -/
  | mmaTileComplete (cl : ClusterId)
  /-- ICACHE_LINE_FILL (R157). A requested instruction-cache line arrives from the code region and releases a fetch hold. -/
  | icacheLineFill (cl : ClusterId) (line : BitVec 32) (how : FillKind) (now : Nat)
  /-- SRAM_EXTERNAL_ACCESS (R146). An external read or write reaches cluster SRAM in its own cycles. -/
  | sramExternalAccess (cl : ClusterId) (a : ExtAccess)
  /-- SRAM_SCRUB (R150). The scrubber reads and rewrites SRAM words within every 10 s. -/
  | sramScrub (cl : ClusterId) (word : BitVec 20) (found : Syndrome)
  /-- SRAM_CLEAR_DONE (R149). The 2,048-step clearing completes and the Pacor writes initial SRAM images. -/
  | sramClearDone (job : JobNo) (now : Nat)
  /-- TEMP_SENSOR_READ (R555). A cluster junction sensor is read at least every 100 µs. -/
  | tempSensorRead (cl : ClusterId) (temp : BitVec 16)
  /-- WAIT_MET (R276). A counter update meets a held WAITC, which issues at the next step boundary. -/
  | waitMet (cl : ClusterId) (now : Nat)
  /-- WAITC_TIMEOUT (R172). A WAITC timeout expires and the wait ends with TIMEOUT. -/
  | waitcTimeout (cl : ClusterId) (now : Nat)
  /-- BALLOC_GRANT (R301). The buffer pool grants a waiting granule request. -/
  | ballocGrant (die : Die) (dram : Bool) (now : Nat)
  /-- MOVE_COMPLETE (R186). All bytes of a move commit and its counter increment applies. -/
  | moveComplete (cl : ClusterId) (idx : Nat) (now : Nat)
  /-- PACOR_LAUNCH (R202). The Pacor places a scheduled descriptor into a launch queue, waiting for room. -/
  | pacorLaunch (port : Port) (now : Nat)
  /-- DESCRIPTOR_ACTIVATE (R203). The head descriptor becomes active when a context is free and its gate holds, and is checked. -/
  | descriptorActivate (port : Port) (now : Nat)
  /-- CONTRIB (R219). A contribution frame is disposed of and written to slot and log. -/
  | contrib (eng : Port) (f : Frame) (now : Nat)
  /-- REDUCE_ADD (R220). The next rank ordinal is added once it and every lower ordinal have arrived. -/
  | reduceAdd (eng : Port) (ctx : Nat) (now : Nat)
  /-- REDUCE_DEADLINE (R221). A REDUCE deadline passes with ranks missing and the impression ends DEADLINE_MISSED. -/
  | reduceDeadline (eng : Port) (ctx : Nat) (now : Nat)
  /-- REDUCE_DELIVERY (R222). After the last addition the sum is scaled, converted, overflow-checked and delivered. -/
  | reduceDelivery (eng : Port) (ctx : Nat) (now : Nat)
  /-- OVERFLOW_REPLAY (R126). After the first delivery ends, the reduction is replayed from the log at a wider rung. -/
  | overflowReplay (eng : Port) (ctx : Nat) (now : Nat)
  /-- GATHER_COLLECT_FRAME (R232). A piece frame of a collecting GATHER is written at its rank ordinal. -/
  | gatherCollectFrame (eng : Port) (f : Frame) (now : Nat)
  /-- GATHER_REQ (R233). A gather request is answered with the held state or a notice. -/
  | gatherReq (eng : Port) (f : Frame) (now : Nat)
  /-- GATHER_SERVE_DEADLINE (R233). A serve deadline passes and all unanswered requests get notices. -/
  | gatherServeDeadline (eng : Port) (ctx : Nat) (now : Nat)
  /-- GATHER_REPLY_SENT (R309). A reply's last frame leaves and a deferred state release takes effect. -/
  | gatherReplySent (eng : Port) (ctx : Nat) (now : Nat)
  /-- SHIFT_BLOCK (R234). A ring block is forwarded cut-through to its successor. -/
  | shiftBlock (eng : Port) (f : Frame) (now : Nat)
  /-- PERMUTE_BLOCK (R236). An incoming PERMUTE block lands or is discarded on collision. -/
  | permuteBlock (eng : Port) (f : Frame) (now : Nat)
  /-- PERMUTE_READS_DONE (R238). For in_place, incoming blocks are written once every outgoing read has completed. -/
  | permuteReadsDone (eng : Port) (ctx : Nat) (now : Nat)
  /-- STREAM_WORK_DONE (R214). A SORT, FILTER, MULTICAST or other impression finishes its work and completes. -/
  | streamWorkDone (eng : Port) (ctx : Nat) (now : Nat)
  /-- STREAM_DEADLINE (R557). The deadline of a PERMUTE, SORT, FILTER or MULTICAST passes. -/
  | streamDeadline (eng : Port) (ctx : Nat) (now : Nat)
  /-- SIGNALLED_FRAME_COMMIT (R280). A frame of a signalled transfer commits and updates its pending-signal entry. -/
  | signalledFrameCommit (die : Die) (f : Frame) (now : Nat)
  /-- DIE_COMMIT_REPORT (R280). Another die reports committed frames to the die holding the entry. -/
  | dieCommitReport (src : Die) (r : CommitReport) (now : Nat)
  /-- SIGNAL (R278). A signal-only frame adds to a counter as it commits. -/
  | signal (f : Frame) (now : Nat)
  /-- PENDING_SIGNAL_TIMEOUT (R281). A pending entry untouched for 1 ms is discarded. -/
  | pendingSignalTimeout (die : Die) (job : JobNo) (rank : BitVec 12) (transfer : BitVec 16) (now : Nat)
  /-- BARRIER_ARRIVAL_FRAME (R287). An arrival frame reaches the root barrier. -/
  | barrierArrivalFrame (f : Frame) (now : Nat)
  /-- BARRIER_DEADLINE (R289). A generation's deadline passes at the root. -/
  | barrierDeadline (slot : BitVec 6) (now : Nat)
  /-- BARRIER_COMPLETION_FRAME (R289). A participant writes the outcome, adds to done_counter and releases waiting contexts. -/
  | barrierCompletionFrame (f : Frame) (now : Nat)
  /-- SHARD_ADVANCE (R307). An advance_counter addition retires and advances a shard state or completes a fill. -/
  | shardAdvance (counter : CounterName) (add : Addition) (now : Nat)
  /-- JOB_DIGEST_FRAME (R246). A common digest from another module arrives at job start. -/
  | jobDigestFrame (job : JobNo) (module : BitVec 9) (digest : BitVec 256) (now : Nat)
  /-- JOB_START_AT (R466). The job starts at start_at after its checks. -/
  | jobStartAt (job : JobNo) (now : Nat)
  /-- JOB_START_TIMEOUT (R466). Missing digests after 10 s refuse the start. -/
  | jobStartTimeout (job : JobNo) (now : Nat)
  /-- HATCH_ENTRY_START (R400). An occurrence of a hatch-list entry begins and gates change. -/
  | hatchEntryStart (slot : BitVec 3) (now : Nat)
  /-- IMPRESSION_START (R250). A schedule entry's impression starts at its gate once its unit is free. -/
  | impressionStart (job : JobNo) (entry : Nat) (now : Nat)
  /-- LEDGER_STEP_CLOSE (R317). A step closes and its ledger entry and chain update. -/
  | ledgerStepClose (job : JobNo) (now : Nat)
  /-- JOB_DONE (R459). Every schedule entry is past its last step and the job enters DONE. -/
  | jobDone (job : JobNo) (now : Nat)
  /-- EFFECTIVE_STEP_BEGIN (R124). A logged command's effective step begins and its mode, mapping, scale reset or injection applies. -/
  | effectiveStepBegin (job : JobNo) (step : BitVec 32) (now : Nat)
  /-- TRAINING_FRAME (R334). A training frame with requests and status is received on a lane. -/
  | trainingFrame (port : Port) (lane : BitVec 3) (t : TrainWords) (now : Nat)
  /-- EQUALISE_TIMEOUT (R336). A lane's 10 ms equalisation limit expires. -/
  | equaliseTimeout (port : Port) (lane : BitVec 3) (now : Nat)
  /-- ALIGN_BLOCK (R345). An ALIGN block is received and used for lock and deskew. -/
  | alignBlock (port : Port) (lane : BitVec 3) (rx : LaneData) (now : Nat)
  /-- ALIGN_TIMEOUT (R336). Alignment fails within 1 ms and the link returns to DETECT. -/
  | alignTimeout (port : Port) (now : Nat)
  /-- TRAIN_BLOCK (R337). A TRAIN block with capabilities is received. -/
  | trainBlock (port : Port) (lane : BitVec 3) (rx : LaneData) (now : Nat)
  /-- NEGOTIATE_TIMEOUT (R336). Negotiation fails within 1 ms. -/
  | negotiateTimeout (port : Port) (now : Nat)
  /-- DATA_BLOCK (R347). A DATA block is received, decoded and accepted or discarded. -/
  | dataBlock (port : Port) (lane : BitVec 3) (rx : LaneData) (now : Nat)
  /-- IDLE_BLOCK (R348). An IDLE block is received. -/
  | idleBlock (port : Port) (lane : BitVec 3) (rx : LaneData) (now : Nat)
  /-- TIME_BLOCK (R364). A TIME block is received and the delay and offset are computed. -/
  | timeBlock (port : Port) (lane : BitVec 3) (rx : LaneData) (now : Nat)
  /-- BLOCK_TRANSMIT (R348). A transmitter forms and sends its next block. -/
  | blockTransmit (port : Port) (now : Nat)
  /-- TIME_BLOCK_DUE (R348). The 10 µs limit forces a TIME block. -/
  | timeBlockDue (port : Port) (now : Nat)
  /-- ALIGN_BLOCK_DUE (R345). Every 16,384 codewords each active lane sends an ALIGN block. -/
  | alignBlockDue (port : Port) (now : Nat)
  /-- LANE_SER_WINDOW (R339). A lane's symbol error ratio over 10 ms is judged and may mark it failing. -/
  | laneSerWindow (port : Port) (lane : BitVec 3) (errors : Nat) (symbols : Nat) (now : Nat)
  /-- LANE_RETRAIN_END (R340). A removed lane retrains successfully or fails after 20 ms. -/
  | laneRetrainEnd (port : Port) (lane : BitVec 3) (ok : Bool) (now : Nat)
  /-- ACK_TIMEOUT_REPLAY (R356). No ack advance for 20 µs starts a replay. -/
  | ackTimeoutReplay (port : Port) (now : Nat)
  /-- LINK_SILENCE_TIMEOUT (R341). No accepted block for 100 µs takes the link down. -/
  | linkSilenceTimeout (port : Port) (now : Nat)
  /-- FAB_WZ_CTRL_DISABLE (R366). A write of disable puts the port in electrical idle. -/
  | fabWzCtrlDisable (port : Port) (disable : Bool) (now : Nat)
  /-- FAB_WZ_RETRAIN (R366). Writing go takes the link down and back to DETECT. -/
  | fabWzRetrain (port : Port) (go : Bool) (now : Nat)
  /-- ROUTE_LOOKUP_DONE (R381). A frame's route lookup completes 40 ns after its header block. -/
  | routeLookupDone (port : Port) (now : Nat)
  /-- EGRESS_SELECT (R396). An egress able to start a frame chooses the next one. -/
  | egressSelect (port : Port) (now : Nat)
  /-- FRAME_STOMP (R358). A cut-through copy whose next unit is unavailable ends with a stomped tail. -/
  | frameStomp (port : Port) (now : Nat)
  /-- STEERING_TIMEOUT (R377). A held STREAM frame with no steering entry after 100 µs is discarded. -/
  | steeringTimeout (job : JobNo) (ident : BitVec 32) (now : Nat)
  /-- ECN_ECHO (R387). A congestion echo halves the sending rate toward a rank. -/
  | ecnEcho (job : JobNo) (rank : BitVec 12) (now : Nat)
  /-- ECN_RATE_STEP (R387). 20 µs without an echo raise the rate toward a rank. -/
  | ecnRateStep (job : JobNo) (rank : BitVec 12) (now : Nat)
  /-- QUEUE_SAMPLE (R410). All class queues of an egress are sampled at the period. -/
  | queueSample (port : Port) (now : Nat)
  /-- POLICER_PARAM_WRITE (R405). Writing a policer parameter refills both buckets. -/
  | policerParamWrite (port : Port) (cls : PolicedClass) (par : PolicerParam) (value : BitVec 32) (now : Nat)
  /-- REGISTER_WRITE (R15). A write to a register without behaviour of its own sets its fields. -/
  | registerWrite (addr : BitVec 32) (value : BitVec 32)
  /-- MBX_DONE_CLEAR (R453). Writing 1 to a done bit clears it. -/
  | mbxDoneClear (die : Die) (mask : BitVec 16)
  /-- DRAINED (R390). Ring and mirror egresses empty and the module becomes DRAINED. -/
  | drained (now : Nat)
  /-- DRAIN_TIMEOUT (R390). A module not drained within 10 ms raises DRAIN_TIMEOUT. -/
  | drainTimeout (now : Nat)
  /-- MEM_REQ (R420). A memory-semantic request is checked and served or refused. -/
  | memReq (die : Die) (f : Frame) (now : Nat)
  /-- COMBINE_CLOSE (R427). A combine window ends and its single DRAM read issues. -/
  | combineClose (die : Die) (window : BitVec 12) (offset : BitVec 32) (now : Nat)
  /-- MEM_REPLY (R432). A reply to a module's own remote line access reaches its Pacor. -/
  | memReply (die : Die) (f : Frame) (now : Nat)
  /-- MEM_TIMEOUT (R432). No reply within 1 ms ends the remote access command. -/
  | memTimeout (die : Die) (tag : BitVec 32) (now : Nat)
  /-- REFRESH_SLOT (R439). A bank refresh slot blocks the bank and carries a scrub access. -/
  | refreshSlot (stack : BitVec 5) (channel : BitVec 4) (bank : BitVec 4) (scrub : ScrubFinding) (now : Nat)
  /-- SIGNATURE_BATCH (R328). The partner's signature entries arrive and are compared. -/
  | signatureBatch (die : Die) (batch : List SigEntry) (now : Nat)
  /-- SIGNATURE_MISSING (R328). A partner entry not arrived within 10 ms is a divergence. -/
  | signatureMissing (die : Die) (key : SigKey) (now : Nat)
  /-- DIVERGENCE_NOTICE (R328). A partner's divergence notice stops the job. -/
  | divergenceNotice (job : JobNo) (n : SigEntry) (now : Nat)
  /-- PROOF_FORWARD_FRAME (R324). The twin delivers a frame forwarded by the primary. -/
  | proofForwardFrame (port : Port) (f : Frame) (now : Nat)
  /-- MIRROR_DATA (R509). The partner stages mirrored bytes and acknowledges them. -/
  | mirrorData (f : Frame) (now : Nat)
  /-- MIRROR_ACK (R509). A mirror acknowledgement may let a mirrored move apply its increment. -/
  | mirrorAck (f : Frame) (now : Nat)
  /-- SEAL (R510). The partner copies staged bytes into the hold range and acknowledges. -/
  | seal (f : Frame) (now : Nat)
  /-- SEAL_ACK (R510). The owner adds 1 to sealed_counter. -/
  | sealAck (f : Frame) (now : Nat)
  /-- PAIR_HELLO (R511). A partner hello pairs or re-pairs the module. -/
  | pairHello (f : Frame) (now : Nat)
  /-- PAIR_HELLO_DUE (R507). Every 1 ms the module sends PAIR_HELLO. -/
  | pairHelloDue (now : Nat)
  /-- INJECT_NOTICE (R506). A partner announces an injected fault. -/
  | injectNotice (f : Frame) (now : Nat)
  /-- RESTORE_DATA (R520). Restored state bytes are written over the own state image. -/
  | restoreData (f : Frame) (now : Nat)
  /-- PARTNER_LOST (R512). Heartbeat and mirror silence for 10 ms declare the partner lost. -/
  | partnerLost (now : Nat)
  /-- TAKEOVER_COMPLETE (R515). Shadows are built and the survivor enters SOLO. -/
  | takeoverComplete (now : Nat)
  /-- RECOVERY_TIMEOUT (R514). A local recovery not complete within 50 ms ends with RECOVERY_FAILED. -/
  | recoveryTimeout (port : Port) (now : Nat)
  /-- EVENT_PUSH (R522). An event or the 100 ms heartbeat sends a push datagram. -/
  | eventPush (now : Nat)
  /-- MARGIN_SAMPLE (R475). Every 100 µs the margin controller samples supply and temperatures. -/
  | marginSample (m : Sample) (now : Nat)
  /-- STANDBY_UP (R476). The input reaches 40 V and the standby rail comes up. -/
  | standbyUp (now : Nat)
  /-- INPUT_LOSS (R476). Below 36 V the margin controller stops and every rail falls. -/
  | inputLoss (now : Nat)
  /-- POWERUP_HUB (R477). After 10 ms of good input the hub rails come on. -/
  | powerupHub (now : Nat)
  /-- BOOT_COMPLETE (R477). Boot completes and DRAM rails come on. -/
  | bootComplete (now : Nat)
  /-- RAILS_IN_WINDOW (R477). A rail group reaches its window and the sequence continues. -/
  | railsInWindow (group : RailGroup) (now : Nat)
  /-- RAIL_WINDOW_TIMEOUT (R477). A rail not in window within 2 ms trips the module. -/
  | railWindowTimeout (group : RailGroup) (now : Nat)
  /-- QUADRANT_RESET_RELEASE (R477). Quadrant resets are released 10 µs apart. -/
  | quadrantResetRelease (die : Die) (now : Nat)
  /-- POWER_DOWN_DONE (R478). An orderly power-down completes. -/
  | powerDownDone (now : Nat)
  /-- VCORE_RAMP_DONE (R486). A core rail ramp ends and the cap is restored. -/
  | vcoreRampDone (die : Die) (now : Nat)
  /-- PPS_EDGE (R485). A PPS rising edge is accepted or rejected. -/
  | ppsEdge (now : Nat)
  /-- PPS_LOST (R485). 1,500 ms without an accepted edge lose PPS. -/
  | ppsLost (now : Nat)
  /-- PTP_SYNC (R484). A PTP Sync message is accepted. -/
  | ptpSync (now : Nat)
  /-- PTP_LOST (R484). 3 s without Sync lose PTP. -/
  | ptpLost (now : Nat)
  /-- PARTNER_HB_LOST (R487). No heartbeat edge for 10 ms. -/
  | partnerHbLost (now : Nat)
  /-- RST_N_LOW (R488). A low accepted on 26 samples starts a power-down. -/
  | rstNLow (now : Nat)
  /-- RST_N_RISE (R488). The rising edge after an accepted low starts power-up. -/
  | rstNRise (now : Nat)
  /-- METER_INTERVAL (R495). meter_s reaches a multiple of 60. -/
  | meterInterval (m : MeterSample)
  /-- METER_JOB_MARKER (R498). A job marker from the hub is recorded. -/
  | meterJobMarker (open_ : Bool) (deferred : Bool) (job : JobNo) (module : BitVec 16) (m : MeterSample)
  /-- METER_SEAL_BREAK (R501). A seal break is latched and recorded. -/
  | meterSealBreak (m : MeterSample)
  /-- METER_POWER_UP (R495). The meter starts after low input. -/
  | meterPowerUp (m : MeterSample)
  /-- METER_POWER_LOSS (R495). The input falls below 30 V. -/
  | meterPowerLoss (m : MeterSample)
  /-- METER_TIME_LABEL (R497). The hub sends network time once per second. -/
  | meterTimeLabel (m : MeterSample) (now : Nat)
  /-- METER_LOST (R29). The meter stops answering. -/
  | meterLost (now : Nat)
  /-- BOOT_ROM_RUN (R533). The boot ROM chooses, verifies and loads a firmware slot. -/
  | bootRomRun (now : Nat)
  /-- MGMT_DATAGRAM (R471). A management datagram is verified. -/
  | mgmtDatagram (d : Datagram) (now : Nat)
  /-- SERVICE_DATAGRAM (R530). A service datagram is verified. -/
  | serviceDatagram (d : Datagram) (now : Nat)
  /-- RELAY_REQUEST (R473). A relayed MGMT request reaches its target. -/
  | relayRequest (f : Frame) (now : Nat)
  /-- RELAY_REPLY (R473). A relayed reply is returned to the agent. -/
  | relayReply (f : Frame) (now : Nat)
  /-- RELAY_TIMEOUT (R473). No relayed reply within 2 s. -/
  | relayTimeout (target : BitVec 9) (now : Nat)
  /-- MAILBOX_DISPATCH (R458). A queued die message enters a free mailbox. -/
  | mailboxDispatch (die : Die)
  /-- NOP (R460). No operation. -/
  | nop (m : Msg)
  /-- GET_INFO (R462). Return module information. -/
  | getInfo (m : Msg)
  /-- READ_REG (R463). Read register words. -/
  | readReg (m : Msg)
  /-- WRITE_REG (R463). Masked register write. -/
  | writeReg (m : Msg)
  /-- STAGE_WRITE (R464). Write staging data. -/
  | stageWrite (m : Msg)
  /-- PLATE_LOAD (R465). Load a plate part. -/
  | plateLoad (m : Msg)
  /-- PLATE_UNLOAD (R459). Unload a plate. -/
  | plateUnload (m : Msg)
  /-- JOB_START (R466). Start a job. -/
  | jobStart (m : Msg)
  /-- JOB_STOP (R466). Stop or pre-empt a job. -/
  | jobStop (m : Msg)
  /-- JOB_END (R466). End a job. -/
  | jobEnd (m : Msg)
  /-- SET_NUMERIC_MODE (R124). Set numeric mode. -/
  | setNumericMode (m : Msg)
  /-- SET_MAPPING (R263). Set mapping switch. -/
  | setMapping (m : Msg)
  /-- RESET_SCALES (R467). Reset absmax. -/
  | resetScales (m : Msg)
  /-- INJECT_FAULT (R524). Arm fault. -/
  | injectFault (m : Msg)
  /-- ROUTE_LOAD (R468). Stage map. -/
  | routeLoad (m : Msg)
  /-- ROUTE_DRAIN (R389). Stop admission. -/
  | routeDrain (m : Msg)
  /-- ROUTE_SWAP (R389). Activate tables. -/
  | routeSwap (m : Msg)
  /-- ROUTE_RESUME (R389). Resume. -/
  | routeResume (m : Msg)
  /-- ROUTE_CANCEL (R389). Cancel drain. -/
  | routeCancel (m : Msg)
  /-- READ_RUN_RECORD (R314). Read record. -/
  | readRunRecord (m : Msg)
  /-- READ_OVERFLOW_LOG (R136). Read overflow log. -/
  | readOverflowLog (m : Msg)
  /-- READ_OVERRUN_LOG (R321). Read overruns. -/
  | readOverrunLog (m : Msg)
  /-- READ_IDLE_ACCOUNT (R269). Read idle account. -/
  | readIdleAccount (m : Msg)
  /-- READ_RANK_WAIT (R322). Read rank wait. -/
  | readRankWait (m : Msg)
  /-- READ_LEDGER (R317). Read ledger. -/
  | readLedger (m : Msg)
  /-- READ_EVENT_LOG (R521). Read events. -/
  | readEventLog (m : Msg)
  /-- READ_CLUSTER_STATUS (R160). Read cluster status. -/
  | readClusterStatus (m : Msg)
  /-- READ_FAULT_RECORD (R200). Read fault record. -/
  | readFaultRecord (m : Msg)
  /-- CLEAR_HALT (R460). Clear halted cluster. -/
  | clearHalt (m : Msg)
  /-- READ_STATS (R137). Read statistics. -/
  | readStats (m : Msg)
  /-- READ_MEM_FAULTS (R444). Read memory faults. -/
  | readMemFaults (m : Msg)
  /-- READ_STACK_STATUS (R450). Read stack status. -/
  | readStackStatus (m : Msg)
  /-- MEM_READ_REMOTE (R432). Remote line read. -/
  | memReadRemote (m : Msg)
  /-- MEM_WRITE_REMOTE (R432). Remote line write. -/
  | memWriteRemote (m : Msg)
  /-- FW_STATUS (R532). Firmware status. -/
  | fwStatus (m : Msg)
  /-- FW_BEGIN (R531). Begin delivery. -/
  | fwBegin (m : Msg)
  /-- FW_WRITE (R531). Write image bytes. -/
  | fwWrite (m : Msg)
  /-- FW_FINISH (R532). Check staged image. -/
  | fwFinish (m : Msg)
  /-- FW_DISCARD (R531). Discard slot. -/
  | fwDiscard (m : Msg)
  /-- FW_CONFIRM (R537). Confirm trial. -/
  | fwConfirm (m : Msg)
  /-- KEY_ENROL (R541). Enrol agent key. -/
  | keyEnrol (m : Msg)
  /-- KEY_REMOVE (R541). Remove agent. -/
  | keyRemove (m : Msg)
  /-- KEY_LIST (R531). List keys. -/
  | keyList (m : Msg)
  /-- ATTEST (R542). Attest module. -/
  | attest (m : Msg)
  /-- ATTEST_RUN (R542). Attest run. -/
  | attestRun (m : Msg)
  /-- IDENTITY_CERT (R531). Identity certificate. -/
  | identityCert (m : Msg)
  /-- SET_CAP_MAX (R489). Set cap_max. -/
  | setCapMax (m : Msg)
  /-- SET_VCORE (R486). Set core voltage. -/
  | setVcore (m : Msg)
  /-- MODULE_POWER (R489). Power off or on. -/
  | modulePower (m : Msg)
  /-- MODULE_RESET (R489). Reset module. -/
  | moduleReset (m : Msg)
  /-- DIE_RESET (R489). Reset die. -/
  | dieReset (m : Msg)
  /-- CLEAR_TRIP (R489). Clear trip. -/
  | clearTrip (m : Msg)
  /-- READ_TRIP_LOG (R490). Read trip log. -/
  | readTripLog (m : Msg)
  /-- PAIR_STATUS (R523). Pair status. -/
  | pairStatus (m : Msg)
  /-- FM_REGISTER (R522). Register fault manager. -/
  | fmRegister (m : Msg)
  /-- FAILOVER (R515). Pair failover. -/
  | failover (m : Msg)
  /-- RESYNC (R516). Resync partner. -/
  | resync (m : Msg)
  /-- RESTORE_PARTNER (R520). Restore partner. -/
  | restorePartner (m : Msg)
  /-- PAIR_UNFENCE (R518). Unfence. -/
  | pairUnfence (m : Msg)
  /-- DECLARE_LOST (R512). Declare partner lost. -/
  | declareLost (m : Msg)
  /-- METER_INFO (R504). Meter info. -/
  | meterInfo (m : Msg)
  /-- METER_READ (R504). Read meter record. -/
  | meterRead (m : Msg)
  /-- METER_PUBKEY (R504). Meter public key. -/
  | meterPubkey (m : Msg)
  /-- METER_CERT (R504). Meter certificate. -/
  | meterCert (m : Msg)
  /-- GATHER_COLLECT_DEADLINE (R232). The deadline of a collecting GATHER passes with ranks missing and the impression ends DEADLINE_MISSED with the missing-rank mask. -/
  | gatherCollectDeadline (eng : Port) (ctx : Nat) (now : Nat)
  /-- SHIFT_DEADLINE (R235). The deadline of a SHIFT passes and the ranks that have not sent are named as under R221. -/
  | shiftDeadline (eng : Port) (ctx : Nat) (now : Nat)
  /-- METER_REPLY (R504). A meter answer or record arrives at the hub over the meter link, completes a meter command, and ends a meter loss. -/
  | meterReply (a : MeterAnswer) (now : Nat)
  /-- METER_COMMAND_TIMEOUT (R504). A meter command not answered within 100 ms ends with METER_ABSENT. -/
  | meterCommandTimeout (now : Nat)
  /-- DIE_RESET_RELEASE (R489). After 100 µs the die's reset is released and its Pacor and clusters reload from the hub's verified copy. -/
  | dieResetRelease (die : Die) (now : Nat)
  /-- MODULE_RESET_RELEASE (R489). The 1 ms virtual RST_N low of MODULE_RESET ends and power-up starts from step 1. -/
  | moduleResetRelease (now : Nat)
  /-- RST_N_GLITCH (R488). RST_N returns high before a low has been accepted, and MGN_RST_GLITCH counts the ignored glitch. -/
  | rstNGlitch (now : Nat)
  /-- INJECTED_PARTNER_LOSS_END (R524). The duration of an injected PARTNER_LOST ends and the module drives its heartbeat and re-enables its mirror ports. -/
  | injectedPartnerLossEnd (now : Nat)
  deriving DecidableEq, Repr

end Sys2Proof
end

