-- ==== Sys2Proof/Decode.lean ====
section
/-! DEFINITION. The command that a word of the opcode table spells, and the fields of a slot word. -/

namespace Sys2Proof

/-- The opcode of a primary word (R166). -/
def opcodeOf (w : Word) : Byte := w.extractLsb' 24 8

/-- The fields of a slot word: its primary word, and the immediate of a 64-bit word (R164, R166). -/
def Fields.ofWord (w imm : Word) (wide : Bool) : Fields where
  d := w.extractLsb' 19 5
  a := w.extractLsb' 14 5
  b := w.extractLsb' 9 5
  c := w.extractLsb' 4 5
  mod := w.extractLsb' 0 4
  imm := imm
  wide := wide

/-- The command whose bits are w. The opcode table of this block gives no row any bits (its commands are events,
register accesses and messages, and the slot words of R166 carry operands that no single row numbers), so no word
spells a command. -/
def decodeTableWord (_nbits _w : Nat) : Option Instr := none

end Sys2Proof
end

