-- ==== Sys2Proof/Config.lean ====
section
/-! DEFINITION. What the spec leaves open or gives no way to compute: constants without a body, so that nothing in
Lean can evaluate them (log entries 9 and 10). -/

namespace Sys2Proof

/-- A free value: the n-th value that the spec leaves open in a run. The step advances n (log entry 9). -/
opaque Config.freeValue (n : Nat) : BitVec 64

/-- Does an Ed448 public key accept a signature over a message under a context string (R470, R495, R528)? The spec
names RFC 8032; the model leaves the verification open (log entry 10). -/
opaque Config.ed448Verify (key context message signature : List (BitVec 8)) : Bool

/-- The 114-byte Ed448 signature of a message by one of the module's own keys (R470, R495, R542), named by a label of
the key (log entry 10). -/
opaque Config.ed448Sign (keyName : String) (context message : List (BitVec 8)) : List (BitVec 8)

/-- The 57-byte public half of one of the module's own keys (log entry 10). -/
opaque Config.publicKey (keyName : String) : List (BitVec 8)

/-- The AES-GCM decryption of an image or record with its tag; none where the tag fails (R528, R534) (log entry 10). -/
opaque Config.aesOpen (keyName : String) (nonce aad cipher tag : List (BitVec 8)) : Option (List (BitVec 8))

/-- A certificate of the module's chain as issued at manufacture (R542, R504) (log entry 10). -/
opaque Config.certificate (name : String) : List (BitVec 8)

/-- The 32-byte digest of the image that a module leaves manufacture with, whose bytes the spec does not give (R527, R532)
(log entry 16). -/
opaque Config.factoryDigest : List (BitVec 8)

end Sys2Proof
end

