-- ==== Sys2Proof/Machine/Codes.lean ====
section
/-! DEFINITION. The status and fault codes of R469 and R525. -/

namespace Sys2Proof.Machine

/-- OK. -/
def Code.ok : BitVec 16 := 0x0000
/-- BUSY. -/
def Code.busy : BitVec 16 := 0x0001
/-- BAD_COMMAND. -/
def Code.badCommand : BitVec 16 := 0x0101
/-- BAD_ARGUMENT. -/
def Code.badArgument : BitVec 16 := 0x0102
/-- WRONG_STATE. -/
def Code.wrongState : BitVec 16 := 0x0103
/-- STEP_PASSED. -/
def Code.stepPassed : BitVec 16 := 0x0104
/-- RUN_RECORD_FULL. -/
def Code.runRecordFull : BitVec 16 := 0x0105
/-- NOT_AUTHORISED. -/
def Code.notAuthorised : BitVec 16 := 0x0106
/-- STALE_SEQUENCE. -/
def Code.staleSequence : BitVec 16 := 0x0107
/-- MEM_TIMEOUT. -/
def Code.memTimeout : BitVec 16 := 0x0108
/-- CMD_LOST. -/
def Code.cmdLost : BitVec 16 := 0x0109
/-- QUEUE_FULL. -/
def Code.queueFull : BitVec 16 := 0x010A
/-- STAGE_BUSY. -/
def Code.stageBusy : BitVec 16 := 0x010B
/-- START_TIMEOUT. -/
def Code.startTimeout : BitVec 16 := 0x010C
/-- PLATE_PART_ORDER. -/
def Code.platePartOrder : BitVec 16 := 0x010D
/-- NOT_RELAYABLE. -/
def Code.notRelayable : BitVec 16 := 0x010E
/-- RELAY_UNREACHABLE. -/
def Code.relayUnreachable : BitVec 16 := 0x010F
/-- MAPPING_ABORTED. -/
def Code.mappingAborted : BitVec 16 := 0x0110
/-- RELAY_TIMEOUT. -/
def Code.relayTimeout : BitVec 16 := 0x0111
/-- PLATE_INVALID. -/
def Code.plateInvalid : BitVec 16 := 0x0201
/-- PLATE_MAP_MISMATCH. -/
def Code.plateMapMismatch : BitVec 16 := 0x0202
/-- PLATE_FIRMWARE_MISMATCH. -/
def Code.plateFirmwareMismatch : BitVec 16 := 0x0203
/-- PLATE_COMMON_MISMATCH. -/
def Code.plateCommonMismatch : BitVec 16 := 0x0204
/-- PLATE_COUNTER_CONFLICT. -/
def Code.plateCounterConflict : BitVec 16 := 0x0205
/-- PLATE_WINDOW_CONFLICT. -/
def Code.plateWindowConflict : BitVec 16 := 0x0206
/-- HATCH_REJECTED. -/
def Code.hatchRejected : BitVec 16 := 0x0207
/-- HATCH_CONFLICT. -/
def Code.hatchConflict : BitVec 16 := 0x0208
/-- ROUTE_INVALID. -/
def Code.routeInvalid : BitVec 16 := 0x0209
/-- ROUTE_IN_USE. -/
def Code.routeInUse : BitVec 16 := 0x020A
/-- PLATE_BARRIER_CONFLICT. -/
def Code.plateBarrierConflict : BitVec 16 := 0x020B
/-- SCHEDULE_HAZARD. -/
def Code.scheduleHazard : BitVec 16 := 0x0301
/-- ABSENT_ENGINE. -/
def Code.absentEngine : BitVec 16 := 0x0302
/-- ILLEGAL_INSTRUCTION. -/
def Code.illegalInstruction : BitVec 16 := 0x0303
/-- ALIGNMENT_FAULT. -/
def Code.alignmentFault : BitVec 16 := 0x0304
/-- ACCESS_FAULT. -/
def Code.accessFault : BitVec 16 := 0x0305
/-- TILE_DESCRIPTOR_INVALID. -/
def Code.tileDescriptorInvalid : BitVec 16 := 0x0306
/-- STIPPLE_DESCRIPTOR_INVALID. -/
def Code.stippleDescriptorInvalid : BitVec 16 := 0x0307
/-- LOOP_OVERFLOW. -/
def Code.loopOverflow : BitVec 16 := 0x0308
/-- MOVE_QUEUE_FULL. -/
def Code.moveQueueFull : BitVec 16 := 0x0309
/-- STREAM_QUEUE_FULL. -/
def Code.streamQueueFull : BitVec 16 := 0x030A
/-- COUNTER_NOT_OWNED. -/
def Code.counterNotOwned : BitVec 16 := 0x030B
/-- BARRIER_UNDEFINED. -/
def Code.barrierUndefined : BitVec 16 := 0x030C
/-- BUFFER_NOT_OWNER. -/
def Code.bufferNotOwner : BitVec 16 := 0x030D
/-- SKIPPED. -/
def Code.skipped : BitVec 16 := 0x0401
/-- DEADLINE_MISSED. -/
def Code.deadlineMissed : BitVec 16 := 0x0402
/-- SUM_NOT_FINITE. -/
def Code.sumNotFinite : BitVec 16 := 0x0403
/-- STATE_MISMATCH. -/
def Code.stateMismatch : BitVec 16 := 0x0404
/-- STREAM_DESCRIPTOR_INVALID. -/
def Code.streamDescriptorInvalid : BitVec 16 := 0x0405
/-- ABORTED. -/
def Code.aborted : BitVec 16 := 0x0406
/-- STATE_LIMIT. -/
def Code.stateLimit : BitVec 16 := 0x0407
/-- ORPHANED. -/
def Code.orphaned : BitVec 16 := 0x0408
/-- STATE_GONE. -/
def Code.stateGone : BitVec 16 := 0x0409
/-- STATE_AHEAD. -/
def Code.stateAhead : BitVec 16 := 0x040A
/-- SRAM_UNCORRECTABLE. -/
def Code.sramUncorrectable : BitVec 16 := 0x0501
/-- DRAM_UNCORRECTABLE. -/
def Code.dramUncorrectable : BitVec 16 := 0x0502
/-- FETCH_UNCORRECTABLE. -/
def Code.fetchUncorrectable : BitVec 16 := 0x0503
/-- DRAM_ROW_DEGRADED. -/
def Code.dramRowDegraded : BitVec 16 := 0x0504
/-- COUNTER_UNDERFLOW. -/
def Code.counterUnderflow : BitVec 16 := 0x0601
/-- COUNTER_OVERFLOW. -/
def Code.counterOverflow : BitVec 16 := 0x0602
/-- BARRIER_OVERRUN. -/
def Code.barrierOverrun : BitVec 16 := 0x0603
/-- BPM_ADVANCE_INVALID. -/
def Code.bpmAdvanceInvalid : BitVec 16 := 0x0604
/-- BPM_AREA_BUSY. -/
def Code.bpmAreaBusy : BitVec 16 := 0x0605
/-- PROOF_DIVERGED. -/
def Code.proofDiverged : BitVec 16 := 0x0606
/-- PROOF_PARTNER_LOST. -/
def Code.proofPartnerLost : BitVec 16 := 0x0607
/-- FENCED. -/
def Code.fenced : BitVec 16 := 0x0608
/-- LINK_DOWN. -/
def Code.linkDown : BitVec 16 := 0x0701
/-- LANE_FAILED. -/
def Code.laneFailed : BitVec 16 := 0x0702
/-- WIDTH_CHANGED. -/
def Code.widthChanged : BitVec 16 := 0x0703
/-- RETRY_EXHAUSTED. -/
def Code.retryExhausted : BitVec 16 := 0x0704
/-- VERSION_MISMATCH. -/
def Code.versionMismatch : BitVec 16 := 0x0705
/-- ROLE_MISMATCH. -/
def Code.roleMismatch : BitVec 16 := 0x0706
/-- FRAME_CRC. -/
def Code.frameCrc : BitVec 16 := 0x0707
/-- TIME_SKEW. -/
def Code.timeSkew : BitVec 16 := 0x0708
/-- TIME_OFFSET. -/
def Code.timeOffset : BitVec 16 := 0x0709
/-- NEIGHBOUR_MISMATCH. -/
def Code.neighbourMismatch : BitVec 16 := 0x070A
/-- ROUTE_LOST. -/
def Code.routeLost : BitVec 16 := 0x070B
/-- DRAIN_TIMEOUT. -/
def Code.drainTimeout : BitVec 16 := 0x070C
/-- C0_BOUND_EXCEEDED. -/
def Code.c0BoundExceeded : BitVec 16 := 0x070D
/-- RATE_YIELDED. -/
def Code.rateYielded : BitVec 16 := 0x070E
/-- RATE_RESTORED. -/
def Code.rateRestored : BitVec 16 := 0x070F
/-- SIGNAL_MISMATCH. -/
def Code.signalMismatch : BitVec 16 := 0x0710
/-- METER_LOST. -/
def Code.meterLost : BitVec 16 := 0x0711
/-- PARTNER_SUSPECT. -/
def Code.partnerSuspect : BitVec 16 := 0x0901
/-- PAIR_TABLE_MISMATCH. -/
def Code.pairTableMismatch : BitVec 16 := 0x0902
/-- PAIR_NOT_READY. -/
def Code.pairNotReady : BitVec 16 := 0x0903
/-- RECOVERY_DONE. -/
def Code.recoveryDone : BitVec 16 := 0x0904
/-- RECOVERY_FAILED. -/
def Code.recoveryFailed : BitVec 16 := 0x0905
/-- FAILOVER_DONE. -/
def Code.failoverDone : BitVec 16 := 0x0906
/-- RESYNC_DONE. -/
def Code.resyncDone : BitVec 16 := 0x0907
/-- RESTORE_DONE. -/
def Code.restoreDone : BitVec 16 := 0x0908
/-- INJ_OVERFLOW. -/
def Code.injOverflow : BitVec 16 := 0x0909
/-- INJ_DROP_RANK. -/
def Code.injDropRank : BitVec 16 := 0x090A
/-- TRIP_OVERCURRENT. -/
def Code.tripOvercurrent : BitVec 16 := 0x0801
/-- TRIP_VIN_HIGH. -/
def Code.tripVinHigh : BitVec 16 := 0x0802
/-- TRIP_VCORE. -/
def Code.tripVcore : BitVec 16 := 0x0803
/-- TRIP_THERMAL. -/
def Code.tripThermal : BitVec 16 := 0x0804
/-- TRIP_POWER. -/
def Code.tripPower : BitVec 16 := 0x0805
/-- TRIP_SEQUENCE. -/
def Code.tripSequence : BitVec 16 := 0x0806
/-- VIN_LOW. -/
def Code.vinLow : BitVec 16 := 0x0811
/-- THROTTLE_POWER. -/
def Code.throttlePower : BitVec 16 := 0x0812
/-- THROTTLE_THERMAL. -/
def Code.throttleThermal : BitVec 16 := 0x0813
/-- RESET_REQUESTED. -/
def Code.resetRequested : BitVec 16 := 0x0814
/-- TIME_INVALID. -/
def Code.timeInvalid : BitVec 16 := 0x0815
/-- PPS_REJECTED. -/
def Code.ppsRejected : BitVec 16 := 0x0821
/-- PPS_LOST. -/
def Code.ppsLost : BitVec 16 := 0x0822
/-- PTP_LOST. -/
def Code.ptpLost : BitVec 16 := 0x0823
/-- HOLDOVER_ENTERED. -/
def Code.holdoverEntered : BitVec 16 := 0x0824
/-- HOLDOVER_LEFT. -/
def Code.holdoverLeft : BitVec 16 := 0x0825
/-- PARTNER_LOST. -/
def Code.partnerLost : BitVec 16 := 0x0826
/-- PARTNER_SEEN. -/
def Code.partnerSeen : BitVec 16 := 0x0827
/-- PARTNER_HB_NOISY. -/
def Code.partnerHbNoisy : BitVec 16 := 0x0828
/-- SEQUENCE_DONE. -/
def Code.sequenceDone : BitVec 16 := 0x0829
/-- SERVICE_PORT_ONLY. -/
def Code.servicePortOnly : BitVec 16 := 0x0A01
/-- FW_MALFORMED. -/
def Code.fwMalformed : BitVec 16 := 0x0A02
/-- FW_ROLLBACK. -/
def Code.fwRollback : BitVec 16 := 0x0A03
/-- FW_SIGNATURE_BAD. -/
def Code.fwSignatureBad : BitVec 16 := 0x0A04
/-- FW_TAG_BAD. -/
def Code.fwTagBad : BitVec 16 := 0x0A05
/-- FW_FALLBACK. -/
def Code.fwFallback : BitVec 16 := 0x0A06
/-- FW_CONFIRMED. -/
def Code.fwConfirmed : BitVec 16 := 0x0A07
/-- KEY_STORE_FULL. -/
def Code.keyStoreFull : BitVec 16 := 0x0A08
/-- KEY_UNKNOWN. -/
def Code.keyUnknown : BitVec 16 := 0x0A09
/-- METER_ABSENT. -/
def Code.meterAbsent : BitVec 16 := 0x0AC1
/-- METER_GONE. -/
def Code.meterGone : BitVec 16 := 0x0AC2
/-- SEAL_BROKEN. -/
def Code.sealBroken : BitVec 16 := 0x0AC3

end Sys2Proof.Machine
end

