-- ==== Sys2Proof/Machine/Table.lean ====
section
/-! DEFINITION. Sparse tables and byte memory as plain data in canonical form: keys strictly rising, and no entry
equal to what an unlisted key reads as. -/

namespace Sys2Proof.Machine

/-- A sparse table: the entries that differ from the table's reset entry, by rising key. -/
abbrev Table (α : Type) := List (Nat × α)

/-- The entry at key k; d where the table lists none. -/
def Table.get {α : Type} (d : α) (k : Nat) : Table α → α
  | [] => d
  | (j, v) :: t => if j = k then v else Table.get d k t

/-- A table without its entry at key k. -/
def Table.drop {α : Type} (k : Nat) (t : Table α) : Table α := t.filter fun e => e.1 != k

/-- Put an entry before the first greater key. -/
def Table.put {α : Type} (k : Nat) (v : α) : Table α → Table α
  | [] => [(k, v)]
  | (j, w) :: t => if k < j then (k, v) :: (j, w) :: t else (j, w) :: Table.put k v t

/-- Put v at key k; putting the reset entry d takes the key out of the list. -/
def Table.set {α : Type} [DecidableEq α] (d : α) (k : Nat) (v : α) (t : Table α) : Table α :=
  if v = d then Table.drop k t else Table.put k v (Table.drop k t)

/-- The canonical form: keys strictly rising from lo, no entry equal to d. -/
def Table.wfFrom {α : Type} [DecidableEq α] (d : α) (lo : Nat) : Table α → Bool
  | [] => true
  | (j, v) :: t => decide (lo ≤ j) && decide (v ≠ d) && Table.wfFrom d (j + 1) t

/-- The canonical form of a whole table. -/
def Table.wf {α : Type} [DecidableEq α] (d : α) (t : Table α) : Bool := Table.wfFrom d 0 t

/-- Byte memory over module addresses (R187), or over staging offsets (R464). -/
abbrev Memory := List Host.Cell

/-- What a byte that nothing has written reads as. DESIGN CHOICE (log entry 2): the manual gives no contents at
power-on; unsafe. -/
def Memory.blank : Byte := 0

/-- The byte at address a. -/
def Memory.read (a : Nat) (m : Memory) : Byte := Table.get Memory.blank a m

/-- Store byte v at address a. -/
def Memory.write (a : Nat) (v : Byte) (m : Memory) : Memory := Table.set Memory.blank a v m

/-- The canonical form of memory. -/
def Memory.wf (m : Memory) : Bool := Table.wf Memory.blank m

/-- The n bytes from address a upward. -/
def Memory.readN (a : Nat) : Nat → Memory → List Byte
  | 0, _ => []
  | n + 1, m => Memory.read a m :: Memory.readN (a + 1) n m

/-- Store a list of bytes from address a upward. -/
def Memory.writeN (a : Nat) : List Byte → Memory → Memory
  | [], m => m
  | b :: bs, m => Memory.writeN (a + 1) bs (Memory.write a b m)

end Sys2Proof.Machine
end

