-- ==== Sys2Proof/Machine/State.lean ====
section
/-! DEFINITION. The state of one AX9 module as plain data, its parts in the order of INVENTORY.md, the state right
after reset, and the reasons for which a command can stop the model. -/

namespace Sys2Proof.Machine

/-! ## Shared pieces -/

/-- The sticky numeric flags (R72). -/
structure NFlags where
  nv : Bool
  ov : Bool
  uz : Bool
  deriving DecidableEq, Repr

/-- No flag set. -/
def NFlags.none : NFlags := ⟨false, false, false⟩

/-- The fuse values (R11). FUSE_MAP_COUNT is the number of set map bits. -/
structure Fuse where
  grade      : BitVec 4
  revLetter  : Byte
  revDigit   : Byte
  portOff    : DWord
  clusterOff : BitVec 256
  deriving DecidableEq, Repr

/-! ## Clusters (06, 07) -/

/-- The conversion context cx (R162). -/
structure Cx where
  tensor : Word
  step   : Word
  rank   : BitVec 12
  use    : Byte
  deriving DecidableEq, Repr

/-- An entry of the loop stack (R162, R173): offset of the body's first bundle, offset of its last bundle, and the
remaining count. -/
structure LoopEntry where
  first  : Nat
  last   : Nat
  count  : DWord
  deriving DecidableEq, Repr

/-- A slot word of a bundle: its slot (0 to 5, R163), its opcode and its fields (R166). -/
structure SlotWord where
  slot : Nat
  op   : Byte
  f    : Fields
  deriving DecidableEq, Repr

/-- A bundle: its slot words in the order given, idle_after, and the wide bits that its header sets for absent slots (R163,
R165). -/
structure Bundle where
  words : List SlotWord
  idle  : BitVec 4
  wide0 : BitVec 6
  deriving DecidableEq, Repr

/-- Where a result lands (R168). -/
inductive Target where
  | x (r : BitVec 5) (v : DWord)
  | f (r : BitVec 5) (v : Word)
  | v (r : BitVec 5) (lanes : List Word) (mask : BitVec 512)
  | m (r : BitVec 3) (v mask : BitVec 512)
  | cx (v : Cx)
  | sram (addr : Nat) (bytes : List Byte)
  | vst (addr : Nat) (fmt : BitVec 4) (lanes : List Word) (mask : BitVec 512)
  deriving DecidableEq, Repr

/-- A result that has not landed: the step at whose end it lands, the slot it came from, its targets, and the flags
that the operation raised (R168, R175). -/
structure InFlight where
  land    : Nat
  slot    : Nat
  targets : List Target
  flags   : NFlags
  deriving DecidableEq, Repr

/-- A tile operation in progress (R152, R183, R193): issue step, issue length, the C tile's place and size, the
operand spans, the stall steps of R111 not yet counted (by step of the tile), and the C values that will be written. -/
structure Tile where
  issue  : Nat
  len    : Nat
  cAddr  : Nat
  rows   : Nat
  cols   : Nat
  spans  : List (Nat × Nat)
  stalls : List (Nat × Nat)
  c      : List (List Word)
  flags  : NFlags
  seq    : Nat
  deriving DecidableEq, Repr

/-- The impression that a unit runs (R250, R317): job, impression id, step, schedule entry, start time. -/
structure ImprRef where
  job   : JobNo
  id    : Word
  step  : Word
  entry : Nat
  start : Nat
  deriving DecidableEq, Repr

/-- A move outstanding (R188, R189, R509). acksDue counts the MIRROR_ACKs still missing. -/
structure MoveOut where
  src       : DWord
  dst       : DWord
  len       : Nat
  counter   : CounterName
  inc       : Byte
  impr      : ImprRef
  seq       : Nat
  mirrored  : Bool
  shard     : Word
  copied    : Bool
  acksDue   : List Nat
  deriving DecidableEq, Repr

/-- A fault record (R200). -/
structure FaultRec where
  number   : Byte
  injected : Bool
  more     : Bool
  slot     : BitVec 3
  code     : BitVec 16
  job      : JobNo
  cls      : BitVec 4
  cluster  : ClusterId
  step     : DWord
  pc       : Word
  detail   : Word
  time     : DWord
  deriving DecidableEq, Repr

/-- A fault that a cluster takes at its next step boundary (R150): code, code offset, slot, record class, detail,
injected. -/
structure DueFault where
  code     : BitVec 16
  pc       : Word
  slot     : BitVec 3
  cls      : BitVec 4
  detail   : Word
  injected : Bool
  deriving DecidableEq, Repr

/-- How the impression of a cluster ends once all that it has issued has landed: with a halt code, or with a fault (R155, R198). -/
inductive Ending where
  | halt (code : BitVec 16)
  | fault (r : FaultRec)
  deriving DecidableEq, Repr

/-- The states of a graver core (R154). ABSENT follows from the fuses. -/
inductive GState where
  | idle
  | running
  | held
  | halted
  deriving DecidableEq, Repr

/-- The causes for which a step is held (R139), with the codes of R160. -/
inductive HoldCause where
  | none
  | sync
  | gate
  | buffer
  | fetch
  | array
  | bank
  deriving DecidableEq, Repr

/-- One cluster (R138, R154, R160, R162). ending is set while an impression that issues nothing more completes what it has issued
(R155, R198), snap is the status block at the start of the step (R176), refreshTill is when the DRAM access that a refresh delayed goes on
(R268), imprStall counts the stall steps of the impression (R112), and
accesses holds the internal accesses of the step so far, each as the ranges that it touches (R145). -/
structure Cluster where
  x            : Table DWord
  f            : Table Word
  v            : Table (Table Word)
  m            : Table (BitVec 512)
  cx           : Cx
  pc           : Word
  loops        : List LoopEntry
  forming      : List SlotWord
  fetchQ       : List Bundle
  gstate       : GState
  holdCause    : HoldCause
  waitDone     : Option Byte
  gateDone     : Bool
  startGate    : Option Nat
  grant        : Option DWord
  waitDeadline : Option Nat
  job          : JobNo
  impr         : Option ImprRef
  stepCount    : Nat
  bundleCount  : Nat
  arrayStall   : Nat
  conflict     : Nat
  fetchNs      : Nat
  syncNs       : Nat
  gateNs       : Nat
  bufferNs     : Nat
  activeNs     : Nat
  sramCorrected : Nat
  icacheRefetch : Nat
  stepCap      : BitVec 16
  temp         : BitVec 16
  flags        : NFlags
  inflight     : List InFlight
  lastIssue    : Table Nat
  tiles        : List Tile
  lastTile     : Option Tile
  signSeq      : Nat
  nextIssue    : Nat
  issuedAt     : Option Nat
  lastStepEnd  : Nat
  icache       : Table (List Nat)
  iwait        : List Nat
  codeBase     : DWord
  codeLen      : Nat
  poolBase     : Nat
  moves        : List MoveOut
  faultRec     : Option FaultRec
  dueFault     : Option DueFault
  haltCode     : BitVec 16
  fetchBad     : List (Nat × Bool)
  accesses     : List (List (Nat × Nat))
  ending       : Option Ending
  snap         : List Byte
  imprStall    : Nat
  refreshTill  : Nat
  deriving DecidableEq, Repr

/-- A cluster right after module reset: the status block of R160 at its reset values; the registers of R162 at zero
(DESIGN CHOICE, log entry 3: the manual clears them at job start only, R149); no impression, empty cache. -/
def Cluster.reset : Cluster where
  x := []
  f := []
  v := []
  m := []
  cx := ⟨0, 0, 0, 0⟩
  pc := 0
  loops := []
  forming := []
  fetchQ := []
  gstate := .idle
  holdCause := .none
  waitDone := none
  gateDone := false
  startGate := none
  grant := none
  waitDeadline := none
  job := 0
  impr := none
  stepCount := 0
  bundleCount := 0
  arrayStall := 0
  conflict := 0
  fetchNs := 0
  syncNs := 0
  gateNs := 0
  bufferNs := 0
  activeNs := 0
  sramCorrected := 0
  icacheRefetch := 0
  stepCap := 85
  temp := 0
  flags := NFlags.none
  inflight := []
  lastIssue := []
  tiles := []
  lastTile := none
  signSeq := 0
  nextIssue := 0
  issuedAt := none
  lastStepEnd := 0
  icache := []
  iwait := []
  codeBase := 0
  codeLen := 0
  poolBase := 0x800000
  moves := []
  faultRec := none
  dueFault := none
  haltCode := 0
  fetchBad := []
  accesses := []
  ending := none
  snap := []
  imprStall := 0
  refreshTill := 0

/-! ## Stream engines (08) -/

/-- A stream descriptor (R206, R210): its sixteen 8-byte words. -/
structure Desc where
  w : List DWord
  deriving DecidableEq, Repr

/-- A descriptor in a launch queue (R202): acceptance time, the ledger step (R317), whether the Pacor launched it, and
the schedule entry that it serves. -/
structure QEntry where
  desc     : Desc
  accepted : Nat
  step     : Word
  entry    : Option Nat
  deriving DecidableEq, Repr

/-- What a stream context does next (R203, R222). -/
inductive CtxPhase where
  | collecting
  | summed
  | replay
  | voting
  | outcome
  | sending
  | waitReads
  deriving DecidableEq, Repr

/-- A received PERMUTE block (R236, R237): destination block index, source rank, source block, bytes. -/
structure PBlock where
  index    : Nat
  srcRank  : Nat
  srcBlock : Nat
  bytes    : List Byte
  units    : List Nat
  deriving DecidableEq, Repr

/-- The absmax record that a REDUCE will store (R115): per unit and for the tensor, with the scales used. -/
structure AbsRec where
  units  : List (Word × Byte)
  tensor : Word
  coarse : Byte
  deriving DecidableEq, Repr

/-- A context of a stream engine (R203 to R243). norms holds n_r by ordinal; closing is the code, with the action of a REDUCE's overflow
event, with which the impression ends once the last frame of its results has left (R214); aff lists the elements that an overflow affects (R136), ascending; ofStage says that
a stage of R125 has set of (R130, R131). -/
structure Ctx where
  id           : Nat
  desc         : Desc
  accepted     : Nat
  start        : Nat
  step         : Word
  entry        : Option Nat
  phase        : CtxPhase
  mask         : List Nat
  units        : List (Nat × Nat)
  added        : Nat
  norms        : Table Word
  s1           : Word
  s2           : Word
  count        : Nat
  flags        : NFlags
  stages       : BitVec 4
  injected     : Bool
  stray        : Nat
  dup          : Nat
  late         : Nat
  replays      : Nat
  arrived      : Nat
  result       : Nat
  aux0         : Nat
  aux1         : Nat
  contribNs    : Nat
  bufferNs     : Nat
  backpressNs  : Nat
  gateNs       : Nat
  firstArrival : Bool
  held         : List Frame
  requests     : List Frame
  serving      : Option Word
  blocks       : List PBlock
  granules     : List DWord
  sent         : Nat
  readsDone    : Bool
  payloads     : List (Nat × List Byte)
  rung         : BitVec 4
  absrec       : Option AbsRec
  aff          : List Nat
  ofStage      : Bool
  vote         : Bool
  outcome      : Option (Byte × Bool)
  signSeq      : Nat
  closing      : Option (BitVec 16 × BitVec 4)
  deriving DecidableEq, Repr

/-- A slot set held after its REDUCE (R129, R224). -/
structure HeldSet where
  job    : JobNo
  shard  : Word
  tensor : Word
  parity : Bool
  deriving DecidableEq, Repr

/-- Units staged for step s + 1 with the layout that staged them (R40, R217). -/
structure StagedSet where
  job    : JobNo
  shard  : Word
  tensor : Word
  step   : Word
  mask   : List Nat
  layout : List DWord
  units  : List (Nat × Nat)
  payloads : List (Nat × List Byte)
  deriving DecidableEq, Repr

/-- One stream engine (R201 to R205). refreshTill is when a DRAM access that a refresh delayed goes on (R268). -/
structure Engine where
  queue     : List QEntry
  pacorWait : List (QEntry × DWord)
  ctxs      : List Ctx
  stray     : Nat
  held      : List Frame
  statsW    : Table Nat
  heldSets  : List HeldSet
  staged    : List StagedSet
  lastGate  : Table Nat
  refreshTill : Nat
  deriving DecidableEq, Repr

/-- An engine right after reset: nothing queued, no context active. -/
def Engine.reset : Engine := ⟨[], [], [], 0, [], [], [], [], [], 0⟩

/-! ## Dies (10, 11, 12, 16, 17, 18) -/

/-- A counter (R293). -/
structure Counter where
  job       : JobNo
  cause     : BitVec 4
  orphaned  : Bool
  underflow : Bool
  overflow  : Bool
  value     : Word
  deriving DecidableEq, Repr

/-- A counter right after reset. -/
def Counter.reset : Counter := ⟨0, 0, false, false, false, 0⟩

/-- The tail tag that a pending-signal entry keeps (R278, R280). -/
structure SigTag where
  counter   : CounterName
  inc       : BitVec 16
  announced : Word
  deriving DecidableEq, Repr

/-- A pending-signal entry (R280). -/
structure PstEntry where
  job      : JobNo
  rank     : Rank
  transfer : BitVec 16
  tally    : Nat
  tag      : Option SigTag
  updated  : Nat
  deriving DecidableEq, Repr

/-- A report to the die of a signal's counter that a frame of the transfer has committed on another die, or that the first frame of a new
transfer waits for an entry of the table (R280, R282). -/
structure CommitRep where
  job      : JobNo
  rank     : Rank
  transfer : BitVec 16
  bytes    : Nat
  tag      : Option SigTag
  deriving DecidableEq, Repr

/-- The state of a granule record (R302). -/
inductive GranState where
  | free
  | held
  | wire
  deriving DecidableEq, Repr

/-- A granule's ownership record (R302). The last owner is the releaser. -/
structure GranRec where
  st     : GranState
  job    : JobNo
  owners : List Nat
  deriving DecidableEq, Repr

/-- A granule that nobody holds. -/
def GranRec.reset : GranRec := ⟨.free, 0, []⟩

/-- A waiting granule request (R301); stack is the one in which a shadow must lie (R516). -/
structure GranReq where
  owner : Nat
  dram  : Bool
  job   : JobNo
  stack : Option (BitVec 5)
  deriving DecidableEq, Repr

/-- A mailbox (R453). -/
structure Mailbox where
  seq     : BitVec 16
  code    : BitVec 16
  doneSeq : BitVec 16
  status  : BitVec 16
  job     : JobNo
  detail  : Byte
  resLen  : BitVec 16
  args    : Table Word
  res     : Table Word
  owned   : Bool
  deriving DecidableEq, Repr

/-- A mailbox right after reset (R453). -/
def Mailbox.reset : Mailbox := ⟨0, 0, 0, 0, 0, 0, 0, [], [], false⟩

/-- A read-combining entry (R427): job, window, line offset, its readers' requests, and when it closes. -/
structure Combine where
  job     : JobNo
  window  : BitVec 12
  offset  : Word
  readers : List Frame
  closes  : Nat
  deriving DecidableEq, Repr

/-- A command whose go a Pacor control processor has accepted: its mailbox, 16 for a message that came in none, its
code and its message (R454, R455). -/
structure Going where
  mbx  : Nat
  code : BitVec 16
  msg  : Msg
  deriving DecidableEq, Repr

/-- A remote line access of a Pacor control processor that awaits its reply (R432). -/
structure RemoteOut where
  tag    : Word
  write  : Bool
  mbx    : Nat
  msg    : Msg
  code   : BitVec 16
  sent   : Nat
  deriving DecidableEq, Repr

/-- A memory fault record (R444). -/
structure MemFault where
  code      : BitVec 16
  stack     : BitVec 5
  channel   : BitVec 4
  bank      : BitVec 4
  scrub     : Bool
  injected  : Bool
  row       : BitVec 18
  col       : BitVec 11
  address   : DWord
  requester : BitVec 16
  job       : JobNo
  time      : DWord
  deriving DecidableEq, Repr

/-- A DRAM stack (R439, R440, R445, R450): blocked says until when the slot of a bank lasts, chanTill until when the queue of a channel
stands behind a blocked bank, slotLast when the last slot of a bank began. -/
structure Stack where
  hot          : Bool
  temp         : BitVec 16
  degradedRows : Nat
  bytesRead    : Nat
  bytesWritten : Nat
  corrected    : Nat
  uncorrectable : Nat
  scrubPasses  : Nat
  refreshNs    : Nat
  merges       : Nat
  rowCounts    : Table Nat
  scrubNext    : Table Nat
  passes       : Table Nat
  blocked      : Table Nat
  chanTill     : Table Nat
  slotLast     : Table Nat
  spared       : List Nat
  deriving DecidableEq, Repr

/-- A stack right after reset (R450). -/
def Stack.reset : Stack := ⟨false, 0, 0, 0, 0, 0, 0, 0, 0, 0, [], [], [], [], [], [], []⟩

/-- A signature entry with the time at which it was made or received, whether it has left for the partner, and whether an injection has
changed it (R327 to R329). -/
structure SigHeld where
  e    : SigEntry
  job  : JobNo
  time : Nat
  sent : Bool
  inj  : Bool
  deriving DecidableEq, Repr

/-- What belongs to one quadrant die. statRings holds, by ring address, the entries of a statistics ring that hold records, oldest first,
each with the job that wrote it (R137, R462). inReset says that its reset is asserted, held that a power-down or a trip asserted it, until
the release of step 4 of R477. -/
structure DieState where
  counters     : Table Counter
  pst          : List PstEntry
  reports      : List CommitRep
  pstPeak      : Nat
  sigMismatch  : Nat
  sigDiscarded : Nat
  sigCombined  : Nat
  rings        : Table (List DWord)
  caches       : Table (List DWord)
  grans        : Table GranRec
  waiters      : List GranReq
  notOwner     : Nat
  stateGone    : Nat
  mbx          : Table Mailbox
  done         : BitVec 16
  busy         : BitVec 16
  queue        : List (BitVec 16 × Msg)
  going        : List Going
  memReads     : Nat
  memWrites    : Nat
  memCombined  : Nat
  memRefused   : Nat
  memNoJob     : Nat
  combineFull  : Nat
  combines     : List Combine
  remote       : List RemoteOut
  remoteSeq    : Nat
  memFaults    : List MemFault
  stk          : Table Stack
  sigOwn       : List SigHeld
  sigPartner   : List SigHeld
  statRings    : Table (List (Nat × Nat))
  inReset      : Bool
  held         : Bool
  resetAt      : Nat
  deriving DecidableEq, Repr

/-- A die right after reset: every register of R293, R310, R434 and R453 at its reset value. -/
def DieState.reset : DieState where
  counters := []
  pst := []
  reports := []
  pstPeak := 0
  sigMismatch := 0
  sigDiscarded := 0
  sigCombined := 0
  rings := []
  caches := []
  grans := []
  waiters := []
  notOwner := 0
  stateGone := 0
  mbx := []
  done := 0
  busy := 0
  queue := []
  going := []
  memReads := 0
  memWrites := 0
  memCombined := 0
  memRefused := 0
  memNoJob := 0
  combineFull := 0
  combines := []
  remote := []
  remoteSeq := 0
  memFaults := []
  stk := []
  sigOwn := []
  sigPartner := []
  statRings := []
  inReset := false
  held := false
  resetAt := 0

/-! ## Plates and jobs (09, 12, 18) -/

/-- A rank-list entry (R247). -/
structure RankEntry where
  kind   : BitVec 2
  module : BitVec 9
  port   : BitVec 6
  deriving DecidableEq, Repr

/-- A shard-table entry (R251). -/
structure ShardEntry where
  shard  : Word
  owner  : Nat
  region : BitVec 5
  engine : Bool
  group  : Nat
  dpMask : Nat
  deriving DecidableEq, Repr

/-- A mapping (R253): shard table, groups and participant masks as rank lists. -/
structure Mapping where
  shards : List ShardEntry
  groups : List (List Nat)
  masks  : List (List Nat)
  deriving DecidableEq, Repr

/-- An entry of a hatch list (R399). -/
structure HatchEntry where
  duration : Nat
  gates    : BitVec 5
  budget   : Nat
  deriving DecidableEq, Repr

/-- A hatch list (R399). -/
structure Hatch where
  phase   : Nat
  cycle   : Nat
  entries : List HatchEntry
  gated   : DWord
  deriving DecidableEq, Repr

/-- A barrier definition (R286). -/
structure BarDef where
  slot     : BitVec 6
  kind     : BitVec 2
  local_   : Nat
  root     : Nat
  done     : CounterName
  mask     : List Nat
  deadline : Nat
  outcome  : DWord
  deriving DecidableEq, Repr

/-- A schedule entry (R249). -/
structure SchedEntry where
  mapping    : BitVec 4
  startGate  : BitVec 12
  target     : Byte
  kind       : BitVec 2
  collective : BitVec 16
  first      : Nat
  last       : Nat
  address    : DWord
  deriving DecidableEq, Repr

/-- A counter-table entry (R270). -/
structure CounterEntry where
  name    : CounterName
  cause   : BitVec 4
  initial : Word
  deriving DecidableEq, Repr

/-- A share-list entry (R303). -/
structure ShareEntry where
  address : DWord
  dram    : Bool
  owners  : List Nat
  deriving DecidableEq, Repr

/-- A window (R417). -/
structure Window where
  number  : BitVec 12
  job     : JobNo
  rd      : Bool
  wr      : Bool
  combine : Bool
  base    : DWord
  size    : Nat
  deriving DecidableEq, Repr

/-- A mirror-table entry (R508). -/
structure MirrorEntry where
  hold    : Bool
  job     : JobNo
  shard   : Word
  base    : DWord
  length  : Nat
  sealed  : CounterName
  deriving DecidableEq, Repr

/-- A wire area of a shard record (R306). -/
structure Area where
  st      : Word
  valid   : Bool
  retired : Bool
  filling : Bool
  gen     : Word
  deriving DecidableEq, Repr

/-- A shard record (R306), with the pins of R309: replies that read each area, and releases that fall due meanwhile; and
the advances that wait for signatures in proof mode (R325). -/
structure Shard where
  shard    : Word
  st       : Word
  job      : JobNo
  hold     : Nat
  relSlot  : BitVec 6
  advance  : CounterName
  release  : CounterName
  wireBase : DWord
  areaSize : Nat
  areas    : List Area
  readers  : List Nat
  relDue   : List Nat
  advDue   : Nat
  deriving DecidableEq, Repr

/-- A plate section that is placed in memory or in a cluster: type, index, contents and destination (R464). -/
structure Image where
  type  : Byte
  index : Word
  dest  : DWord
  bytes : List Byte
  deriving DecidableEq, Repr

/-- A loaded plate (R245, R464). -/
structure Plate where
  job        : JobNo
  seed       : DWord
  firmware   : DWord
  mode       : BitVec 4
  mappingsN  : Nat
  digest     : BitVec 256
  module     : BitVec 9
  portOff    : DWord
  clusterOff : BitVec 256
  poolBases  : List Nat
  ranks      : List RankEntry
  mappings   : List Mapping
  hatch      : Hatch
  barriers   : List BarDef
  weights    : List DWord
  sched      : List SchedEntry
  counters   : List CounterEntry
  pools      : List (Nat × Nat)
  quotas     : List DWord
  shares     : List ShareEntry
  windows    : List Window
  mirror     : List MirrorEntry
  shardRecs  : List Shard
  images     : List Image
  bytes      : List Byte
  deriving DecidableEq, Repr

/-- The states of a job (R459). -/
inductive JobSt where
  | none
  | loading
  | loaded
  | starting
  | running
  | done
  | stopped
  deriving DecidableEq, Repr

/-- An entry of the command log (R315). -/
structure LogEntry where
  code : BitVec 16
  step : Word
  args : List Word
  time : Nat
  deriving DecidableEq, Repr

/-- An overflow event (R136). -/
structure OvEvent where
  step      : Word
  tensor    : Word
  mode      : BitVec 4
  kind      : BitVec 4
  job       : JobNo
  injected  : Bool
  limit     : Bool
  offset    : Byte
  action    : BitVec 4
  toFmt     : BitVec 4
  fromFmt   : BitVec 4
  stages    : BitVec 4
  time      : Nat
  firstRow  : Nat
  elements  : Nat
  deriving DecidableEq, Repr

/-- An overrun record (R321). -/
structure Overrun where
  step       : Word
  collective : BitVec 16
  target     : Byte
  kind       : BitVec 2
  due        : Nat
  start      : Nat
  refresh    : Nat
  retry      : Nat
  shift      : Nat
  deriving DecidableEq, Repr

/-- A ledger entry (R317). -/
structure LedgerEntry where
  step   : Word
  count  : Nat
  digest : DWord
  deriving DecidableEq, Repr

/-- An armed injection (R524): code, target class and number, detail, effective step. -/
structure Inject where
  code   : BitVec 16
  cls    : BitVec 4
  number : BitVec 16
  detail : Word
  step   : Word
  job    : JobNo
  deriving DecidableEq, Repr

/-- The progress of a schedule entry (R249, R250, R321): impressions started, whether one runs, the gate cycles by which
the entry is shifted, when the next is due, when the last one ended; and the status of its last program impression: its halt code or
fault code, its array stall steps, and the copy of its fault record (R112, R155, R200); and the refresh and link-retry delays of its unit
inside the window of the impression (R321). -/
structure EntryProg where
  next    : Nat
  running : Bool
  shift   : Nat
  due     : Nat
  ended   : Nat
  code    : BitVec 16
  stalls  : Nat
  record  : Option FaultRec
  refresh : Nat
  retry   : Nat
  start   : Nat
  deriving DecidableEq, Repr

/-- An entry that no step of the job has started. -/
def EntryProg.reset : EntryProg := ⟨0, false, 0, 0, 0, 0, 0, none, 0, 0, 0⟩

/-- The stream impressions of an open ledger step (R317). -/
structure StepLedger where
  step    : Word
  open_   : Nat
  ended   : Nat
  digest  : DWord
  deriving DecidableEq, Repr

/-- The offsets that a skip or a clean step will change (R131). -/
structure StepVote where
  step     : Word
  tensor   : Word
  absmax   : DWord
  overflow : Bool
  deriving DecidableEq, Repr

/-- A divergence report (R329). -/
structure DivReport where
  job        : JobNo
  missing    : Bool
  detector   : Bool
  injected   : Bool
  own        : SigEntry
  partnerCrc : DWord
  time       : Nat
  further    : Nat
  clean      : Nat
  deriving DecidableEq, Repr

/-- One job slot (R245 to R269, R314 to R329, R459). Of a mapping switch (R263 to R265), mapPend holds the effective step and the mapping,
mapOn the instant at which it started, mapAt the slot and generation of the barrier at which this module has arrived, mapHere that step 3
is done, mapReady that the barrier has completed, mapBad that a fault has ended one of its impressions; mapNext is a later command that
waits for the end of a switch whose step has begun (R124, R265); headers lists the shards and the state numbers of the state headers
received. proofRole is the role of the start that the module has accepted last, ranRole that of the last run (R314). mapSince and mapStep are the instant and the step from
which the mapping in force holds (R263).
scaled lists the tensors that have been converted since the job started, and since a PERMUTE last moved them (R118). -/
structure Job where
  no         : JobNo
  st         : JobSt
  parts      : List (List Byte)
  partsN     : Nat
  plate      : Option Plate
  mode       : BitVec 4
  modePend   : List (Word × BitVec 4)
  mapping    : Nat
  mapPend    : Option (Word × Nat)
  mapNext    : Option (Word × Nat)
  mapReady   : Bool
  mapOn      : Option Nat
  mapAt      : Option (Nat × Nat)
  mapHere    : Bool
  mapBad     : Bool
  mapSince   : Nat
  mapStep    : Nat
  headers    : List (Word × Word)
  scaled     : List Word
  scalePend  : List (Word × Word)
  injPend    : List Inject
  begun      : Option Word
  prog       : Table EntryProg
  cmdLog     : List LogEntry
  logFrom    : Nat
  startTime  : Nat
  startAt    : Nat
  startMsg   : Option Msg
  startBegan : Nat
  cleared    : Bool
  digests    : Table (BitVec 256)
  proofRole  : BitVec 2
  ranRole    : BitVec 2
  reason     : BitVec 16
  preempted  : Bool
  ended      : Bool
  overruns   : List Overrun
  overrunsN  : Nat
  ovLog      : List OvEvent
  ovN        : Nat
  ledger     : List LedgerEntry
  ledgerOpen : List StepLedger
  chain      : List Byte
  closedStep : Word
  idle       : List Nat
  unitsN     : Nat
  rankWait   : Table Nat
  endTime    : Nat
  report     : Option DivReport
  cleanCmp   : Nat
  divMore    : Nat
  deriving DecidableEq, Repr

/-- A job slot that holds no job. -/
def Job.reset : Job where
  no := 0
  st := .none
  parts := []
  partsN := 0
  plate := none
  mode := 1
  modePend := []
  mapping := 0
  mapPend := none
  mapNext := none
  mapReady := false
  mapOn := none
  mapAt := none
  mapHere := false
  mapBad := false
  mapSince := 0
  mapStep := 0
  headers := []
  scaled := []
  scalePend := []
  injPend := []
  begun := none
  prog := []
  cmdLog := []
  logFrom := 0
  startTime := 0
  startAt := 0
  startMsg := none
  startBegan := 0
  cleared := false
  digests := []
  proofRole := 0
  ranRole := 0
  reason := 0
  preempted := false
  ended := false
  overruns := []
  overrunsN := 0
  ovLog := []
  ovN := 0
  ledger := []
  ledgerOpen := []
  chain := List.replicate 32 0
  closedStep := 0xFFFFFFFF
  idle := [0, 0, 0, 0, 0, 0, 0]
  unitsN := 0
  rankWait := []
  endTime := 0
  report := none
  cleanCmp := 0
  divMore := 0

/-- A barrier slot (R286 to R290, R293): the job whose definition holds it, the generation open at this module, the
lowest generation whose local arrivals are not complete, the local arrivals and the vote of each generation from it on, the steps voted
with their generations, and at the root the arrivals of generations g and g + 1. -/
structure Bar where
  job       : JobNo
  gen       : Word
  floor     : Nat
  part      : List (Nat × Nat × Bool)
  voted     : List (Word × Nat)
  masks     : List Nat × List Nat
  votes     : Bool × Bool
  opened    : Option Nat
  discarded : Nat
  deriving DecidableEq, Repr

/-- A barrier slot right after reset. -/
def Bar.reset : Bar := ⟨0, 0, 0, [], [], ([], []), (false, false), none, 0⟩

/-- A module event (R521). -/
structure Event where
  code     : BitVec 16
  cls      : BitVec 4
  injected : Bool
  fenced   : Bool
  recStart : Bool
  recEnd   : Bool
  stAfter  : BitVec 4
  unit     : BitVec 16
  job      : JobNo
  seq      : Word
  detail   : Word
  time     : Nat
  deriving DecidableEq, Repr

/-! ## Ports (13, 14, 15) -/

/-- The phases of a link (R336, R366). ABSENT follows from the fuses. -/
inductive LinkPhase where
  | disabled
  | detect
  | equalise
  | align
  | negotiate
  | active
  deriving DecidableEq, Repr

/-- One lane of a port (R333 to R345, R366). -/
structure Lane where
  laneState : BitVec 2
  symErr    : Nat
  rxSeen    : Nat
  tapM2     : Int
  tapM1     : Int
  tapP1     : Int
  locked    : Bool
  inverted  : Bool
  rxReady   : Bool
  readyRun  : Nat
  timedOut  : Bool
  cwLock    : Bool
  txScr     : BitVec 31
  rxScr     : BitVec 31
  prbs      : BitVec 13
  txCount   : Nat
  uncorr    : List Nat
  alignLost : Nat
  retrain   : Bool
  retrainAt : Nat
  stWord    : Word
  deriving DecidableEq, Repr

/-- A lane right after reset: training starts in preset 2 (R335). Taps are in units of 0.0125. -/
def Lane.reset : Lane := ⟨0, 0, 0, 0, -12, -4, false, false, false, 0, false, false, 0, 0, 0, 0, [], 0, false, 0, 0⟩

/-- The capabilities of a TRAIN block (R337). -/
structure Caps where
  version  : Byte
  role     : BitVec 3
  peerOk   : Bool
  rxUsable : Byte
  maxPlen  : BitVec 16
  identity : DWord
  credits  : List (BitVec 16)
  retry    : BitVec 16
  deriving DecidableEq, Repr

/-- A copy of a frame that stands in an egress queue (R394): the number of the frame in its module, the time from which
its age runs (R388), whether it enters its ring (R383), the port it came in by, whether all of it has arrived, whether a stomped
copy of it has left (R358), the age limit that held when it was enqueued (R392), whether the reservation serves it (R397), the lanes
on which it arrived (R381), 0 for a frame of a local unit, and whether it is a copy for the twin (R324). -/
structure Queued where
  uid      : Nat
  f        : Frame
  born     : Nat
  entering : Bool
  ingress  : Option Port
  whole    : Bool
  again    : Bool
  limit    : Option Nat
  resv     : Bool
  inWidth  : Nat
  twin     : Bool
  deriving DecidableEq, Repr

/-- The units of the module that take frames (R376). -/
inductive LocalUnit where
  | engine (p : Port)
  | die (d : Die)
  | mem (d : Die)
  | pair
  | hub
  | window
  deriving DecidableEq, Repr

/-- Where a copy of a frame goes: an egress, a unit of the module, an engine that the steering index does not name yet,
nowhere for want of a route (with or without ROUTE_LOST), nowhere for want of a target. -/
inductive Dest where
  | port (p : Port)
  | unit (u : LocalUnit)
  | steer
  | noRoute (lost : Bool)
  | noTarget
  deriving DecidableEq, Repr

/-- A received frame whose route lookup runs, or that waits for its tail to be delivered here (R381, R382): dests holds what the lookup
has found for it in this module (R372). -/
structure Lookup where
  uid    : Nat
  f      : Frame
  since  : Nat
  whole  : Bool
  looked : Bool
  dests  : List Dest
  deriving DecidableEq, Repr

/-- A random-early-drop profile (R408, R414). -/
structure RedProf where
  en    : Bool
  maxP  : BitVec 16
  maxTh : BitVec 16
  minTh : BitVec 16
  deriving DecidableEq, Repr

/-- A policer (R405): parameters, bucket contents in units of 1/1000 byte, and the time of its last fill. -/
structure Policer where
  cir    : Word
  pir    : Word
  cbs    : Word
  pbs    : Word
  eff    : Word
  tc     : Nat
  tp     : Nat
  filled : Nat
  deriving DecidableEq, Repr

/-- A policer right after reset (R414): buckets full. -/
def Policer.reset : Policer := ⟨0, 0, 16384, 32768, 0, 16384000, 32768000, 0⟩

/-- The samples of one class queue (R410). -/
structure QSample where
  samples  : Nat
  depthSum : Nat
  delaySum : Nat
  depthMax : Nat
  delayMax : Nat
  deriving DecidableEq, Repr

/-- The egress of a port (R393 to R414). Bucket contents are in units of 1/1000 byte; b0Rem is the part of b0 below one unit, in parts of
the weight sum (R395). excessHd names the waiting C0 frame that FAB_TC_C0_EXCESS has counted (R397). -/
structure Egress where
  weights   : DWord
  b0        : Nat
  b0Rem     : Nat
  b0Filled  : Nat
  pace      : Nat
  paceAt    : Nat
  ptr       : Nat
  fresh     : Bool
  dc        : Table Nat
  queues    : Table (List Queued)
  period    : BitVec 16
  policers  : Table Policer
  red       : Table RedProf
  wexp      : Byte
  avg       : Table Nat
  gen       : Table Word
  colours   : Table Nat
  redDrop2  : Nat
  redDrop3  : Nat
  polDrop4  : Nat
  excess    : Nat
  excessHd  : Option Nat
  c0Max     : Nat
  c0Over    : Nat
  guardNs   : Nat
  qs        : Table QSample
  c0Event   : Option Nat
  gates     : BitVec 5
  entry     : BitVec 12
  gatedBy   : JobNo
  sending   : Option Queued
  yielded   : List Nat
  deriving DecidableEq, Repr

/-- The reset profiles of R414: en = 1 for red only. -/
def RedProf.reset : RedProf := ⟨false, 0, 0, 0⟩

/-- An egress right after reset (R395, R398, R414). -/
def Egress.reset : Egress where
  weights := 0x0000001060401040
  b0 := 12288000
  b0Rem := 0
  b0Filled := 0
  pace := 8192000
  paceAt := 0
  ptr := 1
  fresh := true
  dc := []
  queues := []
  period := 4
  policers := []
  red := [(2, ⟨true, 0, 0, 0⟩), (5, ⟨true, 0, 0, 0⟩)]
  wexp := 0x99
  avg := []
  gen := []
  colours := []
  redDrop2 := 0
  redDrop3 := 0
  polDrop4 := 0
  excess := 0
  excessHd := none
  c0Max := 0
  c0Over := 0
  guardNs := 0
  qs := []
  c0Event := none
  gates := 0x1F
  entry := 0xFFF
  gatedBy := 0
  sending := none
  yielded := []

/-- A block in a retry buffer: its sequence number and its 640 bytes (R355, R356). -/
structure RetryBlock where
  seq   : BitVec 16
  bytes : List Byte
  deriving DecidableEq, Repr

/-- What R411 measures of a C0 frame: when its hop began, its payload in 1/1000 byte, the rates of its egress and of the ingress where it
was held whole (0 where it was not), and its ingress. -/
structure Meas where
  born    : Nat
  payload : Nat
  txRate  : Nat
  rxRate  : Nat
  ingress : Option Port
  deriving DecidableEq, Repr

/-- A unit that waits for its DATA block: its 32 bytes, whether it begins a header, and for the last unit of a C0 frame
what R411 measures of it. -/
structure TxUnit where
  bytes : List Byte
  head  : Bool
  meas  : Option Meas
  deriving DecidableEq, Repr

/-- The link layer of a port (R336 to R366): peerReq is the lane_req of the partner that holds, widthDue tells that the ALIGN blocks of a new
transmit set have not left yet (R340). -/
structure PortState where
  phase      : LinkPhase
  phaseAt    : Nat
  txLanes    : Byte
  rxLanes    : Byte
  disable    : Bool
  identity   : DWord
  fecCorr    : Nat
  fecUncorr  : Nat
  replays    : Nat
  retryNs    : Nat
  stompRx    : Nat
  stompTx    : Nat
  frameCrc   : Nat
  badFrame   : Nat
  delay      : Nat
  offset     : Int
  widthChg   : Nat
  lanes      : Table Lane
  rxUsable   : Byte
  peerCaps   : Option Caps
  peerRun    : Nat
  peerOk     : Bool
  peerSaidOk : Bool
  trainSent  : Nat
  mismatch   : Bool
  txSeq      : BitVec 16
  retryBuf   : List RetryBlock
  replayPos  : Option Nat
  replayAt   : Option Nat
  replaySeq  : BitVec 16
  replayN    : Nat
  ackAdv     : Nat
  lastAckIn  : BitVec 16
  rxExpect   : BitVec 16
  rxAny      : Bool
  nak        : Bool
  retrySince : Option Nat
  credits    : Table Nat
  lastFreed  : Table (BitVec 16)
  freed      : Table (BitVec 16)
  laneReq    : Byte
  peerReq    : Byte
  widthDue   : Bool
  streamPos  : Nat
  rxUnits    : List (List Byte)
  rxSkip     : Bool
  rxUid      : Option Nat
  rxBase     : Nat
  txUnits    : List TxUnit
  retryEnd   : Nat
  timeSent   : Nat
  timeTxIn   : DWord
  timeRxAt   : Nat
  timeIn     : Bool
  rtts       : List Nat
  timeDue    : Bool
  alignDue   : Byte
  lastRx     : Nat
  recovery   : Option Nat
  down       : Bool
  crcInject  : Nat
  role       : BitVec 4
  neighbourOk : Bool
  neighbourEv : Bool
  egress     : Egress
  lookups    : List Lookup
  deriving DecidableEq, Repr

/-- A port right after reset (R366, R392): DETECT, role unused, nothing sent or received. -/
def PortState.reset : PortState where
  phase := .detect
  phaseAt := 0
  txLanes := 0
  rxLanes := 0
  disable := false
  identity := 0
  fecCorr := 0
  fecUncorr := 0
  replays := 0
  retryNs := 0
  stompRx := 0
  stompTx := 0
  frameCrc := 0
  badFrame := 0
  delay := 0
  offset := 0
  widthChg := 0
  lanes := []
  rxUsable := 0
  peerCaps := none
  peerRun := 0
  peerOk := false
  peerSaidOk := false
  trainSent := 0
  mismatch := false
  txSeq := 0
  retryBuf := []
  replayPos := none
  replayAt := none
  replaySeq := 0
  replayN := 0
  ackAdv := 0
  lastAckIn := 0xFFFF
  rxExpect := 0
  rxAny := false
  nak := false
  retrySince := none
  credits := []
  lastFreed := []
  freed := []
  laneReq := 0
  peerReq := 0
  widthDue := false
  streamPos := 0
  rxUnits := []
  rxSkip := false
  rxUid := none
  rxBase := 0
  txUnits := []
  retryEnd := 0
  timeSent := 0
  timeTxIn := 0
  timeRxAt := 0
  timeIn := false
  rtts := []
  timeDue := false
  alignDue := 0
  lastRx := 0
  recovery := none
  down := false
  crcInject := 0
  role := 0
  neighbourOk := false
  neighbourEv := false
  egress := Egress.reset
  lookups := []

/-! ## Fabric (14) -/

/-- An entry of the fabric map (R369). -/
structure MapEntry where
  valid   : Bool
  x       : Nat
  y       : Nat
  partner : Nat
  downXp  : Bool
  downXm  : Bool
  downYp  : Bool
  downYm  : Bool
  deriving DecidableEq, Repr

/-- A fabric map with its role table (R369, R468). -/
structure FabricMap where
  version : Word
  nx      : Nat
  ny      : Nat
  entries : Table MapEntry
  roles   : List (BitVec 4)
  deriving DecidableEq, Repr

/-- The route states (R389). -/
inductive RouteSt where
  | active
  | draining
  | drained
  | swapped
  deriving DecidableEq, Repr

/-- The congestion response toward a rank (R387). Bucket contents are in units of 1/1000 byte. -/
structure EcnRate where
  rate     : Nat
  bucket   : Nat
  filled   : Nat
  reduced  : Nat
  lastEcho : Nat
  raised   : Nat
  echoed   : Option Nat
  deriving DecidableEq, Repr

/-- A rank toward which nothing has been sent. -/
def EcnRate.reset : EcnRate := ⟨125000, 8192000, 0, 0, 0, 0, none⟩

/-- The routing state of the hub die (R389, R392). inbox holds the frames delivered to a unit that has not taken them yet, unitHeld those
that a unit has taken and holds back: both keep their buffers at the ingress (R40, R204, R282). transfers holds for each module the transfer
id of the next memory request to it (R278, R419). A frame in waiting holds in born the age that it had when the drain stopped it
(R390). -/
structure Fabric where
  st        : RouteSt
  module    : BitVec 9
  map       : Option FabricMap
  staged    : Option FabricMap
  ecnThresh : Word
  ageC2     : BitVec 16
  ageC3     : BitVec 16
  ageC4     : BitVec 16
  noRoute   : Nat
  noTarget  : Nat
  agedC2    : Nat
  agedC3    : Nat
  agedC4    : Nat
  ecnMarked : Nat
  echoTx    : Nat
  echoRx    : Nat
  bubbleNs  : Nat
  storeFwd  : Nat
  mcCopies  : Nat
  ecn       : Table EcnRate
  lost      : List Nat
  drainAt   : Nat
  drainTold : Bool
  waiting   : List Queued
  heldStream : List Queued
  nextUid   : Nat
  inbox     : List (LocalUnit × Queued)
  unitHeld  : List Queued
  selfEgress : List Frame
  transfers : Table (BitVec 16)
  deriving DecidableEq, Repr

/-- The routing state right after reset (R392): no map, no roles. -/
def Fabric.reset : Fabric where
  st := .active
  module := 0
  map := none
  staged := none
  ecnThresh := 0x08000400
  ageC2 := 50
  ageC3 := 500
  ageC4 := 5000
  noRoute := 0
  noTarget := 0
  agedC2 := 0
  agedC3 := 0
  agedC4 := 0
  ecnMarked := 0
  echoTx := 0
  echoRx := 0
  bubbleNs := 0
  storeFwd := 0
  mcCopies := 0
  ecn := []
  lost := []
  drainAt := 0
  drainTold := false
  waiting := []
  heldStream := []
  nextUid := 0
  inbox := []
  unitHeld := []
  selfEgress := []
  transfers := []

/-! ## Pair (21) -/

/-- The module states (R511). -/
inductive ModSt where
  | unpaired
  | paired
  | recovering
  | partnerLost
  | takeover
  | solo
  | resync
  | fenced
  deriving DecidableEq, Repr

/-- A hold range (R508 to R510): the partner's image kept here, the state it holds, and the staged bytes. -/
structure HoldRange where
  job    : JobNo
  shard  : Word
  base   : DWord
  length : Nat
  st     : Word
  staged : List (Word × Nat × List Byte)
  grans  : List DWord
  deriving DecidableEq, Repr

/-- A shadow of R516: the range it copies, the DRAM granules that hold the copy, the state it holds, and the bytes
staged for later states. -/
structure Shadow where
  job    : JobNo
  shard  : Word
  base   : DWord
  length : Nat
  copy   : List DWord
  st     : Word
  staged : List (Word × Nat × List Byte)
  deriving DecidableEq, Repr

/-- A SEAL that awaits its SEAL_ACK (R510). -/
structure SealOut where
  job   : JobNo
  shard : Word
  st    : Word
  deriving DecidableEq, Repr

/-- The pair state of the module (R506 to R520). -/
structure Pair where
  st         : ModSt
  lastPair   : Nat
  hbLostAt   : Option Nat
  suspect    : Bool
  recUnits   : List Nat
  recoverAt  : Nat
  holds      : List HoldRange
  shadows    : List Shadow
  seals      : List SealOut
  solo       : Bool
  foMapping  : Nat
  restoring  : Bool
  resyncLeft : List Word
  partnerSt  : BitVec 4
  injectLoss : Option Nat
  helloAt    : Nat
  injNotice  : Bool
  lastPush   : Nat
  pushedSeq  : Word
  lastTrig   : Option Nat
  deriving DecidableEq, Repr

/-- The pair state right after reset: UNPAIRED (R511). -/
def Pair.reset : Pair where
  st := .unpaired
  lastPair := 0
  hbLostAt := none
  suspect := false
  recUnits := []
  recoverAt := 0
  holds := []
  shadows := []
  seals := []
  solo := false
  foMapping := 0
  restoring := false
  resyncLeft := []
  partnerSt := 0
  injectLoss := none
  helloAt := 0
  injNotice := false
  lastPush := 0
  pushedSeq := 0
  lastTrig := none

/-! ## Margin controller (19) -/

/-- The power states (R476). -/
inductive PowerSt where
  | standby
  | hubUp
  | powering
  | on
  | poweringDown
  | tripped
  deriving DecidableEq, Repr

/-- The states of the time unit (R484). -/
inductive TimeSt where
  | free
  | locked
  | ptpOnly
  | ppsOnly
  | holdover
  deriving DecidableEq, Repr

/-- The classes of the partner heartbeat input (R487). -/
inductive HbSt where
  | alive
  | lost
  | noisy
  | unknown
  deriving DecidableEq, Repr

/-- A trip record (R490). -/
structure TripRec where
  code  : BitVec 16
  unit  : BitVec 4
  stack : BitVec 5
  boot  : Word
  time  : DWord
  vin   : BitVec 16
  pin   : BitVec 16
  temp  : BitVec 16
  deriving DecidableEq, Repr

/-- The margin controller (R474 to R492). Runs count consecutive samples for which a condition has held, waits the samples
since a cap last moved; seqStep is the step of R477 that waits for a rail or for the quadrant resets, 0 where none
does; tripLast is the code of the latest trip record, tripOn that of the trip in force. -/
structure Margin where
  power      : PowerSt
  timeSt     : TimeSt
  hbSt       : HbSt
  running    : Bool
  opStage    : Bool
  vin        : Nat
  pin        : Nat
  pins       : List Nat
  powerCap   : Nat
  capMax     : List Nat
  capThermal : List Nat
  capApplied : List Nat
  dieTemp    : List Int
  vcore      : List Nat
  vset       : List Nat
  throttleNs : Nat
  ppsAccept  : Nat
  ppsReject  : Nat
  hbLost     : Nat
  hbNoisy    : Nat
  rstGlitch  : Nat
  holdoverNs : Nat
  tripLast   : BitVec 16
  tripOn     : BitVec 16
  goodRun    : Nat
  lowRun     : Nat
  coolRun    : Nat
  capUpWait  : Nat
  hotWait    : List Nat
  coldRun    : List Nat
  thermRun   : List Nat
  vcoreRun   : List Nat
  pfRun      : Nat
  throttleP  : Bool
  throttleT  : Bool
  latch      : Bool
  hubOn      : Bool
  dramOn     : Bool
  coreOn     : Bool
  released   : Nat
  bootDone   : Bool
  downTo     : PowerSt
  downCause  : BitVec 16
  rstLow     : Bool
  rstVirtual : Bool
  virtualAt  : Nat
  trips      : List TripRec
  boots      : Word
  ppsLast    : Option Nat
  ppsRun     : Nat
  ppsHere    : Bool
  ppsTold    : Option Nat
  ptpLast    : Option Nat
  ptpHere    : Bool
  lockedOnce : Bool
  hbEdges    : List Nat
  hbOut      : Bool
  checkedIn  : Nat
  ramps      : List (Nat × Nat)
  tripConds  : List (BitVec 16)
  seqStep    : Nat
  railAt     : Nat
  hubHeld    : Bool
  ppsGone    : Bool
  startedAt  : Nat
  deriving DecidableEq, Repr

/-- The margin controller right after reset: every register of R492 at its reset value; the power cap of 85 lies below every cap_max, so
that throttling is in force (R480; log entry 38). -/
def Margin.reset : Margin where
  power := .hubUp
  timeSt := .free
  hbSt := .unknown
  running := true
  opStage := false
  vin := 0
  pin := 0
  pins := []
  powerCap := 85
  capMax := [145, 145, 145, 145]
  capThermal := [145, 145, 145, 145]
  capApplied := [85, 85, 85, 85]
  dieTemp := [0, 0, 0, 0]
  vcore := [0, 0, 0, 0]
  vset := [750, 750, 750, 750]
  throttleNs := 0
  ppsAccept := 0
  ppsReject := 0
  hbLost := 0
  hbNoisy := 0
  rstGlitch := 0
  holdoverNs := 0
  tripLast := 0
  tripOn := 0
  goodRun := 0
  lowRun := 0
  coolRun := 0
  capUpWait := 10
  hotWait := [10, 10, 10, 10]
  coldRun := [0, 0, 0, 0]
  thermRun := []
  vcoreRun := [0, 0, 0, 0]
  pfRun := 0
  throttleP := true
  throttleT := false
  latch := false
  hubOn := true
  dramOn := false
  coreOn := false
  released := 0
  bootDone := false
  downTo := .hubUp
  downCause := 0
  rstLow := false
  rstVirtual := false
  virtualAt := 0
  trips := []
  boots := 0
  ppsLast := none
  ppsRun := 0
  ppsHere := false
  ppsTold := none
  ptpLast := none
  ptpHere := false
  lockedOnce := false
  hbEdges := []
  hbOut := false
  checkedIn := 0
  ramps := []
  tripConds := []
  seqStep := 0
  railAt := 0
  hubHeld := false
  ppsGone := false
  startedAt := 0

/-! ## Meter (20) -/

/-- A meter record's body (R496). -/
structure MeterRec where
  kind     : Byte
  broken   : Bool
  absent   : Bool
  range    : Bool
  deferred : Bool
  seq      : DWord
  meterS   : DWord
  netTime  : DWord
  total    : DWord
  span     : DWord
  job      : JobNo
  module   : BitVec 16
  spanMs   : Word
  vmin     : BitVec 16
  vmax     : BitVec 16
  pmax     : BitVec 16
  imax     : BitVec 16
  deriving DecidableEq, Repr

/-- The meter die and what the hub keeps of it (R493 to R505). lastMin is the last multiple of 60 s that has its INTERVAL record (R495),
toldAt the instant at which the hub last sent the network time (R497). -/
structure Meter where
  serial    : DWord
  firmware  : DWord
  nextSeq   : Nat
  energy    : DWord
  ms        : Nat
  lastMs    : Nat
  lastTotal : DWord
  broken    : Bool
  label     : Option (DWord × Nat)
  module    : BitVec 16
  records   : List MeterRec
  up        : Bool
  lost      : Bool
  waiting   : Option (BitVec 16 × Msg × Nat)
  openJobs  : List JobNo
  readUpTo  : Nat
  copies    : List MeterRec
  lastMin   : Option Nat
  toldAt    : Option Nat
  deriving DecidableEq, Repr

/-- The meter at the reset of the module. DESIGN CHOICE (log entry 15): a new meter, serial and firmware 0, no record
written yet. -/
def Meter.reset : Meter where
  serial := 0
  firmware := 0
  nextSeq := 0
  energy := 0
  ms := 0
  lastMs := 0
  lastTotal := 0
  broken := false
  label := none
  module := 0x1FF
  records := []
  up := true
  lost := false
  waiting := none
  openJobs := []
  readUpTo := 0
  copies := []
  lastMin := none
  toldAt := none

/-! ## Firmware and keys (22) -/

/-- The states of a firmware slot (R527). -/
inductive SlotSt where
  | empty
  | writing
  | staged
  | trial
  | confirmed
  | failed
  deriving DecidableEq, Repr

/-- A firmware slot (R526 to R532): the image bytes received so far as memory over image offsets. factory marks the image that
the slot held when the module left manufacture, whose bytes the spec does not give (R527; log entry 16). -/
structure FwSlot where
  factory  : Bool
  st       : SlotSt
  version  : DWord
  failure  : BitVec 16
  length   : Nat
  image    : Memory
  written  : List Nat
  agent    : DWord
  rollback : Byte
  setFmt   : BitVec 16
  deriving DecidableEq, Repr

/-- An enrolled agent (R471, R541). -/
structure Agent where
  id    : DWord
  right : BitVec 2
  key   : List Byte
  deriving DecidableEq, Repr

/-- A settings copy (R526, R536): the management and the service address with their ports, the PTP profile and domain, the agents
and the address of the fault manager. -/
structure Settings where
  mgmtAddr : List Byte
  mgmtPort : BitVec 16
  svcAddr  : List Byte
  svcPort  : BitVec 16
  ptp      : Byte × Byte
  fmt    : BitVec 16
  agents : List Agent
  fmAddr : Option (List Word)
  deriving DecidableEq, Repr

/-- The last accepted sequence number and the last reply of an agent (R472), with where that reply goes: the address and
port of the request, or the module that relayed it (R470, R473). -/
structure AgentSeq where
  agent : DWord
  seq   : BitVec 16
  reply : List Byte
  addr  : List Byte
  port  : BitVec 16
  via   : Option (BitVec 9)
  deriving DecidableEq, Repr

/-- A message that waits for the relay of R473. -/
structure RelayOut where
  target  : BitVec 9
  agent   : DWord
  srcAddr : List Byte
  srcPort : BitVec 16
  seq     : BitVec 16
  msg     : List Byte
  sent    : Nat
  deriving DecidableEq, Repr

/-- What an event of a yielding rate names beside its record (R413): its sequence number, the class that yields to C0, W, and the configured
and the effective rate in MB/s. -/
structure RateName where
  seq   : Word
  cls   : Nat
  width : Nat
  conf  : Nat
  eff   : Nat
  deriving DecidableEq, Repr

/-- The firmware store, the keys and the management state of the hub; waiting holds the hub commands that come while
another is in progress, plain the plaintext that a boot has verified (R458, R470 to R473, R526 to R543). -/
structure Hub where
  slots     : List FwSlot
  booted    : Nat
  recovery  : Bool
  rollMin   : Nat
  settings  : List Settings
  inUse     : Nat
  serial    : DWord
  running   : DWord
  agentSeqs : List AgentSeq
  relays    : List RelayOut
  waiting   : List (BitVec 16 × Msg)
  events    : List Event
  eventSeq  : Word
  refusedDg : Nat
  plain     : List Byte
  rateNames : List RateName
  deriving DecidableEq, Repr

/-- An empty firmware slot. -/
def FwSlot.reset : FwSlot := ⟨false, .empty, 0, 0, 0, [], [], 0, 0, 0⟩

/-- A settings copy with no setting made: the ports of R470 and R530. -/
def Settings.reset : Settings := ⟨[], 7460, [], 7461, (0, 0), 0, [], none⟩

/-- The hub right after reset. R527 gives one CONFIRMED slot; DESIGN CHOICE (log entry 16): it is slot A with version
1 and settings format 1, no agent is enrolled, serial 0 and rollback minimum 0. -/
def Hub.reset : Hub where
  slots := [{ FwSlot.reset with factory := true, st := .confirmed, version := 1, setFmt := 1 }, FwSlot.reset]
  booted := 0
  recovery := false
  rollMin := 0
  settings := [{ Settings.reset with fmt := 1 }, Settings.reset]
  inUse := 0
  serial := 0
  running := 1
  agentSeqs := []
  relays := []
  waiting := []
  events := []
  eventSeq := 0
  refusedDg := 0
  plain := []
  rateNames := []

/-! ## The whole module -/

/-- A PAM4 level of a lane: -3, -1, +1, +3 (R331). -/
inductive Level where
  | m3
  | m1
  | p1
  | p3
  deriving DecidableEq, Repr

/-- What leaves the package, or reaches software on it (log entry 13): frames, the levels of a link block and of a training frame, UI
by UI, datagrams from the management address or the service address, replies, levels of output pins, markers and the network time to the
meter. -/
inductive Output where
  | frame (p : Port) (f : Frame)
  | block (p : Port) (lane : Nat) (levels : List Level)
  | train (p : Port) (lane : Nat) (levels : List Level)
  | datagram (service : Bool) (addr : List Byte) (port : BitVec 16) (bytes : List Byte)
  | reply (code status : BitVec 16) (seq : BitVec 16) (detail : Byte) (res : List Word)
  | pin (name : String) (level : Bool)
  | marker (opens deferred : Bool) (job : JobNo)
  | label (time : DWord)
  | window (job : JobNo) (offset : Word) (bytes : List Byte)
  deriving DecidableEq, Repr

/-- One AX9 module. weakWords are the protected words whose stored bits hold an error that each read corrects and that no scrub and no
write has removed: a single bit of an SRAM word (R150), up to three bytes of a DRAM word (R441). -/
structure State where
  pending   : List Instr
  freeCtr   : Nat
  outbox    : List Output
  fuse      : Fuse
  time      : Nat
  mem       : Memory
  staging   : Memory
  badWords  : List Nat
  weakWords : List Nat
  clusters  : Table Cluster
  engines   : Table Engine
  dies      : Table DieState
  bars      : Table Bar
  jobs      : Table Job
  shards    : List Shard
  windows   : List Window
  hatchJobs : Table Nat
  armed     : List Inject
  ports     : Table PortState
  fab       : Fabric
  pair      : Pair
  margin    : Margin
  meter     : Meter
  hub       : Hub
  deriving DecidableEq, Repr

/-- The module right after reset: every register at the value its chapter gives, the full grade at revision A1
(log entry 1), network time 0 (log entry 4), no command waiting. -/
def State.reset : State where
  pending := []
  freeCtr := 0
  outbox := []
  fuse := ⟨1, 0x41, 1, 0, 0⟩
  time := 0
  mem := []
  staging := []
  badWords := []
  weakWords := []
  clusters := []
  engines := []
  dies := []
  bars := []
  jobs := []
  shards := []
  windows := []
  hatchJobs := []
  armed := []
  ports := []
  fab := Fabric.reset
  pair := Pair.reset
  margin := Margin.reset
  meter := Meter.reset
  hub := Hub.reset

/-- Why a command stops the model although the spec gives the machine. -/
inductive Fault where
  /-- Raised by an external access to the SRAM of a cluster that the fuses disable: the spec says that it is not addressable (R8).
  Safe. -/
  | absentEngine
  deriving DecidableEq, Repr

/-- Why the model has no meaning for a command. -/
inductive Refusal where
  /-- Raised by the dispatch for a command that has no meaning yet. Safe. -/
  | notModelled (mnemonic : String)
  deriving DecidableEq, Repr

end Sys2Proof.Machine
end

