-- ==== Sys2Proof/Machine/Num.lean ====
section
/-! DEFINITION. Numbers: the element formats (02), their conversions and scales, binary32 arithmetic (02 R49, 03 R95)
and the Philox draw. Every value is exact until its one rounding. -/

namespace Sys2Proof.Machine

/-- The flags of two sources (R73). -/
def NFlags.or (a b : NFlags) : NFlags := ⟨a.nv || b.nv, a.ov || b.ov, a.uz || b.uz⟩
/-- Only nv. -/
def NFlags.onlyNv : NFlags := ⟨true, false, false⟩
/-- Only of. -/
def NFlags.onlyOf : NFlags := ⟨false, true, false⟩
/-- Only uz. -/
def NFlags.onlyUz : NFlags := ⟨false, false, true⟩

/-- An exact value: a NaN, an infinity, or (-1)^s × m × 2^e; m = 0 is a zero of sign s. -/
inductive Num where
  | nan
  | inf (s : Bool)
  | fin (s : Bool) (m : Nat) (e : Int)
  deriving DecidableEq, Repr

/-- The zero of sign s. -/
def Num.zero (s : Bool) : Num := .fin s 0 0

/-- The element formats with the codes of R114. -/
inductive Fmt where
  | hx4
  | hx6
  | hx8n
  | hx8w
  | hx16
  | b32
  deriving DecidableEq, Repr

/-- The format of a code of R114. -/
def Fmt.ofCode : Nat → Option Fmt
  | 1 => some .hx4
  | 2 => some .hx6
  | 3 => some .hx8n
  | 4 => some .hx8w
  | 5 => some .hx16
  | 6 => some .b32
  | _ => none

/-- The code of a format (R114). -/
def Fmt.code : Fmt → Nat
  | .hx4 => 1
  | .hx6 => 2
  | .hx8n => 3
  | .hx8w => 4
  | .hx16 => 5
  | .b32 => 6

/-- The width in bits (R45). -/
def Fmt.bits : Fmt → Nat
  | .hx4 => 4
  | .hx6 => 6
  | .hx8n => 8
  | .hx8w => 8
  | .hx16 => 16
  | .b32 => 32

/-- The width of the fraction field (R45). -/
def Fmt.frac : Fmt → Nat
  | .hx4 => 1
  | .hx6 => 2
  | .hx8n => 3
  | .hx8w => 2
  | .hx16 => 7
  | .b32 => 23

/-- The exponent bias (R45). -/
def Fmt.bias : Fmt → Nat
  | .hx4 => 1
  | .hx6 => 3
  | .hx8n => 7
  | .hx8w => 15
  | .hx16 => 127
  | .b32 => 127

/-- The code of the largest finite magnitude (R46 to R48, R64). -/
def Fmt.maxMag : Fmt → Nat
  | .hx4 => 0x7
  | .hx6 => 0x1F
  | .hx8n => 0x7E
  | .hx8w => 0x7B
  | .hx16 => 0x7F7F
  | .b32 => 0x7F7FFFFF

/-- The exponent of the largest finite magnitude, T of R116. -/
def Fmt.topExp : Fmt → Int
  | .hx4 => 2
  | .hx6 => 4
  | .hx8n => 8
  | .hx8w => 15
  | .hx16 => 127
  | .b32 => 127

/-- The canonical NaN, or what replaces it in HX6 (R50, R57). -/
def Fmt.nanCode : Fmt → Nat
  | .hx4 => 0x8
  | .hx6 => 0x00
  | .hx8n => 0x7F
  | .hx8w => 0x7E
  | .hx16 => 0x7FC0
  | .b32 => 0x7FC00000

/-- The bytes of n packed elements (R52). -/
def Fmt.bytes (f : Fmt) (n : Nat) : Nat := (n * f.bits + 7) / 8

/-- The canonical binary32 NaN (R50). -/
def nan32 : Word := 0x7FC00000

/-! ## Decoding -/

/-- The sign bit of a code. -/
def codeSign (f : Fmt) (c : Nat) : Bool := Nat.testBit c (f.bits - 1)

/-- The exact value of a code (R46 to R48), for binary32 without the flush of R49. -/
def decodeCode (f : Fmt) (c : Nat) : Num :=
  let c := c % 2 ^ f.bits
  let s := codeSign f c
  let mag := c % 2 ^ (f.bits - 1)
  let e := mag / 2 ^ f.frac
  let m := mag % 2 ^ f.frac
  let lift : Int := (f.frac : Int) + f.bias
  let plain : Num := if e = 0 then .fin s m (1 - lift) else .fin s (2 ^ f.frac + m) ((e : Int) - lift)
  match f with
  | .hx4 => if c = 0x8 then .nan else plain
  | .hx6 => plain
  | .hx8n => if mag = 0x7F then .nan else plain
  | .hx8w => if mag < 0x7C then plain else if mag = 0x7C then .inf s else .nan
  | .hx16 => if mag < 0x7F80 then plain else if mag = 0x7F80 then .inf s else .nan
  | .b32 => if mag < 0x7F800000 then plain else if mag = 0x7F800000 then .inf s else .nan

/-- A binary32 input as the units read it: a subnormal is a zero of its sign (R49, R51). -/
def read32 (w : Word) : Num :=
  match decodeCode .b32 w.toNat with
  | .fin s m e => if m < 2 ^ 23 then .zero s else .fin s m e
  | v => v

/-! ## Rounding -/

/-- The exponent of the leading bit of n / d × 2^e, for n, d > 0. -/
def leadExp (n d : Nat) (e : Int) : Int :=
  let k : Int := (Nat.log2 n : Int) - Nat.log2 d
  let below : Bool := if 0 ≤ k then decide (n < d * 2 ^ k.toNat) else decide (n * 2 ^ (-k).toNat < d)
  (if below then k - 1 else k) + e

/-- n / d × 2^e in units of 2^q: numerator and denominator. -/
def inUnits (n d : Nat) (e q : Int) : Nat × Nat :=
  if q ≤ e then (n * 2 ^ (e - q).toNat, d) else (n, d * 2 ^ (q - e).toNat)

/-- N / D to the nearest integer, a tie to the even one (R63). -/
def nearest (nd : Nat × Nat) : Nat :=
  let lo := nd.1 / nd.2
  let r := nd.1 % nd.2
  if nd.2 < 2 * r ∨ (2 * r = nd.2 ∧ lo % 2 = 1) then lo + 1 else lo

/-- N / D by the stochastic rule of R70 with the drawn word r. -/
def stochastic (r : Word) (nd : Nat × Nat) : Nat :=
  let lo := nd.1 / nd.2
  let d := (nd.1 % nd.2) * 2 ^ 32 / nd.2
  if nd.1 % nd.2 ≠ 0 ∧ 2 ^ 32 ≤ d + r.toNat then lo + 1 else lo

/-- The sign bit of a code as a number. -/
def signBit (f : Fmt) (s : Bool) : Nat := if s then 2 ^ (f.bits - 1) else 0

/-- round_b32 of the exact non-zero magnitude n / d × 2^e with sign s: one rounding to 24 bits, the overflow of R64,
the flush of R49. -/
def roundMag32 (s : Bool) (n d : Nat) (e : Int) : Word × NFlags :=
  let k := leadExp n d e
  let m := nearest (inUnits n d e (k - 23))
  let k' := if m = 2 ^ 24 then k + 1 else k
  let m' := if m = 2 ^ 24 then 2 ^ 23 else m
  if k' < -126 then (BitVec.ofNat 32 (signBit .b32 s), .onlyUz)
  else if 127 < k' then (BitVec.ofNat 32 (signBit .b32 s + 0x7F800000), .onlyOf)
  else (BitVec.ofNat 32 (signBit .b32 s + ((k' + 127).toNat * 2 ^ 23 + (m' - 2 ^ 23))), .none)

/-- round_b32 of an exact value. -/
def round32 : Num → Word × NFlags
  | .nan => (nan32, .none)
  | .inf s => (BitVec.ofNat 32 (signBit .b32 s + 0x7F800000), .none)
  | .fin s m e => if m = 0 then (BitVec.ofNat 32 (signBit .b32 s), .none) else roundMag32 s m 1 e

/-! ## Exact operations -/

/-- A value times 2^k. -/
def Num.scale (k : Int) : Num → Num
  | .fin s m e => .fin s m (e + k)
  | v => v

/-- The negated value. -/
def Num.neg : Num → Num
  | .nan => .nan
  | .inf s => .inf (!s)
  | .fin s m e => .fin (!s) m e

/-- A finite value as a multiple of 2^q, for q at or below its exponent. -/
def Num.toUnits (q : Int) (s : Bool) (m : Nat) (e : Int) : Int :=
  let n : Int := (m * 2 ^ (e - q).toNat : Nat)
  if s then -n else n

/-- The exact sum. Cancellation gives +0; two negative zeros give −0 (R83, R88). The flag is nv for ∞ − ∞. -/
def Num.add : Num → Num → Num × Bool
  | .nan, _ => (.nan, false)
  | _, .nan => (.nan, false)
  | .inf s, .inf t => if s = t then (.inf s, false) else (.nan, true)
  | .inf s, _ => (.inf s, false)
  | _, .inf t => (.inf t, false)
  | .fin s m e, .fin t n f =>
    if m = 0 ∧ n = 0 then (.zero (s && t), false)
    else
      let q := min e f
      let v := Num.toUnits q s m e + Num.toUnits q t n f
      (if v = 0 then .zero false else .fin (decide (v < 0)) v.natAbs q, false)

/-- The exact product; the flag is nv for 0 × ∞. -/
def Num.mul : Num → Num → Num × Bool
  | .nan, _ => (.nan, false)
  | _, .nan => (.nan, false)
  | .inf s, .inf t => (.inf (xor s t), false)
  | .inf s, .fin t n _ => if n = 0 then (.nan, true) else (.inf (xor s t), false)
  | .fin s m _, .inf t => if m = 0 then (.nan, true) else (.inf (xor s t), false)
  | .fin s m e, .fin t n f => (.fin (xor s t) (m * n) (e + f), false)

/-- Add nv to the flags of a rounding. -/
def withNv (nv : Bool) (r : Word × NFlags) : Word × NFlags := (r.1, ⟨r.2.nv || nv, r.2.ov, r.2.uz⟩)

/-! ## binary32 operations (R95) -/

/-- a + b. -/
def f32add (a b : Word) : Word × NFlags :=
  let r := (read32 a).add (read32 b)
  withNv r.2 (round32 r.1)

/-- a − b. -/
def f32sub (a b : Word) : Word × NFlags :=
  let r := (read32 a).add (read32 b).neg
  withNv r.2 (round32 r.1)

/-- a × b. -/
def f32mul (a b : Word) : Word × NFlags :=
  let r := (read32 a).mul (read32 b)
  withNv r.2 (round32 r.1)

/-- a × b + c with one rounding. nv of 0 × ∞ is set with a non-NaN c only. -/
def f32fma (a b c : Word) : Word × NFlags :=
  let p := (read32 a).mul (read32 b)
  let cv := read32 c
  let r := p.1.add cv
  withNv (r.2 || (p.2 && decide (cv ≠ .nan))) (round32 r.1)

/-- a / b. -/
def f32div (a b : Word) : Word × NFlags :=
  match read32 a, read32 b with
  | .nan, _ => (nan32, .none)
  | _, .nan => (nan32, .none)
  | .inf _, .inf _ => (nan32, .onlyNv)
  | .inf s, .fin t _ _ => round32 (.inf (xor s t))
  | .fin s _ _, .inf t => round32 (.zero (xor s t))
  | .fin s m e, .fin t n f =>
    if n = 0 then (if m = 0 then (nan32, .onlyNv) else round32 (.inf (xor s t)))
    else if m = 0 then round32 (.zero (xor s t))
    else roundMag32 (xor s t) m n (e - f)

/-- The integer square root, built bit by bit from bit k downward. -/
def isqrtBits (n : Nat) : Nat → Nat → Nat
  | 0, r => r
  | k + 1, r =>
    let c := r + 2 ^ k
    isqrtBits n k (if c * c ≤ n then c else r)

/-- The integer part of the square root of n. -/
def isqrt (n : Nat) : Nat := isqrtBits n (Nat.log2 n / 2 + 1) 0

/-- √a. The root is taken with 40 bits below the binary32 quantum and a sticky bit, which rounds as the exact root. -/
def f32sqrt (a : Word) : Word × NFlags :=
  match read32 a with
  | .nan => (nan32, .none)
  | .inf s => if s then (nan32, .onlyNv) else round32 (.inf false)
  | .fin s m e =>
    if m = 0 then round32 (.zero s)
    else if s then (nan32, .onlyNv)
    else
      let odd := e % 2 ≠ 0
      let n := (if odd then 2 * m else m) * 2 ^ 80
      let e' := ((if odd then e - 1 else e) - 80) / 2
      let r := isqrt n
      roundMag32 false (2 * r + (if r * r = n then 0 else 1)) 1 (e' - 1)

/-- 1 / √a with one rounding. -/
def f32rsqrt (a : Word) : Word × NFlags :=
  match read32 a with
  | .nan => (nan32, .none)
  | .inf s => if s then (nan32, .onlyNv) else round32 (.zero false)
  | .fin s m e =>
    if m = 0 then round32 (.inf s)
    else if s then (nan32, .onlyNv)
    else
      let odd := e % 2 ≠ 0
      let m' := if odd then 2 * m else m
      let e' := if odd then e - 1 else e
      let n := 2 ^ 140 / m'
      let r := isqrt n
      roundMag32 false (2 * r + (if r * r * m' = 2 ^ 140 then 0 else 1)) 1 (-70 - e' / 2 - 1)

/-- The order of two values, none where one is a NaN (R54): less, equal, greater as −1, 0, 1. -/
def Num.cmp : Num → Num → Option Int
  | .nan, _ => none
  | _, .nan => none
  | .inf s, .inf t => some (if s = t then 0 else if s then -1 else 1)
  | .inf s, _ => some (if s then -1 else 1)
  | _, .inf t => some (if t then 1 else -1)
  | .fin s m e, .fin t n f =>
    let q := min e f
    let d := Num.toUnits q s m e - Num.toUnits q t n f
    some (if d < 0 then -1 else if d = 0 then 0 else 1)

/-- Is the sign of a non-NaN value negative. -/
def Num.sign : Num → Bool
  | .nan => false
  | .inf s => s
  | .fin s _ _ => s

/-- MAX (R55). -/
def f32max (a b : Word) : Word :=
  let x := read32 a
  let y := read32 b
  match x.cmp y with
  | none => nan32
  | some c => (round32 (if c < 0 then y else if c > 0 then x else if x.sign then y else x)).1

/-- MIN (R55). -/
def f32min (a b : Word) : Word :=
  let x := read32 a
  let y := read32 b
  match x.cmp y with
  | none => nan32
  | some c => (round32 (if c < 0 then x else if c > 0 then y else if x.sign then x else y)).1

/-- A value as read: subnormals flushed, the canonical NaN for a NaN (R49, R51). -/
def f32pass (a : Word) : Word := (round32 (read32 a)).1

/-- ABS (R95). -/
def f32abs (a : Word) : Word :=
  match read32 a with
  | .nan => nan32
  | _ => f32pass a &&& 0x7FFFFFFF

/-- NEG (R95). -/
def f32neg (a : Word) : Word := (round32 (read32 a).neg).1

/-- The predicates of R178 under R54: EQ, NE, LT, LE, GT, GE. -/
def f32cmp (p : Nat) (a b : Word) : Bool :=
  match (read32 a).cmp (read32 b) with
  | none => p == 1
  | some c =>
    match p with
    | 0 => decide (c = 0)
    | 1 => decide (c ≠ 0)
    | 2 => decide (c < 0)
    | 3 => decide (c ≤ 0)
    | 4 => decide (c > 0)
    | _ => decide (0 ≤ c)

/-- A signed integer as binary32 (R177, ICVTF). -/
def f32ofInt (v : Int) : Word × NFlags :=
  if v = 0 then (0, .none) else roundMag32 (decide (v < 0)) v.natAbs 1 0

/-- A binary32 value truncated to a signed 64-bit integer, saturating (R179). -/
def f32toInt (a : Word) : DWord × NFlags :=
  match read32 a with
  | .nan => (0, .onlyNv)
  | .inf s => (if s then BitVec.intMin 64 else BitVec.intMax 64, .onlyNv)
  | .fin s m e =>
    let n : Nat := if 0 ≤ e then m * 2 ^ e.toNat else m / 2 ^ (-e).toNat
    if s then (if n ≤ 2 ^ 63 then (BitVec.ofInt 64 (-(n : Int)), .none) else (BitVec.intMin 64, .onlyNv))
    else if n < 2 ^ 63 then (BitVec.ofNat 64 n, .none) else (BitVec.intMax 64, .onlyNv)

/-! ## Scaled decode and conversion -/

/-- The effective exponent of two scale bytes; none where one is 0x80 (R57, R59). -/
def effExp (c f : Byte) : Option Int :=
  if c = 0x80 ∨ f = 0x80 then none else some (c.toInt + f.toInt)

/-- The scaled decode into binary32 (R61). A binary32 element is read under R49. DESIGN CHOICE (log entry 101): a scale byte other than
0x00 on a binary32 tensor, which the manual gives no scale, acts as it does on the other formats. -/
def decodeScaled (f : Fmt) (e : Option Int) (c : Nat) : Word × NFlags :=
  match e with
  | none => (nan32, .onlyNv)
  | some e =>
    match decodeCode f c with
    | .nan => (nan32, .none)
    | .inf s => round32 (.inf s)
    | .fin s m x => if m = 0 ∨ (f = .b32 ∧ c / 2 ^ 23 % 256 = 0) then round32 (.zero s) else roundMag32 s m 1 (x + e)

/-- How a conversion rounds: to nearest, or stochastically with the drawn word (R63, R70). -/
inductive Rounding where
  | nearest
  | draw (r : Word)
  deriving DecidableEq, Repr

/-- What an overflow gives (R64). -/
def overflowCode (f : Fmt) (sat s : Bool) : Nat :=
  match f with
  | .hx4 => signBit f s + 0x7
  | .hx6 => signBit f s + 0x1F
  | .hx8n => if sat then signBit f s + 0x7E else 0x7F
  | .hx8w => signBit f s + 0x7C
  | .hx16 => signBit f s + 0x7F80
  | .b32 => signBit f s + 0x7F800000

/-- Steps 3 to 6 of R62 for an exact value and exponent: one rounding, overflow, the zero's sign. -/
def convertExact (f : Fmt) (rd : Rounding) (sat : Bool) (e : Int) (s : Bool) (m : Nat) (x : Int) : Nat × NFlags :=
  let zc : Nat := if f = .hx4 then 0 else signBit f s
  if m = 0 then (zc, .none)
  else
    let qmin : Int := 1 - (f.bias : Int) - f.frac
    let q := max (leadExp m 1 (x - e) - f.frac) qmin
    let nd := inUnits m 1 (x - e) q
    let u := match rd with
      | .nearest => nearest nd
      | .draw r => stochastic r nd
    let mag := (q - qmin).toNat * 2 ^ f.frac + u
    if u = 0 then (zc, .onlyUz)
    else if f.maxMag < mag then (overflowCode f sat s, .onlyOf)
    else (signBit f s + mag, .none)

/-- The conversion of a binary32 value into a short format (R62, R65). -/
def convert (f : Fmt) (rd : Rounding) (sat : Bool) (e : Option Int) (a : Word) : Nat × NFlags :=
  match e with
  | none => (f.nanCode, .onlyNv)
  | some e =>
    match read32 a with
    | .nan => (f.nanCode, if f = .hx6 then .onlyNv else .none)
    | .inf s =>
      match f with
      | .hx8w => (signBit f s + 0x7C, .none)
      | .hx16 => (signBit f s + 0x7F80, .none)
      | .b32 => (signBit f s + 0x7F800000, .none)
      | _ => (overflowCode f sat s, .onlyOf)
    | .fin s m x => convertExact f rd sat e s m x

/-- SPLIT3 (R99): three HX16 codes and the flags. DESIGN CHOICE (log entry 101): a part that truncates a non-zero remainder to zero keeps the
sign of x, and a part whose remainder is zero is +0. -/
def split3 (a : Word) : (Nat × Nat × Nat) × NFlags :=
  match read32 a with
  | .nan => ((0x7FC0, 0x7FC0, 0x7FC0), .none)
  | .inf s => ((signBit .hx16 s + 0x7F80, 0, 0), .none)
  | .fin s m e =>
    if m = 0 then ((signBit .hx16 s, 0, 0), .none)
    else
      let h0 := (a >>> 16).toNat
      let r := m % 2 ^ 16
      if r = 0 then ((h0, 0, 0), .none)
      else
        let q := max (leadExp r 1 e - 7) (-133)
        let nd := inUnits r 1 e q
        let u := nd.1 / nd.2
        let h1 := signBit .hx16 s + (q + 133).toNat * 2 ^ 7 + u
        let r2 := nd.1 % nd.2
        let c := if r2 = 0 then (0, NFlags.none)
          else convertExact .hx16 .nearest false 0 s r2 (min e q)
        ((h0, if u = 0 then signBit .hx16 s else h1, c.1), c.2)

/-! ## The Philox draw (R67, R69) -/

/-- One round of Philox. -/
def philoxRound (c : Word × Word × Word × Word) (k : Word × Word) : Word × Word × Word × Word :=
  let p0 : DWord := 0xD2511F53 * c.1.setWidth 64
  let p1 : DWord := 0xCD9E8D57 * c.2.2.1.setWidth 64
  ((p1 >>> 32).setWidth 32 ^^^ c.2.1 ^^^ k.1, p1.setWidth 32, (p0 >>> 32).setWidth 32 ^^^ c.2.2.2 ^^^ k.2, p0.setWidth 32)

/-- n rounds, the key raised between them. -/
def philoxRounds : Nat → Word × Word × Word × Word → Word × Word → Word × Word × Word × Word
  | 0, c, _ => c
  | n + 1, c, k => philoxRounds n (philoxRound c k) (k.1 + 0x9E3779B9, k.2 + 0xBB67AE85)

/-- Philox-4x32-10 (R69). -/
def philox (c : Word × Word × Word × Word) (k : Word × Word) : Word × Word × Word × Word := philoxRounds 10 c k

/-- The word that a stochastic rounding draws (R67). -/
def drawWord (seed : DWord) (i : Nat) (tensor step : Word) (rank : BitVec 12) (use : Byte) : Word :=
  let o := philox (BitVec.ofNat 32 (i / 4), tensor, step, rank.setWidth 32 <<< 20 ||| use.setWidth 32)
    (seed.setWidth 32, (seed >>> 32).setWidth 32)
  match i % 4 with
  | 0 => o.1
  | 1 => o.2.1
  | 2 => o.2.2.1
  | _ => o.2.2.2

/-- Is a use code one of R67. -/
def useCodeOk (u : Byte) : Bool := 1 ≤ u && u ≤ 4

/-! ## The cross-lane tree (R96) -/

/-- One stage of the tree: neighbours combined in pairs. -/
def pairUp (op : Word → Word → Word × NFlags) : List Word → List Word × NFlags
  | a :: b :: t =>
    let r := op a b
    let rest := pairUp op t
    (r.1 :: rest.1, r.2.or rest.2)
  | l => (l, .none)

/-- n stages. -/
def treeReduce (op : Word → Word → Word × NFlags) : Nat → List Word → NFlags → Word × NFlags
  | 0, l, fl => (l.headD 0, fl)
  | n + 1, l, fl =>
    let r := pairUp op l
    treeReduce op n r.1 (fl.or r.2)

/-- The operator of a reduction code: SUM, MAX, MIN, AMAX. -/
def redOp (c : Nat) (a b : Word) : Word × NFlags :=
  match c with
  | 0 => f32add a b
  | 1 => (f32max a b, .none)
  | 2 => (f32min a b, .none)
  | _ => (f32max (f32abs a) (f32abs b), .none)

/-- The identity of a reduction code for inactive lanes. -/
def redIdentity (c : Nat) : Word :=
  match c with
  | 0 => 0x80000000
  | 1 => 0xFF800000
  | 2 => 0x7F800000
  | _ => 0

/-- The reduction of 512 lanes, each with its active bit. -/
def reduceLanes (c : Nat) (lanes : List (Word × Bool)) : Word × NFlags :=
  treeReduce (redOp c) 9 (lanes.map fun l => if l.2 then l.1 else redIdentity c) .none

/-! ## Packing (R52) -/

/-- The bits of a byte list as one little-endian number. -/
def leNat : List Byte → Nat
  | [] => 0
  | b :: bs => b.toNat + 256 * leNat bs

/-- A number as n little-endian bytes. -/
def leBytes : Nat → Nat → List Byte
  | 0, _ => []
  | n + 1, v => BitVec.ofNat 8 v :: leBytes n (v / 256)

/-- n elements of w bits from a little-endian number, element 0 in the lowest bits (R52). -/
def unpackNat (w : Nat) : Nat → Nat → List Nat
  | 0, _ => []
  | n + 1, v => v % 2 ^ w :: unpackNat w n (v / 2 ^ w)

/-- Elements of w bits as one number. -/
def packNat (w : Nat) : List Nat → Nat
  | [] => 0
  | c :: cs => c % 2 ^ w + 2 ^ w * packNat w cs

/-- n codes of a format from packed bytes (R52). -/
def unpack (f : Fmt) (n : Nat) (bs : List Byte) : List Nat := unpackNat f.bits n (leNat bs)

/-- Codes of a format packed into bytes (R52). -/
def pack (f : Fmt) (cs : List Nat) : List Byte := leBytes (f.bytes cs.length) (packNat f.bits cs)

end Sys2Proof.Machine
end

