-- ==== Sys2Proof/Machine/Digest.lean ====
section
/-! DEFINITION. Checks and digests: the CRC-64 of R316, the CRC-32C of R346, SHAKE256 (FIPS 202, log entry 11), and the
Reed-Solomon code of the links (R343). -/

namespace Sys2Proof.Machine

/-! ## CRCs -/

/-- Eight steps of a reflected CRC of width w with polynomial p. -/
def crcBits {w : Nat} (p : BitVec w) : Nat → BitVec w → BitVec w
  | 0, c => c
  | n + 1, c => crcBits p n (if c.getLsbD 0 then (c >>> 1) ^^^ p else c >>> 1)

/-- A reflected CRC over a byte list, from register c. -/
def crcRun {w : Nat} (p : BitVec w) : List Byte → BitVec w → BitVec w
  | [], c => c
  | b :: bs, c => crcRun p bs (crcBits p 8 (c ^^^ b.setWidth w))

/-- The CRC-64 of R316. -/
def crc64 (bs : List Byte) : DWord := crcRun 0xC96C5795D7870F42 bs 0xFFFFFFFFFFFFFFFF ^^^ 0xFFFFFFFFFFFFFFFF

/-- CRC-32C (R346). -/
def crc32c (bs : List Byte) : Word := crcRun 0x82F63B78 bs 0xFFFFFFFF ^^^ 0xFFFFFFFF

/-- The 64-bit words of a byte list, little-endian. -/
def leWords : Nat → List Byte → List DWord
  | 0, _ => []
  | n + 1, bs => BitVec.ofNat 64 (leNat (bs.take 8)) :: leWords n (bs.drop 8)

/-! ## SHAKE256 -/

/-- A Keccak state: five planes of five lanes each. -/
abbrev Planes := List (List DWord)

/-- The exclusive or of two planes, lane by lane. -/
def planeXor (p q : List DWord) : List DWord := List.zipWith (fun a b => a ^^^ b) p q

/-- Each lane takes the parity of its two neighbouring columns. -/
def stirColumns (a : Planes) : Planes :=
  let parity := a.foldl planeXor (List.replicate 5 0)
  let d := List.zipWith (fun left right => left ^^^ BitVec.rotateLeft right 1) (parity.rotateRight 1) (parity.rotateLeft 1)
  a.map fun p => planeXor p d

/-- Replace one lane. -/
def putLane (x y : Nat) (v : DWord) (a : Planes) : Planes := a.set y ((a.getD y []).set x v)

/-- The 24 lanes off the origin wander along one cycle of places, turned by the triangular numbers. -/
def wander (a : Planes) : Planes :=
  ((List.range 24).foldl (fun (w : Planes × Nat × Nat) t =>
    let next := (2 * w.2.1 + 3 * w.2.2) % 5
    (putLane w.2.2 next (((a.getD w.2.2 []).getD w.2.1 0).rotateLeft ((t + 1) * (t + 2) / 2 % 64)) w.1, w.2.2, next)) (a, 1, 0)).1

/-- The non-linear step within a plane. -/
def mixPlane (p : List DWord) : List DWord :=
  planeXor p (List.zipWith (fun b c => ~~~b &&& c) (p.rotateLeft 1) (p.rotateLeft 2))

/-- The bits of the shift register behind the round constants. -/
def shiftBits : Nat → BitVec 8 → List Bool
  | 0, _ => []
  | n + 1, r => r.getLsbD 0 :: shiftBits n ((r <<< 1) ^^^ (if r.getLsbD 7 then 0x71 else 0))

/-- The constant of a round from its seven bits: they stand at the places 2^j - 1. -/
def roundWord (bits : List Bool) : DWord :=
  (List.range 7).foldl (fun w j => if bits.getD j false then w ||| (1#64 <<< (2 ^ j - 1)) else w) 0

/-- One round. -/
def kRound (c : DWord) (a : Planes) : Planes :=
  let b := (wander (stirColumns a)).map mixPlane
  putLane 0 0 ((b.getD 0 []).getD 0 0 ^^^ c) b

/-- The permutation of 1,600 bits: 24 rounds. -/
def kPermute (a : Planes) : Planes :=
  let bits := shiftBits 168 1
  (List.range 24).foldl (fun a i => kRound (roundWord (bits.drop (7 * i))) a) a

/-- The planes that a block of bytes fills from the start. -/
def planesOf (bs : List Byte) : Planes :=
  (List.range 5).map fun y => (List.range 5).map fun x => BitVec.ofNat 64 (leNat ((bs.drop (40 * y + 8 * x)).take 8))

/-- The bytes that bring a message to whole blocks of 136. -/
def shakeTail (n : Nat) : List Byte :=
  (List.range n).map fun i => (if i = 0 then 0x1F else 0) ^^^ (if i + 1 = n then 0x80 else 0)

/-- The first n bytes of SHAKE256 of a message, n at most 136. -/
def shake256 (n : Nat) (msg : List Byte) : List Byte :=
  let blocks := msg.length / 136 + 1
  let whole := msg ++ shakeTail (blocks * 136 - msg.length)
  let a := (List.range blocks).foldl (fun a i => kPermute (List.zipWith planeXor a (planesOf ((whole.drop (136 * i)).take 136))))
    (List.replicate 5 (List.replicate 5 0))
  (a.flatten.flatMap fun w => leBytes 8 w.toNat).take n

/-- The first 32 bytes of SHAKE256 as a 256-bit number, byte 0 lowest. -/
def digest32 (msg : List Byte) : BitVec 256 := BitVec.ofNat 256 (leNat (shake256 32 msg))

/-! ## RS(528, 512) over GF(2^10) (R343) -/

/-- An element of GF(2^10), polynomial x^10 + x^3 + 1. -/
abbrev Sym := BitVec 10

/-- Multiplication by α. -/
def gfX (a : Sym) : Sym := if a.getLsbD 9 then (a <<< 1) ^^^ 0x009 else a <<< 1

/-- The product, over the low n bits of b. -/
def gfMulBits (a : Sym) (b : Sym) : Nat → Sym
  | 0 => 0
  | n + 1 => gfX (gfMulBits a b n) ^^^ (if b.getLsbD (10 - (n + 1)) then a else 0)

/-- The product of two field elements. -/
def gfMul (a b : Sym) : Sym := gfMulBits b (BitVec.ofBoolListLE ((List.range 10).map fun i => a.getLsbD i)) 10

/-- a^n. -/
def gfPow (a : Sym) : Nat → Sym
  | 0 => 1
  | n + 1 => gfMul a (gfPow a n)

/-- The inverse, a^1022 by squaring: a^(2 + 4 + … + 512). -/
def gfInvSteps : Nat → Sym → Sym
  | 0, _ => 1
  | n + 1, s => gfMul s (gfInvSteps n (gfMul s s))

/-- The inverse of a non-zero element. -/
def gfInv (a : Sym) : Sym := gfInvSteps 9 (gfMul a a)

/-- α^n for any n, by the table's recursion. -/
def gfAlpha : Nat → Sym
  | 0 => 1
  | n + 1 => gfX (gfAlpha n)

/-- A polynomial as coefficients from the constant term upward: value at x. -/
def polyEval (p : List Sym) (x : Sym) : Sym := p.foldr (fun c acc => c ^^^ gfMul x acc) 0

/-- p × (x − r). -/
def polyMulRoot (p : List Sym) (r : Sym) : List Sym :=
  List.zipWith (· ^^^ ·) ((0 : Sym) :: p) ((p.map (gfMul r)) ++ [(0 : Sym)])

/-- The generator: the product of (x − α^i), i = 0 to 15 (R343). -/
def rsGenerator : List Sym := (List.range 16).foldl (fun p i => polyMulRoot p (gfAlpha i)) [1]

/-- One step of the systematic encoder: the remainder register, highest coefficient first. -/
def rsShift (g : List Sym) (reg : List Sym) (d : Sym) : List Sym :=
  let fb := d ^^^ reg.headD 0
  List.zipWith (fun r c => r ^^^ gfMul fb c) (reg.drop 1 ++ [0]) g

/-- The codeword of 512 data symbols, data symbol 0 the coefficient of x^527 (R343). -/
def rsEncode (data : List Sym) : List Sym :=
  let g := (rsGenerator.take 16).reverse
  data ++ data.foldl (rsShift g) (List.replicate 16 0)

/-- The 512 data symbols of a block: symbol m holds block bits 10m to 10m + 9 (R343). -/
def blockSymbols (bs : List Byte) : List Sym := (unpackNat 10 512 (leNat bs)).map (BitVec.ofNat 10)

/-- The block of 512 data symbols. -/
def symbolsBlock (sy : List Sym) : List Byte := leBytes 640 (packNat 10 (sy.map (·.toNat)))

/-- The 16 syndromes of a received word, its first symbol the highest coefficient. -/
def rsSyndromes (sy : List Sym) : List Sym :=
  (List.range 16).map fun i => sy.foldl (fun acc s => gfMul (gfAlpha i) acc ^^^ s) 0

/-- Add c × x^k × q to p. -/
def polyAddMul (p q : List Sym) (c : Sym) (k : Nat) : List Sym :=
  (List.range (max p.length (q.length + k))).map fun i =>
    p.getD i 0 ^^^ (if k ≤ i then gfMul c (q.getD (i - k) 0) else 0)

/-- The state of the Berlekamp-Massey search: locator, its predecessor, errors, gap, last discrepancy. -/
structure BmState where
  loc  : List Sym
  prev : List Sym
  errs : Nat
  gap  : Nat
  last : Sym
  deriving DecidableEq, Repr

/-- One step of the search, at syndrome n. -/
def bmStep (syn : List Sym) (b : BmState) (n : Nat) : BmState :=
  let d := (List.range (b.errs + 1)).foldl (fun acc i => acc ^^^ gfMul (b.loc.getD i 0) (if i ≤ n then syn.getD (n - i) 0 else 0)) (0 : Sym)
  if d = 0 then { b with gap := b.gap + 1 }
  else
    let loc := polyAddMul b.loc b.prev (gfMul d (gfInv b.last)) b.gap
    if 2 * b.errs ≤ n then ⟨loc, b.loc, n + 1 - b.errs, 1, d⟩
    else { b with loc := loc, gap := b.gap + 1 }

/-- Decode a received word: the 528 corrected symbols and the number of corrections, or none where more than 8
symbols are wrong as far as the code can tell. -/
def rsDecode (sy : List Sym) : Option (List Sym × Nat) :=
  let syn := rsSyndromes sy
  if syn.all (· == 0) then some (sy, 0)
  else
    let b := (List.range 16).foldl (bmStep syn) ⟨[1], [1], 0, 1, 1⟩
    if 8 < b.errs then none
    else
      let roots := (List.range 528).filter fun p => polyEval b.loc (gfAlpha ((1023 - p) % 1023)) == 0
      if roots.length ≠ b.errs then none
      else
        let omega := (polyAddMul [] ((List.range 16).map fun i =>
          (List.range (i + 1)).foldl (fun acc j => acc ^^^ gfMul (b.loc.getD j 0) (syn.getD (i - j) 0)) (0 : Sym)) 1 0)
        let fixed := roots.foldl (fun (acc : List Sym) p =>
          let xi := gfAlpha ((1023 - p) % 1023)
          let num := gfMul (gfAlpha p) (polyEval omega xi)
          let den := (List.range (b.loc.length / 2 + 1)).foldl (fun a k =>
            a ^^^ gfMul (b.loc.getD (2 * k + 1) 0) (gfPow (gfMul xi xi) k)) (0 : Sym)
          acc.set (527 - p) (acc.getD (527 - p) 0 ^^^ gfMul num (gfInv den))) sy
        if (rsSyndromes fixed).all (· == 0) then some (fixed, b.errs) else none

end Sys2Proof.Machine
end

