-- ==== Sys2Proof/Machine/Ops.lean ====
section
/-! DEFINITION. The shared operations on the state: access to its parts, the module address space and its protected
memory, free values, the module event log. -/

namespace Sys2Proof.Machine

/-! ## Parts of the state -/

/-- The cluster of a flat index. -/
def State.clu (c : ClusterId) (s : State) : Cluster := Table.get Cluster.reset c.toNat s.clusters
/-- Put a cluster. -/
def State.setClu (c : ClusterId) (v : Cluster) (s : State) : State :=
  { s with clusters := Table.set Cluster.reset c.toNat v s.clusters }
/-- Change a cluster. -/
def State.modClu (c : ClusterId) (g : Cluster → Cluster) (s : State) : State := s.setClu c (g (s.clu c))

/-- The stream engine of a port. -/
def State.eng (p : Port) (s : State) : Engine := Table.get Engine.reset p.toNat s.engines
/-- Put a stream engine. -/
def State.setEng (p : Port) (v : Engine) (s : State) : State :=
  { s with engines := Table.set Engine.reset p.toNat v s.engines }
/-- Change a stream engine. -/
def State.modEng (p : Port) (g : Engine → Engine) (s : State) : State := s.setEng p (g (s.eng p))

/-- A quadrant die. -/
def State.die (d : Die) (s : State) : DieState := Table.get DieState.reset d.toNat s.dies
/-- Put a die. -/
def State.setDie (d : Die) (v : DieState) (s : State) : State :=
  { s with dies := Table.set DieState.reset d.toNat v s.dies }
/-- Change a die. -/
def State.modDie (d : Die) (g : DieState → DieState) (s : State) : State := s.setDie d (g (s.die d))

/-- A port. -/
def State.port (p : Port) (s : State) : PortState := Table.get PortState.reset p.toNat s.ports
/-- Put a port. -/
def State.setPort (p : Port) (v : PortState) (s : State) : State :=
  { s with ports := Table.set PortState.reset p.toNat v s.ports }
/-- Change a port. -/
def State.modPort (p : Port) (g : PortState → PortState) (s : State) : State := s.setPort p (g (s.port p))

/-- A barrier slot. -/
def State.bar (k : Nat) (s : State) : Bar := Table.get Bar.reset k s.bars
/-- Change a barrier slot. -/
def State.modBar (k : Nat) (g : Bar → Bar) (s : State) : State :=
  { s with bars := Table.set Bar.reset k (g (s.bar k)) s.bars }

/-- A counter (R293). -/
def State.counter (n : CounterName) (s : State) : Counter :=
  Table.get Counter.reset (n.toNat % 16384) (s.die n.die).counters
/-- Change a counter. -/
def State.modCounter (n : CounterName) (g : Counter → Counter) (s : State) : State :=
  s.modDie n.die fun d =>
    { d with counters := Table.set Counter.reset (n.toNat % 16384) (g (s.counter n)) d.counters }

/-- The job slot that holds a job number; job 0 names no job (R459). -/
def State.jobSlot (no : JobNo) (s : State) : Option Nat :=
  if no = 0 then none else (s.jobs.find? fun e => e.2.no == no).map (·.1)
/-- The job of a number, the empty job where no slot holds it. -/
def State.job (no : JobNo) (s : State) : Job :=
  match s.jobSlot no with
  | some k => Table.get Job.reset k s.jobs
  | none => Job.reset
/-- Change the job of a number. -/
def State.modJob (no : JobNo) (g : Job → Job) (s : State) : State :=
  match s.jobSlot no with
  | some k => { s with jobs := Table.set Job.reset k (g (Table.get Job.reset k s.jobs)) s.jobs }
  | none => s
/-- The plate of a job. -/
def State.plate (no : JobNo) (s : State) : Option Plate := (s.job no).plate
/-- Change the hub. -/
def State.modHub (g : Hub → Hub) (s : State) : State := { s with hub := g s.hub }
/-- Change the pair state. -/
def State.modPair (g : Pair → Pair) (s : State) : State := { s with pair := g s.pair }
/-- Change the margin controller. -/
def State.modMargin (g : Margin → Margin) (s : State) : State := { s with margin := g s.margin }
/-- Change the fabric state. -/
def State.modFab (g : Fabric → Fabric) (s : State) : State := { s with fab := g s.fab }
/-- Change the meter. -/
def State.modMeter (g : Meter → Meter) (s : State) : State := { s with meter := g s.meter }

/-- Send something out of the package (log entry 13). -/
def State.output (o : Output) (s : State) : State := { s with outbox := s.outbox ++ [o] }

/-! ## Presence (R3 to R8) -/

/-- Is a cluster enabled by the fuses. -/
def State.hasCluster (c : ClusterId) (s : State) : Bool := !s.fuse.clusterOff.getLsbD c.toNat
/-- Is a port enabled by the fuses. -/
def State.hasPort (p : Port) (s : State) : Bool := !s.fuse.portOff.getLsbD p.toNat
/-- Engine j of the region of a cluster (R190). -/
def enginePort (c : ClusterId) (j : Bool) : Port :=
  BitVec.ofNat 6 (16 * c.die.toNat + 2 * (c.region.toNat % 8) + (if j then 1 else 0))
/-- All flat indices. -/
def allClusters : List ClusterId := (List.range 256).map (BitVec.ofNat 8)
/-- All ports. -/
def allPorts : List Port := (List.range 64).map (BitVec.ofNat 6)
/-- The four dies. -/
def allDies : List Die := [0, 1, 2, 3]

/-! ## Sorting -/

/-- Insert v before the first entry that it may precede. -/
def insertBy {α : Type} (le : α → α → Bool) (v : α) : List α → List α
  | [] => [v]
  | w :: t => if le v w then v :: w :: t else w :: insertBy le v t

/-- A list in the order le; entries that le ranks equal keep their order. -/
def sortBy {α : Type} (le : α → α → Bool) : List α → List α
  | [] => []
  | v :: t => insertBy le v (sortBy le t)

/-! ## Saturating counts -/

/-- Add to a 32-bit saturating count. -/
def sat32 (v n : Nat) : Nat := min (v + n) 0xFFFFFFFF

/-- A free value, and the state with the count of free values advanced (log entry 9). -/
def State.free (s : State) : DWord × State := (Config.freeValue s.freeCtr, { s with freeCtr := s.freeCtr + 1 })

/-! ## The module address space (R187) -/

/-- A place in the module address space. -/
inductive Loc where
  | sram (c : ClusterId) (off : Nat)
  | dram (stack : BitVec 5) (off : Nat)
  | bad
  deriving DecidableEq, Repr

/-- The bytes of a stack (R435). -/
def stackBytes : Nat := 80000000000
/-- Where the firmware reserve begins in each stack (R446). -/
def reserveBase : Nat := 79500000000

/-- The place that a module address names; bad where a bit that must be 0 is set, the space is reserved, or the
offset lies beyond the stack (R187). -/
def DWord.loc (a : DWord) : Loc :=
  if a.toNat / 2 ^ 62 = 0 then
    if a.toNat < 2 ^ 31 then .sram (BitVec.ofNat 8 (a.toNat / 2 ^ 23)) (a.toNat % 2 ^ 23) else .bad
  else if a.toNat / 2 ^ 62 = 1 then
    let r := a.toNat % 2 ^ 62
    if r < 2 ^ 42 ∧ r % 2 ^ 37 < stackBytes then .dram (BitVec.ofNat 5 (r / 2 ^ 37)) (r % 2 ^ 37) else .bad
  else .bad

/-- The module address of a byte of a cluster's SRAM. -/
def sramAddr (c : ClusterId) (off : Nat) : Nat := c.toNat * 2 ^ 23 + off
/-- The module address of a byte of a stack. -/
def dramAddr (stack : Nat) (off : Nat) : Nat := 2 ^ 62 + stack * 2 ^ 37 + off

/-- Does a range of n bytes from a stay in its SRAM or stack. -/
def inSpace (a : DWord) (n : Nat) : Bool :=
  match DWord.loc a with
  | .sram _ o => decide (o + n ≤ 2 ^ 23)
  | .dram _ o => decide (o + n ≤ stackBytes)
  | .bad => false

/-- Does a range name SRAM of a disabled cluster. -/
def State.absentAt (a : DWord) (s : State) : Bool :=
  match DWord.loc a with
  | .sram c _ => !s.hasCluster c
  | _ => false

/-- Does a range reach into the firmware reserve (R446). -/
def inReserve (a : DWord) (n : Nat) : Bool :=
  match DWord.loc a with
  | .dram _ o => decide (reserveBase < o + n)
  | _ => false

/-- Do two ranges of bytes meet. -/
def meets (a n b m : Nat) : Bool := decide (a < b + m) && decide (b < a + n)

/-- Is a range inside another. -/
def inside (a n b m : Nat) : Bool := decide (b ≤ a) && decide (a + n ≤ b + m)

/-! ## Protected memory (R150, R441) -/

/-- The size of the protected word at an address: 8 bytes in SRAM, 64 in a stack (R150, R435). -/
def codeWord (a : Nat) : Nat := if a < 2 ^ 62 then 8 else 64
/-- The first byte of the protected word that holds an address. -/
def wordStart (a : Nat) : Nat := a / codeWord a * codeWord a

/-- The bytes of a range. -/
def State.read (a n : Nat) (s : State) : List Byte := Memory.readN a n s.mem
/-- A little-endian number in memory. -/
def State.readLe (a n : Nat) (s : State) : Nat := leNat (s.read a n)

/-- Store bytes but leave the bytes of the listed words as they are. -/
def writeSkip (skip : List Nat) (a : Nat) : List Byte → Memory → Memory
  | [], m => m
  | b :: bs, m => writeSkip skip (a + 1) bs (if skip.contains (wordStart a) then m else Memory.write a b m)

/-- The uncorrectable words that a range covers only in part: a write to them is discarded (R150, R438). -/
def State.spoiled (a n : Nat) (s : State) : List Nat :=
  s.badWords.filter fun w => meets a n w (codeWord w) && !inside w (codeWord w) a n

/-- The words with a correctable error that a range meets (R150, R441). -/
def State.weakIn (a n : Nat) (s : State) : List Nat := s.weakWords.filter fun w => meets a n w (codeWord w)

/-- Store bytes at an address: a whole word is replaced and made good, a part of a word is merged, and a part of an
uncorrectable word is discarded (R150, R438). The word that a write leaves holds no correctable error. -/
def State.write (a : Nat) (bs : List Byte) (s : State) : State :=
  let skip := s.spoiled a bs.length
  { s with
    mem := writeSkip skip a bs s.mem
    badWords := s.badWords.filter fun w => !inside w (codeWord w) a bs.length
    weakWords := s.weakWords.filter fun w => !meets a bs.length w (codeWord w) }

/-- What an access to a protected word finds: an error that the word is known to hold, else what the command says. -/
def State.wordFinds (w : Nat) (found : Syndrome) (s : State) : Syndrome :=
  if s.badWords.contains w then .uncorrectable else if found = .clean ∧ s.weakWords.contains w then .corrected else found

/-- Single-bit errors in words of a cluster's SRAM are corrected in the access that meets them, and each counts (R150). -/
def State.corrects (c : ClusterId) (ws : List Nat) (s : State) : State :=
  if ws.isEmpty then s else s.modClu c fun k => { k with sramCorrected := sat32 k.sramCorrected ws.length }

/-- A stack of the module. -/
def State.stack (k : Nat) (s : State) : Stack :=
  Table.get Stack.reset (k % 8) (s.die (BitVec.ofNat 2 (k / 8))).stk
/-- Change a stack. -/
def State.modStack (k : Nat) (g : Stack → Stack) (s : State) : State :=
  s.modDie (BitVec.ofNat 2 (k / 8)) fun d =>
    { d with stk := Table.set Stack.reset (k % 8) (g (s.stack k)) d.stk }

/-- Place of a stack offset: channel, bank, row, column (R436). -/
def dramMap (o : Nat) : Nat × Nat × Nat × Nat :=
  let c := o / 256
  let a := c / 16 * 256 + o % 256
  ((c % 16) ^^^ (c / 16 % 16), a / 2048 % 16, a / 32768, a % 2048)

/-- Until when an access at an offset waits: for the slot that blocks its bank, and behind the accesses that wait in its channel (R440). -/
def Stack.till (o : Nat) (t : Stack) : Nat :=
  let m := dramMap o
  max (Table.get 0 (m.1 * 16 + m.2.1) t.blocked) (Table.get 0 m.1 t.chanTill)

/-- The 256-byte chunks of a stack that n bytes at an offset touch, each with the number of its code words that they touch (R435, R436). -/
def dramChunks (o n : Nat) : List (Nat × Nat) :=
  (List.range ((o % 256 + n + 255) / 256)).map fun i =>
    let c := o / 256 * 256 + 256 * i
    (c, (min (o + n) (c + 256) + 63) / 64 - max o c / 64)

/-- How long the last of the accesses for n bytes at an offset waits (R440). -/
def Stack.waits (o n now : Nat) (t : Stack) : Nat :=
  if t.blocked.isEmpty then 0 else (dramChunks o n).foldl (fun m c => max m (t.till c.1 - now)) 0

/-- A stack after the accesses for n bytes at an offset: each code word's wait counts, and the queue of a channel whose bank is blocked
waits with it (R440, R450). -/
def Stack.access (o n now : Nat) (t : Stack) : Stack :=
  if t.blocked.isEmpty then t
  else (dramChunks o n).foldl (fun t c =>
    let w := t.till c.1 - now
    if w = 0 then t
    else
      let ch := (dramMap c.1).1
      { t with refreshNs := t.refreshNs + w * c.2, chanTill := Table.set 0 ch (max (Table.get 0 ch t.chanTill) (now + w)) t.chanTill }) t

/-- Count demand bytes read from a stack, and the waits for refresh slots (R440, R450). -/
def State.noteRead (a n : Nat) (s : State) : State :=
  match DWord.loc (BitVec.ofNat 64 a) with
  | .dram k o => s.modStack k.toNat fun t => { t.access o n s.time with bytesRead := t.bytesRead + n }
  | _ => s

/-- Count demand bytes written to a stack, the partial words merged, and the waits for refresh slots (R438, R440,
R450). -/
def State.noteWrite (a n : Nat) (s : State) : State :=
  match DWord.loc (BitVec.ofNat 64 a) with
  | .dram k o => s.modStack k.toNat fun t =>
    { t.access o n s.time with
      bytesWritten := t.bytesWritten + n
      merges := t.merges + (if a % 64 = 0 then 0 else 1) + (if (a + n) % 64 = 0 ∨ (a % 64 ≠ 0 ∧ a / 64 = (a + n) / 64) then 0 else 1) }
  | _ => s

/-- A demand write by a unit outside a cluster's own engines. -/
def State.store (a : Nat) (bs : List Byte) (s : State) : State := (s.noteWrite a bs.length).write a bs

/-! ## The module event log (R521) -/

/-- The code of a module state (R511). -/
def ModSt.code : ModSt → BitVec 4
  | .unpaired => 0
  | .paired => 1
  | .recovering => 2
  | .partnerLost => 3
  | .takeover => 4
  | .solo => 5
  | .resync => 6
  | .fenced => 7

/-- Append to a log that keeps the latest n records (R462). -/
def pushRing {α : Type} (n : Nat) (v : α) (l : List α) : List α := (l ++ [v]).drop (l.length + 1 - n)

/-- The record of an event; seq counts from 1 (log entry 20). -/
def State.event (code : BitVec 16) (cls : BitVec 4) (unit : BitVec 16) (job : JobNo) (detail : Word) (s : State) : Event where
  code := code
  cls := cls
  injected := false
  fenced := false
  recStart := false
  recEnd := false
  stAfter := s.pair.st.code
  unit := unit
  job := job
  seq := s.hub.eventSeq + 1
  detail := detail
  time := s.time

/-- Append an event. -/
def State.append (e : Event) (s : State) : State :=
  { s with hub := { s.hub with events := pushRing 1024 e s.hub.events, eventSeq := e.seq } }

/-- Write an event to the module event log. -/
def State.log (code : BitVec 16) (cls : BitVec 4) (unit : BitVec 16) (job : JobNo) (detail : Word) (s : State) : State :=
  s.append (s.event code cls unit job detail)

/-- The classes of a unit in records (R200, R521). -/
def clsNone : BitVec 4 := 0x0
/-- A cluster. -/
def clsCluster : BitVec 4 := 0x8
/-- A port. -/
def clsPort : BitVec 4 := 0x9
/-- A stack. -/
def clsStack : BitVec 4 := 0xA
/-- The module. -/
def clsModule : BitVec 4 := 0xB
/-- A tensor or shard. -/
def clsTensor : BitVec 4 := 0xC
/-- A rank. -/
def clsRank : BitVec 4 := 0xD

end Sys2Proof.Machine
end

