-- ==== Sys2Proof/Machine/Egress.lean ====
section
/-! DEFINITION. Hatch lists, and the rules by which the egress of a port holds a frame back: rates, gates, credits, the
bubble, the guard band (13 R360, R362; 14 R383; 15 R393 to R402). -/

namespace Sys2Proof.Machine

/-! ## Hatch entries (R399 to R403) -/

/-- The offset of entry e in the cycle, in units of 256 ns (R400). -/
def Hatch.offset (h : Hatch) (e : Nat) : Nat := (h.entries.take e).foldl (fun n x => n + x.duration) h.phase

/-- Does entry e start at an instant (R400). -/
def Hatch.startsAt (h : Hatch) (e now : Nat) : Bool :=
  decide (e < h.entries.length) && decide (0 < h.cycle) && decide (256 * h.offset e ≤ now)
    && (now - 256 * h.offset e) % (256 * h.cycle) == 0

/-- The first start of entry e at or after an instant (R403). -/
def Hatch.nextStart (h : Hatch) (e now : Nat) : Nat :=
  let a := 256 * h.offset e
  let l := 256 * h.cycle
  if now ≤ a then a else a + (now - a + l - 1) / l * l

/-- The next instant after now at which the gate of a class closes: the first start of an entry that keeps it closed. -/
def Hatch.closes (h : Hatch) (c now : Nat) : Option Nat :=
  (((List.range h.entries.length).filter fun e => match h.entries[e]? with
    | some x => !x.gates.getLsbD c
    | none => false).map fun e => h.nextStart e (now + 1)).min?

/-- The entry of a hatch list that is current; none before the first occurrence of entry 0 (R400, R401). -/
def Hatch.current (now : Nat) (h : Hatch) : Option Nat :=
  if h.cycle = 0 ∨ now < 256 * h.phase then none
  else
    let x := (now / 256 - h.phase) % h.cycle
    (List.range h.entries.length).find? fun e =>
      decide (h.offset e - h.phase ≤ x) && decide (x < h.offset e - h.phase + (match h.entries[e]? with | some y => y.duration | none => 0))

/-! ## Rates and costs (R362, R395) -/

/-- The number of set bits of a lane mask. -/
def laneCount (m : Byte) : Nat := ((List.range 8).filter m.getLsbD).length

/-- The port rate Rp at width W in MB/s, which is 1/1000 byte in each ns. -/
def portRate (w : Nat) : Nat := 15625 * w

/-- The weight of a class in a port weight word (R266). -/
def weightOf (w : DWord) (c : Nat) : Nat := w.toNat / 2 ^ (8 * c) % 256

/-- The sum of the weights in a port weight word. -/
def weightSum (w : DWord) : Nat := (List.range 5).foldl (fun n c => n + weightOf w c) 0

/-- The rate r0 of the C0 reservation in MB/s as its register shows it, rounded down (R395, R414; log entry 110). -/
def c0Rate (w : DWord) : Nat := 125000 * weightOf w 0 / max 1 (weightSum w)

/-- The cost of a frame in bytes. -/
def frameCost (f : Frame) : Nat := (f.plen.toNat + 2) * 32
/-- The units of a frame (R360). -/
def unitCount (f : Frame) : Nat := f.plen.toNat + 2

/-- The contents of a bucket after a time: it fills at a rate and is capped. -/
def fillBucket (cap rate v dt : Nat) : Nat := min cap (v + rate * dt)

/-- A policer with its buckets filled to an instant at the rates that have held since the last time (R405). -/
def Policer.fill (now : Nat) (p : Policer) : Policer :=
  let dt := now - p.filled
  { p with
    tc := fillBucket (1000 * p.cbs.toNat) p.eff.toNat p.tc dt
    tp := fillBucket (1000 * p.pbs.toNat) (max p.pir.toNat p.eff.toNat) p.tp dt
    filled := now }

/-! ## One egress -/

/-- The queue of a class. -/
def Egress.queue (c : Nat) (e : Egress) : List Queued := Table.get [] c e.queues
/-- Put the queue of a class. -/
def Egress.setQueue (c : Nat) (q : List Queued) (e : Egress) : Egress := { e with queues := Table.set [] c q e.queues }
/-- The units in a queue. -/
def queueUnits (q : List Queued) : Nat := q.foldl (fun n x => n + unitCount x.f) 0

/-- The gates that hold at an instant: those of the entry of the list that is current then, the stored ones where no list has begun (R401). -/
def Egress.gatesAt (h : Option Hatch) (now : Nat) (e : Egress) : BitVec 5 :=
  match h.bind fun h => (h.current now).bind fun i => h.entries[i]? with
  | some x => x.gates
  | none => e.gates

/-- Is the gate of a class open: a decision at the instant at which an entry starts uses its gates (R401). -/
def Egress.gateOpen (h : Option Hatch) (now c : Nat) (e : Egress) : Bool := (e.gatesAt h now).getLsbD c

/-- The credits of a class that a port holds. -/
def PortState.credit (c : Nat) (p : PortState) : Nat := Table.get 0 c p.credits

/-- The bubble of a class in units (R383). -/
def bubbleUnits (c : Nat) : Nat := if c = 4 then 64 else 130

/-- Does the credit rule of R360 let a frame start. -/
def PortState.creditOk (c : Nat) (q : Queued) (p : PortState) : Bool := decide (unitCount q.f ≤ p.credit c)

/-- Does the bubble rule let it start (R383). -/
def PortState.bubbleOk (c : Nat) (q : Queued) (p : PortState) : Bool :=
  !q.entering || decide (unitCount q.f + bubbleUnits c ≤ p.credit c)

/-- Is the port's link up. -/
def PortState.isUp (p : PortState) : Bool := p.phase == .active

/-- The reservation bucket filled to an instant, at exactly the quotient r0 (R395). -/
def Egress.fillB0 (now : Nat) (e : Egress) : Egress :=
  let sum := max 1 (weightSum e.weights)
  let n := 125000 * weightOf e.weights 0 * (now - e.b0Filled) + e.b0Rem
  if 12288000 ≤ e.b0 + n / sum then { e with b0 := 12288000, b0Rem := 0, b0Filled := now }
  else { e with b0 := e.b0 + n / sum, b0Rem := n % sum, b0Filled := now }

/-- The reservation bucket after a C0 frame of a cost has left: it holds no less than 0 (R396). -/
def Egress.payB0 (cost : Nat) (e : Egress) : Egress :=
  if 1000 * cost ≤ e.b0 then { e with b0 := e.b0 - 1000 * cost } else { e with b0 := 0, b0Rem := 0 }

/-- The pacing bucket filled to an instant at the width that has held since the last time (R362). -/
def PortState.fillPace (now : Nat) (p : PortState) : PortState :=
  { p with egress := { p.egress with
      pace := fillBucket 8192000 (portRate (laneCount p.txLanes)) p.egress.pace (now - p.egress.paceAt), paceAt := now } }

/-- Does the pacing bucket hold the payload of a frame (R362). -/
def PortState.paceOk (now : Nat) (q : Queued) (p : PortState) : Bool :=
  let e := p.egress
  decide (q.f.plen.toNat * 32000 ≤ fillBucket 8192000 (portRate (laneCount p.txLanes)) e.pace (now - e.paceAt))

/-- The guard band: a C2 or C3 frame ends before its gate closes (R402). -/
def PortState.guardOk (h : Option Hatch) (now c : Nat) (q : Queued) (p : PortState) : Bool :=
  if c = 2 ∨ c = 3 then
    match h.bind fun h => h.closes c now with
    | some t => decide (q.f.plen.toNat * 32000 ≤ (t - now) * portRate (laneCount p.txLanes))
    | none => true
  else true

/-- Is a class with weight 0 kept from starting (R396). -/
def PortState.weightOk (c : Nat) (p : PortState) : Bool :=
  !(c == 2 || c == 3) || weightOf p.egress.weights c != 0

/-- The conditions that lie in the port alone, but for the bubble and the guard band. -/
def PortState.plainOk (h : Option Hatch) (now c : Nat) (q : Queued) (p : PortState) : Bool :=
  p.egress.gateOpen h now c && p.creditOk c q && p.weightOk c && p.paceOk now q

/-- Can an egress start a frame: its link is up, no copy is being cut through, and less than a block of units waits
(log entry 31). -/
def PortState.canStart (x : PortState) : Bool := x.isUp && x.egress.sending.isNone && decide (x.txUnits.length < 19)

/-- How many ns a bucket of a content and a rate takes until it holds enough for the payload of a frame. -/
def fillDelay (rate v : Nat) (q : Queued) : Nat :=
  let need := q.f.plen.toNat * 32000
  if need ≤ v then 0 else if rate = 0 then 2 ^ 64 else (need - v + rate - 1) / rate

/-- How many ns from now the pacing bucket takes for a frame (R362). -/
def PortState.paceDelay (now : Nat) (q : Queued) (p : PortState) : Nat :=
  let r := portRate (laneCount p.txLanes)
  fillDelay r (fillBucket 8192000 r p.egress.pace (now - p.egress.paceAt)) q

/-- The span in which the guard band bars a frame of a class before its gate closes next (R402). -/
def PortState.guardSpan (h : Option Hatch) (now c : Nat) (q : Queued) (p : PortState) : Option (Nat × Nat) :=
  if c = 2 ∨ c = 3 then
    (h.bind fun h => h.closes c now).map fun t => (t - q.f.plen.toNat * 32000 / max 1 (portRate (laneCount p.txLanes)), t)
  else none

/-- How many of the dt ns from now on the guard band alone bars the only waiting frame (R402). -/
def PortState.guardHeld (h : Option Hatch) (now dt : Nat) (p : PortState) : Nat :=
  let heads := (List.range 5).filterMap fun c => (p.egress.queue c).head?.map fun q => (c, q)
  match heads with
  | [(c, q)] =>
    match p.guardSpan h now c q with
    | some g =>
      if p.isUp && p.egress.gateOpen h now c && p.creditOk c q && p.weightOk c && p.bubbleOk c q then
        min (now + dt) g.2 - max (now + p.paceDelay now q) g.1
      else 0
    | none => 0
  | _ => 0

/-- The length of the union of spans, of which the part up to an instant has been counted; the spans stand by their start. -/
def unionLength (from_ : Nat) : List (Nat × Nat) → Nat
  | [] => 0
  | e :: t => (e.2 - max from_ e.1) + unionLength (max from_ e.2) t

end Sys2Proof.Machine
end

