-- ==== Sys2Proof/Machine/Topology.lean ====
section
/-! DEFINITION. Routes over the fabric map (14 R369, R371). -/

namespace Sys2Proof.Machine

/-! ## Routes (R369, R371) -/

/-- The map entry of a module that is not in the fabric. -/
def MapEntry.absent : MapEntry := ⟨false, 0, 0, 0, false, false, false, false⟩

/-- The map entry of a module. -/
def FabricMap.entry (m : Nat) (x : FabricMap) : MapEntry := Table.get MapEntry.absent m x.entries

/-- The module at a coordinate. -/
def FabricMap.find (x y : Nat) (m : FabricMap) : Option (Nat × MapEntry) :=
  m.entries.find? fun (e : Nat × MapEntry) => e.2.valid && e.2.x == x && e.2.y == y

/-- Is the link from a position in a direction up. -/
def FabricMap.linkUp (isX plus : Bool) (x y : Nat) (m : FabricMap) : Bool :=
  match m.find x y with
  | some e => !(if isX then (if plus then e.2.downXp else e.2.downXm) else (if plus then e.2.downYp else e.2.downYm))
  | none => true

/-- clear of R371: is every link from a module toward coordinate b in a direction up. -/
def FabricMap.clear (isX plus : Bool) (e : MapEntry) (b : Nat) (m : FabricMap) : Bool :=
  let n := max 1 (if isX then m.nx else m.ny)
  let a := if isX then e.x else e.y
  (List.range (if plus then (b + n - a) % n else (a + n - b) % n)).all fun i =>
    let p := if plus then (a + i) % n else (a + n - i) % n
    if isX then m.linkUp true plus p e.y else m.linkUp false plus e.x p

/-- dim_dir of R371: none for NONE, an inner none for DONE, else whether the direction is +. -/
def FabricMap.dimDir (isX : Bool) (e d : MapEntry) (tie : Bool) (m : FabricMap) : Option (Option Bool) :=
  let n := max 1 (if isX then m.nx else m.ny)
  let a := if isX then e.x else e.y
  let b := if isX then d.x else d.y
  if a = b then some none
  else
    let dp := (b + n - a) % n
    let dm := (a + n - b) % n
    let first := if dp < dm then true else if dm < dp then false else tie
    if m.clear isX first e b then some (some first)
    else if m.clear isX (!first) e b then some (some (!first)) else none

/-- Where a route goes next: it ends here, finds no way, or leaves by a ring role (R367). -/
inductive Hop where
  | here
  | stuck
  | ring (role : BitVec 4)
  deriving DecidableEq, Repr

/-- next_dir of R371. -/
def FabricMap.nextDir (a b : Nat) (tie : Bool) (m : FabricMap) : Hop :=
  if a = b then .here
  else
    match m.dimDir true (m.entry a) (m.entry b) tie with
    | none => .stuck
    | some (some plus) => .ring (if plus then 2 else 3)
    | some none =>
      match m.dimDir false (m.entry a) (m.entry b) tie with
      | some (some plus) => .ring (if plus then 4 else 5)
      | _ => .stuck

/-- The module one hop on in the direction of a ring role. -/
def FabricMap.neighbour (a : Nat) (role : BitVec 4) (m : FabricMap) : Option Nat :=
  let e := m.entry a
  (m.find (if role = 2 then (e.x + 1) % max 1 m.nx else if role = 3 then (e.x + m.nx - 1) % max 1 m.nx else e.x)
    (if role = 4 then (e.y + 1) % max 1 m.ny else if role = 5 then (e.y + m.ny - 1) % max 1 m.ny else e.y)).map (·.1)

/-- Does the route from module a to module d, of at most n hops, pass through module x. -/
def FabricMap.passes (d x : Nat) (m : FabricMap) : Nat → Nat → Bool
  | 0, a => a == x
  | n + 1, a =>
    a == x || (match m.nextDir a d true with
      | .ring r => match m.neighbour a r with
        | some b => FabricMap.passes d x m n b
        | none => false
      | _ => false)

end Sys2Proof.Machine
end

