-- ==== Sys2Proof/Machine/Account.lean ====
section
/-! DEFINITION. The passing of network time: what every unit's hold, wait and idle counts gain while time moves on
(R139, R160, R226, R268, R269, R322). Time moves when a command says at which instant it happens (log entry 6). -/

namespace Sys2Proof.Machine

/-! ## What a job uses (R268) -/

/-- The clusters a job uses: those with a program entry, a code region, an SRAM image or a pool (R148, R149, R249). -/
def Plate.uses (p : Plate) (c : ClusterId) : Bool :=
  p.sched.any (fun e => e.kind == 1 && e.target == c)
    || p.images.any (fun i => i.type == 0x10 && i.index == c.setWidth 32)
    || p.images.any (fun i => i.type == 0x11 && decide (DWord.loc i.dest = .sram c (i.dest.toNat % 2 ^ 23)))
    || decide (p.poolBases.getD c.toNat 0x800000 < 0x800000)

/-- The stream engines a job uses: those that a schedule entry names, and the reducing engines of the shards that the
module owns under a mapping (R23, R249, R251). -/
def Plate.usesEngine (p : Plate) (me : Option Nat) (n : Port) : Bool :=
  p.sched.any (fun e => e.kind == 2 && e.target == n.setWidth 8)
    || p.mappings.any (fun m => m.shards.any fun e =>
      me == some e.owner && e.region == n.region && e.engine == n.getLsbD 0)

/-- The rank of a module in a rank list (R247). -/
def rankOf (ranks : List RankEntry) (m : BitVec 9) : Option Nat :=
  ranks.findIdx? fun r => r.kind == 2 && r.module == m

/-- This module's own rank in a job. -/
def State.ownRank (no : JobNo) (s : State) : Option Nat :=
  match s.plate no with
  | some p => rankOf p.ranks (if (s.job no).proofRole = 2 then p.module else s.fab.module)
  | none => none

/-- The enabled clusters that a job uses. -/
def State.jobClusters (no : JobNo) (s : State) : List ClusterId :=
  match s.plate no with
  | some p => allClusters.filter fun c => s.hasCluster c && p.uses c
  | none => []

/-- The enabled engines that a job uses. -/
def State.jobEngines (no : JobNo) (s : State) : List Port :=
  match s.plate no with
  | some p => allPorts.filter fun n => s.hasPort n && p.usesEngine (s.ownRank no) n
  | none => []

/-! ## Contribution waits (R226, R322) -/

/-- The operation code of a context. -/
def Ctx.op (c : Ctx) : Nat := (c.desc.w.getD 0 0).toNat % 256

/-- The number of units of one contribution, piece or ring block of a context: 128 bytes each (R218), in a ring block the 32 bytes in which
frames count their payload (R234, R351). -/
def Ctx.unitsPer (c : Ctx) : Nat :=
  let n := (c.desc.w.getD 3 0).toNat / 2 ^ 32
  if c.op = 3 then (n + 31) / 32 else n / 128

/-- Has rank ordinal q arrived (R218). -/
def Ctx.hasArrived (c : Ctx) (q : Nat) : Bool :=
  decide (c.unitsPer ≤ (c.units.filter fun u => u.1 == q).length)

/-- Is the context a REDUCE or a collecting GATHER. -/
def Ctx.collects (c : Ctx) : Bool := c.op == 1 || (c.op == 2 && (c.desc.w.getD 8 0).toNat % 2 == 0)

/-- The ordinals that have not arrived, ascending. -/
def Ctx.missing (c : Ctx) : List Nat := (List.range c.mask.length).filter fun q => !c.hasArrived q

/-- Does the context wait for a contribution under R226: for a REDUCE an arrived rank stands behind a lower one that has not
arrived; for a GATHER any rank is missing after the first arrival. -/
def Ctx.waitsForRank (c : Ctx) : Bool :=
  c.phase == .collecting && c.collects && c.firstArrival &&
    (if c.op = 1 then
      (match c.missing with
        | m :: _ => (List.range c.mask.length).any fun q => decide (m < q) && c.hasArrived q
        | [] => false)
    else !c.missing.isEmpty)

/-- Does the context count contribution time (R268): waiting under R226, or before its first arrival. -/
def Ctx.countsContribution (c : Ctx) : Bool :=
  c.phase == .collecting && c.collects && (!c.firstArrival || c.waitsForRank)

/-- The lowest rank that has not arrived (R322). -/
def Ctx.lowestMissing (c : Ctx) : Option Nat := c.missing.head?.map fun q => c.mask.getD q 0

/-! ## Array stall steps (R110 to R112, R139) -/

/-- The stall steps that the tiles add at step t (R111, R112). -/
def Cluster.stallsAt (t : Nat) (k : Cluster) : Nat :=
  k.tiles.foldl (fun n x => n + (x.stalls.filter fun e => x.issue + e.1 == t).foldl (fun m e => m + e.2) 0) 0

/-- The least time of a step in ps at the cluster's cap (R141); ps keep the period of 100,000 / cap within a nanosecond (log entry
26). -/
def Cluster.stepPs (k : Cluster) : Nat := (100000 + k.stepCap.toNat - 1) / max k.stepCap.toNat 1

/-- The instant, in ps, at which the stall steps of the step in progress are over; they come first in the step and run at the pace of
cluster steps (R110, R142). -/
def Cluster.stallEnd (k : Cluster) : Nat := k.lastStepEnd + k.stallsAt k.stepCount * k.stepPs

/-- How many of the dt ns from now on belong to the array stall of the step in progress. -/
def Cluster.stallNs (now dt : Nat) (k : Cluster) : Nat := min dt (k.stallEnd / 1000 - now)

/-! ## Idle causes (R268) -/

/-- The hatch list that gates a port. -/
def State.portHatch (p : PortState) (s : State) : Option Hatch :=
  if p.egress.gatedBy = 0 then none else (s.plate p.egress.gatedBy).map (·.hatch)

/-! ## What holds a frame at its egress (R267, R381, R383, R387, R396) -/

/-- The key of a rank of a job in the table of congestion responses. -/
def ecnKey (no : JobNo) (r : Rank) : Nat := no.toNat * 4096 + r.toNat

/-- The ranks of a job toward which a copy of a frame at an egress carries payload: the rank that a unicast frame names, the members whose
copy of a multicast frame leaves by that egress (R378, R387). -/
def State.ranksOf (p : Port) (f : Frame) (s : State) : List Nat :=
  match s.plate f.job with
  | none => []
  | some pl =>
    if !f.mc then
      (pl.ranks.findIdx? fun r => r.module == f.dstModule && (if f.dstPort = 0x3F then r.kind == 2#2 else r.kind == 1#2 && r.port == f.dstPort)).toList
    else
      let me := s.fab.module
      let members := match pl.mappings[(s.job f.job).mapping]? with | some m => m.groups.getD f.group.toNat [] | none => []
      members.filter fun r => match pl.ranks[r]? with
        | none => false
        | some e =>
          if e.module = me then e.kind == 1#2 && e.port == p
          else match s.fab.map with
            | some fm => fm.nextDir me.toNat e.module.toNat true == .ring (s.port p).role
            | none => false

/-- The congestion responses that hold for a C2 or C3 frame of a local unit at an egress, with their buckets filled (R387). -/
def State.ecnFor (p : Port) (q : Queued) (s : State) : List (Nat × EcnRate) :=
  if q.ingress.isNone && (q.f.cls == 2#3 || q.f.cls == 3#3) then
    (s.ranksOf p q.f).map fun r =>
      let k := ecnKey q.f.job (BitVec.ofNat 12 r)
      let e := Table.get EcnRate.reset k s.fab.ecn
      (k, { e with bucket := fillBucket 8192000 (min e.rate (portRate (laneCount (s.port p).txLanes))) e.bucket (s.time - e.filled), filled := s.time })
  else []

/-- How many ns from now the buckets toward a frame's ranks take for it. -/
def State.ecnDelay (p : Port) (q : Queued) (s : State) : Nat :=
  (s.ecnFor p q).foldl (fun n e => max n (fillDelay (min e.2.rate (portRate (laneCount (s.port p).txLanes))) e.2.bucket q)) 0

/-- May a frame leave as it stands: whole, or cut through from an ingress that is wide enough and, once it has been stomped, out of retry
(R358, R381). -/
def State.passable (p : Port) (q : Queued) (s : State) : Bool :=
  let wide := match q.ingress with | some i => decide (laneCount (s.port p).txLanes ≤ laneCount (s.port i).rxLanes) | none => true
  let calm := match q.ingress with | some i => !q.again || (s.port i).retrySince.isNone | none => true
  q.whole || (wide && calm)

/-- May the head of a queue start now (R381, R387, R396). -/
def State.eligible (p : Port) (c : Nat) (q : Queued) (s : State) : Bool :=
  let x := s.port p
  let h := s.portHatch x
  x.plainOk h s.time c q && x.bubbleOk c q && x.guardOk h s.time c q && s.passable p q
    && (s.ecnFor p q).all fun e => decide (q.f.plen.toNat * 32000 ≤ e.2.bucket)

/-- The eligible head of a class. -/
def State.ready (p : Port) (c : Nat) (s : State) : Option Queued :=
  match (s.port p).egress.queue c with
  | q :: _ => if s.eligible p c q then some q else none
  | [] => none

/-- Does the C0 share hold a C0 frame at the head: b0 is short for it while another class is eligible (R397). -/
def State.shareHeld (p : Port) (q : Queued) (s : State) : Bool :=
  decide (((s.port p).egress.fillB0 s.time).b0 < 1000 * frameCost q.f) && [1, 2, 3, 4].any fun c => (s.ready p c).isSome

/-- Is the head of a queue held by flow control, pacing or the C0 share, with everything else in order (R267, R360, R362, R383, R397). -/
def State.flowHeld (p : Port) (c : Nat) (q : Queued) (s : State) : Bool :=
  let x := s.port p
  let h := s.portHatch x
  x.isUp && x.egress.gateOpen h s.time c && x.weightOk c && x.guardOk h s.time c q && s.passable p q
    && (!(x.creditOk c q && x.bubbleOk c q && x.paceOk s.time q) || (c == 0 && s.shareHeld p q))

/-- The frames of the module's own units on a port in the queues whose head is held. -/
def State.heldAt (p : Port) (s : State) : List Frame :=
  (List.range 5).flatMap fun c => match (s.port p).egress.queue c with
    | q :: t => if (q :: t).any (fun y => y.ingress.isNone) && s.flowHeld p c q then
        ((q :: t).filter fun (y : Queued) => y.ingress.isNone).map (fun (y : Queued) => y.f) else []
    | [] => []

/-- The frames of the module's own units that downstream flow control holds: those in queues whose head is held, and those that wait
while admission is stopped (R212, R267, R383, R390). -/
def State.heldOut (s : State) : List Frame :=
  (s.fab.waiting.filter fun (q : Queued) => q.ingress.isNone).map (fun (q : Queued) => q.f)
    ++ s.ports.flatMap fun e => s.heldAt (BitVec.ofNat 6 e.1)

/-- How many of the dt ns from now on the bubble rule alone holds a frame at the head of a queue of a port (R383). -/
def State.bubbleNs (p : Port) (dt : Nat) (s : State) : Nat :=
  let x := s.port p
  let h := s.portHatch x
  if !x.canStart then 0
  else
    let spans := (List.range 5).filterMap fun c => match x.egress.queue c with
      | q :: _ =>
        if x.egress.gateOpen h s.time c && x.creditOk c q && x.weightOk c && s.passable p q && !x.bubbleOk c q then
          let till := match h.bind fun h => h.closes c s.time with | some t => min t (s.time + dt) | none => s.time + dt
          let till := match x.guardSpan h s.time c q with | some g => min till g.1 | none => till
          some (s.time + max (x.paceDelay s.time q) (s.ecnDelay p q), till)
        else none
      | [] => none
    unionLength s.time (sortBy (fun a b => decide (a.1 ≤ b.1)) spans)

/-- Is a hop of a port in link retry, in either direction (R357). -/
def PortState.inRetry (x : PortState) : Bool := x.retrySince.isSome || x.replayPos.isSome

/-- Does downstream flow control hold a frame that a context has sent (R212; log entry 85). -/
def Ctx.heldBack (out : List Frame) (c : Ctx) : Bool :=
  out.any fun f =>
    f.kind == 2 && f.job.toNat == (c.desc.w.getD 0 0).toNat / 2 ^ 16 % 2 ^ 16 && f.ident.toNat == (c.desc.w.getD 0 0).toNat / 2 ^ 32

/-- Does a context wait for its slot set, its fill or a granule, or hold back frames of the next step for want of a free set (R40, R212,
R224, R233, R238). -/
def Ctx.waitsBuffer (c : Ctx) : Bool := c.phase == .waitReads || ((c.op == 1 || c.op == 4) && !c.held.isEmpty)

/-- Is the egress or the ingress of a context held by a hop in retry (R268): the link of its engine, a port on which a frame of the context
waits, or the link of an attached rank whose contribution is missing. -/
def State.ctxRetry (no : JobNo) (p : Port) (c : Ctx) (s : State) : Bool :=
  let sent := fun (q : Queued) => q.ingress.isNone && c.heldBack [q.f]
  let ranks := match s.plate no with | some pl => pl.ranks | none => []
  (s.port p).inRetry
    || s.ports.any (fun e => e.2.inRetry &&
      (e.2.egress.queues.any (fun (l : Nat × List Queued) => l.2.any sent) || (match e.2.egress.sending with | some q => sent q | none => false)))
    || (c.collects && c.missing.any fun q => match ranks[c.mask.getD q 4096]? with
      | some e => e.kind == 1#2 && e.module == s.fab.module && (s.port e.port).inRetry
      | none => false)

/-- The cause that an idle context takes: link retry, back-pressure, buffer, contribution; none while it works. -/
def Ctx.idleCause (inRetry : Bool) (out : List Frame) (c : Ctx) : Option Nat :=
  if inRetry && (c.phase == .collecting || c.phase == .sending) then some 2
  else if c.heldBack out then some 3
  else if c.waitsBuffer then some 4
  else if c.countsContribution then some 5
  else none

/-- The contexts of a job on an engine. -/
def Engine.mine (no : JobNo) (e : Engine) : List Ctx :=
  e.ctxs.filter fun c => (c.desc.w.getD 0 0).toNat / 2 ^ 16 % 2 ^ 16 == no.toNat

/-- The cause of an engine for a job: none while one of its contexts works. -/
def State.engineCause (no : JobNo) (p : Port) (s : State) : Option Nat :=
  let e := s.eng p
  let mine := e.mine no
  if mine.isEmpty then
    if e.queue.any (fun q => (q.desc.w.getD 0 0).toNat / 2 ^ 16 % 2 ^ 16 == no.toNat) then some 6 else some 7
  else
    let causes := mine.map fun c => c.idleCause (s.ctxRetry no p c) s.heldOut
    if causes.any (·.isNone) then none
    else causes.foldl (fun acc c => match acc, c with
      | some a, some b => some (min a b)
      | none, b => b
      | a, none => a) none

/-- The counter that a held WAITC waits on, from the bundle at the head of the queue. -/
def Cluster.waitsOn (c : Cluster) : Option CounterName :=
  match c.fetchQ with
  | b :: _ => (b.words.find? fun w => w.slot == 0 && w.op == 0x05).map fun w => w.f.imm.setWidth 16
  | [] => none

/-- The cause of a cluster for a job: none while it steps (array stalls and bank conflicts are working time). -/
def State.clusterCause (no : JobNo) (c : ClusterId) (s : State) : Option Nat :=
  let k := s.clu c
  if k.gstate == .idle || k.job != no then
    some 7
  else if k.gstate == .held then
    match k.holdCause with
    | .buffer => some 4
    | .gate => some 6
    | .sync =>
      match k.waitsOn with
      | some n => some (if (s.counter n).cause = 0 then 7 else (s.counter n).cause.toNat)
      | none => some 7
    | _ => none
  else if k.gstate == .halted then some 7
  else none

/-- Add dt to one cause of an idle account. -/
def addIdle (dt : Nat) (acc : List Nat) : Option Nat → List Nat
  | some c => acc.set (c - 1) (acc.getD (c - 1) 0 + dt)
  | none => acc

/-- Does a held cluster wait for one of its own moves: for the counter that the move adds to. -/
def Cluster.waitsMove (c : Cluster) : Bool :=
  c.gstate == .held && c.holdCause == .sync && c.moves.any fun m => c.waitsOn == some m.counter

/-- How many of the dt ns from now on the DRAM access that holds a cluster waits for a refresh: the fetch of its lines, or the move that it
waits for (R139, R268, R440). -/
def Cluster.refreshNs (now dt : Nat) (c : Cluster) : Nat :=
  if (c.gstate == .held && c.holdCause == .fetch) || c.waitsMove then min dt (c.refreshTill - now) else 0

/-- How many of the dt ns from now on the DRAM access of an engine waits for a refresh (R268). -/
def Engine.refreshNs (no : JobNo) (now dt : Nat) (e : Engine) : Nat :=
  if (e.mine no).isEmpty then 0 else min dt (e.refreshTill - now)

/-- The contexts of an engine that count contribution time: those that wait for a rank, whether or not another context of their engine works,
while no lower cause has the time (R268, R322; log entry 100). -/
def State.countingCtxs (no : JobNo) (p : Port) (s : State) : List Ctx :=
  match s.engineCause no p with
  | some k => if k = 5 then ((s.eng p).mine no).filter Ctx.countsContribution else []
  | none => ((s.eng p).mine no).filter fun c => c.idleCause (s.ctxRetry no p c) s.heldOut == some 5

/-- How often and to which cause an engine charges its time: once for each context that counts contribution time, else once to its cause
(R268, R322; log entry 100). -/
def State.engineCharge (no : JobNo) (p : Port) (s : State) : Nat × Option Nat :=
  match s.countingCtxs no p with
  | [] => (1, s.engineCause no p)
  | l => (l.length, some 5)

/-- The engines whose time a job accounts for: those that it uses, and those that hold contexts of it by an SLAUNCH (R268, R322). -/
def State.chargedEngines (no : JobNo) (s : State) : List Port :=
  let l := s.jobEngines no
  l ++ ((s.engines.filter fun e => !(e.2.mine no).isEmpty).map fun e => (BitVec.ofNat 6 e.1 : Port)).filter fun p => !l.contains p

/-- Charge dt ns of a unit, w of them to refresh, the others n times to a cause. -/
def chargeUnit (dt w n : Nat) (cause : Option Nat) (acc : List Nat) : List Nat :=
  addIdle ((dt - w) * n) (addIdle w acc (some 1)) cause

/-- The delays of the unit of a schedule entry inside the window of its impression after dt ns (R319, R321). -/
def State.windowDelay (dt : Nat) (e : SchedEntry) (no : JobNo) (s : State) (p : EntryProg) : EntryProg :=
  if !p.running then p
  else
    let d := if p.due = 0 then dt else min dt (p.due - s.time)
    if e.kind = 1 then
      let k := s.clu e.target
      { p with
        refresh := p.refresh + k.refreshNs s.time d
        retry := p.retry + (if k.waitsMove && s.ports.any fun x => x.2.role == 6#4 && x.2.inRetry then d else 0) }
    else
      let port : Port := e.target.setWidth 6
      { p with
        refresh := p.refresh + (s.eng port).refreshNs no s.time d
        retry := p.retry + (if ((s.eng port).mine no).any fun c => s.ctxRetry no port c then d else 0) }

/-- The idle account, the rank wait table and the delays of the windows of a job after dt ns (R269, R321, R322). -/
def State.accountJob (dt : Nat) (s : State) (j : Job) : Job :=
  if j.st ≠ .running then j
  else
    let idle := (s.jobClusters j.no).foldl (fun acc c => chargeUnit dt ((s.clu c).refreshNs s.time dt) 1 (s.clusterCause j.no c) acc) j.idle
    let idle := (s.chargedEngines j.no).foldl (fun acc p =>
      let c := s.engineCharge j.no p
      chargeUnit dt ((s.eng p).refreshNs j.no s.time dt) c.1 c.2 acc) idle
    { j with
      idle := idle
      rankWait := (s.chargedEngines j.no).foldl (fun t p =>
        let d := dt - (s.eng p).refreshNs j.no s.time dt
        ((s.countingCtxs j.no p).filterMap Ctx.lowestMissing).foldl (fun t r => Table.set 0 r (Table.get 0 r t + d) t) t) j.rankWait
      prog := j.prog.map fun (e : Nat × EntryProg) => (e.1, match (j.plate.bind fun pl => pl.sched[e.1]?) with
        | some x => s.windowDelay dt x j.no e.2
        | none => e.2) }

/-- A cluster after dt ns from now on: active time, and hold time under the first cause in the order of R140; an array stall comes
before every other cause and has no ns count. -/
def Cluster.account (now dt : Nat) (c : Cluster) : Cluster :=
  let a := c.activeNs + dt
  let held := dt - c.stallNs now dt
  match c.gstate with
  | .running => { c with activeNs := a }
  | .held =>
    match c.holdCause with
    | .fetch => { c with activeNs := a, fetchNs := c.fetchNs + held }
    | .buffer => { c with activeNs := a, bufferNs := c.bufferNs + held }
    | .gate => { c with activeNs := a, gateNs := c.gateNs + held }
    | .sync => { c with activeNs := a, syncNs := c.syncNs + held }
    | _ => { c with activeNs := a }
  | _ => c

/-- A context after dt ns (R212, R226). -/
def Ctx.account (out : List Frame) (dt : Nat) (c : Ctx) : Ctx :=
  { c with
    backpressNs := if c.heldBack out then sat32 c.backpressNs dt else c.backpressNs
    contribNs := if c.waitsForRank then sat32 c.contribNs dt else c.contribNs
    bufferNs := if c.waitsBuffer then sat32 c.bufferNs dt else c.bufferNs
    aux1 := if c.waitsForRank then c.lowestMissing.getD c.aux1 else c.aux1 }

/-- The counts of a port after dt ns: time in retry (R366), and time held by the guard band alone (R402). -/
def PortState.account (h : Option Hatch) (now dt : Nat) (p : PortState) : PortState :=
  let p := if p.retrySince.isSome then { p with retryNs := p.retryNs + dt } else p
  let n := p.guardHeld h now dt
  if n = 0 then p else { p with egress := { p.egress with guardNs := p.egress.guardNs + n } }

/-- The counts of the margin controller after dt ns: time with a cap below cap_max, and holdover time (R480, R484,
R492). -/
def Margin.account (dt : Nat) (m : Margin) : Margin :=
  { m with
    throttleNs := if (List.range 4).any (fun d => decide (m.capApplied.getD d 0 < m.capMax.getD d 0)) then m.throttleNs + dt else m.throttleNs
    holdoverNs := if m.timeSt == .holdover then m.holdoverNs + dt else m.holdoverNs }

/-- Everything that grows with time, for dt ns. -/
def State.account (dt : Nat) (s : State) : State :=
  { s with
    clusters := s.clusters.map fun e => (e.1, e.2.account s.time dt)
    engines := s.engines.map fun e => (e.1, { e.2 with ctxs := e.2.ctxs.map (Ctx.account s.heldOut dt) })
    jobs := s.jobs.map fun e => (e.1, s.accountJob dt e.2)
    ports := s.ports.map fun e => (e.1, e.2.account (s.portHatch e.2) s.time dt)
    fab := { s.fab with bubbleNs := s.ports.foldl (fun n e => n + s.bubbleNs (BitVec.ofNat 6 e.1) dt) s.fab.bubbleNs }
    margin := s.margin.account dt }

/-- Network time moves on to an instant; an instant that has passed leaves it where it is (log entry 6). -/
def State.advanceTo (now : Nat) (s : State) : State :=
  if now ≤ s.time then s else { s.account (now - s.time) with time := now }

end Sys2Proof.Machine
end

