-- ==== Sys2Proof/Machine/Desc.lean ====
section
/-! DEFINITION. Stream descriptors, tensor descriptors and the status record of a stream impression (08 R206 to R212),
and the frames that the module's own units originate (13 R350, R351). -/

namespace Sys2Proof.Machine

/-! ## Descriptor fields (R206, R210) -/

/-- Bits lo to lo + n − 1 of a number. -/
def bitsOf (v lo n : Nat) : Nat := v / 2 ^ lo % 2 ^ n

/-- Word k of a descriptor. -/
def Desc.word (d : Desc) (k : Nat) : Nat := (d.w.getD k 0).toNat
/-- op. -/
def Desc.op (d : Desc) : Nat := bitsOf (d.word 0) 0 8
/-- class. -/
def Desc.cls (d : Desc) : Nat := bitsOf (d.word 0) 8 3
/-- job. -/
def Desc.job (d : Desc) : JobNo := BitVec.ofNat 16 (bitsOf (d.word 0) 16 16)
/-- impression. -/
def Desc.impr (d : Desc) : Word := BitVec.ofNat 32 (bitsOf (d.word 0) 32 32)
/-- status_addr. -/
def Desc.statusAddr (d : Desc) : DWord := d.w.getD 1 0
/-- done_counter. -/
def Desc.doneCounter (d : Desc) : CounterName := BitVec.ofNat 16 (bitsOf (d.word 2) 0 16)
/-- done_inc. -/
def Desc.doneInc (d : Desc) : Nat := bitsOf (d.word 2) 16 8
/-- start_gate. -/
def Desc.startGate (d : Desc) : Nat := bitsOf (d.word 2) 32 12
/-- deadline, in units of 256 ns. -/
def Desc.deadline (d : Desc) : Nat := bitsOf (d.word 3) 0 32
/-- length. -/
def Desc.length (d : Desc) : Nat := bitsOf (d.word 3) 32 32
/-- source. -/
def Desc.source (d : Desc) : DWord := d.w.getD 4 0
/-- dest. -/
def Desc.dest (d : Desc) : DWord := d.w.getD 5 0
/-- tensor_addr. -/
def Desc.tensorAddr (d : Desc) : DWord := d.w.getD 6 0
/-- mask_addr. -/
def Desc.maskAddr (d : Desc) : DWord := d.w.getD 7 0
/-- REDUCE: step. MULTICAST keeps its step in the low half of word 9. -/
def Desc.step (d : Desc) : Word :=
  BitVec.ofNat 32 (if d.op = 7 then bitsOf (d.word 9) 0 32 else if d.op = 1 then bitsOf (d.word 8) 0 32 else 0)
/-- REDUCE: owner_rank. -/
def Desc.ownerRank (d : Desc) : Nat := bitsOf (d.word 8) 32 12
/-- REDUCE: vote_barrier. -/
def Desc.voteBarrier (d : Desc) : Nat := bitsOf (d.word 8) 44 6
/-- REDUCE: vote. -/
def Desc.vote (d : Desc) : Bool := bitsOf (d.word 8) 50 1 == 1
/-- REDUCE: slot_base. -/
def Desc.slotBase (d : Desc) : DWord := d.w.getD 9 0
/-- REDUCE: log_base. -/
def Desc.logBase (d : Desc) : DWord := d.w.getD 10 0
/-- REDUCE: slot_pitch. -/
def Desc.slotPitch (d : Desc) : Nat := bitsOf (d.word 11) 0 32
/-- REDUCE: set_stride. -/
def Desc.setStride (d : Desc) : Nat := bitsOf (d.word 11) 32 32
/-- REDUCE: acc_base. -/
def Desc.accBase (d : Desc) : DWord := d.w.getD 12 0
/-- REDUCE: stats_ring. -/
def Desc.statsRing (d : Desc) : DWord := d.w.getD 13 0
/-- REDUCE: stats_entries. -/
def Desc.statsEntries (d : Desc) : Nat := bitsOf (d.word 14) 0 16
/-- The shard field in the high half of word 8: GATHER serve and MULTICAST. -/
def Desc.shard8 (d : Desc) : Word := BitVec.ofNat 32 (bitsOf (d.word 8) 32 32)
/-- MULTICAST: state number. -/
def Desc.stateNo (d : Desc) : Word := BitVec.ofNat 32 (bitsOf (d.word 9) 32 32)

/-- The 16 words of a descriptor's 128 bytes. -/
def Desc.ofBytes (bs : List Byte) : Desc := ⟨leWords 16 bs⟩

/-! ## Stream targets (R207) -/

/-- A stream target. -/
inductive STarget where
  | addr (a : DWord)
  | rank (r : Rank) (off : Word)
  | group (g : BitVec 12) (off : Word)
  | bad
  deriving DecidableEq, Repr

/-- The target that 64 bits name. -/
def DWord.target (a : DWord) : STarget :=
  if a.toNat / 2 ^ 62 < 2 then .addr a
  else if bitsOf a.toNat 44 18 ≠ 0 then .bad
  else if a.toNat / 2 ^ 62 = 2 then .rank (BitVec.ofNat 12 (bitsOf a.toNat 32 12)) (a.setWidth 32)
  else .group (BitVec.ofNat 12 (bitsOf a.toNat 32 12)) (a.setWidth 32)

/-! ## Tensor descriptors (R208) -/

/-- A tensor descriptor. -/
structure Tensor where
  id     : Word
  kind   : Nat
  fmt    : Nat
  block  : Bool
  sat    : Bool
  priv   : Bool
  deliv  : Nat
  initE  : Int
  rows   : Nat
  rowLen : Nat
  absmax : DWord
  shard  : Word
  base4  : Nat
  deriving DecidableEq, Repr

/-- The tensor descriptor in 32 bytes. -/
def Tensor.ofBytes (bs : List Byte) : Tensor :=
  let v := leNat bs
  { id := BitVec.ofNat 32 (bitsOf v 0 32)
    kind := bitsOf v 32 4
    fmt := bitsOf v 36 4
    block := bitsOf v 40 1 == 1
    sat := bitsOf v 41 1 == 1
    priv := bitsOf v 42 1 == 1
    deliv := bitsOf v 44 4
    initE := (BitVec.ofNat 8 (bitsOf v 48 8)).toInt
    rows := bitsOf v 64 32
    rowLen := bitsOf v 96 32
    absmax := BitVec.ofNat 64 (bitsOf v 128 64)
    shard := BitVec.ofNat 32 (bitsOf v 192 32)
    base4 := bitsOf v 224 32 }

/-- The tensor of a context's descriptor as it stands in memory. -/
def State.tensor (d : Desc) (s : State) : Tensor := Tensor.ofBytes (s.read d.tensorAddr.toNat 32)

/-! ## Status records (R212) -/

/-- The number of a flag. -/
def b2n (b : Bool) : Nat := if b then 1 else 0

/-- The 64 bytes of a status record. -/
def Ctx.status (code : BitVec 16) (endAt : Nat) (gateNs : Nat) (c : Ctx) : List Byte :=
  leBytes 4 (code.toNat + 2 ^ 16 * (b2n c.flags.nv + 2 * b2n c.flags.ov + 4 * b2n c.flags.uz + 8 * c.stages.toNat
    + 128 * b2n c.injected + 256 * c.desc.op))
  ++ leBytes 4 c.desc.impr.toNat ++ leBytes 8 c.start ++ leBytes 8 endAt
  ++ leBytes 4 c.arrived ++ leBytes 4 c.result
  ++ leBytes 2 (min c.stray 0xFFFF) ++ leBytes 2 (min c.dup 0xFFFF)
  ++ leBytes 1 c.replays ++ leBytes 1 0 ++ leBytes 2 (min c.late 0xFFFF)
  ++ leBytes 4 c.aux0 ++ leBytes 4 c.aux1
  ++ leBytes 4 (min c.contribNs 0xFFFFFFFF) ++ leBytes 4 (min c.bufferNs 0xFFFFFFFF)
  ++ leBytes 4 (min c.backpressNs 0xFFFFFFFF) ++ leBytes 4 (min gateNs 0xFFFFFFFF)

/-- A rank mask of 512 bytes from the ranks set in it (R206). -/
def maskBytes (ranks : List Nat) : List Byte :=
  leBytes 512 (ranks.foldl (fun acc r => acc ||| 2 ^ r) 0)

/-- The ranks set in a 512-byte mask, ascending. -/
def maskRanks (bs : List Byte) : List Nat :=
  let v := leNat bs
  (List.range 4096).filter fun r => Nat.testBit v r

/-- The code regions of a plate. -/
def Plate.codeRegions (p : Plate) : List (Nat × Nat) :=
  (p.images.filter fun i => i.type == 0x10).map fun i => (i.dest.toNat, i.bytes.length)

/-- The loaded plates. -/
def State.plates (s : State) : List Plate := s.jobs.filterMap fun e => e.2.plate

/-- Does a range meet a loaded code region (R159). -/
def State.inCode (a n : Nat) (s : State) : Bool :=
  s.plates.any fun p => p.codeRegions.any fun r => meets a n r.1 r.2

/-- Can a status area be written: a multiple of 64, in its space, not of a disabled cluster, outside the firmware
reserve and every code region (R159, R206, R211, R446). -/
def State.statusUsable (a : DWord) (n : Nat) (s : State) : Bool :=
  a.toNat % 64 == 0 && inSpace a n && !s.absentAt a && !inReserve a n && !s.inCode a.toNat n

/-- Does the operation of a descriptor write a missing-rank mask (R212). -/
def Desc.writesMask (d : Desc) : Bool := d.op == 1 || (d.op == 2 && d.word 8 % 2 == 0)

/-- Write the status record of an impression, or its event where the status area cannot be written (R211, R212). -/
def State.writeStatus (p : Port) (c : Ctx) (code : BitVec 16) (missing : List Nat) (gateNs : Nat) (s : State) : State :=
  let n := if c.desc.writesMask then 576 else 64
  if s.statusUsable c.desc.statusAddr n then
    let bs := c.status code s.time gateNs
    s.store c.desc.statusAddr.toNat (if c.desc.writesMask then bs ++ maskBytes missing else bs)
  else s.log code clsPort (p.setWidth 16) c.desc.job (c.desc.statusAddr.setWidth 32)

/-! ## Frames that the module's units originate -/

end Sys2Proof.Machine

namespace Sys2Proof

open Sys2Proof.Machine

/-- A frame with every field 0. -/
def Frame.blank : Frame where
  kind := 0
  cls := 0
  mc := false
  plen := 0
  ecn := false
  echo := false
  fmt := 0
  sigDie := 0
  sig := false
  job := 0
  srcRank := 0
  dstModule := 0
  dstPort := 0
  group := 0
  transfer := 0
  ttl := 1023
  ident := 0
  offset := 0
  detail := 0
  payload := []
  counter := 0
  inc := 0
  announced := 0
  stomp := false
  crc := 0
  reserved := false
  spare := 0

/-- The 32 header bytes of a frame (R350). -/
def Frame.header (f : Frame) : List Byte :=
  leBytes 4 (f.kind.toNat + 2 ^ 4 * f.cls.toNat + 2 ^ 7 * b2n f.mc + 2 ^ 8 * f.plen.toNat + 2 ^ 16 * b2n f.ecn
    + 2 ^ 17 * b2n f.echo + 2 ^ 20 * f.fmt.toNat + 2 ^ 24 * f.sigDie.toNat + 2 ^ 26 * b2n f.sig)
  ++ leBytes 4 (f.job.toNat + 2 ^ 16 * f.srcRank.toNat)
  ++ leBytes 4 (f.dstModule.toNat + 2 ^ 9 * f.dstPort.toNat + 2 ^ 16 * f.group.toNat)
  ++ leBytes 4 (f.transfer.toNat + 2 ^ 16 * f.ttl.toNat)
  ++ leBytes 4 f.ident.toNat ++ leBytes 4 f.offset.toNat ++ leBytes 8 f.detail.toNat

/-- The CRC of an intact frame: header with ttl and ecn as 0, payload, tail bytes 0x00 to 0x17 with stomp as 0 (R353). -/
def Frame.goodCrc (f : Frame) : DWord :=
  crc64 ({ f with ttl := 0, ecn := false }.header ++ f.payload
    ++ leBytes 2 f.counter.toNat ++ leBytes 2 f.inc.toNat ++ leBytes 4 f.announced.toNat ++ leBytes 16 (2 * f.spare.toNat))

/-- The 32 tail bytes of a frame (R352). -/
def Frame.tail (f : Frame) : List Byte :=
  leBytes 2 f.counter.toNat ++ leBytes 2 f.inc.toNat ++ leBytes 4 f.announced.toNat
  ++ leBytes 16 (b2n f.stomp + 2 * f.spare.toNat) ++ leBytes 8 f.crc.toNat

/-- A frame sealed with its CRC. -/
def Frame.sealCrc (f : Frame) : Frame := { f with crc := f.goodCrc }

/-- A frame stomped: the stomp bit and the complement of the CRC (R353, R358). -/
def Frame.stomped (f : Frame) : Frame := { f with stomp := true, crc := ~~~ f.goodCrc }

/-- Address a frame to a rank: the destination fields of its rank-list entry (R248, R350). -/
def Frame.toRank (e : RankEntry) (f : Frame) : Frame :=
  { f with dstModule := e.module, dstPort := if e.kind = 1 then e.port else 0x3F }

/-- Address a frame to a module. -/
def Frame.toModule (m : BitVec 9) (f : Frame) : Frame := { f with dstModule := m, dstPort := 0x3F }

end Sys2Proof

namespace Sys2Proof.Machine

/-- A unit of this module sends a frame: it joins the frames that wait for their route lookup. -/
def State.send (f : Frame) (s : State) : State :=
  { s with fab := { s.fab with selfEgress := s.fab.selfEgress ++ [f.sealCrc] } }

/-- The rank-list entry of a rank of a job (R247). -/
def State.rankEntry (no : JobNo) (r : Nat) (s : State) : Option RankEntry :=
  match s.plate no with
  | some p => (p.ranks[r]?).bind fun e => if e.kind = 1 ∨ e.kind = 2 then some e else none
  | none => none

/-- The mapping in force for a job. -/
def State.mappingOf (no : JobNo) (s : State) : Option Mapping :=
  match s.plate no with
  | some p => p.mappings[(s.job no).mapping]?
  | none => none

/-- PERMUTE: block size. -/
def Desc.blockSize (d : Desc) : Nat := bitsOf (d.word 8) 0 32

end Sys2Proof.Machine
end

