-- ==== Sys2Proof/Machine/Bpm.lean ====
section
/-! DEFINITION. The buffer pool manager: granules, rings and their caches, quotas, grants and frees (11 R294 to R305). -/

namespace Sys2Proof.Machine

/-! ## Granules (R294) -/

/-- A granule: its die, its key in the die's ownership records, its kind. -/
structure Gran where
  die  : Die
  key  : Nat
  dram : Bool
  deriving DecidableEq, Repr

/-- The granule that starts at a module address; none where no granule starts there. -/
def granuleAt (a : DWord) : Option Gran :=
  match DWord.loc a with
  | .sram c o => if o % 16384 = 0 then some ⟨c.die, (c.toNat % 64) * 512 + o / 16384, false⟩ else none
  | .dram k o =>
    if o % 1048576 = 0 then some ⟨BitVec.ofNat 2 (k.toNat / 8), 32768 + (k.toNat % 8) * 131072 + o / 1048576, true⟩ else none
  | .bad => none

/-- The ownership record of a granule (R302). -/
def State.gran (g : Gran) (s : State) : GranRec := Table.get GranRec.reset g.key (s.die g.die).grans
/-- Put an ownership record. -/
def State.setGran (g : Gran) (v : GranRec) (s : State) : State :=
  s.modDie g.die fun d => { d with grans := Table.set GranRec.reset g.key v d.grans }

/-- The die of an owner number (R298). -/
def ownerDie (u : Nat) : Die :=
  if u < 256 then BitVec.ofNat 2 (u / 64) else if u < 320 then BitVec.ofNat 2 ((u - 256) / 16) else BitVec.ofNat 2 (u - 320)

/-- Is an owner present on the module. -/
def State.hasOwner (u : Nat) (s : State) : Bool :=
  if u < 256 then s.hasCluster (BitVec.ofNat 8 u) else if u < 320 then s.hasPort (BitVec.ofNat 6 (u - 256)) else decide (u < 324)

/-- The granules of a kind charged to an owner of a job: those it would release, on whichever die they lie (R299, R302). -/
def State.charged (u : Nat) (dram : Bool) (no : JobNo) (s : State) : Nat :=
  (s.dies.flatMap fun (d : Nat × DieState) => d.2.grans.filter fun e =>
    decide (32768 ≤ e.1) == dram && e.2.st == .held && e.2.job == no && e.2.owners.getLast? == some u).length

/-- The quota of an owner of a job (R299). -/
def State.quota (u : Nat) (dram : Bool) (no : JobNo) (s : State) : Nat :=
  match s.plate no with
  | some p => bitsOf (p.quotas.getD u 0).toNat (if dram then 12 else 0) (if dram then 20 else 10)
  | none => 0

/-! ## Free granules (R295, R296) -/

/-- The lowest free SRAM granule of a cluster (R295). -/
def State.freeSram (c : ClusterId) (s : State) : Option Nat :=
  (List.range 512).find? fun g =>
    decide ((s.clu c).poolBase ≤ g * 16384) && (s.gran ⟨c.die, (c.toNat % 64) * 512 + g, false⟩).st == .free

/-- Take entries from the ring into the cache while it holds fewer than 64 (R296). The newest entry of a cache stands
last. -/
def refill (r : List DWord × List DWord) : List DWord × List DWord :=
  if r.2.length < 64 then (r.1.drop 64, r.2 ++ r.1.take 64) else r

/-- Write the 64 oldest entries of a cache that holds more than 192 to the tail of the ring (R296). -/
def spill (r : List DWord × List DWord) : List DWord × List DWord :=
  if 192 < r.2.length then (r.1 ++ r.2.take 64, r.2.drop 64) else r

/-- The ring and the cache of a job slot on a die. -/
def State.ring (d : Die) (k : Nat) (s : State) : List DWord × List DWord :=
  (Table.get [] k (s.die d).rings, Table.get [] k (s.die d).caches)
/-- Put the ring and the cache of a job slot, and move entries between them where the cache holds too few or too many (R296). -/
def State.setRing (d : Die) (k : Nat) (r : List DWord × List DWord) (s : State) : State :=
  let r := refill (spill r)
  s.modDie d fun x => { x with rings := Table.set [] k r.1 x.rings, caches := Table.set [] k r.2 x.caches }

/-- Does a DRAM granule lie in the stack that a request names; most name none. -/
def inStack (k : Option (BitVec 5)) (a : DWord) : Bool :=
  match k, DWord.loc a with
  | none, _ => true
  | some k, .dram j _ => k == j
  | some _, _ => false

/-- The next DRAM granule of a job on a die in the stack that is asked for, and the ring and cache without it: the newest such entry of the
cache, else the one nearest to the head of the ring (R296, R516). -/
def State.takeDram (d : Die) (k : Nat) (stack : Option (BitVec 5)) (s : State) : Option (DWord × State) :=
  let r := refill (s.ring d k)
  match r.2.reverse.find? (inStack stack), r.1.find? (inStack stack) with
  | some a, _ => some (a, s.setRing d k (r.1, r.2.erase a))
  | none, some a => some (a, s.setRing d k (r.1.erase a, r.2))
  | none, none => none

/-! ## Grants (R301) -/

/-- Can a request be met now: within quota, and a granule is free. -/
def State.grantable (w : GranReq) (s : State) : Bool :=
  decide (s.charged w.owner w.dram w.job < s.quota w.owner w.dram w.job) &&
    (if w.dram then
      match s.jobSlot w.job with
      | some k => let r := s.ring (ownerDie w.owner) k; r.1.any (inStack w.stack) || r.2.any (inStack w.stack)
      | none => false
    else (s.freeSram (BitVec.ofNat 8 w.owner)).isSome)

/-- Grant a request that can be met: the granule's address, and its record naming the requester (R302). -/
def State.grantNow (w : GranReq) (s : State) : Option (DWord × State) :=
  if s.grantable w then
    let got : Option (DWord × State) :=
      if w.dram then (s.jobSlot w.job).bind fun k => s.takeDram (ownerDie w.owner) k w.stack
      else (s.freeSram (BitVec.ofNat 8 w.owner)).map fun g =>
        (BitVec.ofNat 64 (sramAddr (BitVec.ofNat 8 w.owner) (g * 16384)), s)
    match got with
    | some (a, s) =>
      match granuleAt a with
      | some g => some (a, s.setGran g ⟨.held, w.job, [w.owner]⟩)
      | none => none
    | none => none
  else none

/-- A request: granted at once where it can be and no older request of its kind can, else it joins the waiting
requests of the die (R301). -/
def State.request (w : GranReq) (s : State) : Option DWord × State :=
  let d := ownerDie w.owner
  let older := (s.die d).waiters.any fun x => x.dram == w.dram && s.grantable x
  match (if older then none else s.grantNow w) with
  | some (a, s) => (some a, s)
  | none => (none, s.modDie d fun x => { x with waiters := x.waiters ++ [w] })

/-- Is a request of an owner waiting. -/
def State.waitsForGranule (w : GranReq) (s : State) : Bool := (s.die (ownerDie w.owner)).waiters.contains w

/-- The die of a DRAM address. -/
def dramDie (a : DWord) : Die := match DWord.loc a with | .dram k _ => BitVec.ofNat 2 (k.toNat / 8) | _ => 0

/-- The stack that holds the shadow of a range: that of the same region number on die d XOR 2 (R516). -/
def shadowStack (a : DWord) : Option (BitVec 5) := match DWord.loc a with | .dram k _ => some (k ^^^ 16) | _ => none

/-- The number of 1 MiB granules for n bytes. -/
def stagingNeed (n : Nat) : Nat := (n + 1048575) / 1048576

/-! ## Frees (R304, R305) -/

/-- May a unit free the granule at an address: it starts there, is held by a job, and the unit is its releaser. -/
def State.mayFree (u : Nat) (a : DWord) (s : State) : Bool :=
  match granuleAt a with
  | some g => (s.gran g).st == .held && (s.gran g).owners.getLast? == some u
  | none => false

/-- Does a DRAM granule lie in the pools of a plate (R300). -/
def Plate.inPool (a : DWord) (p : Plate) : Bool :=
  match DWord.loc a with
  | .dram k o => let r := p.pools.getD k.toNat (0, 0); decide (r.1 ≤ o) && decide (o < r.2)
  | _ => false

/-- Return a granule to the free map, or to the cache of its job's ring where it is of the job's pools (R296, R304). -/
def State.freeGranule (a : DWord) (s : State) : State :=
  match granuleAt a with
  | some g =>
    let r := s.gran g
    let s := s.setGran g GranRec.reset
    if g.dram then
      match (s.plate r.job).bind fun p => if p.inPool a then s.jobSlot r.job else none with
      | some k =>
        let q := s.ring g.die k
        s.setRing g.die k (q.1, q.2 ++ [a])
      | none => s
    else s
  | none => s

/-- A free by a unit: the granule returns, or the refusal is counted on the unit's die (R304). -/
def State.free_ (u : Nat) (a : DWord) (s : State) : State :=
  if s.mayFree u a then s.freeGranule a
  else s.modDie (ownerDie u) fun d => { d with notOwner := sat32 d.notOwner 1 }

/-- Every granule of a job returns to the free store, and its rings and caches are emptied (R296, R305). -/
def State.freeJob (no : JobNo) (s : State) : State :=
  let k := (s.jobSlot no).getD 8
  { s with dies := s.dies.map fun (e : Nat × DieState) => (e.1, { e.2 with
      grans := e.2.grans.filter fun g => g.2.job ≠ no
      waiters := e.2.waiters.filter fun w => w.job ≠ no
      rings := Table.set [] k [] e.2.rings
      caches := Table.set [] k [] e.2.caches }) }

/-! ## The pools of a job (R296, R300, R303) -/

/-- The granules of the pools of one die in the order of the ring: ascending, one from each stack in turn. -/
def poolOrder (d : Die) (pools : List (Nat × Nat)) : List DWord :=
  let mine := (List.range 8).map fun i => let k := 8 * d.toNat + i; let p := pools.getD k (0, 0); (k, p.1, (p.2 - p.1) / 1048576)
  let most := mine.foldl (fun m p => max m p.2.2) 0
  (List.range most).flatMap fun n => mine.filterMap fun p =>
    if n < p.2.2 then some (BitVec.ofNat 64 (dramAddr p.1 (p.2.1 + n * 1048576))) else none

/-- The addresses of the granules that a range of DRAM touches. -/
def granulesIn (a n : Nat) : List DWord :=
  (List.range ((n + 1048575) / 1048576)).map fun i => BitVec.ofNat 64 (a / 1048576 * 1048576 + i * 1048576)

/-- Fill the rings of a job from its plate's pools, without the granules that its share list names and those of its wire
areas; the shared
granules get their records (R296, R303). -/
def State.fillRings (no : JobNo) (s : State) : State :=
  match s.plate no, s.jobSlot no with
  | some p, some k =>
    let wire := p.shardRecs.flatMap fun r => granulesIn r.wireBase.toNat (r.hold * r.areaSize)
    let s := allDies.foldl (fun s d =>
      let l := (poolOrder d p.pools).filter fun a => !(p.shares.any fun e => e.address == a) && !wire.contains a
      if l.isEmpty then s else s.setRing d k (l, [])) s
    p.shares.foldl (fun s e =>
      match granuleAt e.address with
      | some g => s.setGran g ⟨.held, no, e.owners⟩
      | none => s) s
  | _, _ => s

/-- Mark the areas of a shard as wire areas of the pacor control processor of the die that holds them (R302, R306). -/
def State.markWire (r : Shard) (s : State) : State :=
  (granulesIn r.wireBase.toNat (r.hold * r.areaSize)).foldl (fun s a =>
    match granuleAt a with
    | some g => s.setGran g ⟨.wire, r.job, [320 + g.die.toNat]⟩
    | none => s) s

end Sys2Proof.Machine
end

