-- ==== Sys2Proof/Machine/Landing.lean ====
section
/-! DEFINITION. Results that land in a cluster (R144, R168, R181), the halt of a cluster (R198, R200), and the
signatures of proof mode (R326, R327). -/

namespace Sys2Proof.Machine

/-! ## Registers of a cluster (R162) -/

/-- The integer register r; x0 reads 0. -/
def Cluster.xr (r : BitVec 5) (c : Cluster) : DWord := if r = 0 then 0 else Table.get 0 r.toNat c.x
/-- Write an integer register; a write to x0 is discarded. -/
def Cluster.setX (r : BitVec 5) (v : DWord) (c : Cluster) : Cluster :=
  if r = 0 then c else { c with x := Table.set 0 r.toNat v c.x }
/-- The binary32 register r. -/
def Cluster.fr (r : BitVec 5) (c : Cluster) : Word := Table.get 0 r.toNat c.f
/-- Write a binary32 register. -/
def Cluster.setF (r : BitVec 5) (v : Word) (c : Cluster) : Cluster := { c with f := Table.set 0 r.toNat v c.f }
/-- The 512 lanes of a vector register. -/
def Cluster.vr (r : BitVec 5) (c : Cluster) : List Word :=
  let t := Table.get [] r.toNat c.v
  (List.range 512).map fun l => Table.get 0 l t
/-- The mask register r; m0 reads all ones. -/
def Cluster.mr (r : BitVec 3) (c : Cluster) : BitVec 512 :=
  if r = 0 then BitVec.allOnes 512 else Table.get 0 r.toNat c.m
/-- Write the enabled bits of a mask register; a write to m0 is discarded. -/
def Cluster.setM (r : BitVec 3) (v mask : BitVec 512) (c : Cluster) : Cluster :=
  if r = 0 then c else { c with m := Table.set 0 r.toNat ((c.mr r &&& ~~~mask) ||| (v &&& mask)) c.m }

/-- The sparse form of 512 lanes. -/
def packLanes (ls : List Word) : Table Word :=
  ((List.range ls.length).zip ls).filter fun e => e.2 ≠ 0

/-- The lanes of a write: the new value where the mask enables the lane, the old one elsewhere (R153). -/
def mergeLanes (mask : BitVec 512) (old new : List Word) : List Word :=
  (List.range 512).map fun l => if mask.getLsbD l then new.getD l 0 else old.getD l 0

/-- Write the enabled lanes of a vector register. -/
def Cluster.setV (r : BitVec 5) (ls : List Word) (mask : BitVec 512) (c : Cluster) : Cluster :=
  { c with v := Table.set [] r.toNat (packLanes (mergeLanes mask (c.vr r) ls)) c.v }

/-! ## Stores that land (R150, R181) -/

/-- The words of a vector store's range that hold a bit of a disabled lane: they are merged. -/
def partialWords (a : Nat) (f : Fmt) (mask : BitVec 512) : List Nat :=
  let off := (List.range 512).filter fun l => !mask.getLsbD l
  (off.flatMap fun l => [wordStart (a + l * f.bits / 8), wordStart (a + (l * f.bits + f.bits - 1) / 8)]).dedup

/-- Land a vector store: the codes of the enabled lanes over what stands in SRAM now (R181). Answers the first word
whose merge failed. -/
def State.landVst (c : ClusterId) (a : Nat) (f : Fmt) (ls : List Word) (mask : BitVec 512) (s : State) : State × Option Nat :=
  let n := f.bytes 512
  let old := unpack f 512 (s.read a n)
  let codes := (List.range 512).map fun l => if mask.getLsbD l then (ls.getD l 0).toNat else old.getD l 0
  let parts := partialWords a f mask
  let skip := s.badWords.filter parts.contains
  let s := s.corrects c ((s.weakIn a n).filter parts.contains)
  ({ s with
      mem := writeSkip skip a (pack f codes) s.mem
      badWords := s.badWords.filter fun w => !(inside w (codeWord w) a n && !parts.contains w)
      weakWords := s.weakWords.filter fun w => !meets a n w 8 }, skip.head?)

/-- Land bytes of a store of the cluster itself: the words that they cover in part are merged, which corrects a single-bit error in
them. Answers the first word whose merge failed (R150). -/
def State.merge (c : ClusterId) (off : Nat) (bs : List Byte) (s : State) : State × Option Nat :=
  let a := sramAddr c off
  let failed := (s.spoiled a bs.length).head?
  let s := s.corrects c ((s.weakIn a bs.length).filter fun w => !inside w 8 a bs.length)
  (s.write a bs, failed)

/-- Land one target. Answers the first SRAM word whose merge failed (R150). -/
def State.land (c : ClusterId) (t : Target) (s : State) : State × Option Nat :=
  match t with
  | .x r v => (s.modClu c (Cluster.setX r v), none)
  | .f r v => (s.modClu c (Cluster.setF r v), none)
  | .v r ls mask => (s.modClu c (Cluster.setV r ls mask), none)
  | .m r v mask => (s.modClu c (Cluster.setM r v mask), none)
  | .cx v => (s.modClu c fun k => { k with cx := v }, none)
  | .sram a bs => s.merge c a bs
  | .vst a f ls mask =>
    match Fmt.ofCode f.toNat with
    | some f => s.landVst c (sramAddr c a) f ls mask
    | none => (s, none)

/-! ## Signatures of proof mode (R326, R327) -/

/-- The current state number of a shard, or 0xFFFF_FFFF (R327). -/
def State.shardState (no : JobNo) (shard : Word) (s : State) : Word :=
  match s.shards.find? fun r => r.job == no && r.shard == shard with
  | some r => r.st
  | none => 0xFFFFFFFF

/-- Is a job in proof mode (R323). -/
def State.inProof (no : JobNo) (s : State) : Bool := (s.job no).proofRole != 0

/-- Sign an object of a job in proof mode: the entry waits on its die for the partner's (R326 to R328). inj says that an injection has
changed the object (R329). -/
def State.sign (d : Die) (no : JobNo) (unitKind unit : Byte) (object : BitVec 4) (impr step seq state : Word)
    (inj : Bool) (bs : List Byte) (s : State) : State :=
  if s.inProof no then
    let e : SigEntry := ⟨⟨unitKind, unit, impr, step, seq⟩, object, state, crc64 bs, BitVec.ofNat 32 bs.length⟩
    s.modDie d fun x => { x with sigOwn := x.sigOwn ++ [⟨e, no, s.time, false, inj⟩] }
  else s

/-! ## Halts (R198, R200) -/

/-- The 32 bytes of a fault record (R200). -/
def FaultRec.bytes (r : FaultRec) : List Byte :=
  leBytes 4 (r.code.toNat + 2 ^ 16 * r.slot.toNat + 2 ^ 19 * b2n r.more + 2 ^ 20 * b2n r.injected + 2 ^ 24 * r.number.toNat)
  ++ leBytes 4 (r.cluster.toNat + 2 ^ 8 * r.cls.toNat + 2 ^ 16 * r.job.toNat)
  ++ leBytes 8 r.step.toNat ++ leBytes 4 r.pc.toNat ++ leBytes 4 r.detail.toNat ++ leBytes 8 r.time.toNat

/-- Land one result in flight. Answers the first failed merge with the slot of its instruction. -/
def State.landOne (c : ClusterId) (r : InFlight) (s : State) : State × Option (Nat × Nat) :=
  let s := s.modClu c fun k => { k with flags := k.flags.or r.flags }
  r.targets.foldl (fun acc t =>
    let r' := acc.1.land c t
    (r'.1, acc.2.orElse fun _ => r'.2.map fun a => (a, r.slot))) (s, none)

/-- The bytes of row m of a C tile. -/
def cRowBytes (row : List Word) : List Byte := row.flatMap fun w => leBytes 4 w.toNat

/-- The step at whose end a tile's C lands (R192). -/
def Tile.land (t : Tile) : Nat := t.issue + t.len + 19

/-- Land the C tile of an array operation: each row's elements, the flags, and the signature (R81, R86, R326). Answers the first failed
merge (R150). -/
def State.landTile (c : ClusterId) (t : Tile) (s : State) : State × Option (Nat × Nat) :=
  let s := s.modClu c fun k => { k with flags := k.flags.or t.flags }
  let r := ((List.range t.rows).zip t.c).foldl (fun acc mr =>
    let r' := State.merge c (t.cAddr + 512 * mr.1) (cRowBytes mr.2) acc.1
    (r'.1, acc.2.orElse fun _ => r'.2.map fun a => (a, 3))) (s, none)
  match (s.clu c).impr with
  | some i => (r.1.sign c.die i.job 1 c 1 i.id i.step (BitVec.ofNat 32 t.seq) 0xFFFFFFFF false (t.c.flatMap cRowBytes), r.2)
  | none => r

/-- The order in which writes of one step apply: array, vector, scalar, then the rest (R144). -/
def landRank (slot : Nat) : Nat :=
  match slot with
  | 3 => 0
  | 2 => 1
  | 1 => 2
  | n => 3 + n

/-- Results due at the end of a step in landing order, earlier steps first. -/
def dueBefore (n : Nat) (l : List InFlight) : List InFlight :=
  sortBy (fun a b => decide (a.land < b.land ∨ (a.land = b.land ∧ landRank a.slot ≤ landRank b.slot)))
    (l.filter fun r => decide (r.land ≤ n))

/-- Land every tile, then every result, due at or before the end of step n. Answers the first failed merge. -/
def State.landDue (c : ClusterId) (n : Nat) (s : State) : State × Option (Nat × Nat) :=
  let k := s.clu c
  let r := (k.tiles.filter fun (t : Tile) => decide (t.land ≤ n)).foldl (fun acc t =>
    let r' := acc.1.landTile c t
    (r'.1, acc.2.orElse fun _ => r'.2)) (s, none)
  let r := (dueBefore n k.inflight).foldl (fun acc x =>
    let r' := acc.1.landOne c x
    (r'.1, acc.2.orElse fun _ => r'.2)) r
  (r.1.modClu c fun k => { k with
    inflight := k.inflight.filter fun (r : InFlight) => decide (n < r.land)
    tiles := k.tiles.filter fun (t : Tile) => decide (n < t.land) }, r.2)

/-! ## The end of an impression (R155, R198 to R200) -/

/-- The schedule entry of an impression no longer runs (R250). -/
def State.entryDone (no : JobNo) (e : Nat) (s : State) : State :=
  s.modJob no fun j => { j with prog := Table.set EntryProg.reset e { Table.get EntryProg.reset e j.prog with running := false, ended := s.time } j.prog }

/-- The status of a program impression that ends: its code, its stall steps, and its fault record (R112, R155, R200). -/
def State.imprStatus (no : JobNo) (e : Nat) (code : BitVec 16) (stalls : Nat) (r : Option FaultRec) (s : State) : State :=
  (s.entryDone no e).modJob no fun j => { j with
    prog := Table.set EntryProg.reset e { Table.get EntryProg.reset e j.prog with code := code, stalls := stalls, record := r } j.prog }

/-- Nothing of the instruction cache of a cluster is valid, and nothing is on its way to it (R159). -/
def Cluster.forgetCode (k : Cluster) : Cluster := { k with icache := [], iwait := [], fetchBad := [] }

/-- A held bundle is abandoned: its buffer request no longer waits, and a granule granted to it returns to the pool, but for a stopped
job's, which keeps it until it ends (R155, R195, R301, R305). -/
def State.abandon (c : ClusterId) (keep : Bool) (s : State) : State :=
  let s := match (s.clu c).grant with
    | some a => if keep then s else s.freeGranule a
    | none => s
  s.modDie c.die fun d => { d with waiters := d.waiters.filter fun w => w.owner != c.toNat }

/-- The impression of a cluster is to end: no further bundle issues, a held wait is abandoned, and the steps go on until everything
issued has landed. A fault stands against a halt or a stop, before or after it (R155, R198, R199). -/
def State.willEnd (c : ClusterId) (e : Ending) (s : State) : State :=
  (s.abandon c (decide (e = .halt Code.aborted))).modClu c fun k => { k with
    ending := match k.ending with
      | some (.fault r) => some (.fault r)
      | _ => some e
    gstate := .running, holdCause := .none, forming := [], fetchQ := [], waitDone := none, gateDone := false, startGate := none
    grant := none, waitDeadline := none, iwait := [], fetchBad := [] }

/-- A cluster whose impression has ended: nothing is assigned and nothing is due. -/
def Cluster.ended (k : Cluster) : Cluster :=
  { k with ending := none, dueFault := none, issuedAt := none, holdCause := .none }

/-- Where everything that an ending impression issued has landed, the cluster becomes IDLE with the halt code, or HALTED with the
record, of which the impression's status receives a copy (R155, R198, R200). -/
def State.endIfLanded (c : ClusterId) (s : State) : State :=
  let k := s.clu c
  match k.ending, k.inflight.isEmpty && k.tiles.isEmpty with
  | some (.halt code), true =>
    let s := match k.impr with
      | some i => s.imprStatus i.job i.entry code k.imprStall none
      | none => s
    s.modClu c fun k => { k.ended with gstate := .idle, job := 0, impr := none, haltCode := code }
  | some (.fault r), true =>
    let s := match k.impr with
      | some i => (s.imprStatus i.job i.entry r.code k.imprStall (some r)).sign c.die i.job 1 c 4 i.id i.step
          (BitVec.ofNat 32 k.signSeq) 0xFFFFFFFF r.injected r.bytes
      | none => s
    s.modClu c fun k => { k.ended with gstate := .halted, faultRec := some r }
  | _, _ => s

/-- End the impression of a cluster from outside, at its step boundary: a held cluster stands at one (R155, R199). -/
def State.endImpression (c : ClusterId) (code : BitVec 16) (s : State) : State :=
  let held := (s.clu c).gstate == .held
  let s := s.willEnd c (.halt code)
  if held then s.endIfLanded c else s

/-- Halt a cluster, which stands at a step boundary, with a fault record, which goes to the event log; a cluster that a fault already
halts keeps the first record (R198, R200, R521). -/
def State.haltCluster (c : ClusterId) (r : FaultRec) (s : State) : State :=
  match (s.clu c).ending with
  | some (.fault _) => s
  | _ =>
    let s := s.append { s.event r.code clsCluster (c.setWidth 16) r.job r.detail with injected := r.injected }
    (s.willEnd c (.fault r)).endIfLanded c

/-- A fault that is not precise at a bundle: an uncorrectable word met by a unit outside the cluster, or the merge of
a store that landed (R150, R202, R442). -/
def State.failCluster (c : ClusterId) (f : DueFault) (s : State) : State :=
  let k := s.clu c
  if k.gstate = .running ∨ k.gstate = .held then
    s.haltCluster c
      { number := 0, injected := f.injected, more := false, slot := f.slot, code := f.code, job := k.job, cls := f.cls
        cluster := c, step := BitVec.ofNat 64 k.stepCount, pc := f.pc, detail := f.detail, time := BitVec.ofNat 64 s.time }
  else s

end Sys2Proof.Machine
end

