-- ==== Sys2Proof/Machine/Sync.lean ====
section
/-! DEFINITION. Counters, waits, barriers, shard states, and the stop of a job (10, 11 R306 to R309, 18 R466, 21 R517):
the operations that many commands share. -/

namespace Sys2Proof.Machine

/-! ## Waits on a counter (R276, R292) -/

/-- The WAITC of a held bundle: its counter and the value it waits for. -/
def Cluster.waitc (c : Cluster) : Option (CounterName × Nat) :=
  match c.fetchQ with
  | b :: _ => (b.words.find? fun w => w.slot == 0 && w.op == 0x05).map fun w =>
      (w.f.imm.setWidth 16, (c.xr w.f.b).toNat % 2 ^ 32)
  | [] => none

/-- Does a cluster hold a WAITC on a counter that nothing has met yet: a bundle that waits for its lines or for the gate of its
impression is not yet held by its wait (R139, R276). -/
def Cluster.heldOn (n : CounterName) (c : Cluster) : Bool :=
  c.gstate == .held && c.holdCause != .fetch && c.startGate.isNone && c.waitDone.isNone && (match c.waitc with | some w => w.1 == n | none => false)

/-- Release the held WAITCs on a counter: met where the value reaches the operand (R276), or orphaned (R292). -/
def State.wake (n : CounterName) (s : State) : State :=
  let k := s.counter n
  { s with clusters := s.clusters.map fun e =>
      if e.2.heldOn n then
        if k.orphaned then (e.1, { e.2 with waitDone := some 0x01 })
        else match e.2.waitc with
          | some w => if w.2 ≤ k.value.toNat then (e.1, { e.2 with waitDone := some 0x00 }) else e
          | none => e
      else e }

/-! ## Orphaned counters (R291, R292) -/

/-- Orphan a counter: held waits end with ORPHANED, and the pending signals to it are discarded and counted. -/
def State.orphan (n : CounterName) (s : State) : State :=
  let s := s.modCounter n fun k => { k with orphaned := true }
  let gone := fun (e : PstEntry) => match e.tag with | some t => t.counter == n | none => false
  let s := s.modDie n.die fun d =>
    { d with sigDiscarded := sat32 d.sigDiscarded (d.pst.filter gone).length, pst := d.pst.filter fun e => !gone e }
  s.wake n

/-- The counters that a job owns. -/
def State.countersOf (no : JobNo) (s : State) : List CounterName :=
  allDies.flatMap fun d => ((s.die d).counters.filter fun e => e.2.job == no).map fun e =>
    BitVec.ofNat 16 (d.toNat * 16384 + e.1)

/-! ## Barriers (R286 to R290) -/

/-- The definition of a barrier slot in a job's plate. -/
def State.barDef (no : JobNo) (slot : Nat) (s : State) : Option BarDef :=
  match s.plate no with
  | some p => p.barriers.find? fun b => b.slot.toNat == slot
  | none => none

/-- The 32 bytes of an outcome record (R290). -/
def outcomeBytes (gen : Word) (status : Nat) (vote : Bool) (arrived missing : Nat) (lowest : Word) (time : Nat) : List Byte :=
  leBytes 4 gen.toNat ++ leBytes 4 (status + 256 * b2n vote) ++ leBytes 2 arrived ++ leBytes 2 missing
    ++ leBytes 4 lowest.toNat ++ leBytes 8 time ++ leBytes 8 0

/-- The work that a release barrier's completion frees: each retired state whose generation it is (R308). An area that
a reply still reads is released when that reply has left (R309). -/
def Shard.freeGen (gen : Word) (r : Shard) : Shard × Nat :=
  (List.range 4).foldl (fun acc a =>
    let r := acc.1
    match r.areas[a]? with
    | some x =>
      if x.valid && x.retired && x.gen == gen then
        if r.readers.contains a then ({ r with relDue := r.relDue ++ [a] }, acc.2)
        else ({ r with areas := r.areas.set a { x with valid := false } }, acc.2 + 1)
      else acc
    | none => acc) (r, 0)

/-- The generation of the vote of a step: the count of the steps voted. A further step has the generation after that of the last step
voted, or the open one where that has gone on without this module (R288; log entry 99). -/
def barVoteGen (step : Word) (k : Bar) : Nat :=
  match k.voted.find? fun e => e.1 == step, k.voted.getLast? with
  | some e, _ => e.2
  | none, some l => if step < l.1 then k.gen.toNat - 1 else max k.gen.toNat (l.2 + 1)
  | none, none => k.gen.toNat

/-- The steps voted with that of a further vote; those of generations long over are left out. -/
def Bar.withVote (step : Word) (k : Bar) : List (Word × Nat) :=
  if k.voted.any fun e => e.1 == step then k.voted
  else (k.voted.filter fun e => decide (k.gen.toNat ≤ e.2 + 2)) ++ [(step, barVoteGen step k)]

/-- The record of a barrier's completion at a participant: the outcome record with the mask that follows it, the end
of the generation, the REDUCE contexts that wait for the outcome (R289). done_counter is left to the caller. -/
def State.barOutcome (no : JobNo) (b : BarDef) (gen : Word) (status : Byte) (vote : Bool) (bytes : List Byte)
    (mask : List Byte) (s : State) : State :=
  let s := s.store b.outcome.toNat (bytes ++ mask)
  let k := s.bar b.slot.toNat
  let s := s.modBar b.slot.toNat fun k => { k with gen := gen + 1 }
  { s with engines := s.engines.map fun e => (e.1, { e.2 with ctxs := e.2.ctxs.map fun c =>
      if c.phase == .voting && c.desc.job == no && c.desc.voteBarrier == b.slot.toNat && barVoteGen c.desc.step k == gen.toNat then
        { c with phase := .outcome, outcome := some (status, vote) } else c }) }

/-! ## The stop of a job (R155, R215, R289, R291, R466, R498) -/

/-- A context as it stands before anything has arrived. -/
def Ctx.fresh (id : Nat) (q : QEntry) (start : Nat) (mask : List Nat) : Ctx where
  id := id
  desc := q.desc
  accepted := q.accepted
  start := start
  step := q.step
  entry := q.entry
  phase := .collecting
  mask := mask
  units := []
  added := 0
  norms := []
  s1 := 0
  s2 := 0
  count := 0
  flags := .none
  stages := 0
  injected := false
  stray := 0
  dup := 0
  late := 0
  replays := 0
  arrived := 0
  result := 0
  aux0 := 0
  aux1 := 0
  contribNs := 0
  bufferNs := 0
  backpressNs := 0
  gateNs := start - q.accepted
  firstArrival := false
  held := []
  requests := []
  serving := none
  blocks := []
  granules := []
  sent := 0
  readsDone := false
  payloads := []
  rung := 0
  absrec := none
  aff := []
  ofStage := false
  vote := false
  outcome := none
  signSeq := 0
  closing := none

/-- The place of a frame of an incoming PERMUTE block among the accepted payload: its destination, then its source rank and source block
(R237, R317). -/
def permuteKey (dest rank block : Nat) : Nat := (dest * 4096 + rank) * 2 ^ 32 + block

/-- Is the payload at a key that of a PERMUTE block which lost its destination to another one (R237). -/
def Ctx.lostBlock (c : Ctx) (k : Nat) : Bool :=
  let size := max (bitsOf (c.desc.word 8) 0 32) 1
  let rank := k / 2 ^ 32 % 4096
  c.op == 4 && c.blocks.any fun (x : PBlock) => x.index == k / 2 ^ 44 / size && decide (size / 128 ≤ x.units.length)
    && (decide (x.srcRank < rank) || (x.srcRank == rank && decide (x.srcBlock < k % 2 ^ 32)))

/-- The input CRC of a stream impression: its id, then the payload it accepted by ascending destination, without the blocks that R237
discards (R317). -/
def Ctx.inputCrc (c : Ctx) : DWord :=
  crc64 (leBytes 4 c.desc.impr.toNat ++ (c.payloads.filter fun e => !c.lostBlock e.1).flatMap (·.2))

/-- The payload of a frame joins the accepted payload at its destination. -/
def insertPayload (k : Nat) (bs : List Byte) : List (Nat × List Byte) → List (Nat × List Byte)
  | [] => [(k, bs)]
  | e :: t => if k < e.1 then (k, bs) :: e :: t else e :: insertPayload k bs t

/-- The stream impression of a step begins in the job's ledger (R317). -/
def Job.ledgerOpens (step : Word) (j : Job) : Job :=
  if j.ledgerOpen.any (·.step == step) then
    { j with ledgerOpen := j.ledgerOpen.map fun l => if l.step = step then { l with open_ := l.open_ + 1 } else l }
  else { j with ledgerOpen := j.ledgerOpen ++ [⟨step, 1, 0, 0⟩] }

/-- A stream impression of a step ends in the job's ledger with its input CRC (R317). -/
def Job.ledgerEnds (step : Word) (crc : DWord) (j : Job) : Job :=
  { j with ledgerOpen := j.ledgerOpen.map fun l =>
      if l.step = step then { l with ended := l.ended + 1, digest := l.digest ^^^ crc } else l }

/-- Is the shard of a REDUCE recorded on this module (R129, R306). -/
def State.hasShard (no : JobNo) (shard : Word) (s : State) : Bool :=
  s.shards.any fun r => r.job == no && r.shard == shard

/-- Does a REDUCE that ends with a code keep its slot set and log: a delivered sum until the state advances, an
aborted one until the job ends. Without a shard record they are released whatever the code (R129, R215, R224). -/
def State.keepsSet (c : Ctx) (shard : Word) (code : BitVec 16) (s : State) : Bool :=
  c.desc.op == 1 && s.hasShard c.desc.job shard && (code == Code.ok || code == Code.aborted)

/-- The shard of a stream impression: that of its descriptor where the operation names one, else that of its tensor (R206, R210, R327). -/
def State.ctxShard (c : Ctx) (s : State) : Word :=
  if c.desc.op = 7 ∨ (c.desc.op = 2 ∧ c.desc.word 8 % 2 = 1) then c.desc.shard8
  else if c.desc.tensorAddr = 0 then 0xFFFFFFFF else (s.tensor c.desc).shard

/-! ## Stream output tiles (R326) -/

/-- The number of tiles of an object of n bytes at an offset of the destination: one up to 64 KiB, else those between the 64 KiB boundaries
(R326). -/
def tilesAt (off n : Nat) : Nat := if n ≤ 65536 then (if n = 0 then 0 else 1) else (off % 65536 + n + 65535) / 65536

/-- Sign one tile of a stream impression. -/
def State.signTile (p : Port) (c : Ctx) (seq : Nat) (bs : List Byte) (s : State) : State :=
  s.sign p.die c.desc.job 2 (p.setWidth 8) 3 c.desc.impr c.step (BitVec.ofNat 32 seq) (s.shardState c.desc.job (s.ctxShard c)) c.injected bs

/-- Sign bytes of an object of more than 64 KiB, one entry for each tile between 64 KiB boundaries. -/
def State.signCut (p : Port) (c : Ctx) (seq off : Nat) : Nat → List Byte → State → State
  | 0, _, s => s
  | n + 1, bs, s =>
    if bs.isEmpty then s
    else
      let len := 65536 - off % 65536
      State.signCut p c (seq + 1) (off + len) n (bs.drop len) (s.signTile p c seq (bs.take len))

/-- Sign an object that an impression writes or sends at an offset of its destination, with sequence numbers from seq on (R326). -/
def State.signTiles (p : Port) (c : Ctx) (seq off : Nat) (bs : List Byte) (s : State) : State :=
  if bs.isEmpty then s
  else if bs.length ≤ 65536 then s.signTile p c seq bs
  else State.signCut p c seq off (bs.length / 65536 + 2) bs s

/-- Sign a whole destination of a context; its next sequence number follows. -/
def State.signOut (p : Port) (c : Ctx) (off : Nat) (bs : List Byte) (s : State) : Ctx × State :=
  ({ c with signSeq := c.signSeq + tilesAt off bs.length }, s.signTiles p c c.signSeq off bs)

/-- Does a block take the place of those received before it for the same destination (R237). -/
def blockWins (b : PBlock) (l : List PBlock) : Bool :=
  l.all fun x => x.index != b.index || (x.srcRank == b.srcRank && x.srcBlock == b.srcBlock)
    || decide (b.srcRank < x.srcRank ∨ (b.srcRank = x.srcRank ∧ b.srcBlock < x.srcBlock))

/-- The blocks that a PERMUTE has written, by ascending destination (R237). -/
def Ctx.keptBlocks (c : Ctx) : List PBlock :=
  let full := c.blocks.filter fun x => decide (c.desc.blockSize / 128 ≤ x.units.length)
  sortBy (fun (x y : PBlock) => decide (x.index ≤ y.index)) (full.filter fun x => blockWins x full)

/-- Sign the blocks that a PERMUTE has written. -/
def State.signKept (p : Port) (c : Ctx) (s : State) : Ctx × State :=
  c.keptBlocks.foldl (fun (cs : Ctx × State) x => cs.2.signOut p cs.1 (c.desc.dest.toNat + x.index * c.desc.blockSize) x.bytes) (c, s)

/-- Sign what an impression that ends early has written or sent before its end: the pieces of a GATHER, the blocks of a PERMUTE, the part of
a ring block that a SHIFT has forwarded (R326). -/
def State.signRest (p : Port) (c : Ctx) (s : State) : Ctx × State :=
  if c.desc.op = 2 ∧ c.collects then s.signOut p c c.desc.dest.toNat (c.payloads.flatMap (·.2))
  else if c.desc.op = 3 then
    (c, (List.range c.mask.length).foldl (fun s i =>
      let part := (c.payloads.filter fun e => i * 2 ^ 32 ≤ e.1 && decide (e.1 < (i + 1) * 2 ^ 32)).flatMap (·.2)
      if c.hasArrived i then s
      else s.signTiles p c (i * tilesAt (bitsOf c.desc.dest.toNat 0 32) c.desc.length) (bitsOf c.desc.dest.toNat 0 32) part) s)
  else if c.desc.op = 4 then s.signKept p c
  else (c, s)

/-- Close a context: the status record, the ledger, the proof-mode signature of the status, the held slot set; the
context is free, its request for a granule ends (R301), and the engine assigns the frames that it held back anew (R204). done_inc is left to the caller (R212, R214, R317,
R326). The granules of a PERMUTE return, but for a stopped job's, which keeps them until it ends (R304, R305). -/
def State.closeCtx (p : Port) (c : Ctx) (code : BitVec 16) (missing : List Nat) (s : State) : State :=
  let shard := (s.tensor c.desc).shard
  let tid := (s.tensor c.desc).id
  let keep := s.keepsSet c shard code
  let s := s.writeStatus p c code missing c.gateNs
  let s := s.modJob c.desc.job (Job.ledgerEnds c.step c.inputCrc)
  let s := match c.entry with
    | some e => s.entryDone c.desc.job e
    | none => s
  let s := s.sign p.die c.desc.job 2 (p.setWidth 8) 4 c.desc.impr c.step (BitVec.ofNat 32 c.signSeq)
    (s.shardState c.desc.job (s.ctxShard c)) c.injected ((c.status code s.time c.gateNs).take 4)
  let s := if c.desc.op = 4 then
      s.modDie p.die fun d => { d with waiters := d.waiters.filter (· ≠ ⟨256 + p.toNat, true, c.desc.job, none⟩) }
    else s
  let s := if code == Code.aborted then s else c.granules.foldl (fun s g => s.freeGranule g) s
  s.modEng p fun e => { e with
    ctxs := e.ctxs.filter fun x => x.id ≠ c.id
    held := e.held ++ c.held
    heldSets := if keep then e.heldSets ++ [⟨c.desc.job, shard, tid, c.desc.step.getLsbD 0⟩] else e.heldSets }

/-- Remove a queued descriptor of a stopped job with its ABORTED record (R215). -/
def State.abortQueued (p : Port) (q : QEntry) (since : Nat) (s : State) : State :=
  let c := { Ctx.fresh 0 q 0 [] with start := 0 }
  let s := s.writeStatus p c Code.aborted [] (s.time - since)
  match q.entry with
  | some e => s.entryDone q.desc.job e
  | none => s

/-- Every context and queued descriptor of a job ends with ABORTED (R215). -/
def State.abortStreams (no : JobNo) (s : State) : State :=
  allPorts.foldl (fun s p =>
    let e := s.eng p
    if e.ctxs.isEmpty && e.queue.isEmpty && e.pacorWait.isEmpty then s
    else
      let mine := fun (d : Desc) => d.job == no
      let s := (e.ctxs.filter fun c => mine c.desc).foldl (fun s c => s.closeCtx p c Code.aborted []) s
      let s := (e.queue.filter fun q => mine q.desc).foldl (fun s q => s.abortQueued p q q.accepted) s
      let s := (e.pacorWait.filter fun q => mine q.1.desc).foldl (fun s q => s.abortQueued p q.1 q.2.toNat) s
      s.modEng p fun e => { e with
        queue := e.queue.filter fun q => !mine q.desc
        pacorWait := e.pacorWait.filter fun q => !mine q.1.desc }) s

/-- Send a frame of a job: the twin of a proof-mode pair sends nothing to the fabric (R324). -/
def State.sendJob (no : JobNo) (f : Frame) (s : State) : State := if (s.job no).proofRole = 2 then s else s.send f

/-- The frame of a barrier completion to a participant (R289, R351). -/
def completionFrame (no : JobNo) (me : Nat) (slot : BitVec 6) (vote : Bool) (status : Nat) (gen : Word)
    (payload : List Byte) : Frame :=
  { Frame.blank with
    kind := 5, cls := 1, plen := BitVec.ofNat 8 (payload.length / 32), job := no, srcRank := BitVec.ofNat 12 me
    ident := BitVec.ofNat 32 (slot.toNat + 64 * b2n vote + 128 + 256 * status), detail := gen.setWidth 64
    payload := payload }

/-- The root ends its open generation: a completion frame to every other participant, and the outcome here (R289).
Answers whether this module is a participant whose done_counter moves. -/
def State.barComplete (no : JobNo) (b : BarDef) (status : Nat) (s : State) : State :=
  let k := s.bar b.slot.toNat
  let here := k.masks.1
  let missing := b.mask.filter fun r => !here.contains r
  let lowest : Word := match missing with | r :: _ => BitVec.ofNat 32 r | [] => 0xFFFFFFFF
  let bytes := outcomeBytes k.gen status k.votes.1 here.length missing.length lowest s.time
  let mask := maskBytes (if status = 1 then missing else [])
  let payload := if status = 1 then bytes ++ mask else bytes
  let gen := k.gen
  let vote := k.votes.1
  let s := b.mask.foldl (fun s r =>
    if r = b.root then s
    else match s.rankEntry no r with
      | some e => s.sendJob no ((completionFrame no b.root b.slot vote status gen payload).toRank e)
      | none => s) s
  let s := s.modBar b.slot.toNat fun k => { k with
    masks := (k.masks.2, []), votes := (k.votes.2, false), opened := if k.masks.2.isEmpty then none else some s.time }
  s.barOutcome no b gen (BitVec.ofNat 8 status) vote bytes mask

/-- Is this module the root of a barrier of a job. -/
def State.isRoot (no : JobNo) (b : BarDef) (s : State) : Bool := s.ownRank no == some b.root

/-- The barriers of a stopped job: those rooted here complete as ORPHANED (R289, R291). DESIGN CHOICE (log entry 120): so does one whose
generation no arrival has opened yet. -/
def State.orphanBarriers (no : JobNo) (s : State) : State :=
  match s.plate no with
  | some p => p.barriers.foldl (fun s b =>
      if s.isRoot no b then (s.barComplete no b 2).orphan b.done else s) s
  | none => s

/-- Send a job marker to the meter (R498): the open marker of a start, the close marker of an end, deferred where it is
sent at a later boot. A hub without power sends none; the job stays among those that have no close marker. -/
def State.meterMarker (opens deferred : Bool) (no : JobNo) (s : State) : State :=
  if s.margin.hubOn then
    (s.output (.marker opens deferred no)).modMeter fun m => { m with
      openJobs := if opens then m.openJobs ++ [no] else m.openJobs.filter (· ≠ no), toldAt := some s.time }
  else s

/-- Stop a job: its clusters' impressions end, its stream impressions abort, its counters are orphaned, its barriers
rooted here complete as ORPHANED, its waiting requests and mirror traffic are abandoned, and the event log receives
the code (R155, R215, R289, R291, R301, R513, R521). A job that has not started or has stopped keeps its state. -/
def State.stopJob (no : JobNo) (code : BitVec 16) (cls : BitVec 4) (unit : BitVec 16) (detail : Word) (s : State) : State :=
  let j := s.job no
  if j.st = .running ∨ j.st = .starting ∨ j.st = .done then
    let was := j.st
    let s := s.modJob no fun j => { j with
      st := .stopped, reason := code, endTime := if was = .done then j.endTime else s.time }
    let s := (s.countersOf no).foldl (fun s n => s.orphan n) s
    let s := s.clusters.foldl (fun s e =>
      if e.2.job = no ∧ (e.2.gstate = .running ∨ e.2.gstate = .held) then s.endImpression (BitVec.ofNat 8 e.1) Code.aborted else s) s
    let s := s.abortStreams no
    let s := s.orphanBarriers no
    let s : State := { s with dies := s.dies.map fun (e : Nat × DieState) => (e.1, { e.2 with waiters := e.2.waiters.filter fun w => w.job ≠ no }) }
    let s : State := { s with clusters := s.clusters.map fun (e : Nat × Cluster) =>
      (e.1, { e.2 with moves := e.2.moves.filter fun m => !(m.mirrored && m.impr.job == no) }) }
    let s := s.modPair fun p => { p with seals := p.seals.filter fun x => x.job ≠ no }
    let s := if was ≠ .done then s.meterMarker false false no else s
    s.log code cls unit no detail
  else s

/-! ## Faults that trigger a recovery or a fence (R517) -/

/-- Is a recovery in progress (R517). -/
def Pair.recovering (p : Pair) : Bool :=
  !p.recUnits.isEmpty || p.restoring || p.st == .partnerLost || p.st == .takeover || p.st == .resync

/-- Enter FENCED: every job stops with FENCED; mirror traffic, staging and granules stay (R518). The event that
caused it is the last one in the log and is marked. -/
def State.fence (s : State) : State :=
  let s := s.modPair fun p => { p with st := .fenced, recUnits := [], restoring := false }
  let s := s.modHub fun h => { h with events :=
    h.events.dropLast ++ (h.events.getLast?.toList.map fun e => { e with fenced := true, stAfter := ModSt.code .fenced }) }
  s.jobs.foldl (fun s e => s.stopJob e.2.no Code.fenced clsModule 0 0) s

/-- A trigger-class event has been written for a unit that is not in recovery: it fences the module during a recovery,
or at the instant of another such event (R517). -/
def State.trigger (s : State) : State :=
  if s.pair.st = .fenced then s
  else if s.pair.recovering || s.pair.lastTrig == some s.time then s.fence
  else s.modPair fun p => { p with lastTrig := some s.time }

/-- A cluster takes a fault at a step boundary; an SRAM error that reaches the event log is a trigger (R150, R517). -/
def State.takeFault (c : ClusterId) (f : DueFault) (s : State) : State :=
  let t := s.failCluster c f
  if f.code = Code.sramUncorrectable ∧ t.hub.eventSeq ≠ s.hub.eventSeq then t.trigger else t

/-- The record of an uncorrectable DRAM word (R444). -/
def memRecord (code : BitVec 16) (k : Nat) (o : Nat) (scrub inj : Bool) (req : BitVec 16) (no : JobNo) (time : Nat) : MemFault :=
  let m := dramMap o
  { code := code, stack := BitVec.ofNat 5 k, channel := BitVec.ofNat 4 m.1, bank := BitVec.ofNat 4 m.2.1, scrub := scrub
    injected := inj, row := BitVec.ofNat 18 m.2.2.1, col := BitVec.ofNat 11 m.2.2.2
    address := BitVec.ofNat 64 (dramAddr k o), requester := req, job := no, time := BitVec.ofNat 64 time }

/-- Write a memory fault record and its event; an uncorrectable word counts in the stack and is a trigger (R442, R444,
R445, R521). -/
def State.memFault (code : BitVec 16) (k o : Nat) (scrub inj : Bool) (req : BitVec 16) (no : JobNo) (s : State) : State :=
  let s := s.modDie (BitVec.ofNat 2 (k / 8)) fun d =>
    { d with memFaults := pushRing 64 (memRecord code k o scrub inj req no s.time) d.memFaults }
  let s := if code = Code.dramUncorrectable then s.modStack k fun t => { t with uncorrectable := sat32 t.uncorrectable 1 } else s
  let s := s.append { s.event code clsStack (BitVec.ofNat 16 k) no (BitVec.ofNat 32 (o / 128)) with injected := inj }
  if code = Code.dramUncorrectable then s.trigger else s

/-- The memory that fails a demand read: SRAM or DRAM, whether an injected fault did it, the failing word. -/
structure ReadFail where
  code : BitVec 16
  inj  : Bool
  word : Nat
  deriving DecidableEq, Repr

/-- The range that an armed memory injection spoils: a word of a cluster's SRAM, a line of a stack (R524). -/
def Inject.range (i : Inject) : Option (Nat × Nat) :=
  if i.code = Code.sramUncorrectable then some (sramAddr (i.number.setWidth 8) i.detail.toNat, 8)
  else if i.code = Code.dramUncorrectable then some (dramAddr (i.number.toNat % 32) (i.detail.toNat * 128), 128)
  else none

/-- The injected fault that a demand read meets (R524). -/
def State.armedIn (a n : Nat) (s : State) : Option Inject :=
  s.armed.find? fun i => match i.range with
    | some r => meets a n r.1 r.2
    | none => false

/-- The requester of a DRAM access of n bytes waits for the refreshes that block it: a cluster or an engine by its requester number (R268,
R298, R440). -/
def State.holdRefresh (a n : Nat) (req : BitVec 16) (s : State) : State :=
  match DWord.loc (BitVec.ofNat 64 a) with
  | .dram k o =>
    let till := s.time + (s.stack k.toNat).waits o n s.time
    if till = s.time then s
    else if req.toNat < 256 then s.modClu (req.setWidth 8) fun c => { c with refreshTill := max c.refreshTill till }
    else if req.toNat < 320 then s.modEng (BitVec.ofNat 6 (req.toNat - 256)) fun e => { e with refreshTill := max e.refreshTill till }
    else s
  | _ => s

/-- A corrected read of a DRAM word counts in its stack; the sixteenth of its row reports the row (R441, R445). -/
def State.correctedWord (k o : Nat) (scrub : Bool) (req : BitVec 16) (no : JobNo) (s : State) : State :=
  let m := dramMap o
  let row := (m.1 * 16 + m.2.1) * 262144 + m.2.2.1
  let n := Table.get 0 row (s.stack k).rowCounts + 1
  let s := s.modStack k fun t => { t with corrected := t.corrected + 1, rowCounts := Table.set 0 row n t.rowCounts }
  if n = 16 then
    (s.modStack k fun t => { t with degradedRows := sat32 t.degradedRows 1 }).memFault Code.dramRowDegraded k o scrub false req no
  else s

/-- The corrections of a demand read (R150, R441). -/
def State.corrections (a n : Nat) (req : BitVec 16) (no : JobNo) (s : State) : State :=
  match DWord.loc (BitVec.ofNat 64 a) with
  | .sram c _ => s.corrects c (s.weakIn a n)
  | .dram k _ => (s.weakIn a n).foldl (fun s w => s.correctedWord k.toNat (w % 2 ^ 37) false req no) s
  | .bad => s

/-- A demand read of n bytes at a: the bytes, or the failing word. A DRAM failure writes its memory fault record; an
injected fault spends itself (R150, R442, R524). -/
def State.demand (a n : Nat) (req : BitVec 16) (no : JobNo) (s : State) : (List Byte × Option ReadFail) × State :=
  let s := (s.holdRefresh a n req).noteRead a n
  let fail : Option ReadFail := match s.armedIn a n with
    | some i => some ⟨i.code, true, match i.range with | some r => max a r.1 | none => a⟩
    | none => (s.badWords.find? fun w => meets a n w (codeWord w)).map fun w =>
        ⟨if w < 2 ^ 62 then Code.sramUncorrectable else Code.dramUncorrectable, false, w⟩
  match fail with
  | none => ((s.read a n, none), s.corrections a n req no)
  | some f =>
    let s := { s with armed := match s.armedIn a n with | some i => s.armed.erase i | none => s.armed }
    let s := match DWord.loc (BitVec.ofNat 64 f.word) with
      | .dram k o => s.memFault Code.dramUncorrectable k.toNat (o / 64 * 64) false f.inj req no
      | _ => s
    (([], some f), s)

/-- A write on behalf of a requester: a part of an uncorrectable word is discarded and fails as the requester's read does, in DRAM with a
memory fault record (R150, R438, R442). -/
def State.storeBy (req : BitVec 16) (no : JobNo) (a : Nat) (bs : List Byte) (s : State) : Option ReadFail × State :=
  let w := (s.spoiled a bs.length).head?
  let s := (s.holdRefresh a bs.length req).store a bs
  match w with
  | none => (none, s)
  | some w =>
    match DWord.loc (BitVec.ofNat 64 w) with
    | .dram k o => (some ⟨Code.dramUncorrectable, false, w⟩, s.memFault Code.dramUncorrectable k.toNat o false false req no)
    | _ => (some ⟨Code.sramUncorrectable, false, w⟩, s)

/-- The requester number of the Pacor control processor of the die on which an address lies (R298, R444). -/
def cpReq (a : Nat) : BitVec 16 := BitVec.ofNat 16 (320 + (dramDie (BitVec.ofNat 64 a)).toNat)

/-- The job that owns the data of a control processor's failed access stops (R442). -/
def State.cpFailed (no : JobNo) (f : ReadFail) (s : State) : State := s.stopJob no f.code clsModule 0 (BitVec.ofNat 32 f.word)

/-- A Pacor control processor reads data of a job (R313, R442); no bytes where a word is uncorrectable. -/
def State.cpRead (no : JobNo) (a n : Nat) (s : State) : Option (List Byte) × State :=
  let r := s.demand a n (cpReq a) no
  match r.1.2 with
  | none => (some r.1.1, r.2)
  | some f => (none, r.2.cpFailed no f)

/-- A control processor reads the ranges of a list, up to the first that fails. -/
def State.cpReads (no : JobNo) : List (Nat × Nat) → State → Option (List Byte) × State
  | [], s => (some [], s)
  | x :: l, s =>
    let r := s.cpRead no x.1 x.2
    match r.1 with
    | none => r
    | some bs =>
      let t := State.cpReads no l r.2
      (t.1.map fun cs => bs ++ cs, t.2)

/-- A control processor writes data of a job (R438, R442). -/
def State.cpStore (no : JobNo) (a : Nat) (bs : List Byte) (s : State) : State :=
  let r := s.storeBy (cpReq a) no a bs
  match r.1 with
  | none => r.2
  | some f => r.2.cpFailed no f

/-! ## Additions (R273, R274, R307, R510) -/

/-- The shard whose advance counter a counter is. -/
def State.advances (n : CounterName) (s : State) : Option Shard :=
  s.shards.find? fun r => r.job == (s.counter n).job && r.advance == n

/-- Change the record of a shard. -/
def State.modShard (no : JobNo) (shard : Word) (g : Shard → Shard) (s : State) : State :=
  { s with shards := s.shards.map fun r => if r.job = no ∧ r.shard = shard then g r else r }

/-- The entry of a job's mirror table for a shard that this module owns: a source entry, or a hold entry of a shard
that it has taken over (R508, R515, R516). -/
def State.mirrorSource (no : JobNo) (shard : Word) (s : State) : Option MirrorEntry :=
  match s.plate no with
  | some p => p.mirror.find? fun m =>
      m.shard == shard && (!m.hold || s.pair.shadows.any fun x => x.job == no && x.shard == shard)
  | none => none

/-- The module that is this module's pair partner. -/
def State.partner (s : State) : Option (BitVec 9) :=
  s.fab.map.map fun m => BitVec.ofNat 9 (Table.get ⟨false, 0, 0, 0, false, false, false, false⟩ s.fab.module.toNat m.entries).partner

/-- A pair frame (R506). -/
def pairFrame (sub cls : Nat) (no : JobNo) (detail : DWord) (off : Word) (payload : List Byte) : Frame :=
  { Frame.blank with
    kind := 8, cls := BitVec.ofNat 3 cls, plen := BitVec.ofNat 8 (payload.length / 32), job := no
    ident := BitVec.ofNat 32 sub, detail := detail, offset := off, payload := payload }

/-- Send a pair frame to the partner. -/
def State.sendPair (f : Frame) (s : State) : State :=
  match s.partner with
  | some m => s.send (f.toModule m)
  | none => s

/-- shard and state number as a pair frame's detail (R506). -/
def pairDetail (shard st : Word) : DWord := shard.setWidth 64 ||| (st.setWidth 64 <<< 32)

/-- The die's Pacor control processor sends SEAL for a mirrored shard. In PARTNER_LOST the SEAL waits; in SOLO the local
shadow seals instead, as the last part of the command (R510, R513, R515, R516). -/
def State.sendSeal (no : JobNo) (shard st : Word) (s : State) : State :=
  match s.mirrorSource no shard with
  | some _ =>
    if s.inProof no then s
    else
      let s := s.modPair fun p => { p with seals := p.seals ++ [⟨no, shard, st⟩] }
      if s.pair.st ≠ .paired ∧ s.pair.st ≠ .recovering then s
      else s.sendPair (pairFrame 3 1 no (pairDetail shard st) 0 [])
  | none => s

/-- Take out the oldest held set of each tensor of a shard. -/
def dropOldest (no : JobNo) (shard : Word) : List HeldSet → List Word → List HeldSet
  | [], _ => []
  | h :: t, done =>
    if h.job == no && h.shard == shard && !done.contains h.tensor then dropOldest no shard t (h.tensor :: done)
    else h :: dropOldest no shard t done

/-- The state number of a shard has advanced: the sets of the step that it completes are free, for each tensor the oldest that is held
(R129, R224). -/
def State.freeSets (no : JobNo) (shard : Word) (s : State) : State :=
  { s with engines := s.engines.map fun e => (e.1, { e.2 with heldSets := dropOldest no shard e.2.heldSets [] }) }

/-- A skip has completed: the sets of its step are free (R129, R224). -/
def State.freeStep (no : JobNo) (shard step : Word) (s : State) : State :=
  { s with engines := s.engines.map fun e =>
      (e.1, { e.2 with heldSets := e.2.heldSets.filter fun h => !(h.job == no && h.shard == shard && h.parity == step.getLsbD 0) }) }

/-- Retire state n and make n + 1 current, as one update (R307). -/
def Shard.advanceTo (gen : Word) (r : Shard) : Shard :=
  let n := r.st
  { r with
    st := n + 1
    areas := (List.range r.areas.length).map fun a =>
      let x := r.areas.getD a ⟨0, false, false, false, 0⟩
      if a = n.toNat % r.hold then { x with retired := true, gen := gen }
      else if a = (n.toNat + 1) % r.hold then ⟨n + 1, true, false, false, 0⟩ else x }

/-- The fill of an installed state completes (R307). -/
def Shard.fillDone (r : Shard) : Shard :=
  { r with areas := r.areas.map fun x => if x.filling && x.st == r.st then { x with filling := false, valid := true } else x }

/-- Is the installed state of a shard still filling. -/
def Shard.isFilling (r : Shard) : Bool := r.areas.any fun x => x.filling && x.st == r.st

/-- The area that holds a state number, for a state that is held (R233, R306). -/
def Shard.areaOf (st : Word) (r : Shard) : Option Nat :=
  (List.range r.areas.length).find? fun a => match r.areas[a]? with
    | some x => x.valid && x.st == st
    | none => false

/-- An addition of 1 to an advance counter takes effect: a fill completes, or the shard advances (R227, R307, R510). -/
def State.advanceShard (r : Shard) (s : State) : State :=
  if r.isFilling then
    let s := s.modShard r.job r.shard Shard.fillDone
    s.sendSeal r.job r.shard r.st
  else if 0xFFFFFFFE ≤ r.st.toNat then
    s.stopJob r.job Code.stateLimit clsTensor 0 r.shard
  else
    match r.areas[(r.st.toNat + 1) % r.hold]? with
    | some x =>
      if x.valid then s.stopJob r.job Code.bpmAreaBusy clsTensor 0 r.shard
      else
        let gen := (s.bar r.relSlot.toNat).gen
        let s := s.modShard r.job r.shard (Shard.advanceTo gen)
        let s := s.freeSets r.job r.shard
        s.sendSeal r.job r.shard (r.st + 1)
    | none => s.stopJob r.job Code.bpmAreaBusy clsTensor 0 r.shard

/-- Do signatures of state tiles of a job, its move tiles into DRAM, still await the partner's (R325, R326). -/
def State.unmatched (no : JobNo) (s : State) : Bool :=
  s.dies.any fun e => e.2.sigOwn.any fun x => x.job == no && x.e.object == 2

/-- The effect of an addition to an advance counter (R227, R307). In proof mode the advance waits until every signature of
the update's state tiles has matched (R325). -/
def State.shardAdvance (r : Shard) (delta : Int) (n : CounterName) (s : State) : State :=
  if delta ≠ 1 then s.stopJob r.job Code.bpmAdvanceInvalid clsTensor 0 (n.setWidth 32)
  else if s.inProof r.job && s.unmatched r.job then s.modShard r.job r.shard fun x => { x with advDue := x.advDue + 1 }
  else s.advanceShard r

/-- The source of an addition as a fault record names it: a class of unit and its number (R274). -/
structure AddSrc where
  cls : BitVec 4
  num : Word
  deriving DecidableEq, Repr

/-- A cluster as a source. -/
def srcCluster (c : ClusterId) : AddSrc := ⟨clsCluster, c.setWidth 32⟩
/-- A port, or its engine, as a source. -/
def srcPort (p : Port) : AddSrc := ⟨clsPort, p.setWidth 32⟩
/-- A rank as a source. -/
def srcRank (r : Nat) : AddSrc := ⟨clsRank, BitVec.ofNat 32 r⟩

/-- One indivisible addition to a counter by a source: limits, freeze, the waits it meets, and the advance of a shard
(R273, R274, R276, R307). A frozen counter ignores it. The record of a limit names the counter as its unit, and the source in its class
and detail (log entry 98). -/
def State.addCounter (n : CounterName) (delta : Int) (src : AddSrc) (s : State) : State :=
  let k := s.counter n
  if k.underflow || k.overflow then s
  else
    let v := (k.value.toNat : Int) + delta
    if v < 0 then
      let s := s.modCounter n fun k => { k with value := 0, underflow := true }
      (s.orphan n).stopJob k.job Code.counterUnderflow src.cls n src.num
    else if 0xFFFFFFFF < v then
      let s := s.modCounter n fun k => { k with value := 0xFFFFFFFF, overflow := true }
      (s.orphan n).stopJob k.job Code.counterOverflow src.cls n src.num
    else
      let s := s.modCounter n fun k => { k with value := BitVec.ofNat 32 v.toNat }
      let s := s.wake n
      match s.advances n with
      | some r => s.shardAdvance r delta n
      | none => s

/-- A signal, local or remote: discarded and counted where the counter has no owner, belongs to another job, or is
frozen or orphaned (R283, R292). -/
def State.signal (n : CounterName) (no : JobNo) (inc : Nat) (src : AddSrc) (s : State) : State :=
  let k := s.counter n
  if inc = 0 then s
  else if k.job = 0 ∨ k.job ≠ no ∨ k.orphaned ∨ k.underflow ∨ k.overflow then
    s.modDie n.die fun d => { d with sigDiscarded := sat32 d.sigDiscarded 1 }
  else s.addCounter n inc src

/-- A fault that ends an impression which has started at an instant during the mapping switch of its job, before the switch barrier has
completed here, aborts the switch: the mapping in force stays (R265). -/
def State.mapFail (no : JobNo) (start : Nat) (code : BitVec 16) (s : State) : State :=
  let j := s.job no
  match j.mapPend with
  | some e =>
    if j.st = .running ∧ !j.mapReady ∧ code ≠ Code.ok ∧ code ≠ Code.skipped ∧ (j.mapOn.any fun t => decide (t ≤ start)) then
      (s.modJob no fun j => { j with mapPend := j.mapNext, mapNext := none, mapOn := none, mapAt := none, mapBad := true }).log
        Code.mappingAborted clsModule 0 no e.1
    else s
  | none => s

/-- End a stream impression: what it has written is signed, its record commits, then done_inc is added, for every code (R211, R214, R326). -/
def State.endCtx (p : Port) (c : Ctx) (code : BitVec 16) (missing : List Nat) (s : State) : State :=
  let r := if code = Code.ok || !s.inProof c.desc.job then (c, s) else s.signRest p c
  let c := r.1
  let s := (r.2.closeCtx p c code missing).mapFail c.desc.job c.start code
  s.signal c.desc.doneCounter c.desc.job c.desc.doneInc (srcPort p)

/-! ## The pending-signal table (R280, R282) -/

/-- Is an entry that of a transfer. -/
def PstEntry.isFor (no : JobNo) (r : Rank) (t : BitVec 16) (e : PstEntry) : Bool := e.job == no && e.rank == r && e.transfer == t

/-- The entry of a transfer on a die. -/
def State.pstEntry (d : Die) (no : JobNo) (r : Rank) (t : BitVec 16) (s : State) : Option PstEntry :=
  (s.die d).pst.find? (PstEntry.isFor no r t)

/-- Is a report that of a transfer. -/
def CommitRep.isFor (no : JobNo) (r : Rank) (t : BitVec 16) (e : CommitRep) : Bool := e.job == no && e.rank == r && e.transfer == t

/-- The entries that the reports on their way to a die will open there. -/
def State.pstComing (d : Die) (s : State) : Nat :=
  (((s.die d).reports.filter fun e => (s.pstEntry d e.job e.rank e.transfer).isNone).map
    fun e => (e.job, e.rank, e.transfer)).eraseDups.length

/-- Is there no entry for a new transfer: its first frame is held back (R282). A report on its way has its entry. -/
def State.pstFull (d : Die) (no : JobNo) (r : Rank) (t : BitVec 16) (s : State) : Bool :=
  (s.pstEntry d no r t).isNone && !(s.die d).reports.any (CommitRep.isFor no r t) &&
    decide (2048 ≤ (s.die d).pst.length + s.pstComing d)

/-- Does a frame belong to a signalled transfer that has an entry here: a multicast STREAM frame opens none, and a stomped one never commits
(R281, R284). -/
def Frame.signals (f : Frame) : Bool := f.sig && !f.stomp && !(f.kind == 2#4 && f.mc)

/-- Is a frame the first of a signalled transfer for which the table of its counter's die is full: it is held back (R282). -/
def State.pstHolds (f : Frame) (s : State) : Bool := Frame.signals f && s.pstFull f.sigDie f.job f.srcRank f.transfer

/-! ## Arrivals at a barrier (R287, R288) -/

/-- This module arrives at a barrier. The spec does not say which barrier is the switch barrier of a mapping switch: DESIGN CHOICE (log
entry 28), the first plain barrier at which the module arrives once the switch has started (R263). -/
def State.switchArrive (no : JobNo) (b : BarDef) (gen : Nat) (s : State) : State :=
  if b.kind = 0 ∧ ((s.job no).mapOn.isSome && (s.job no).mapAt.isNone) then s.modJob no fun j => { j with mapAt := some (b.slot.toNat, gen) } else s

/-- A barrier completes here: the switch barrier ends the wait of a mapping switch where it completes OK, else the switch waits for
another arrival (R263; log entry 28). -/
def State.switchBarrier (no : JobNo) (b : BarDef) (status : Nat) (gen : Word) (s : State) : State :=
  if (s.job no).mapAt = some (b.slot.toNat, gen.toNat) then
    s.modJob no fun j => if status = 0 then { j with mapReady := true } else { j with mapAt := none }
  else s

/-- A participant applies the completion of a barrier, in the order of R289: the record, done_counter, the waiting
contexts; a release barrier that completes OK frees retired states (R308). -/
def State.barDone (no : JobNo) (b : BarDef) (status : Nat) (gen : Word) (s : State) : State :=
  let s := if status = 2 then s.orphan b.done else s.signal b.done no 1 (srcRank b.root)
  let s := s.switchBarrier no b status gen
  if b.kind = 2 ∧ status = 0 then
    s.shards.foldl (fun s r =>
      if r.job = no ∧ r.relSlot = b.slot then
        let q := r.freeGen gen
        let s := s.modShard no r.shard fun _ => q.1
        s.signal r.release no q.2 (srcRank b.root)
      else s) s
  else s

/-- Has every rank of a barrier's mask arrived in the open generation at the root. -/
def State.barFull (b : BarDef) (s : State) : Bool := b.mask.all (s.bar b.slot.toNat).masks.1.contains

/-- The root ends its open generation with a status and is a participant itself (R289). -/
def State.barEnd (no : JobNo) (b : BarDef) (status : Nat) (s : State) : State :=
  let gen := (s.bar b.slot.toNat).gen
  (s.barComplete no b status).barDone no b status gen

/-- The root completes the open generation when its last rank has arrived; the next generation completes with it where
all its arrivals were kept (R288, R289). No generation is open before the job has started. -/
def State.barCheck (no : JobNo) (b : BarDef) (s : State) : State :=
  if s.barFull b && (s.job no).st != .starting then
    let s := s.barEnd no b 0
    if s.barFull b then s.barEnd no b 0 else s
  else s

/-- The arrival of a rank at the root (R288): kept for the open generation or the next, discarded below or when
repeated, and a stop of the job beyond. -/
def State.barArrive (no : JobNo) (b : BarDef) (gen : Word) (r : Nat) (vote : Bool) (s : State) : State :=
  let k := s.bar b.slot.toNat
  if gen < k.gen then s.modBar b.slot.toNat fun k => { k with discarded := sat32 k.discarded 1 }
  else if gen = k.gen then
    if k.masks.1.contains r || !b.mask.contains r then
      s.modBar b.slot.toNat fun k => { k with discarded := sat32 k.discarded 1 }
    else
      let s := s.modBar b.slot.toNat fun k => { k with
        masks := (k.masks.1 ++ [r], k.masks.2), votes := (k.votes.1 || vote, k.votes.2)
        opened := if (s.job no).st == .starting then k.opened else some (k.opened.getD s.time) }
      s.barCheck no b
  else if gen = k.gen + 1 then
    if k.masks.2.contains r || !b.mask.contains r then
      s.modBar b.slot.toNat fun k => { k with discarded := sat32 k.discarded 1 }
    else s.modBar b.slot.toNat fun k => { k with
      masks := (k.masks.1, k.masks.2 ++ [r]), votes := (k.votes.1, k.votes.2 || vote) }
  else s.stopJob no Code.barrierOverrun clsNone (b.slot.setWidth 16) (BitVec.ofNat 32 r)

/-- The job starts: the generations 0 for which ranks have arrived at this root open, and complete where all have (R288). -/
def State.barsOpen (no : JobNo) (s : State) : State :=
  match s.plate no with
  | some p => p.barriers.foldl (fun s b =>
      if s.isRoot no b && !(s.bar b.slot.toNat).masks.1.isEmpty then
        (s.modBar b.slot.toNat fun k => { k with opened := some (k.opened.getD s.time) }).barCheck no b
      else s) s
  | none => s

/-- The arrival frame of a module rank to the root (R287, R351). -/
def arrivalFrame (no : JobNo) (me : Nat) (slot : BitVec 6) (vote : Bool) (gen : Word) : Frame :=
  { Frame.blank with
    kind := 5, cls := 1, job := no, srcRank := BitVec.ofNat 12 me
    ident := BitVec.ofNat 32 (slot.toNat + 64 * b2n vote), detail := gen.setWidth 64 }

/-- The local arrivals of a generation so far, and the OR of their votes (R287). -/
def Bar.localAt (gen : Nat) (k : Bar) : Nat × Bool := ((k.part.find? fun e => e.1 == gen).map (·.2)).getD (0, false)

/-- A slot after a local arrival for a generation: generations whose local arrivals are complete from the lowest on need no count any more
(R287). -/
def Bar.arrive (local_ gen : Nat) (vote : Bool) (k : Bar) : Bar :=
  let e := k.localAt gen
  let part := (k.part.filter fun x => x.1 != gen) ++ [(gen, e.1 + 1, e.2 || vote)]
  let full := fun (g : Nat) => part.any fun x => x.1 == g && decide (local_ ≤ x.2.1)
  let floor := (List.range (part.length + 1)).foldl (fun f _ => if full f then f + 1 else f) k.floor
  { k with floor := floor, part := part.filter fun x => decide (floor ≤ x.1) }

/-- A local arrival of this module for a generation; the last one of the generation makes the rank's arrival (R287, R288). -/
def State.barLocal (no : JobNo) (b : BarDef) (gen : Nat) (vote : Bool) (s : State) : State :=
  let k := s.bar b.slot.toNat
  if k.gen.toNat + 2 ≤ gen then s.stopJob no Code.barrierOverrun clsNone (b.slot.setWidth 16) 0
  else
    let e := k.localAt gen
    let v := e.2 || vote
    let s := s.modBar b.slot.toNat (Bar.arrive b.local_ gen vote)
    if e.1 + 1 = b.local_ then
      let s := s.switchArrive no b gen
      match s.ownRank no with
      | some me =>
        if me = b.root then s.barArrive no b (BitVec.ofNat 32 gen) me v
        else match s.rankEntry no b.root with
          | some e => s.sendJob no ((arrivalFrame no me b.slot v (BitVec.ofNat 32 gen)).toRank e)
          | none => s
      | none => s
    else s

/-- A BARR of a cluster (R287): an arrival of the lowest generation whose local arrivals, BARRs and votes, are not complete. -/
def State.barBarr (no : JobNo) (b : BarDef) (vote : Bool) (s : State) : State :=
  s.barLocal no b (s.bar b.slot.toNat).floor vote

/-- The vote of a REDUCE for its step (R222, R287, R288). -/
def State.barVoteOf (no : JobNo) (b : BarDef) (step : Word) (vote : Bool) (s : State) : State :=
  let gen := barVoteGen step (s.bar b.slot.toNat)
  (s.modBar b.slot.toNat fun k => { k with voted := k.withVote step }).barLocal no b gen vote

end Sys2Proof.Machine
end

