-- ==== Sys2Proof/Machine/Operands.lean ====
section
/-! DEFINITION. The operand forms of slot words: which fields each opcode uses, when a word is illegal, the SRAM
addresses that an instruction forms, and the conditions that a bundle can meet (07 R163 to R183, R193 to R197). -/

namespace Sys2Proof.Machine

/-! ## Fields of the opcodes (R166, R167) -/

/-- What an opcode uses of its word: the width and, for each field, the bits that may be non-zero and a further
condition on the values. -/
structure Form where
  wide : Bool
  d    : Bool := false
  a    : Bool := false
  b    : Bool := false
  c    : Bool := false
  md   : Nat := 0
  ok   : Fields → Bool := fun _ => true

/-- The fields of the control slot's opcodes (R172). -/
def controlForm (op : Nat) : Option Form :=
  let even := fun (f : Fields) => f.imm.toNat % 2 == 0
  match op with
  | 0x01 => some { wide := true, ok := even }
  | 0x02 => some { wide := true, a := true, ok := even }
  | 0x03 => some { wide := true, a := true, ok := even }
  | 0x04 => some { wide := true, a := true, ok := even }
  | 0x05 => some { wide := true, d := true, b := true }
  | 0x06 => some { wide := true, ok := fun f => f.imm.toNat < 4096 }
  | 0x07 => some { wide := true, ok := fun f => f.imm.toNat < 65536 }
  | 0x08 => some { wide := true, a := true }
  | 0x09 => some { wide := false, d := true }
  | 0x0A => some { wide := true, d := true, ok := fun f => f.imm.toNat % 8 == 0 && f.imm.toNat ≤ 0x58 }
  | _ => none

/-- The fields of the scalar slot's opcodes (R177, R178). -/
def scalarForm (op : Nat) : Option Form :=
  let two : Form := { wide := false, d := true, a := true }
  let three : Form := { wide := false, d := true, a := true, b := true }
  if (0x01 ≤ op ∧ op ≤ 0x0E) ∨ (0x20 ≤ op ∧ op ≤ 0x22) ∨ op = 0x24 ∨ op = 0x27 ∨ op = 0x28 then some three
  else if op = 0x25 ∨ op = 0x26 ∨ op = 0x29 ∨ op = 0x2A ∨ (0x2C ≤ op ∧ op ≤ 0x2F) then some two
  else if op = 0x10 ∨ op = 0x11 ∨ op = 0x18 ∨ op = 0x1A then some { two with wide := true }
  else if op = 0x19 ∨ op = 0x1B then some { wide := true, a := true, b := true }
  else if op = 0x23 then some { three with c := true }
  else if op = 0x2B then some { three with c := true, ok := fun f => f.c.toNat ≤ 5 }
  else if op = 0x30 then some { wide := true, a := true, b := true, ok := fun f => f.imm.toNat < 2 ^ 20 }
  else none

/-- The conditions of a VCVT or VDEC immediate (R182). -/
def cvtImm (dec : Bool) (f : Fields) : Bool :=
  let v := f.imm.toNat
  1 ≤ v % 16 && v % 16 ≤ 5 && decide (v < 128) && (!dec || !f.imm.getLsbD 4) && (!f.imm.getLsbD 5 || (!dec && v % 16 == 3))

/-- The fields of the vector slot's opcodes (R178, R180 to R182). Mask registers 8 to 31 do not exist (log entry 21). -/
def vectorForm (op : Nat) : Option Form :=
  let two : Form := { wide := false, d := true, a := true, md := 8 }
  let three : Form := { wide := false, d := true, a := true, b := true, md := 8 }
  match op with
  | 0x01 | 0x02 | 0x03 | 0x05 | 0x08 | 0x09 => some three
  | 0x04 => some { three with c := true }
  | 0x06 | 0x07 | 0x0A | 0x0B | 0x0E => some two
  | 0x0C => some { three with c := true, ok := fun f => f.c.toNat ≤ 5 && f.d.toNat < 8 }
  | 0x0D => some { three with c := true, ok := fun f => f.c.toNat < 8 }
  | 0x10 => some { two with c := true, ok := fun f => 1 ≤ f.c.toNat && f.c.toNat ≤ 6 }
  | 0x11 => some { wide := false, a := true, b := true, c := true, md := 8, ok := fun f => 1 ≤ f.c.toNat && f.c.toNat ≤ 6 }
  | 0x12 => some { three with wide := true, c := true, ok := cvtImm false }
  | 0x13 => some { three with wide := true, ok := cvtImm true }
  | 0x14 => some { two with ok := fun f => f.d.toNat ≤ 29 }
  | 0x15 => some { two with c := true, ok := fun f => f.c.toNat ≤ 3 }
  | 0x18 | 0x19 | 0x1A =>
    some { wide := false, d := true, a := true, b := true, ok := fun f => f.d.toNat < 8 && f.a.toNat < 8 && f.b.toNat < 8 }
  | 0x1B => some { wide := false, d := true, a := true, ok := fun f => f.d.toNat < 8 && f.a.toNat < 8 }
  | _ => none

/-- The fields of the array, move and stream/sync slots' opcodes (R183, R186, R190). -/
def otherForm (slot op : Nat) : Option Form :=
  match slot, op with
  | 3, 0x01 => some { wide := false, a := true, md := 2 }
  | 4, 0x01 => some { wide := true, a := true, b := true, c := true, ok := fun f => f.imm.toNat < 2 ^ 24 }
  | 4, 0x02 => some { wide := true, d := true, ok := fun f => f.imm.toNat < 2 }
  | 4, 0x03 => some { wide := false, a := true }
  | 5, 0x01 => some { wide := false, a := true, md := 2 }
  | 5, 0x02 => some { wide := true }
  | 5, 0x03 => some { wide := true, b := true, ok := fun f => f.imm.toNat < 2 ^ 16 }
  | 5, 0x04 => some { wide := true, ok := fun f => f.imm.toNat < 64 }
  | _, _ => none

/-- The form of an opcode in its slot. -/
def form (slot op : Nat) : Option Form :=
  match slot with
  | 0 => controlForm op
  | 1 => scalarForm op
  | 2 => vectorForm op
  | n => otherForm n op

/-- Is a slot word legal by itself (R167). -/
def SlotWord.legal (w : SlotWord) : Bool :=
  match form w.slot w.op.toNat with
  | some u => w.f.wide == u.wide && (u.d || w.f.d == 0) && (u.a || w.f.a == 0) && (u.b || w.f.b == 0)
      && (u.c || w.f.c == 0) && decide (w.f.mod.toNat < max u.md 1) && u.ok w.f
  | none => false

/-- The bytes of a slot word (R164). -/
def SlotWord.size (w : SlotWord) : Nat := if w.f.wide then 8 else 4

/-- The bytes of a bundle (R164). -/
def Bundle.size (b : Bundle) : Nat := b.words.foldl (fun n w => n + w.size) 2

/-- The bytes of the bundle whose header stands in memory (R164). -/
def headerSize (h : Nat) : Nat :=
  (List.range 6).foldl (fun n i => if Nat.testBit h i then (if Nat.testBit h (6 + i) then n + 8 else n + 4) else n) 2

/-- The offset of a word in its bundle (R196). -/
def Bundle.offset (b : Bundle) (slot : Nat) : Nat :=
  (b.words.filter fun w => decide (w.slot < slot)).foldl (fun n w => n + w.size) 2

/-! ## Conditions of a bundle (R196, R197) -/

/-- A condition that a bundle meets: its row in the table of R196, its slot, what orders conditions within a slot, and
what the record names. -/
structure Cond where
  row    : Nat
  slot   : Nat
  key    : Nat
  code   : BitVec 16
  cls    : BitVec 4
  number : Byte
  detail : Word
  deriving DecidableEq, Repr

/-- Does a condition come before another: by row, slot, then the register or address. -/
def Cond.before (x y : Cond) : Bool :=
  x.row < y.row || (x.row == y.row && (x.slot < y.slot || (x.slot == y.slot && x.key ≤ y.key)))

/-- The illegal word (R167). -/
def condIllegal (slot off : Nat) : Cond := ⟨0, slot, 0, Code.illegalInstruction, 0, 0, BitVec.ofNat 32 off⟩
/-- A disabled cluster or port (R188, R190). -/
def condAbsent (slot : Nat) (cls : BitVec 4) (number : Byte) (reg : BitVec 5) : Cond :=
  ⟨1, slot, reg.toNat, Code.absentEngine, cls, number, reg.setWidth 32⟩
/-- An address not aligned (R196). -/
def condAlign (slot : Nat) (a : DWord) : Cond := ⟨3, slot, a.toNat, Code.alignmentFault, 6, 0, a.setWidth 32⟩
/-- An address outside its space (R196). -/
def condAccess (slot : Nat) (a : DWord) : Cond := ⟨4, slot, a.toNat, Code.accessFault, 6, 0, a.setWidth 32⟩
/-- Can a condition change while its bundle is held: those of the array, move and stream/sync slots depend on memory, queues and
ownership, unless they are an illegal word or a foreign counter (R170; log entry 90). -/
def Cond.mayPass (x : Cond) : Bool := (x.slot == 3 || x.slot == 4 || x.slot == 5) && x.row != 0 && x.row != 10
/-- A counter of another owner (R275). -/
def condCounter (slot : Nat) (n : CounterName) : Cond := ⟨10, slot, n.toNat, Code.counterNotOwned, 0, 0, n.setWidth 32⟩

/-! ## Registers and SRAM ranges that the scoreboard tracks (R193) -/

/-- A tracked register; cx is one resource. -/
inductive Reg where
  | x (r : BitVec 5)
  | f (r : BitVec 5)
  | v (r : BitVec 5)
  | m (r : BitVec 3)
  | cx
  deriving DecidableEq, Repr

/-- The record class of a register (R200). -/
def Reg.cls : Reg → BitVec 4
  | .x _ => 1
  | .f _ => 2
  | .v _ => 3
  | .m _ => 4
  | .cx => 5

/-- The number of a register. -/
def Reg.number : Reg → Nat
  | .x r => r.toNat
  | .f r => r.toNat
  | .v r => r.toNat
  | .m r => r.toNat
  | .cx => 0

/-- Is a register tracked: x0 and m0 are not (R162, R193). -/
def Reg.tracked : Reg → Bool
  | .x r => r != 0
  | .m r => r != 0
  | _ => true

/-- The registers that a target writes. -/
def Target.regs : Target → List Reg
  | .x r _ => [.x r]
  | .f r _ => [.f r]
  | .v r _ _ => [.v r]
  | .m r _ _ => [.m r]
  | .cx _ => [.cx]
  | _ => []

/-- The SRAM range that a target writes. -/
def Target.range : Target → Option (Nat × Nat)
  | .sram a bs => some (a, bs.length)
  | .vst a fm _ _ => (Fmt.ofCode fm.toNat).map fun g => (a, g.bytes 512)
  | _ => none

/-- The rows of C that a tile covers, as ranges (R183). -/
def cRows (cAddr rows cols : Nat) : List (Nat × Nat) := (List.range rows).map fun m => (cAddr + 512 * m, 4 * cols)

/-- The C range of a tile, from its first row to the end of its last row's pitch (R183, R193). -/
def cRange (cAddr rows : Nat) : Nat × Nat := (cAddr, 512 * rows)

/-! ## Bank conflicts (R143, R145) -/

/-- The banks that n bytes from an SRAM offset touch (R143). -/
def banksOf (r : Nat × Nat) : List Nat := (List.range (min 64 ((r.1 + r.2 - 1) / 64 - r.1 / 64 + 1))).map fun i => (r.1 / 64 + i) % 64

/-- The banks that one access touches; an instruction's ranges are one access (log entry 89). -/
def accessBanks (a : List (Nat × Nat)) : List Nat := a.flatMap banksOf

/-- Do two of the accesses of a step share a bank (R145). -/
def bankClash : List (List (Nat × Nat)) → Bool
  | [] => false
  | a :: t => t.any (fun b => (accessBanks a).any (accessBanks b).contains) || bankClash t

/-- The internal accesses of step t: those so far, and the stores and the C tiles that land in it (R145, R152). -/
def Cluster.accessesAt (t : Nat) (k : Cluster) : List (List (Nat × Nat)) :=
  k.accesses ++ ((k.inflight.filter fun (r : InFlight) => r.land == t).map fun r => r.targets.filterMap Target.range)
    ++ (k.tiles.filter fun (x : Tile) => x.land == t).map fun x => cRows x.cAddr x.rows x.cols

/-! ## Addresses (R177, R181, R196) -/

/-- imm extended by its sign. -/
def sext (imm : Word) : DWord := imm.signExtend 64

/-- The SRAM address of a scalar access. -/
def scalarAddr (k : Cluster) (f : Fields) : DWord := k.xr f.a + sext f.imm

/-- The conditions of an SRAM access of n bytes at an address that must be a multiple of al. -/
def sramConds (slot : Nat) (a : DWord) (n al : Nat) : List Cond :=
  (if a.toNat % al = 0 then [] else [condAlign slot a]) ++ (if a.toNat + n ≤ 2 ^ 23 then [] else [condAccess slot a])

/-- What an internal read of SRAM meets, with the address that its record names: an armed injection or an
uncorrectable word (R150, R524). -/
def State.sramFail (c : ClusterId) (off n : Nat) (s : State) : Option (Nat × Bool) :=
  match s.armedIn (sramAddr c off) n with
  | some i => some ((match i.range with | some r => max off (r.1 - sramAddr c 0) | none => off), true)
  | none => (s.badWords.find? fun w => meets (sramAddr c off) n w (codeWord w)).map fun w => (w - sramAddr c 0, false)

end Sys2Proof.Machine
end

