-- ==== Sys2Proof/Machine/Flags.lean ====
section
/-! DEFINITION. How the flags nv, of and uz of R72 gather over the lanes of a vector operation (R73, R180), and how
RDFLG returns them (R175). -/

namespace Sys2Proof.Machine

/-- The flags of a list of results. -/
def orFlags (l : List NFlags) : NFlags := l.foldl NFlags.or NFlags.none

/-- A lane operation on the enabled lanes; a disabled lane computes nothing and raises no flag (R153, R180). -/
def lanes (en : BitVec 512) (g : Nat → Word × NFlags) : List Word × NFlags :=
  let rs := (List.range 512).map fun l => if en.getLsbD l then g l else (0, NFlags.none)
  (rs.map (·.1), orFlags (rs.map (·.2)))

/-- A lane operation that raises no flag. -/
def quietLanes (en : BitVec 512) (g : Nat → Word) : List Word × NFlags := lanes en fun l => (g l, NFlags.none)

/-- The mask that a predicate gives over the lanes. -/
def maskOf (g : Nat → Bool) : BitVec 512 := BitVec.ofNat 512 ((List.range 512).foldl (fun acc l => if g l then acc ||| 2 ^ l else acc) 0)

/-- The value that RDFLG reads: uz, of, nv as bits 2, 1, 0 (R172, R175). -/
def NFlags.word (f : NFlags) : DWord := BitVec.ofNat 64 (b2n f.nv + 2 * b2n f.ov + 4 * b2n f.uz)

end Sys2Proof.Machine
end

