-- ==== Sys2Proof/Machine/Array.lean ====
section
/-! DEFINITION. Array tile operations: the tile and stipple descriptors, their checks, the exact group sums, the tile
accumulator and the stall steps (03 R75 to R86; 04 R100 to R113; 07 R183 to R185). -/

namespace Sys2Proof.Machine

/-! ## Descriptors (R101, R183) -/

/-- One operand as the tile descriptor names it. -/
structure OperandDesc where
  addr   : Nat
  scale  : Nat
  coarse : Nat
  rowblk : Nat
  fmt    : Nat
  block  : Bool
  deriving DecidableEq, Repr

/-- The tile descriptor (R183). -/
structure TileDesc where
  a        : OperandDesc
  b        : OperandDesc
  cAddr    : Nat
  stipple  : Bool
  groups   : Nat
  rows     : Nat
  cols     : Nat
  reserved : Bool
  deriving DecidableEq, Repr

/-- The tile descriptor in 64 bytes. -/
def TileDesc.ofBytes (bs : List Byte) : TileDesc :=
  let v := leNat bs
  let w := fun k => bitsOf v (32 * k) 32
  let operand := fun k fmt blk => (⟨bitsOf (w k) 0 23, bitsOf (w (k + 1)) 0 23, bitsOf (w (k + 2)) 0 23, bitsOf (w (k + 3)) 0 12, fmt, blk⟩ : OperandDesc)
  let above := fun k n => bitsOf (w k) n 32 != 0
  { a := operand 0 (bitsOf (w 9) 0 4) (Nat.testBit (w 9) 8)
    b := operand 4 (bitsOf (w 9) 4 4) (Nat.testBit (w 9) 9)
    cAddr := bitsOf (w 8) 0 23
    stipple := Nat.testBit (w 9) 10
    groups := bitsOf (w 10) 0 12 + 1
    rows := bitsOf (w 10) 12 7 + 1
    cols := bitsOf (w 10) 19 7 + 1
    reserved := above 0 23 || above 1 23 || above 2 23 || above 3 12 || above 4 23 || above 5 23 || above 6 23
      || above 7 12 || above 8 23 || above 9 11 || above 10 26 || bitsOf v 352 160 != 0 }

/-- The stipple descriptor (R101). -/
structure StippleDesc where
  md      : Nat
  val     : Nat
  scale   : Nat
  valLog2 : Nat
  mdLog2  : Nat
  nmax    : Nat
  block   : Bool
  fmt     : Nat
  groups  : Nat
  rows    : Nat
  pace    : Nat
  deriving DecidableEq, Repr

/-- The stipple descriptor in 32 bytes; reserved bits are ignored. -/
def StippleDesc.ofBytes (bs : List Byte) : StippleDesc :=
  let v := leNat bs
  { md := bitsOf v 0 23, val := bitsOf v 32 23, scale := bitsOf v 64 23
    valLog2 := bitsOf v 120 5, mdLog2 := bitsOf v 112 5, nmax := bitsOf v 104 4
    block := Nat.testBit v 100, fmt := bitsOf v 96 4
    groups := bitsOf v 144 12 + 1, rows := bitsOf v 128 7 + 1, pace := bitsOf v 160 4 + 1 }

/-- The bytes that an accepted stipple format's row of 2^n values occupies (R103). -/
def valueRow (fmt n : Nat) : Nat :=
  match fmt with
  | 1 => 2 ^ (n - 1)
  | 2 => 3 * 2 ^ (n - 2)
  | _ => 2 ^ n

/-- Is a format one of the short formats HX4, HX6, HX8n, HX8w. -/
def shortFmt (f : Nat) : Bool := 1 ≤ f && f ≤ 4

/-- Is a pair of operand formats one that the array accepts (R76). -/
def pairAccepted (a b : Nat) : Bool := (shortFmt a && shortFmt b) || (a == 5 && b == 5)

/-- Does a tile descriptor name a pair that the array accepts; stipple answers the format of a stipple descriptor at an address, where it is
known (R76, R100). -/
def TileDesc.accepted (stipple : Nat → Option Nat) (d : TileDesc) : Bool :=
  if d.stipple then shortFmt d.b.fmt && (match stipple d.a.addr with | some f => shortFmt f | none => true) else pairAccepted d.a.fmt d.b.fmt

/-- The areas of a stipple operand with its descriptor, as ranges of SRAM (R103). -/
def StippleDesc.areas (d : StippleDesc) (at_ : Nat) : List (Nat × Nat) :=
  [(at_, 32), (d.md, d.rows * 2 ^ (d.mdLog2 - 1)), (d.val, d.rows * valueRow d.fmt d.valLog2)
  , (d.scale, if d.block then 1 + d.rows * d.groups else d.rows)]

/-- Does every range lie in the 8 MiB SRAM. -/
def inSram (l : List (Nat × Nat)) : Bool := l.all fun r => decide (r.1 + r.2 ≤ 2 ^ 23)

/-- Is the address of a stipple descriptor good (R102). -/
def stippleAddrOk (a : Nat) : Bool := a % 32 == 0 && decide (a + 32 ≤ 2 ^ 23)

/-- Is a stipple descriptor valid (R102). -/
def StippleDesc.valid (d : StippleDesc) (at_ : Nat) : Bool :=
  shortFmt d.fmt && d.nmax != 0 && 2 ≤ d.mdLog2 && d.mdLog2 ≤ 16 && 2 ≤ d.valLog2 && d.valLog2 ≤ 16
    && decide (d.groups * (1 + d.nmax) ≤ 2 ^ d.mdLog2) && decide (d.groups * d.nmax ≤ 2 ^ d.valLog2)
    && d.md % 16 == 0 && d.val % 16 == 0 && inSram (d.areas at_)

/-- The bytes of a 16-element block of a format (R183). -/
def blockBytes (fmt : Nat) : Nat :=
  match Fmt.ofCode fmt with
  | some f => f.bytes 16
  | none => 0

/-- The ranges that a dense operand of some rows and groups names: data, then scales (R183, R184). The scoreboard tracks each as the
interval from its lowest to its highest byte (R193; log entry 91). -/
def OperandDesc.areas (o : OperandDesc) (rows groups : Nat) : List (Nat × Nat) :=
  let bb := blockBytes o.fmt
  [(o.addr, (rows - 1) * o.rowblk * bb + groups * bb)] ++
    (if o.block then [(o.scale, (rows - 1) * o.rowblk + groups), (o.coarse, 1)] else [(o.scale, rows)])

/-- The bytes that the array reads of a dense operand: the blocks of each row, and the scale bytes (R77, R78, R183). -/
def OperandDesc.bytesRead (o : OperandDesc) (rows groups : Nat) : List (Nat × Nat) :=
  let bb := blockBytes o.fmt
  ((List.range rows).map fun m => (o.addr + m * o.rowblk * bb, groups * bb)) ++
    (if o.block then (o.coarse, 1) :: (List.range rows).map fun m => (o.scale + m * o.rowblk, groups) else [(o.scale, rows)])

/-! ## Operand values (R77, R78, R104, R105) -/

/-- The entries of one group of a row: column within the group, and code. -/
abbrev Entries := List (Nat × Nat)

/-- A row of an operand: for each group its entries and its effective exponent. -/
abbrev OperandRow := List (Entries × Option Int)

/-- Split a list into groups of 16 with their columns. -/
def groupsOf16 : Nat → List Nat → List Entries
  | 0, _ => []
  | n + 1, l => ((List.range 16).zip (l.take 16)) :: groupsOf16 n (l.drop 16)

/-- Row m of a dense operand (R77, R78, R183). -/
def State.denseRow (c : ClusterId) (o : OperandDesc) (f : Fmt) (groups m : Nat) (s : State) : OperandRow :=
  let codes := unpack f (16 * groups) (s.read (sramAddr c (o.addr + m * o.rowblk * f.bytes 16)) (f.bytes (16 * groups)))
  let byte := fun a => (s.read (sramAddr c a) 1).headD 0
  (List.range groups).zip (groupsOf16 groups codes) |>.map fun g =>
    (g.2, if o.block then effExp (byte o.coarse) (byte (o.scale + m * o.rowblk + g.1)) else effExp (byte (o.scale + m)) 0)

/-- Read n entries from the metadata and value pointers (R105). -/
def readEntries (nib val : List Nat) (ml vl : Nat) : Nat → Nat → Nat → Entries
  | 0, _, _ => []
  | n + 1, mp, vp => (nib.getD mp 0, val.getD vp 0) :: readEntries nib val ml vl n ((mp + 1) % 2 ^ ml) ((vp + 1) % 2 ^ vl)

/-- Decode n groups of a stipple row from the pointers (R105). -/
def decodeRow (nib val : List Nat) (ml vl : Nat) : Nat → Nat → Nat → List Entries
  | 0, _, _ => []
  | n + 1, mp, vp =>
    let cnt := nib.getD mp 0
    let mp := (mp + 1) % 2 ^ ml
    readEntries nib val ml vl cnt mp vp :: decodeRow nib val ml vl n ((mp + cnt) % 2 ^ ml) ((vp + cnt) % 2 ^ vl)

/-- The nibbles of bytes, low nibble first (R104). -/
def nibbles (bs : List Byte) : List Nat := bs.flatMap fun b => [b.toNat % 16, b.toNat / 16]

/-- Row m of a stipple operand (R103, R104, R105). -/
def State.stippleRow (c : ClusterId) (d : StippleDesc) (f : Fmt) (m : Nat) (s : State) : OperandRow :=
  let half := 2 ^ (d.mdLog2 - 1)
  let vr := valueRow d.fmt d.valLog2
  let nib := nibbles (s.read (sramAddr c (d.md + m * half)) half)
  let val := unpack f (2 ^ d.valLog2) (s.read (sramAddr c (d.val + m * vr)) vr)
  let byte := fun a => (s.read (sramAddr c a) 1).headD 0
  (List.range d.groups).zip (decodeRow nib val d.mdLog2 d.valLog2 d.groups 0 0) |>.map fun g =>
    (g.2, if d.block then effExp (byte d.scale) (byte (d.scale + 1 + m * d.groups + g.1)) else effExp (byte (d.scale + m)) 0)

/-! ## Group values and the accumulator (R79 to R83, R106) -/

/-- The products of group j of a row of A and a row of B: one for each entry, and +0 times B for each column that no
entry names (R79, R106). A NaN code among them is reported. -/
def products (fa fb : Fmt) (a b : Entries) : List (Num × Bool) × Bool :=
  let bval := fun col => decodeCode fb ((b.find? fun e => e.1 == col).map (·.2) |>.getD 0)
  let named := a.map fun e => (decodeCode fa e.2, bval e.1)
  let rest := ((List.range 16).filter fun col => !a.any fun e => e.1 == col).map fun col => (Num.zero false, bval col)
  let all := named ++ rest
  (all.map fun p => p.1.mul p.2, all.any fun p => p.1 == .nan || p.2 == .nan)

/-- The exact sum of products; the flag says that opposite infinities met (R79, R82). -/
def exactSum : List (Num × Bool) → Num → Bool → Num × Bool
  | [], acc, bad => (acc, bad)
  | p :: t, acc, bad => let r := acc.add p.1; exactSum t r.1 (bad || r.2)

/-- The group value with its flags: the first matching row of R82, else the rounding of R80. -/
def groupValue (e : Option Int) (ps : List (Num × Bool) × Bool) : Word × NFlags :=
  match e with
  | none => (nan32, .onlyNv)
  | some e =>
    if ps.2 then (nan32, .none)
    else if ps.1.any (·.2) then (nan32, .onlyNv)
    else
      match ps.1 with
      | [] => (0, .none)
      | p :: t =>
        let sm := exactSum t p.1 false
        if sm.2 then (nan32, .onlyNv) else round32 (sm.1.scale e)

/-- The sum of two effective exponents; none where either scale is invalid (R78). -/
def addExp (a b : Option Int) : Option Int :=
  match a, b with
  | some x, some y => some (x + y)
  | _, _ => none

/-- One element of C: the group values added in ascending j to the initial value, if there is one (R81). -/
def accumulate (fa fb : Fmt) (init : Option Word) : OperandRow → OperandRow → Word × NFlags
  | ga :: ra, gb :: rb =>
    let g := groupValue (addExp ga.2 gb.2) (products fa fb ga.1 gb.1)
    match init with
    | none =>
      let r := accumulate fa fb (some g.1) ra rb
      (r.1, g.2.or r.2)
    | some acc =>
      let q := f32add acc g.1
      let r := accumulate fa fb (some q.1) ra rb
      (r.1, (g.2.or q.2).or r.2)
  | _, _ => (init.getD 0, .none)

/-- The whole tile: C by rows, and the flags (R75, R81, R86). -/
def tileResult (fa fb : Fmt) (init : Nat → Nat → Option Word) (as bs : List OperandRow) : List (List Word) × NFlags :=
  let rows := ((List.range as.length).zip as).map fun a => ((List.range bs.length).zip bs).map fun b =>
    accumulate fa fb (init a.1 b.1) a.2 b.2
  (rows.map fun r => r.map (·.1), orFlags (rows.flatMap fun r => r.map (·.2)))

/-! ## Stall steps (R110, R111) -/

/-- Take up to rho entries from every queue. -/
def drainQueues (rho : Nat) (occ : List Nat) : List Nat := occ.map fun o => o - rho

/-- Drain until every queue satisfies a bound, counting the steps. -/
def drainUntil (rho : Nat) (ok : List Nat → Bool) : Nat → List Nat → List Nat × Nat
  | 0, occ => (occ, 0)
  | n + 1, occ =>
    if ok occ then (occ, 0)
    else
      let r := drainUntil rho ok n (drainQueues rho occ)
      (r.1, r.2 + 1)

/-- The stall steps of a tile by the nominal step at which they occur: before group j at step j × p, and after the last
nominal step (R111). counts holds, for each group, the counts of the rows. -/
def stallSteps (rho p : Nat) : Nat → List (List Nat) → List Nat → List (Nat × Nat)
  | j, [], occ =>
    let r := drainUntil rho (fun o => o.all (· == 0)) 64 occ
    if r.2 = 0 then [] else [(j * p - 1, r.2)]
  | j, cnt :: rest, occ =>
    let r := drainUntil rho (fun o => (o.zip cnt).all fun x => decide (x.1 + x.2 ≤ 32)) 64 occ
    let filled := (r.1.zip cnt).map fun x => x.1 + x.2
    let after := (List.range p).foldl (fun o _ => drainQueues rho o) filled
    (if r.2 = 0 then [] else [(j * p, r.2)]) ++ stallSteps rho p (j + 1) rest after

/-- The counts of the rows by group (R105). -/
def countsByGroup (groups : Nat) (rows : List OperandRow) : List (List Nat) :=
  (List.range groups).map fun j => rows.map fun r => (r[j]?).elim 0 fun g => g.1.length

/-! ## Issue of an MMA (R102, R152, R183 to R185) -/

/-- What an MMA is at issue: its conditions, the ranges that the scoreboard tracks as read, the bytes that the array reads, and the
tile where there is no condition. -/
structure ArrayPlan where
  conds : List Cond
  reads : List (Nat × Nat)
  bytes : List (Nat × Nat)
  tile  : Option Tile

/-- The steps per 16-element group of a dense pair (R76). -/
def stepsPerGroup (fa fb : Nat) : Nat := if fa = 1 ∧ fb = 1 then 8 else if fa = 5 then 64 else 16

/-- The initial C of an accumulate tile: the result of the MMA issued before it for the same C, else SRAM (R81, R185). No MMA of an
earlier impression is the one issued before it (log entry 92). -/
def State.initialC (c : ClusterId) (acc : Bool) (cAddr rows cols : Nat) (s : State) : Nat → Nat → Option Word :=
  fun m n =>
    if acc then
      match (s.clu c).lastTile with
      | some t =>
        if t.cAddr = cAddr ∧ t.rows = rows ∧ t.cols = cols then some ((t.c.getD m []).getD n 0)
        else some (BitVec.ofNat 32 (s.readLe (sramAddr c (cAddr + 512 * m + 4 * n)) 4))
      | none => some (BitVec.ofNat 32 (s.readLe (sramAddr c (cAddr + 512 * m + 4 * n)) 4))
    else none

/-- Does an accumulate tile chain on the MMA issued before it (R185). -/
def Cluster.chains (acc : Bool) (cAddr rows cols : Nat) (k : Cluster) : Bool :=
  acc && (match k.lastTile with
    | some t => t.cAddr == cAddr && t.rows == rows && t.cols == cols
    | none => false)

/-- The MMA of a word at issue step t with tile descriptor address ta. A misaligned c_addr raises ALIGNMENT_FAULT (log entry 93);
with a bad stipple descriptor address the tile checks take M and G as 1 (log entry 94). -/
def State.planMma (c : ClusterId) (acc : Bool) (ta : DWord) (t : Nat) (s : State) : ArrayPlan :=
  let first := (if ta.toNat % 64 = 0 then [] else [condAlign 3 ta]) ++ (if ta.toNat < 2 ^ 23 then [] else [condAccess 3 ta])
  if !first.isEmpty then ⟨first, [], [], none⟩
  else
    let d := TileDesc.ofBytes (s.read (sramAddr c ta.toNat) 64)
    let sok := stippleAddrOk d.a.addr
    let sd := StippleDesc.ofBytes (s.read (sramAddr c d.a.addr) 32)
    let fa := if d.stipple then (if sok then sd.fmt else 0) else d.a.fmt
    let rows := if d.stipple then (if sok then sd.rows else 1) else d.rows
    let groups := if d.stipple then (if sok then sd.groups else 1) else d.groups
    let pairOk := d.accepted fun _ => if sok then some fa else none
    let dense := (if d.stipple then [] else d.a.areas rows groups) ++ d.b.areas d.cols groups
    let cs := cRange d.cAddr rows
    let tileBad := !pairOk || d.reserved || (!d.stipple && decide (d.a.rowblk < groups)) || decide (d.b.rowblk < groups)
      || !inSram (cs :: dense)
    let stipBad := d.stipple && !(sok && sd.valid d.a.addr)
    let conds := (if d.cAddr % 64 = 0 then [] else [condAlign 3 (BitVec.ofNat 64 d.cAddr)])
      ++ (if tileBad then [⟨5, 3, ta.toNat, Code.tileDescriptorInvalid, 6, 0, ta.setWidth 32⟩] else [])
      ++ (if stipBad then [⟨6, 3, d.a.addr, Code.stippleDescriptorInvalid, 6, 0, BitVec.ofNat 32 d.a.addr⟩] else [])
    let descs := (ta.toNat, 64) :: (if d.stipple && sok then [(d.a.addr, 32)] else [])
    match conds, Fmt.ofCode fa, Fmt.ofCode d.b.fmt with
    | [], some ffa, some ffb =>
      let spans := (ta.toNat, 64) :: (dense ++ if d.stipple then sd.areas d.a.addr else [])
      let as := (List.range rows).map fun m => if d.stipple then s.stippleRow c sd ffa m else s.denseRow c d.a ffa groups m
      let bs := (List.range d.cols).map fun n => s.denseRow c d.b ffb groups n
      let r := tileResult ffa ffb (s.initialC c acc d.cAddr rows d.cols) as bs
      let rho := if fa = 1 ∧ d.b.fmt = 1 then 2 else 1
      let len := if d.stipple then groups * sd.pace else groups * stepsPerGroup fa d.b.fmt
      let stalls := if d.stipple then stallSteps rho sd.pace 0 (countsByGroup groups as) (List.replicate rows 0) else []
      let k := s.clu c
      let fresh := acc && !k.chains acc d.cAddr rows d.cols
      let read := (ta.toNat, 64) :: ((if d.stipple then sd.areas d.a.addr else d.a.bytesRead rows groups) ++ d.b.bytesRead d.cols groups)
      ⟨[], if fresh then spans ++ [cs] else spans, if fresh then read ++ cRows d.cAddr rows d.cols else read
      , some { issue := t, len := len, cAddr := d.cAddr, rows := rows, cols := d.cols, spans := spans, stalls := stalls
               c := r.1, flags := r.2, seq := k.signSeq }⟩
    | _, _, _ => ⟨conds, descs, descs, none⟩

end Sys2Proof.Machine
end

