-- ==== Sys2Proof/Machine/Launch.lean ====
section
/-! DEFINITION. What the bundles of a graver core need from outside the cluster: the status block, hatch entries, code
regions, mirrored ranges, and the launch of a stream descriptor (06 R160, R161; 15 R399 to R403; 21 R508, R509; 08
R202). -/

namespace Sys2Proof.Machine

/-! ## The cluster status block (R154, R160, R161) -/

/-- The code of a graver core's state (R154). -/
def GState.code : GState → Nat
  | .idle => 1
  | .running => 2
  | .held => 3
  | .halted => 4

/-- The code of a hold cause (R160). -/
def HoldCause.code : HoldCause → Nat
  | .none => 0
  | .sync => 1
  | .gate => 2
  | .buffer => 3
  | .fetch => 4
  | .array => 5
  | .bank => 6

/-- The cause for which the step of a cluster is held at an instant: array stall, bank conflict, then what its bundle waits for (R139,
R140). -/
def Cluster.cause (now : Nat) (k : Cluster) : HoldCause :=
  if k.gstate = .running ∨ k.gstate = .held then
    if 1000 * now < k.stallEnd ∧ k.stallsAt k.stepCount ≠ 0 then .array
    else if k.gstate = .running ∧ bankClash (k.accessesAt k.stepCount) then .bank
    else k.holdCause
  else .none

/-- The 96 bytes of a cluster's status block at this instant. -/
def State.statusBlock (c : ClusterId) (s : State) : List Byte :=
  let k := s.clu c
  let cause := k.cause s.time
  let st := if s.hasCluster c then (if cause = .none then k.gstate.code else GState.held.code) else 0
  leBytes 4 (st + 256 * cause.code)
  ++ leBytes 4 (if k.gstate == .idle then 0 else k.job.toNat)
  ++ leBytes 8 k.stepCount ++ leBytes 8 k.bundleCount ++ leBytes 8 k.arrayStall ++ leBytes 8 k.conflict
  ++ leBytes 8 k.fetchNs ++ leBytes 8 k.syncNs ++ leBytes 8 k.gateNs ++ leBytes 8 k.bufferNs ++ leBytes 8 k.activeNs
  ++ leBytes 4 k.sramCorrected ++ leBytes 4 k.icacheRefetch
  ++ leBytes 4 (k.temp.toNat + 65536 * k.stepCap.toNat) ++ leBytes 4 0

/-- The status block as it stands is the snapshot that the step which begins reads (R161, R176). -/
def State.snapshot (c : ClusterId) (s : State) : State :=
  let b := s.statusBlock c
  s.modClu c fun k => { k with snap := b }

/-! ## Hatch entries (R399 to R403) -/

/-- The hatch list of a job. -/
def State.hatch (no : JobNo) (s : State) : Option Hatch := (s.plate no).map (·.hatch)

/-- Does an entry of a job's list start now. -/
def State.gateOpen (no : JobNo) (e : Nat) (s : State) : Bool :=
  match s.hatch no with
  | some h => h.startsAt e s.time
  | none => false

/-- Does a job's list have an entry. -/
def State.hasEntry (no : JobNo) (e : Nat) (s : State) : Bool :=
  match s.hatch no with
  | some h => decide (e < h.entries.length)
  | none => false

/-! ## Ranges of memory with an owner (R159, R509) -/

/-- Does an entry of the mirror table name a range that this module owns: a source range, or a hold range taken over
from the lost partner (R508, R515, R516). -/
def State.ownsRange (no : JobNo) (m : MirrorEntry) (s : State) : Bool :=
  !m.hold || s.pair.shadows.any fun x => x.job == no && x.shard == m.shard

/-- The owned range of a job that holds a move's destination, and whether the move lies wholly in it (R509). In proof
mode source entries are not mirrored (R510). -/
def State.mirrorRange (no : JobNo) (a n : Nat) (s : State) : Option (MirrorEntry × Bool) :=
  if s.inProof no then none
  else
    match s.plate no with
    | some p => (p.mirror.find? fun m => s.ownsRange no m && meets a n m.base.toNat m.length).map fun m =>
        (m, inside a n m.base.toNat m.length)
    | none => none

/-! ## Launch (R202) -/

/-- Put a descriptor into a launch queue. -/
def State.enqueue (p : Port) (d : Desc) (step : Word) (entry : Option Nat) (s : State) : State :=
  s.modEng p fun e => { e with queue := e.queue ++ [⟨d, s.time, step, entry⟩] }

/-- Is a launch queue full (R202). -/
def State.queueFull (p : Port) (s : State) : Bool := decide (64 ≤ (s.eng p).queue.length)

/-- A cluster's impression ends with a fault at its next step boundary; a held cluster stands at one (R150, R202). -/
def State.endAtBoundary (c : ClusterId) (f : DueFault) (s : State) : State :=
  let k := s.clu c
  if k.gstate = .running then
    if k.dueFault.isSome then s else s.setClu c { k with dueFault := some f }
  else s.takeFault c f

/-- SLAUNCH: the engine copies the descriptor into its queue. A copy that meets an uncorrectable word starts nothing, is
written to the event log, and ends the cluster's impression (R202). A descriptor address that names no 128 bytes of
memory ends it with ACCESS_FAULT (log entry 22). -/
def State.slaunch (c : ClusterId) (p : Port) (a : DWord) (s : State) : State :=
  let k := s.clu c
  if !inSpace a 128 || a.toNat % 128 != 0 || s.absentAt a then
    s.endAtBoundary c ⟨Code.accessFault, k.pc, 5, 6, a.setWidth 32, false⟩
  else
    let r := s.demand a.toNat 128 (BitVec.ofNat 16 (256 + p.toNat)) k.job
    match r.1.2 with
    | some f =>
      let s := r.2
      let s := s.append { s.event f.code clsPort (p.setWidth 16) k.job (a.setWidth 32) with injected := f.inj }
      s.endAtBoundary c ⟨f.code, k.pc, 5, 6, a.setWidth 32, f.inj⟩
    | none => r.2.enqueue p (Desc.ofBytes r.1.1) (match k.impr with | some i => i.step | none => 0) none

end Sys2Proof.Machine
end

