-- ==== Sys2Proof/Machine/Plans.lean ====
section
/-! DEFINITION. What each instruction of a bundle reads, writes and does: one plan per opcode (07 R172 to R190), with
the latencies, groups and issue intervals of R192. -/

namespace Sys2Proof.Machine

/-- What an instruction does outside the registers and the SRAM. -/
inductive Act where
  | none
  | branch (target : Word)
  | loop (count : DWord) (last : Nat)
  | halt (code : BitVec 16)
  | pref (off : DWord)
  | move (src dst : DWord) (len : Nat) (counter : CounterName) (inc : Byte)
  | bfree (a : DWord)
  | launch (p : Port) (a : DWord)
  | add (n : CounterName) (delta : Int)
  | barr (slot : BitVec 6)
  deriving DecidableEq, Repr

/-- What a bundle waits for (R170). -/
inductive Hold where
  | none
  | waitc (n : CounterName) (v : Nat) (timeout : Nat)
  | waitg (e : Nat)
  | balloc (dram : Bool)
  deriving DecidableEq, Repr

/-- What an instruction is at issue: the conditions of R196 that it meets by itself, the registers and SRAM ranges that
it reads, the bytes that it reads of SRAM, its latency, results and flags, its group and issue interval (R192),
its tile, its act, its hold, and an SRAM word that its read fails on. -/
structure Plan where
  conds   : List Cond := []
  reads   : List Reg := []
  sreads  : List (Nat × Nat) := []
  conf    : List (Nat × Nat) := []
  lat     : Nat := 1
  targets : List Target := []
  flags   : NFlags := NFlags.none
  group   : Nat := 0
  gap     : Nat := 1
  tile    : Option Tile := none
  act     : Act := .none
  hold    : Hold := .none
  fail    : Option (Nat × Bool) := none

/-! ## Control slot (R172 to R176) -/

/-- The byte offset that a branch or a LOOP names: the bundle's own offset plus the signed immediate. -/
def branchTo (k : Cluster) (f : Fields) : Word := k.pc + f.imm

/-- BR (R172). -/
def planBr (k : Cluster) (f : Fields) : Plan := { act := .branch (branchTo k f) }
/-- BRZ: a taken branch when xa = 0 (R172). -/
def planBrz (k : Cluster) (f : Fields) : Plan :=
  { reads := [.x f.a], act := if k.xr f.a = 0 then .branch (branchTo k f) else .none }
/-- BRNZ: a taken branch when xa is not 0 (R172). -/
def planBrnz (k : Cluster) (f : Fields) : Plan :=
  { reads := [.x f.a], act := if k.xr f.a ≠ 0 then .branch (branchTo k f) else .none }
/-- LOOP (R173). An imm below the length of the bundle, or a body outside the innermost active one, is illegal; a LOOP that finds all
four entries in use overflows, whatever its count. -/
def planLoop (k : Cluster) (size off : Nat) (f : Fields) : Plan :=
  let imm := f.imm.toInt
  let last := (k.pc.toNat : Int) + imm
  let badBody := match k.loops with
    | [] => false
    | e :: _ => !(decide (e.first ≤ k.pc.toNat + size) && decide (last ≤ (e.last : Int)))
  { reads := [.x f.a]
    conds := (if decide (imm < (size : Int)) || badBody then [condIllegal 0 off] else [])
      ++ (if 4 ≤ k.loops.length then [⟨7, 0, 0, Code.loopOverflow, 7, 0, 4⟩] else [])
    group := 21
    act := .loop (k.xr f.a) last.toNat }

/-- A LOOP of count 0 fetches the header of the last bundle of the body that it skips: it meets an uncorrectable word there (R158, R173,
R313). -/
def State.loopFetch (k : Cluster) (a : Act) (s : State) : List Cond :=
  match a with
  | .loop n last =>
    if n = 0 && s.badWords.any fun w => meets (k.codeBase.toNat + last) 2 w (codeWord w) then
      [⟨13, 7, 0, Code.fetchUncorrectable, 0, 0, BitVec.ofNat 32 (last / 128 * 128)⟩]
    else []
  | _ => []

/-- The status that a WAITC gets when it issues (R174): what ended its hold, else ORPHANED on an orphaned counter, else
MET (R276, R292). -/
def State.waitStatus (k : Cluster) (n : CounterName) (s : State) : Byte :=
  match k.waitDone with
  | some st => st
  | none => if (s.counter n).orphaned then 0x01 else 0x00

/-- WAITC (R172, R174, R275). -/
def State.planWaitc (k : Cluster) (f : Fields) (s : State) : Plan :=
  let n : CounterName := f.imm.setWidth 16
  { reads := [.x f.b]
    conds := if (s.counter n).job = k.job ∧ k.job ≠ 0 then [] else [condCounter 0 n]
    targets := [.x f.d ((s.waitStatus k n).setWidth 64)]
    hold := .waitc n ((k.xr f.b).toNat % 2 ^ 32) (256 * (f.imm.toNat / 65536)) }

/-- WAITG: illegal where the job's hatch list has no such entry (R172, R403). -/
def State.planWaitg (k : Cluster) (off : Nat) (f : Fields) (s : State) : Plan :=
  { conds := if s.hasEntry k.job f.imm.toNat then [] else [condIllegal 0 off], hold := .waitg f.imm.toNat }

/-- HALT (R172). -/
def planHalt (f : Fields) : Plan := { act := .halt (f.imm.setWidth 16) }
/-- PREF (R172). -/
def planPref (k : Cluster) (f : Fields) : Plan := { reads := [.x f.a], act := .pref (k.xr f.a + sext f.imm) }
/-- RDFLG (R175). -/
def planRdflg (k : Cluster) (f : Fields) : Plan := { targets := [.x f.d k.flags.word], group := 21 }
/-- STAT: 8 bytes of the snapshot taken at the start of the step (R176). -/
def planStat (k : Cluster) (f : Fields) : Plan :=
  { lat := 2, targets := [.x f.d (BitVec.ofNat 64 (leNat ((k.snap.drop f.imm.toNat).take 8)))], group := 22 }

/-! ## Scalar slot (R177 to R179) -/

/-- An integer operation of two registers (R177). -/
def planInt (k : Cluster) (f : Fields) (g : DWord → DWord → DWord) : Plan :=
  { reads := [.x f.a, .x f.b], targets := [.x f.d (g (k.xr f.a) (k.xr f.b))], group := 1 }
/-- ADD (R177). -/
def planAdd (k : Cluster) (f : Fields) : Plan := planInt k f fun a b => a + b
/-- SUB (R177). -/
def planSub (k : Cluster) (f : Fields) : Plan := planInt k f fun a b => a - b
/-- MUL: the low 64 bits (R177). -/
def planMul (k : Cluster) (f : Fields) : Plan := { planInt k f (fun a b => a * b) with lat := 3, group := 2 }
/-- AND (R177). -/
def planAnd (k : Cluster) (f : Fields) : Plan := planInt k f fun a b => a &&& b
/-- OR (R177). -/
def planOr (k : Cluster) (f : Fields) : Plan := planInt k f fun a b => a ||| b
/-- XOR (R177). -/
def planXor (k : Cluster) (f : Fields) : Plan := planInt k f fun a b => a ^^^ b
/-- SHL by xb[5:0] (R177). -/
def planShl (k : Cluster) (f : Fields) : Plan := planInt k f fun a b => a <<< (b.toNat % 64)
/-- SHR by xb[5:0] (R177). -/
def planShr (k : Cluster) (f : Fields) : Plan := planInt k f fun a b => a >>> (b.toNat % 64)
/-- SRA by xb[5:0] (R177). -/
def planSra (k : Cluster) (f : Fields) : Plan := planInt k f fun a b => a.sshiftRight (b.toNat % 64)
/-- SLT (R177). -/
def planSlt (k : Cluster) (f : Fields) : Plan := planInt k f fun a b => if a.slt b then 1 else 0
/-- SLTU (R177). -/
def planSltu (k : Cluster) (f : Fields) : Plan := planInt k f fun a b => if a.ult b then 1 else 0
/-- SEQ (R177). -/
def planSeq (k : Cluster) (f : Fields) : Plan := planInt k f fun a b => if a = b then 1 else 0
/-- MIN, signed (R177). -/
def planMin (k : Cluster) (f : Fields) : Plan := planInt k f fun a b => if a.slt b then a else b
/-- MAX, signed (R177). -/
def planMax (k : Cluster) (f : Fields) : Plan := planInt k f fun a b => if a.slt b then b else a
/-- ADDI (R177). -/
def planAddi (k : Cluster) (f : Fields) : Plan :=
  { reads := [.x f.a], targets := [.x f.d (k.xr f.a + sext f.imm)], group := 1 }
/-- LIH (R177). -/
def planLih (k : Cluster) (f : Fields) : Plan :=
  { reads := [.x f.a], targets := [.x f.d ((f.imm.setWidth 64 <<< 32) ||| ((k.xr f.a).setWidth 32).setWidth 64)], group := 1 }

/-- A scalar load of n bytes (R177). -/
def State.planLoad (c : ClusterId) (k : Cluster) (f : Fields) (n : Nat) (t : Nat → Target) (s : State) : Plan :=
  let a := scalarAddr k f
  { reads := [.x f.a], conds := sramConds 1 a n n, sreads := [(a.toNat, n)], conf := [(a.toNat, n)], lat := 4
    targets := [t (s.readLe (sramAddr c a.toNat) n)], group := 3, fail := s.sramFail c a.toNat n }
/-- LD (R177). -/
def State.planLd (c : ClusterId) (k : Cluster) (f : Fields) (s : State) : Plan :=
  s.planLoad c k f 8 fun v => .x f.d (BitVec.ofNat 64 v)
/-- FLD (R177). -/
def State.planFld (c : ClusterId) (k : Cluster) (f : Fields) (s : State) : Plan :=
  s.planLoad c k f 4 fun v => .f f.d (BitVec.ofNat 32 v)
/-- ST (R177). -/
def planSt (k : Cluster) (f : Fields) : Plan :=
  let a := scalarAddr k f
  { reads := [.x f.a, .x f.b], conds := sramConds 1 a 8 8, lat := 2
    targets := [.sram a.toNat (leBytes 8 (k.xr f.b).toNat)], group := 4 }
/-- FST (R177). -/
def planFst (k : Cluster) (f : Fields) : Plan :=
  let a := scalarAddr k f
  { reads := [.x f.a, .f f.b], conds := sramConds 1 a 4 4, lat := 2
    targets := [.sram a.toNat (leBytes 4 (k.fr f.b).toNat)], group := 4 }

/-- A binary32 operation of two registers (R95, R177). -/
def planF2 (k : Cluster) (f : Fields) (g : Word → Word → Word × NFlags) : Plan :=
  let r := g (k.fr f.a) (k.fr f.b)
  { reads := [.f f.a, .f f.b], lat := 4, targets := [.f f.d r.1], flags := r.2, group := 5 }
/-- A binary32 operation of one register (R95, R177). -/
def planF1 (k : Cluster) (f : Fields) (g : Word → Word × NFlags) : Plan :=
  let r := g (k.fr f.a)
  { reads := [.f f.a], lat := 4, targets := [.f f.d r.1], flags := r.2, group := 5 }
/-- FADD (R95). -/
def planFadd (k : Cluster) (f : Fields) : Plan := planF2 k f f32add
/-- FSUB (R95). -/
def planFsub (k : Cluster) (f : Fields) : Plan := planF2 k f f32sub
/-- FMUL (R95). -/
def planFmul (k : Cluster) (f : Fields) : Plan := planF2 k f f32mul
/-- FFMA: fa × fb + fc with one rounding (R95). -/
def planFfma (k : Cluster) (f : Fields) : Plan :=
  let r := f32fma (k.fr f.a) (k.fr f.b) (k.fr f.c)
  { reads := [.f f.a, .f f.b, .f f.c], lat := 4, targets := [.f f.d r.1], flags := r.2, group := 5 }
/-- FDIV (R95). -/
def planFdiv (k : Cluster) (f : Fields) : Plan := { planF2 k f f32div with lat := 12, group := 7, gap := 6 }
/-- FSQRT (R95). -/
def planFsqrt (k : Cluster) (f : Fields) : Plan := { planF1 k f f32sqrt with lat := 12, group := 7, gap := 6 }
/-- FRSQRT (R95). -/
def planFrsqrt (k : Cluster) (f : Fields) : Plan := { planF1 k f f32rsqrt with lat := 12, group := 7, gap := 6 }
/-- FMAX (R55). -/
def planFmax (k : Cluster) (f : Fields) : Plan := planF2 k f fun a b => (f32max a b, .none)
/-- FMIN (R55). -/
def planFmin (k : Cluster) (f : Fields) : Plan := planF2 k f fun a b => (f32min a b, .none)
/-- FABS (R95). -/
def planFabs (k : Cluster) (f : Fields) : Plan := { planF1 k f (fun a => (f32abs a, .none)) with lat := 1, group := 6 }
/-- FNEG (R95). -/
def planFneg (k : Cluster) (f : Fields) : Plan := { planF1 k f (fun a => (f32neg a, .none)) with lat := 1, group := 6 }
/-- FCMP (R178). -/
def planFcmp (k : Cluster) (f : Fields) : Plan :=
  { reads := [.f f.a, .f f.b], lat := 4
    targets := [.x f.d (if f32cmp f.c.toNat (k.fr f.a) (k.fr f.b) then 1 else 0)], group := 5 }
/-- FMVXF (R177). -/
def planFmvxf (k : Cluster) (f : Fields) : Plan :=
  { reads := [.f f.a], targets := [.x f.d ((k.fr f.a).setWidth 64)], group := 1 }
/-- FMVFX (R177). -/
def planFmvfx (k : Cluster) (f : Fields) : Plan :=
  { reads := [.x f.a], targets := [.f f.d ((k.xr f.a).setWidth 32)], group := 1 }
/-- ICVTF (R177). -/
def planIcvtf (k : Cluster) (f : Fields) : Plan :=
  let r := f32ofInt (k.xr f.a).toInt
  { reads := [.x f.a], lat := 4, targets := [.f f.d r.1], flags := r.2, group := 5 }
/-- FCVTI (R179). -/
def planFcvti (k : Cluster) (f : Fields) : Plan :=
  let r := f32toInt (k.fr f.a)
  { reads := [.f f.a], lat := 4, targets := [.x f.d r.1], flags := r.2, group := 5 }
/-- SETCX (R177). -/
def planSetcx (k : Cluster) (f : Fields) : Plan :=
  { reads := [.x f.a, .x f.b]
    targets := [.cx ⟨(k.xr f.a).setWidth 32, (k.xr f.b).setWidth 32, f.imm.extractLsb' 8 12, f.imm.extractLsb' 0 8⟩], group := 8 }

/-! ## Vector slot (R180 to R182) -/

/-- The write-enable mask of a vector word. -/
def enOf (k : Cluster) (f : Fields) : BitVec 512 := k.mr (f.mod.setWidth 3)
/-- Reading the mask register of a vector word. -/
def enReg (f : Fields) : Reg := .m (f.mod.setWidth 3)
/-- Lane l of a list of lanes. -/
def laneOf (ls : List Word) (l : Nat) : Word := ls.getD l 0

/-- A vector result with its flags under the word's mask. -/
def planV (k : Cluster) (f : Fields) (reads : List Reg) (r : List Word × NFlags) (lat group : Nat) : Plan :=
  { reads := enReg f :: reads, lat := lat, targets := [.v f.d r.1 (enOf k f)], flags := r.2, group := group }
/-- A lane operation of two registers. -/
def planV2 (k : Cluster) (f : Fields) (g : Word → Word → Word × NFlags) : Plan :=
  let a := k.vr f.a
  let b := k.vr f.b
  planV k f [.v f.a, .v f.b] (lanes (enOf k f) fun l => g (laneOf a l) (laneOf b l)) 6 9
/-- A lane operation of one register. -/
def planV1 (k : Cluster) (f : Fields) (g : Word → Word × NFlags) : Plan :=
  let a := k.vr f.a
  planV k f [.v f.a] (lanes (enOf k f) fun l => g (laneOf a l)) 2 10
/-- VADD (R180). -/
def planVadd (k : Cluster) (f : Fields) : Plan := planV2 k f f32add
/-- VSUB (R180). -/
def planVsub (k : Cluster) (f : Fields) : Plan := planV2 k f f32sub
/-- VMUL (R180). -/
def planVmul (k : Cluster) (f : Fields) : Plan := planV2 k f f32mul
/-- VFMA (R180). -/
def planVfma (k : Cluster) (f : Fields) : Plan :=
  let a := k.vr f.a
  let b := k.vr f.b
  let c := k.vr f.c
  planV k f [.v f.a, .v f.b, .v f.c] (lanes (enOf k f) fun l => f32fma (laneOf a l) (laneOf b l) (laneOf c l)) 6 9
/-- VDIV (R180). -/
def planVdiv (k : Cluster) (f : Fields) : Plan := { planV2 k f f32div with lat := 20, group := 13, gap := 4 }
/-- VSQRT (R180). -/
def planVsqrt (k : Cluster) (f : Fields) : Plan := { planV1 k f f32sqrt with lat := 20, group := 13, gap := 4 }
/-- VRSQRT (R180). -/
def planVrsqrt (k : Cluster) (f : Fields) : Plan := { planV1 k f f32rsqrt with lat := 20, group := 13, gap := 4 }
/-- VMAX (R55, R180). -/
def planVmax (k : Cluster) (f : Fields) : Plan := planV2 k f fun a b => (f32max a b, .none)
/-- VMIN (R55, R180). -/
def planVmin (k : Cluster) (f : Fields) : Plan := planV2 k f fun a b => (f32min a b, .none)
/-- VABS (R95, R180). -/
def planVabs (k : Cluster) (f : Fields) : Plan := planV1 k f fun a => (f32abs a, .none)
/-- VNEG (R95, R180). -/
def planVneg (k : Cluster) (f : Fields) : Plan := planV1 k f fun a => (f32neg a, .none)
/-- VCMP: the bits of the enabled lanes of md (R178, R180). -/
def planVcmp (k : Cluster) (f : Fields) : Plan :=
  let a := k.vr f.a
  let b := k.vr f.b
  { reads := [enReg f, .v f.a, .v f.b], lat := 4
    targets := [.m (f.d.setWidth 3) (maskOf fun l => f32cmp f.c.toNat (laneOf a l) (laneOf b l)) (enOf k f)], group := 11 }
/-- VSEL: va where the bit of m(c) is set, vb elsewhere, as read (R95, R180). -/
def planVsel (k : Cluster) (f : Fields) : Plan :=
  let a := k.vr f.a
  let b := k.vr f.b
  let m := k.mr (f.c.setWidth 3)
  planV k f [.v f.a, .v f.b, .m (f.c.setWidth 3)]
    (quietLanes (enOf k f) fun l => f32pass (if m.getLsbD l then laneOf a l else laneOf b l)) 2 10
/-- VBCAST: fa as read in every lane (R95, R180; log entry 21). -/
def planVbcast (k : Cluster) (f : Fields) : Plan :=
  planV k f [.f f.a] (quietLanes (enOf k f) fun _ => f32pass (k.fr f.a)) 2 10
/-- VLD: 512 codes, each extended with zeros (R181). -/
def State.planVld (c : ClusterId) (k : Cluster) (f : Fields) (s : State) : Plan :=
  let a := k.xr f.a
  match Fmt.ofCode f.c.toNat with
  | some g =>
    let n := g.bytes 512
    let codes := unpack g 512 (s.read (sramAddr c a.toNat) n)
    { reads := [enReg f, .x f.a], conds := sramConds 2 a n 64, sreads := [(a.toNat, n)], conf := [(a.toNat, n)], lat := 8
      targets := [.v f.d (codes.map (BitVec.ofNat 32)) (enOf k f)], group := 14, fail := s.sramFail c a.toNat n }
  | none => {}
/-- VST: the low bits of the enabled lanes, merged when the store lands (R181). -/
def planVst (k : Cluster) (f : Fields) : Plan :=
  let a := k.xr f.a
  match Fmt.ofCode f.c.toNat with
  | some g =>
    { reads := [enReg f, .x f.a, .v f.b], conds := sramConds 2 a (g.bytes 512) 64, lat := 3
      targets := [.vst a.toNat (f.c.setWidth 4) ((k.vr f.b).map fun w => BitVec.ofNat 32 (w.toNat % 2 ^ g.bits)) (enOf k f)]
      group := 15 }
  | none => {}

/-- The scale operand of lane l (R182). -/
def scaleOperand (k : Cluster) (f : Fields) (b : List Word) (l : Nat) : Option Int :=
  let w := if f.imm.getLsbD 6 then (laneOf b l).toNat else (k.xr f.b).toNat
  effExp (BitVec.ofNat 8 w) (BitVec.ofNat 8 (w / 256))
/-- The register that holds the scale operand. -/
def scaleReg (f : Fields) : Reg := if f.imm.getLsbD 6 then .v f.b else .x f.b
/-- VCVT (R182). A cx.use outside R67 makes the word illegal (R179). -/
def State.planVcvt (k : Cluster) (off : Nat) (f : Fields) (s : State) : Plan :=
  let a := k.vr f.a
  let b := k.vr f.b
  let seed := ((s.plate k.job).map (·.seed)).getD 0
  match Fmt.ofCode (f.imm.toNat % 16) with
  | some g =>
    let one := fun l =>
      let i := ((k.xr f.c).toNat + l) % 2 ^ 64
      let rd := if f.imm.getLsbD 4 then Rounding.draw (drawWord seed i k.cx.tensor k.cx.step k.cx.rank k.cx.use) else .nearest
      let r := convert g rd (f.imm.getLsbD 5) (scaleOperand k f b l) (laneOf a l)
      (BitVec.ofNat 32 r.1, r.2)
    { planV k f [.v f.a, scaleReg f, .x f.c, .cx] (lanes (enOf k f) one) 8 16 with
      conds := if useCodeOk k.cx.use then [] else [condIllegal 2 off] }
  | none => {}
/-- VDEC (R182). -/
def planVdec (k : Cluster) (f : Fields) : Plan :=
  let a := k.vr f.a
  let b := k.vr f.b
  match Fmt.ofCode (f.imm.toNat % 16) with
  | some g =>
    planV k f [.v f.a, scaleReg f]
      (lanes (enOf k f) fun l => decodeScaled g (scaleOperand k f b l) ((laneOf a l).toNat % 2 ^ g.bits)) 6 17
  | none => {}
/-- VSPLIT3: the three HX16 parts into vd, vd + 1 and vd + 2 (R99). -/
def planVsplit3 (k : Cluster) (f : Fields) : Plan :=
  let a := k.vr f.a
  let en := enOf k f
  let rs := (List.range 512).map fun l => if en.getLsbD l then split3 (laneOf a l) else ((0, 0, 0), NFlags.none)
  { reads := [enReg f, .v f.a], lat := 10, group := 18, flags := orFlags (rs.map (·.2))
    targets := [.v f.d (rs.map fun r => BitVec.ofNat 32 r.1.1) en, .v (f.d + 1) (rs.map fun r => BitVec.ofNat 32 r.1.2.1) en
      , .v (f.d + 2) (rs.map fun r => BitVec.ofNat 32 r.1.2.2) en] }
/-- VRED (R96). -/
def planVred (k : Cluster) (f : Fields) : Plan :=
  let a := k.vr f.a
  let en := enOf k f
  let r := reduceLanes f.c.toNat ((List.range 512).map fun l => (laneOf a l, en.getLsbD l))
  { reads := [enReg f, .v f.a], lat := 14, targets := [.f f.d r.1], flags := r.2, group := 19 }
/-- A mask operation of two masks. -/
def planM2 (k : Cluster) (f : Fields) (g : BitVec 512 → BitVec 512 → BitVec 512) : Plan :=
  { reads := [.m (f.a.setWidth 3), .m (f.b.setWidth 3)]
    targets := [.m (f.d.setWidth 3) (g (k.mr (f.a.setWidth 3)) (k.mr (f.b.setWidth 3))) (BitVec.allOnes 512)], group := 12 }
/-- MAND (R180). -/
def planMand (k : Cluster) (f : Fields) : Plan := planM2 k f fun a b => a &&& b
/-- MOR (R180). -/
def planMor (k : Cluster) (f : Fields) : Plan := planM2 k f fun a b => a ||| b
/-- MXOR (R180). -/
def planMxor (k : Cluster) (f : Fields) : Plan := planM2 k f fun a b => a ^^^ b
/-- MNOT (R180). -/
def planMnot (k : Cluster) (f : Fields) : Plan :=
  { reads := [.m (f.a.setWidth 3)]
    targets := [.m (f.d.setWidth 3) (~~~ k.mr (f.a.setWidth 3)) (BitVec.allOnes 512)], group := 12 }

/-! ## Array slot (R183 to R185) -/

/-- MMA (R183). -/
def State.planMmaWord (c : ClusterId) (k : Cluster) (f : Fields) (s : State) : Plan :=
  let ta := k.xr f.a
  let p := s.planMma c (f.mod.getLsbD 0) ta k.stepCount
  { conds := p.conds, reads := [.x f.a], sreads := p.reads, conf := p.bytes, tile := p.tile, group := 20
    fail := p.bytes.findSome? fun r => s.sramFail c r.1 r.2 }

/-! ## Move slot (R186 to R189) -/

/-- MOVE (R186, R188, R189, R275, R446, R509). The record of a bad length and of ranges that overlap names the source (log entry 95). -/
def State.planMove (k : Cluster) (f : Fields) (s : State) : Plan :=
  let src := k.xr f.a
  let dst := k.xr f.b
  let n := (k.xr f.c).toNat
  let name : CounterName := f.imm.setWidth 16
  let inc : Byte := f.imm.extractLsb' 16 8
  let absent := fun (a : DWord) (r : BitVec 5) => match DWord.loc a with
    | .sram c _ => if s.hasCluster c then [] else [condAbsent 4 8 c r]
    | _ => []
  let leaves := fun (a : DWord) => if inSpace a n && !inReserve a n then [] else [condAccess 4 a]
  let good := inSpace src n && inSpace dst n
  { reads := [.x f.a, .x f.b, .x f.c]
    conds := absent src f.a ++ absent dst f.b
      ++ (if src.toNat % 16 ≠ 0 then [condAlign 4 src] else [])
      ++ (if dst.toNat % 16 ≠ 0 then [condAlign 4 dst] else [])
      ++ (if n % 16 ≠ 0 ∨ n < 16 ∨ 16777216 < n then [condAlign 4 src] else [])
      ++ leaves src ++ leaves dst
      ++ (if good && meets src.toNat n dst.toNat n then [condAccess 4 src] else [])
      ++ (if good && (s.inCode dst.toNat n || (match s.mirrorRange k.job dst.toNat n with | some (_, w) => !w | none => false))
          then [condAccess 4 dst] else [])
      ++ (if 64 ≤ k.moves.length then [⟨8, 4, 0, Code.moveQueueFull, 7, 4, 64⟩] else [])
      ++ (if inc = 0 ∨ (s.counter name).job = k.job then [] else [condCounter 4 name])
    act := .move src dst n name inc }
/-- BALLOC: the address that the grant names, once granted (R170, R186). -/
def planBalloc (k : Cluster) (f : Fields) : Plan :=
  { lat := 2, targets := [.x f.d (k.grant.getD 0)], hold := .balloc (f.imm.getLsbD 0), group := 23 }
/-- BFREE (R186, R304). -/
def State.planBfree (c : ClusterId) (k : Cluster) (f : Fields) (s : State) : Plan :=
  let a := k.xr f.a
  { reads := [.x f.a]
    conds := if s.mayFree c.toNat a then [] else [⟨12, 4, a.toNat, Code.bufferNotOwner, 6, 0, a.setWidth 32⟩]
    act := .bfree a }

/-! ## Stream/sync slot (R190) -/

/-- SLAUNCH (R190, R202). -/
def State.planSlaunch (c : ClusterId) (k : Cluster) (f : Fields) (s : State) : Plan :=
  let p := enginePort c (f.mod.getLsbD 0)
  { reads := [.x f.a]
    conds := (if s.hasPort p then [] else [condAbsent 5 9 (p.setWidth 8) f.a])
      ++ (if s.queueFull p then [⟨9, 5, 0, Code.streamQueueFull, 9, p.setWidth 8, 64⟩] else [])
    act := .launch p (k.xr f.a) }
/-- CADD (R190, R275). -/
def State.planCadd (k : Cluster) (f : Fields) (s : State) : Plan :=
  let n : CounterName := f.imm.setWidth 16
  { conds := if (s.counter n).job = k.job ∧ k.job ≠ 0 then [] else [condCounter 5 n]
    act := .add n (f.imm.extractLsb' 16 16).toInt }
/-- CADDR (R190, R275). -/
def State.planCaddr (k : Cluster) (f : Fields) (s : State) : Plan :=
  let n : CounterName := f.imm.setWidth 16
  { reads := [.x f.b], conds := if (s.counter n).job = k.job ∧ k.job ≠ 0 then [] else [condCounter 5 n]
    act := .add n ((k.xr f.b).setWidth 32).toInt }
/-- BARR (R190, R287). -/
def State.planBarr (k : Cluster) (f : Fields) (s : State) : Plan :=
  let slot := f.imm.toNat % 64
  { conds := if (s.barDef k.job slot).isSome then [] else [⟨11, 5, 0, Code.barrierUndefined, 7, 5, BitVec.ofNat 32 slot⟩]
    act := .barr (BitVec.ofNat 6 slot) }

end Sys2Proof.Machine
end

