-- ==== Sys2Proof/Machine/Issue.lean ====
section
/-! DEFINITION. The issue of a bundle: its plans, the shadow scoreboard, faults, holds, fetch, and what takes effect
when it issues (07 R163 to R171, R193 to R199; 06 R139, R140, R156, R157). -/

namespace Sys2Proof.Machine

/-! ## Plans of a bundle -/

/-- The plan of a control word. -/
def State.controlPlan (k : Cluster) (b : Bundle) (w : SlotWord) (s : State) : Plan :=
  match w.op.toNat with
  | 0x01 => planBr k w.f
  | 0x02 => planBrz k w.f
  | 0x03 => planBrnz k w.f
  | 0x04 =>
    let p := planLoop k b.size (b.offset 0) w.f
    { p with conds := p.conds ++ s.loopFetch k p.act }
  | 0x05 => s.planWaitc k w.f
  | 0x06 => s.planWaitg k (b.offset 0) w.f
  | 0x07 => planHalt w.f
  | 0x08 => planPref k w.f
  | 0x09 => planRdflg k w.f
  | 0x0A => planStat k w.f
  | _ => {}

/-- The plan of a scalar word. -/
def State.scalarPlan (c : ClusterId) (k : Cluster) (w : SlotWord) (s : State) : Plan :=
  match w.op.toNat with
  | 0x01 => planAdd k w.f
  | 0x02 => planSub k w.f
  | 0x03 => planMul k w.f
  | 0x04 => planAnd k w.f
  | 0x05 => planOr k w.f
  | 0x06 => planXor k w.f
  | 0x07 => planShl k w.f
  | 0x08 => planShr k w.f
  | 0x09 => planSra k w.f
  | 0x0A => planSlt k w.f
  | 0x0B => planSltu k w.f
  | 0x0C => planSeq k w.f
  | 0x0D => planMin k w.f
  | 0x0E => planMax k w.f
  | 0x10 => planAddi k w.f
  | 0x11 => planLih k w.f
  | 0x18 => s.planLd c k w.f
  | 0x19 => planSt k w.f
  | 0x1A => s.planFld c k w.f
  | 0x1B => planFst k w.f
  | 0x20 => planFadd k w.f
  | 0x21 => planFsub k w.f
  | 0x22 => planFmul k w.f
  | 0x23 => planFfma k w.f
  | 0x24 => planFdiv k w.f
  | 0x25 => planFsqrt k w.f
  | 0x26 => planFrsqrt k w.f
  | 0x27 => planFmax k w.f
  | 0x28 => planFmin k w.f
  | 0x29 => planFabs k w.f
  | 0x2A => planFneg k w.f
  | 0x2B => planFcmp k w.f
  | 0x2C => planFmvxf k w.f
  | 0x2D => planFmvfx k w.f
  | 0x2E => planIcvtf k w.f
  | 0x2F => planFcvti k w.f
  | 0x30 => planSetcx k w.f
  | _ => {}

/-- The plan of a vector word. -/
def State.vectorPlan (c : ClusterId) (k : Cluster) (b : Bundle) (w : SlotWord) (s : State) : Plan :=
  match w.op.toNat with
  | 0x01 => planVadd k w.f
  | 0x02 => planVsub k w.f
  | 0x03 => planVmul k w.f
  | 0x04 => planVfma k w.f
  | 0x05 => planVdiv k w.f
  | 0x06 => planVsqrt k w.f
  | 0x07 => planVrsqrt k w.f
  | 0x08 => planVmax k w.f
  | 0x09 => planVmin k w.f
  | 0x0A => planVabs k w.f
  | 0x0B => planVneg k w.f
  | 0x0C => planVcmp k w.f
  | 0x0D => planVsel k w.f
  | 0x0E => planVbcast k w.f
  | 0x10 => s.planVld c k w.f
  | 0x11 => planVst k w.f
  | 0x12 => s.planVcvt k (b.offset 2) w.f
  | 0x13 => planVdec k w.f
  | 0x14 => planVsplit3 k w.f
  | 0x15 => planVred k w.f
  | 0x18 => planMand k w.f
  | 0x19 => planMor k w.f
  | 0x1A => planMxor k w.f
  | 0x1B => planMnot k w.f
  | _ => {}

/-- The plan of a word of the array, move or stream/sync slot. -/
def State.otherPlan (c : ClusterId) (k : Cluster) (w : SlotWord) (s : State) : Plan :=
  match w.slot, w.op.toNat with
  | 3, 0x01 => s.planMmaWord c k w.f
  | 4, 0x01 => s.planMove k w.f
  | 4, 0x02 => planBalloc k w.f
  | 4, 0x03 => s.planBfree c k w.f
  | 5, 0x01 => s.planSlaunch c k w.f
  | 5, 0x02 => s.planCadd k w.f
  | 5, 0x03 => s.planCaddr k w.f
  | 5, 0x04 => s.planBarr k w.f
  | _, _ => {}

/-- The plan of a legal word. -/
def State.plan (c : ClusterId) (b : Bundle) (w : SlotWord) (s : State) : Plan :=
  let k := s.clu c
  match w.slot with
  | 0 => s.controlPlan k b w
  | 1 => s.scalarPlan c k w
  | 2 => s.vectorPlan c k b w
  | _ => s.otherPlan c k w

/-! ## The shadow scoreboard (R193, R194) -/

/-- The step at whose end the latest outstanding write to a register lands. -/
def Cluster.regLand (r : Reg) (k : Cluster) : Option Nat :=
  ((k.inflight.filter fun (x : InFlight) => x.targets.any fun t => t.regs.contains r).map (·.land)).max?

/-- The step at whose end the latest outstanding write to a range of SRAM lands: stores, and C ranges of tiles. -/
def Cluster.sramLand (a n : Nat) (k : Cluster) : Option Nat :=
  let st := (k.inflight.filter fun (x : InFlight) => x.targets.any fun t => match t.range with
    | some r => meets a n r.1 r.2
    | none => false).map (·.land)
  let ti := (k.tiles.filter fun (t : Tile) => meets a n (cRange t.cAddr t.rows).1 (cRange t.cAddr t.rows).2).map Tile.land
  (st ++ ti).max?

/-- The SRAM ranges that a plan writes, with the step at whose end they land. -/
def Plan.swrites (p : Plan) (t : Nat) : List (Nat × Nat × Nat) :=
  p.targets.filterMap fun x => x.range.map fun r => (r.1, r.2, t + p.lat - 1)

/-- The C range that a plan's tile writes. -/
def Plan.cwrites (p : Plan) : List (Nat × Nat × Nat) :=
  match p.tile with
  | some t => [((cRange t.cAddr t.rows).1, (cRange t.cAddr t.rows).2, t.land)]
  | none => []

/-- The registers that a plan writes and the scoreboard tracks. -/
def Plan.writes (p : Plan) : List Reg := (p.targets.flatMap Target.regs).filter Reg.tracked

/-- A hazard (R194, R196): kind and number of steps. -/
def condHazard (slot kind steps : Nat) (cls : BitVec 4) (number key : Nat) : Cond :=
  ⟨2, slot, key, Code.scheduleHazard, cls, BitVec.ofNat 8 number, BitVec.ofNat 32 (kind * 2 ^ 30 + min steps (2 ^ 30 - 1))⟩

/-- Kind 0: reads of registers and SRAM whose write lands at the end of step t or later. -/
def Cluster.readEarly (k : Cluster) (t slot : Nat) (p : Plan) : List Cond :=
  ((p.reads.filter Reg.tracked).filterMap fun r => (k.regLand r).bind fun l =>
    if t ≤ l then some (condHazard slot 0 (l - t + 1) r.cls r.number r.number) else none)
  ++ p.sreads.filterMap fun r => (k.sramLand r.1 r.2).bind fun l =>
    if t ≤ l then some (condHazard slot 0 (l - t + 1) 6 0 r.1) else none

/-- Kind 1: writes that land before an outstanding write to the same place, and two register writes in one step; the
writes of earlier slots of the bundle count (log entry 21). -/
def Cluster.writeEarly (k : Cluster) (t slot : Nat) (before : List (Reg × Nat)) (p : Plan) : List Cond :=
  let new := t + p.lat - 1
  (p.writes.filterMap fun r =>
    let olds := (k.regLand r).toList ++ (before.filter fun x => x.1 == r).map (·.2)
    olds.max?.bind fun old => if new ≤ old then some (condHazard slot 1 (old - new) r.cls r.number r.number) else none)
  ++ (p.swrites t ++ p.cwrites).filterMap fun w => (k.sramLand w.1 w.2.1).bind fun old =>
    if w.2.2 < old then some (condHazard slot 1 (old - w.2.2) 6 0 w.1) else none

/-- Kind 2: the issue interval of the group, or of the array (R152, R192). -/
def Cluster.intervalEarly (k : Cluster) (t slot : Nat) (p : Plan) : List Cond :=
  if p.group = 20 then
    match k.lastTile with
    | some x => if t < x.issue + x.len then [condHazard slot 2 (x.issue + x.len - t) 7 slot slot] else []
    | none => []
  else
    let last := Table.get 0 p.group k.lastIssue
    if last ≠ 0 ∧ t + 1 < last + p.gap then [condHazard slot 2 (last + p.gap - (t + 1)) 7 slot slot] else []

/-- Kind 3: stores that land in the operand span of a tile in progress, the tile of their own bundle among them. -/
def Cluster.intoSpan (k : Cluster) (t slot : Nat) (here : List Tile) (p : Plan) : List Cond :=
  (p.swrites t).filterMap fun w =>
    let ends := ((k.tiles ++ here).filter fun (x : Tile) => x.spans.any fun r => meets w.1 w.2.1 r.1 r.2).map fun x => x.issue + x.len - 1
    ends.max?.bind fun e => if w.2.2 ≤ e then some (condHazard slot 3 (e - w.2.2 + 1) 6 0 w.1) else none

/-- The hazards of a plan, each named once (R194). -/
def Cluster.hazards (k : Cluster) (t slot : Nat) (before : List (Reg × Nat)) (here : List Tile) (p : Plan) : List Cond :=
  (k.readEarly t slot p ++ k.writeEarly t slot before p ++ k.intoSpan t slot here p ++ k.intervalEarly t slot p).dedup

/-! ## Fetch (R156 to R158) -/

/-- The lines of the code region that hold n bytes from an offset. -/
def linesOf (pc n : Nat) : List Nat := (List.range ((pc + n - 1) / 128 - pc / 128 + 1)).map fun i => pc / 128 + i

/-- The first line of a bundle whose fill has failed. -/
def Cluster.badLine (b : Bundle) (k : Cluster) : Option (Nat × Bool) :=
  k.fetchBad.find? fun x => (linesOf k.pc.toNat b.size).contains x.1

/-- Is a line in the cache. -/
def Cluster.cached (line : Nat) (k : Cluster) : Bool := (Table.get [] (line % 128) k.icache).contains line

/-- Bring a line to the front of its set, the most recently used first; a fifth line drops out (R156). -/
def Cluster.touch (line : Nat) (k : Cluster) : Cluster :=
  { k with icache := Table.set [] (line % 128) ((line :: (Table.get [] (line % 128) k.icache).erase line).take 4) k.icache }

/-- Request lines that are neither in the cache nor requested. -/
def Cluster.want (ls : List Nat) (k : Cluster) : Cluster :=
  { k with iwait := k.iwait ++ (ls.dedup.filter fun l => !k.cached l && !k.iwait.contains l) }

/-- The lines that the misses of a bundle request: each missing line, and the next one where the code region has it (R157). -/
def Cluster.missLines (b : Bundle) (k : Cluster) : List Nat :=
  ((linesOf k.pc.toNat b.size).filter fun l => !k.cached l).flatMap fun l =>
    if 128 * (l + 1) < k.codeLen then [l, l + 1] else [l]

/-! ## The conditions of a bundle (R194 to R197) -/

/-- The plans of a bundle's legal words, in slot order. -/
def State.plans (c : ClusterId) (b : Bundle) (s : State) : List (SlotWord × Plan) :=
  (b.words.filter SlotWord.legal).map fun w => (w, s.plan c b w)

/-- The conditions of the header and the fetch of a bundle (R158, R165, R167; log entry 96). -/
def Cluster.headConds (b : Bundle) (k : Cluster) : List Cond :=
  (if b.wide0 ≠ 0 then [condIllegal 7 0] else [])
    ++ (if k.codeLen < k.pc.toNat + b.size then [condIllegal 7 0] else [])
    ++ (match k.badLine b with
      | some x => [⟨13, 7, 0, Code.fetchUncorrectable, 0, 0, BitVec.ofNat 32 (128 * x.1)⟩]
      | none => [])

/-- The conditions of a bundle (R196, R197): its header and fetch, illegal words, and what each plan meets. -/
def State.conds (c : ClusterId) (b : Bundle) (s : State) : List Cond :=
  let k := s.clu c
  let t := k.stepCount
  let ps := s.plans c b
  let here := ps.filterMap fun wp => wp.2.tile
  let bad := (b.words.filter fun w => !w.legal).map fun w => condIllegal w.slot (b.offset w.slot)
  let go := ps.foldl (fun acc wp =>
    (acc.1 ++ wp.2.conds ++ k.hazards t wp.1.slot acc.2 here wp.2, acc.2 ++ wp.2.writes.map fun r => (r, t + wp.2.lat - 1)))
    (([] : List Cond), ([] : List (Reg × Nat)))
  k.headConds b ++ bad ++ go.1

/-! ## Faults of a bundle (R195, R197, R198) -/

/-- The first of several conditions (R197). -/
def firstCond : List Cond → Option Cond
  | [] => none
  | x :: t => match firstCond t with
    | some y => if x.before y then some x else some y
    | none => some x

/-- Halt a cluster precisely at its bundle; a granule granted to the bundle returns (R195, R198, R200). -/
def State.haltAt (c : ClusterId) (x : Cond) (more inj : Bool) (s : State) : State :=
  let k := s.clu c
  let s := if x.code = Code.bufferNotOwner then s.free_ c.toNat 1 else s
  s.haltCluster c
    { number := x.number, injected := inj, more := more, slot := BitVec.ofNat 3 x.slot, code := x.code, job := k.job
      cls := x.cls, cluster := c, step := BitVec.ofNat 64 k.stepCount, pc := k.pc, detail := x.detail
      time := BitVec.ofNat 64 s.time }

/-- Halt a cluster at its bundle for the first of the bundle's conditions (R197). A line whose fill failed by an injected fault marks the
record (R524). -/
def State.haltAll (c : ClusterId) (cs : List Cond) (s : State) : State :=
  match firstCond cs, (s.clu c).fetchQ with
  | some x, b :: _ =>
    s.haltAt c x (decide (1 < cs.length)) (x.row == 13 && ((s.clu c).badLine b).any (·.2))
  | _, _ => s

/-! ## Holds (R139, R140, R170) -/

/-- What a bundle still waits for, with the grant that it asks for now. -/
def State.holds (c : ClusterId) (ps : List Plan) (s : State) : List HoldCause × State :=
  ps.foldl (fun acc p =>
    let s := acc.2
    let k := s.clu c
    match p.hold with
    | .none => acc
    | .waitc n v timeout =>
      if k.waitDone.isSome then acc
      else if (s.counter n).orphaned then (acc.1, s.setClu c { k with waitDone := some 0x01 })
      else if v ≤ (s.counter n).value.toNat then (acc.1, s.setClu c { k with waitDone := some 0x00 })
      else
        let due := match k.waitDeadline with
          | some d => some d
          | none => if timeout = 0 then none else some (s.time + timeout)
        (.sync :: acc.1, s.setClu c { k with waitDeadline := due })
    | .waitg e =>
      if k.gateDone then acc
      else if s.gateOpen k.job e then (acc.1, s.setClu c { k with gateDone := true })
      else (.gate :: acc.1, s)
    | .balloc dram =>
      if k.grant.isSome then acc
      else
        let w : GranReq := ⟨c.toNat, dram, k.job, none⟩
        if s.waitsForGranule w then (.buffer :: acc.1, s)
        else
          let r := s.request w
          match r.1 with
          | some a => (acc.1, r.2.modClu c fun k => { k with grant := some a })
          | none => (.buffer :: acc.1, r.2)) ([], s)

/-- The cause that a held step counts under (R140). -/
def causeOf (l : List HoldCause) : HoldCause :=
  if l.contains .buffer then .buffer else if l.contains .gate then .gate else if l.contains .sync then .sync else .none

/-! ## What takes effect at issue (R168, R171, R173, R195) -/

/-- Is an offset inside the body of a loop entry. -/
def LoopEntry.holds (pc : Nat) (e : LoopEntry) : Bool := decide (e.first ≤ pc) && decide (pc ≤ e.last)

/-- The loop-back after the bundle at pc: the next offset and the stack (R173). -/
def loopBack (pc next : Nat) : List LoopEntry → Nat × List LoopEntry
  | [] => (next, [])
  | e :: t =>
    if e.last = pc then
      if 1 < e.count.toNat then (e.first, { e with count := e.count - 1 } :: t) else loopBack pc next t
    else (next, e :: t)

/-- The next offset and the loop stack after a bundle (R171, R173): a taken branch, a skipped or pushed body, else the
loop-backs. -/
def State.nextPc (k : Cluster) (size : Nat) (a : Act) (s : State) : Word × List LoopEntry :=
  let pc := k.pc.toNat
  match a with
  | .branch t => (t, k.loops.dropWhile fun e => !e.holds t.toNat)
  | .loop n last =>
    if n = 0 then
      let r := loopBack pc (last + headerSize (s.readLe (k.codeBase.toNat + last) 2)) k.loops
      (BitVec.ofNat 32 r.1, r.2)
    else
      let r := loopBack pc (pc + size) (⟨pc + size, last, n⟩ :: k.loops)
      (BitVec.ofNat 32 r.1, r.2)
  | _ =>
    let r := loopBack pc (pc + size) k.loops
    (BitVec.ofNat 32 r.1, r.2)

/-- The number of tiles that a move into DRAM signs (R326). -/
def moveTiles (dst : DWord) (n : Nat) : Nat :=
  match DWord.loc dst with
  | .dram _ o => tilesAt o n
  | _ => 0

/-- Start a move (R186, R189, R509). -/
def State.startMove (c : ClusterId) (src dst : DWord) (n : Nat) (counter : CounterName) (inc : Byte) (s : State) : State :=
  let k := s.clu c
  match k.impr with
  | some i =>
    let mir := s.mirrorRange i.job dst.toNat n
    let m : MoveOut := { src := src, dst := dst, len := n, counter := counter, inc := inc, impr := i, seq := k.signSeq
                         mirrored := mir.isSome, shard := (mir.map fun x => x.1.shard).getD 0, copied := false
                         acksDue := [] }
    s.setClu c { k with moves := k.moves ++ [m], signSeq := k.signSeq + moveTiles dst n }
  | none => s

/-- The act of an instruction (R195). Branches, loops and HALT act through nextPc and finishIssue. -/
def State.act (c : ClusterId) (a : Act) (s : State) : State :=
  match a with
  | .pref off => s.modClu c (Cluster.want [off.toNat / 128])
  | .move src dst n counter inc => s.startMove c src dst n counter inc
  | .bfree a => s.free_ c.toNat a
  | .launch p a => s.slaunch c p a
  | .add n delta => s.addCounter n delta (srcCluster c)
  | .barr slot =>
    match s.barDef (s.clu c).job slot.toNat with
    | some b => s.barBarr (s.clu c).job b false
    | none => s
  | _ => s

/-- Put the results of a plan in flight (R168, R193). Its reads take their bank whatever they find (R145). -/
def Cluster.book (t : Nat) (slot : Nat) (p : Plan) (k : Cluster) : Cluster :=
  let k := if p.conf.isEmpty then k else { k with accesses := k.accesses ++ [p.conf] }
  match p.fail with
  | some _ => k
  | none =>
    let k := if p.targets.isEmpty then k
      else { k with inflight := k.inflight ++ [⟨t + p.lat - 1, slot, p.targets, p.flags⟩] }
    let k := if p.group = 0 then k else { k with lastIssue := Table.set 0 p.group (t + 1) k.lastIssue }
    match p.tile with
    | some x => { k with tiles := k.tiles ++ [x], lastTile := some x, signSeq := k.signSeq + 1 }
    | none => k

/-- The failing read of a bundle, lowest slot first (R150). -/
def failOf (ps : List (SlotWord × Plan)) : Option (Nat × Nat × Bool) :=
  ps.findSome? fun wp => wp.2.fail.map fun f => (wp.1.slot, f.1, f.2)

/-- The single-bit errors in the SRAM words that a plan reads are corrected, and each word counts (R150). -/
def State.correctRead (c : ClusterId) (p : Plan) (s : State) : State :=
  s.corrects c (p.conf.flatMap fun r => s.weakIn (sramAddr c r.1) r.2).dedup

/-- The bundle issues: every slot reads at the start of the step, results go in flight, and the acts take place; a HALT issues the last
bundle of its impression (R150, R155, R168, R170, R195). -/
def State.issueNow (c : ClusterId) (b : Bundle) (s : State) : State :=
  let ps := s.plans c b
  let k := s.clu c
  let t := k.stepCount
  let ctl := (ps.find? fun wp => wp.1.slot == 0).elim Act.none fun wp => wp.2.act
  let nx := s.nextPc k b.size ctl
  let k1 := ps.foldl (fun k wp => k.book t wp.1.slot wp.2) k
  let s := s.setClu c { k1 with
    pc := nx.1, loops := nx.2, bundleCount := k1.bundleCount + 1, issuedAt := some t, nextIssue := t + 1 + b.idle.toNat
    waitDone := none, gateDone := false, grant := none, waitDeadline := none, gstate := .running, holdCause := .none
    fetchQ := k1.fetchQ.tail }
  let s := ps.foldl (fun s wp => if wp.2.fail.isSome then s else s.act c wp.2.act) s
  let s := ps.foldl (fun s wp => s.correctRead c wp.2) s
  let s := match failOf ps with
    | some f =>
      let a := sramAddr c f.2.1
      let s := { s with armed := match s.armedIn a 1 with | some i => s.armed.erase i | none => s.armed }
      s.endAtBoundary c ⟨Code.sramUncorrectable, k.pc, BitVec.ofNat 3 f.1, 6, BitVec.ofNat 32 f.2.1, f.2.2⟩
    | none => s
  match ctl with
  | .halt code => s.willEnd c (.halt code)
  | _ => s

/-- A bundle stands at issue: the fetch of its lines, the conditions that no wait changes, its holds, the conditions that its wait could
have changed, and its issue, in this order (R139, R158, R165, R167, R170, R195). -/
def State.bundleAt (c : ClusterId) (b : Bundle) (s : State) : State :=
  let k := s.clu c
  let fetched := (linesOf k.pc.toNat b.size).all k.cached
  if !fetched ∧ (k.badLine b).isNone ∧ k.pc.toNat + b.size ≤ k.codeLen then
    s.setClu c { k.want (k.missLines b) with gstate := .held, holdCause := .fetch }
  else
    let s := if fetched then s.setClu c ((linesOf k.pc.toNat b.size).foldl (fun k l => k.touch l) k) else s
    let cs := s.conds c b
    match firstCond (cs.filter fun x => !x.mayPass) with
    | some _ => s.haltAll c cs
    | none =>
      let h := s.holds c ((s.plans c b).map (·.2))
      if !h.1.isEmpty then h.2.modClu c fun k => { k with gstate := .held, holdCause := causeOf h.1 }
      else if !cs.isEmpty then h.2.haltAll c cs
      else h.2.issueNow c b

/-- Issue the next bundle of a cluster where its impression has started and goes on, its step has come and none has issued in this
step (R155, R163, R168). -/
def State.tryIssue (c : ClusterId) (s : State) : State :=
  let k := s.clu c
  if (k.gstate = .running ∨ k.gstate = .held) ∧ k.startGate = none ∧ k.nextIssue ≤ k.stepCount ∧ k.issuedAt ≠ some k.stepCount ∧
      k.ending = none then
    match k.fetchQ with
    | b :: _ => s.bundleAt c b
    | [] => s
  else s

/-- The wide bits that a header sets for slots of which the bundle has no word (R165). -/
def absentWide (wide : BitVec 6) (ws : List SlotWord) : BitVec 6 := ws.foldl (fun m w => m &&& ~~~(1#6 <<< w.slot)) wide

/-- A slot word reaches the graver core of a cluster: it joins the bundle that forms, and the last word of a bundle
closes it (log entries 7 and 8). A cluster that runs no impression takes no words. -/
def State.place (p : Place) (slot : Nat) (op : Byte) (w : Fields) (s : State) : State :=
  let k := s.clu p.cl
  if (k.gstate = .running ∨ k.gstate = .held) ∧ k.ending = none then
    let words := insertWord ⟨slot, op, w⟩ k.forming
    if p.more then s.setClu p.cl { k with forming := words }
    else (s.setClu p.cl { k with forming := [], fetchQ := k.fetchQ ++ [⟨words, p.idle, absentWide p.stray words⟩] }).tryIssue p.cl
  else s
where
  /-- A word takes its place by slot; a second word of a slot replaces the first. -/
  insertWord (w : SlotWord) : List SlotWord → List SlotWord
    | [] => [w]
    | x :: t => if w.slot < x.slot then w :: x :: t else if w.slot = x.slot then w :: t else x :: insertWord w t

end Sys2Proof.Machine
end

