-- ==== Sys2Proof/Machine/TensorOps.lean ====
section
/-! DEFINITION. Tensors as a stream engine reads and writes them: the layout of R60, decoding and conversion of whole
slices, the scale recipe and the absmax table (02 R57 to R62; 05 R114 to R122, R131; 08 R208, R209). -/

namespace Sys2Proof.Machine

/-! ## The layout of a scaled tensor (R60) -/

/-- The next multiple of 128. -/
def up128 (n : Nat) : Nat := (n + 127) / 128 * 128

/-- The blocks of 16 elements in a row (R59). -/
def Tensor.blocks (t : Tensor) : Nat := (t.rowLen + 15) / 16
/-- The scale units of a tensor: rows, or blocks in row-major order (R115). -/
def Tensor.unitsN (t : Tensor) : Nat := if t.block then t.rows * t.blocks else t.rows
/-- The bytes of the scale area (R60). -/
def Tensor.scaleBytes (t : Tensor) : Nat := if t.block then 1 + t.rows * t.blocks else t.rows
/-- The bytes of a row of codes in a format (R52). DESIGN CHOICE (log entry 101): a row_len that breaks R53 is accepted, and each row is
packed to whole bytes. -/
def Tensor.rowBytes (t : Tensor) (f : Fmt) : Nat := f.bytes t.rowLen
/-- Where the scale area starts (R60). -/
def Tensor.scaleAt (t : Tensor) (f : Fmt) : Nat := up128 (t.rows * t.rowBytes f)
/-- The bytes of the whole layout in a format (R60). -/
def Tensor.size (t : Tensor) (f : Fmt) : Nat := t.scaleAt f + up128 t.scaleBytes
/-- The number of elements. -/
def Tensor.elems (t : Tensor) : Nat := t.rows * t.rowLen
/-- The scale unit of element i (R115). -/
def Tensor.unitOf (t : Tensor) (i : Nat) : Nat :=
  if t.block then i / t.rowLen * t.blocks + i % t.rowLen / 16 else i / t.rowLen

/-- The codes of a layout's elements in row-major order. -/
def Tensor.codes (t : Tensor) (f : Fmt) (bs : List Byte) : List Nat :=
  (List.range t.rows).flatMap fun m => unpack f t.rowLen ((bs.drop (m * t.rowBytes f)).take (t.rowBytes f))

/-- The effective exponent of element i from the scale area (R58, R59). -/
def Tensor.expAt (t : Tensor) (scales : List Byte) (i : Nat) : Option Int :=
  if t.block then effExp (scales.headD 0) (scales.getD (1 + t.unitOf i) 0) else effExp (scales.getD (t.unitOf i) 0) 0

/-- Decode a layout to binary32 with its own scales (R61, R87; log entry 101). -/
def Tensor.decode (t : Tensor) (f : Fmt) (bs : List Byte) : List (Word × NFlags) :=
  let scales := bs.drop (t.scaleAt f)
  ((List.range t.elems).zip (t.codes f bs)).map fun ic => decodeScaled f (t.expAt scales ic.1) ic.2

/-- Assemble a layout from codes and scale bytes (R60). DESIGN CHOICE (log entry 101): the bytes between the element data and the scale area
are 0x00, as the filler after the scale area is. -/
def Tensor.assemble (t : Tensor) (f : Fmt) (codes : List Nat) (scales : List Byte) : List Byte :=
  let data := (List.range t.rows).flatMap fun m => pack f ((codes.drop (m * t.rowLen)).take t.rowLen)
  let pad := fun (l : List Byte) n => l ++ List.replicate (n - l.length) 0
  pad data (t.scaleAt f) ++ pad scales (up128 t.scaleBytes)

/-! ## The absmax table (R209) -/

/-- An absmax table as read: offset, clean steps, validity, the tensor's record and coarse byte, and per unit the
record and the byte of the last conversion. -/
structure AbsTable where
  o      : Int
  clean  : Nat
  valid  : Bool
  tensor : Word
  coarse : Byte
  units  : List (Word × Byte)
  deriving DecidableEq, Repr

/-- The bytes of a tensor's absmax table. -/
def Tensor.tableBytes (t : Tensor) : Nat := 16 + 8 * t.unitsN

/-- An absmax table from its bytes. -/
def AbsTable.ofBytes (n : Nat) (bs : List Byte) : AbsTable :=
  let v := fun k m => leNat ((bs.drop k).take m)
  { o := (BitVec.ofNat 8 (v 0 1)).toInt, clean := bitsOf (v 0 4) 8 12, valid := Nat.testBit (v 0 4) 20
    tensor := BitVec.ofNat 32 (v 4 4), coarse := BitVec.ofNat 8 (v 8 1)
    units := (List.range n).map fun u => (BitVec.ofNat 32 (v (16 + 8 * u) 4), BitVec.ofNat 8 (v (20 + 8 * u) 1)) }

/-- The bytes of an absmax table. -/
def AbsTable.bytes (a : AbsTable) : List Byte :=
  leBytes 4 ((BitVec.ofInt 8 a.o).toNat + 2 ^ 8 * a.clean + 2 ^ 20 * b2n a.valid)
  ++ leBytes 4 a.tensor.toNat ++ leBytes 4 a.coarse.toNat ++ leBytes 4 0
  ++ a.units.flatMap fun u => leBytes 4 u.1.toNat ++ leBytes 4 u.2.toNat

/-! ## The recipe (R115 to R117) -/

/-- The headroom of a kind (R116). -/
def headroom (kind : Nat) : Int :=
  match kind with
  | 1 => 1
  | 2 => 2
  | 3 => 2
  | 4 => 1
  | _ => 3

/-- clamp of R117. -/
def clampExp (v lo hi : Int) : Int := min hi (max lo v)
/-- expo of R117. -/
def expo (a : Word) : Int := ((a.toNat / 2 ^ 23 % 256 : Nat) : Int) - 127
/-- Is a record a NaN or an infinity. -/
def notFinite (a : Word) : Bool := a.toNat / 2 ^ 23 % 256 == 255
/-- A record as read under R49: a subnormal counts as +0. -/
def recordOf (a : Word) : Word := if a.toNat / 2 ^ 23 % 256 = 0 then 0 else a

/-- one_scale of R117; none is the record NONE. -/
def oneScale (t : Tensor) (f : Fmt) (o : Int) (a : Option Word) (ePrev : Byte) : Byte :=
  let fresh := BitVec.ofInt 8 (clampExp (t.initE + o) (-127) 127)
  match a with
  | none => fresh
  | some a =>
    let a := recordOf a
    if a = 0 then fresh
    else if notFinite a then (if ePrev = 0x80 then fresh else ePrev)
    else BitVec.ofInt 8 (clampExp (expo a - f.topExp + headroom t.kind + o) (-127) 127)

/-- The coarse byte and the unit bytes of the next conversion (R117); a binary32 target has scale bytes 0. -/
def Tensor.recipe (t : Tensor) (f : Fmt) (tab : AbsTable) : Byte × List Byte :=
  let known := fun (a : Word) => if tab.valid then some a else none
  if f = .b32 then (0, List.replicate t.unitsN 0)
  else if t.block then
    let c := oneScale t f tab.o (known tab.tensor) tab.coarse
    let at_ := recordOf tab.tensor
    let fine := fun (u : Word × Byte) =>
      if tab.valid && at_ != 0 && notFinite at_ then (if u.2 = 0x80 then (0 : Byte) else u.2)
      else if !tab.valid || at_ == 0 || recordOf u.1 == 0 then (0 : Byte)
      else BitVec.ofInt 8 (clampExp (expo u.1 - expo at_) (-127) 0)
    (c, tab.units.map fine)
  else (tab.coarse, tab.units.map fun u => oneScale t f tab.o (known u.1) u.2)

/-- The scale area of a conversion from its coarse and unit bytes (R60). -/
def Tensor.scaleArea (t : Tensor) (f : Fmt) (s : Byte × List Byte) : List Byte :=
  if f = .b32 then List.replicate t.scaleBytes 0 else if t.block then s.1 :: s.2 else s.2

/-- The absolute maximum of values (R96, R115). -/
def amax (l : List Word) : Word := l.foldl (fun a b => f32max a (f32abs b)) 0

/-- The record of a conversion: the maxima of the values by unit and of the tensor, with the bytes used (R115). -/
def Tensor.record (t : Tensor) (xs : List Word) (s : Byte × List Byte) : AbsRec :=
  let per := (List.range t.unitsN).map fun u => amax (((List.range t.elems).zip xs).filterMap fun ix => if t.unitOf ix.1 = u then some ix.2 else none)
  { units := per.zip s.2, tensor := amax xs, coarse := s.1 }

/-- The conversions of R121. -/
inductive UseCode where
  | grad
  | weight
  | moment
  | act
  deriving DecidableEq, Repr

/-- The code of a conversion in the Philox key (R67). -/
def UseCode.code : UseCode → Byte
  | .grad => 0x01
  | .weight => 0x02
  | .moment => 0x03
  | .act => 0x04

/-- Does a conversion round stochastically (R121). -/
def UseCode.stochastic (u : UseCode) (priv : Bool) : Bool :=
  match u with
  | .grad => !priv
  | .weight => priv
  | .moment => false
  | .act => false

/-- Convert values of a slice into a format: codes, flags, and the elements whose conversion overflows (R62, R121,
R122). -/
def Tensor.convertAll (t : Tensor) (f : Fmt) (sc : Byte × List Byte) (draw : Nat → Option Word) (xs : List Word) :
    List Nat × NFlags × List Nat :=
  let area := t.scaleArea f sc
  let rs := ((List.range t.elems).zip xs).map fun ix =>
    if f = .b32 then (ix.2.toNat, NFlags.none)
    else convert f (match draw ix.1 with | some r => .draw r | none => .nearest) t.sat (t.expAt area ix.1) ix.2
  (rs.map (·.1), orFlags (rs.map (·.2)), ((List.range t.elems).zip rs).filterMap fun ir => if ir.2.2.ov then some ir.1 else none)

/-- The offset and clean steps of a tensor after a step that completed, or whose overflow raises the offset: a skip for a gradient tensor,
a wider multicast for a weight or delta tensor (R131, R132). A skipped step leaves the clean steps as they are. -/
def AbsTable.offsetStep (a : AbsTable) (raise_ ovf : Bool) : AbsTable :=
  if raise_ then
    if ovf && decide (a.o < 24) then { a with o := a.o + 1, clean := 0 } else a
  else if ovf then { a with clean := 0 }
  else if 0 < a.o then
    if 2048 ≤ a.clean + 1 then { a with o := a.o - 1, clean := 0 } else { a with clean := a.clean + 1 }
  else { a with clean := min 2047 (a.clean + 1) }

end Sys2Proof.Machine
end

