-- ==== Sys2Proof/Machine/Reduce.lean ====
section
/-! DEFINITION. Contexts of a stream engine, the frames they send, and REDUCE: contributions, additions, delivery,
replay, vote, outcome (08 R204, R205, R217 to R226; 03 R87 to R94; 05 R125 to R137). -/

namespace Sys2Proof.Machine

/-! ## Contexts -/

/-- A context of an engine. -/
def State.ctx (p : Port) (id : Nat) (s : State) : Option Ctx := (s.eng p).ctxs.find? fun c => c.id == id
/-- Put a context. -/
def State.setCtx (p : Port) (c : Ctx) (s : State) : State :=
  s.modEng p fun e => { e with ctxs := e.ctxs.map fun x => if x.id = c.id then c else x }

/-- The requester number of an engine in memory fault records (R298, R444). -/
def engineReq (p : Port) : BitVec 16 := BitVec.ofNat 16 (256 + p.toNat)

/-- A read by an engine on behalf of a context; an uncorrectable word ends the impression (R216). -/
def State.pull (p : Port) (c : Ctx) (a n : Nat) (s : State) : Option (List Byte) × State :=
  let r := s.demand a n (engineReq p) c.desc.job
  match r.1.2 with
  | none => (some r.1.1, r.2)
  | some f => (none, r.2.endCtx p { c with injected := c.injected || f.inj } f.code [])

/-- The tensor of a context. -/
def State.ctxTensor (c : Ctx) (s : State) : Tensor := s.tensor c.desc

/-- A write or a data-dependent access that a stream impression may not make: nothing further is written, the event log receives it and
the impression ends (R558). A write into a code region is refused in the same way (R159; log entry 103). -/
def State.accessFault (p : Port) (c : Ctx) (a : Nat) (s : State) : State :=
  (s.log Code.accessFault clsPort (p.setWidth 16) c.desc.job (BitVec.ofNat 32 a)).endCtx p c Code.accessFault []

/-- A write by an engine on behalf of a context; answers whether the impression goes on. A write into a code region is refused (R159), and
a part of an uncorrectable word ends the impression as its read does (R150, R216, R442). -/
def State.put (p : Port) (c : Ctx) (a : Nat) (bs : List Byte) (s : State) : Bool × State :=
  if s.inCode a bs.length then (false, s.accessFault p c a)
  else
    let r := s.storeBy (engineReq p) c.desc.job a bs
    match r.1 with
    | none => (true, r.2)
    | some f => (false, r.2.endCtx p c f.code [])

/-! ## Sending (R207, R230, R284, R350, R351) -/

/-- Bytes filled with 0x00 to a multiple of the 32 bytes in which a frame counts its payload (R351). DESIGN CHOICE (log entry 119): the spec
does not say what the rest of the last unit holds. -/
def pad32 (bs : List Byte) : List Byte := bs ++ List.replicate ((bs.length + 31) / 32 * 32 - bs.length) 0

/-- Cut a payload into frames of at most 4,096 bytes at ascending offsets; the last one carries the tail tag. DESIGN CHOICE (log entry 119):
an empty payload, as of a FILTER that selects nothing, travels as one frame of plen 0 with the tag. -/
def cutFrames (base : Frame) (off : Nat) (tag : Frame → Frame) : Nat → List Byte → List Frame
  | 0, _ => []
  | n + 1, bs =>
    let part := pad32 (bs.take 4096)
    let rest := bs.drop 4096
    let f := { base with plen := BitVec.ofNat 8 (part.length / 32), offset := BitVec.ofNat 32 off, payload := part }
    if rest.isEmpty then [tag f] else f :: cutFrames base (off + 4096) tag n rest

/-- The frames of a payload from a stream impression (R230, R284): STREAM frames of the descriptor's class; with a
signal, every frame carries sig, and the last one the tag where this payload ends the transfer: announced holds its bytes in whole
32-byte units (R278, R351). -/
def streamFrames (c : Ctx) (me : Nat) (fmt : Nat) (detail : DWord) (off : Nat) (signal : Bool) (announced : Option Nat)
    (bs : List Byte) : List Frame :=
  let n : CounterName := c.desc.impr.extractLsb' 16 16
  let base : Frame := { Frame.blank with
    kind := 2, cls := BitVec.ofNat 3 c.desc.cls, fmt := BitVec.ofNat 4 fmt, job := c.desc.job, srcRank := BitVec.ofNat 12 me
    transfer := c.desc.impr.setWidth 16, ident := c.desc.impr, detail := detail, sig := signal
    sigDie := if signal then n.die else 0 }
  let tag : Frame → Frame := fun f => match signal, announced with
    | true, some k => { f with counter := n, inc := 1, announced := BitVec.ofNat 32 ((k + 31) / 32 * 32) }
    | _, _ => f
  cutFrames base off tag (bs.length / 4096 + 1) bs

/-- The address or offset at which a target begins (R207). -/
def STarget.base : STarget → Nat
  | .addr a => a.toNat
  | .rank _ off => off.toNat
  | .group _ off => off.toNat
  | .bad => 0

/-- Can an impression touch a range at all: in one SRAM or stack, outside the reserve, not of a disabled cluster (R558). -/
def State.reaches (a n : Nat) (s : State) : Bool :=
  decide (a < 2 ^ 64) && inSpace (BitVec.ofNat 64 a) n && !inReserve (BitVec.ofNat 64 a) n && !s.absentAt (BitVec.ofNat 64 a)

/-- A write whose length depends on the data: one that leaves its SRAM or stack ends the impression (R558). -/
def State.putWithin (p : Port) (c : Ctx) (a : Nat) (bs : List Byte) (s : State) : Bool × State :=
  if !bs.isEmpty && !s.reaches a bs.length then (false, s.accessFault p c a) else s.put p c a bs

/-- Deliver bytes to a stream target: a write, frames to a rank, or frames to a group (R207, R230, R284); answers whether the impression
goes on. announced holds the bytes that the receiver gets, where these end its transfer. DESIGN CHOICE (log entry 118): bytes for a rank that
the rank list leaves unused, as a PERMUTE table may name one, go nowhere. -/
def State.emit (p : Port) (c : Ctx) (t : STarget) (fmt : Nat) (detail : DWord) (announced : Option Nat) (bs : List Byte) (s : State) :
    Bool × State :=
  let me := (s.ownRank c.desc.job).getD 0
  match t with
  | .addr a => s.putWithin p c a.toNat bs
  | .rank r off =>
    match s.rankEntry c.desc.job r.toNat with
    | some e => (true, (streamFrames c me fmt detail off.toNat (e.kind == 1) announced bs).foldl (fun s f => s.sendJob c.desc.job (f.toRank e)) s)
    | none => (true, s)
  | .group g off =>
    (true, (streamFrames c me fmt detail off.toNat true announced bs).foldl (fun s f => s.sendJob c.desc.job { f with mc := true, group := g }) s)
  | .bad => (true, s)

/-! ## The end of an impression that sends (R214) -/

/-- Is a frame one that a context has sent. -/
def Ctx.sentFrame (c : Ctx) (f : Frame) : Bool := f.kind == 2#4 && f.job == c.desc.job && f.ident == c.desc.impr

/-- Is a copy one that a context of this module has sent. -/
def Ctx.sentCopy (c : Ctx) (q : Queued) : Bool := q.ingress.isNone && c.sentFrame q.f

/-- Have all frames that a context has sent left toward a unit of the module or out of a port (R214). -/
def State.sentAll (c : Ctx) (s : State) : Bool :=
  !(s.fab.selfEgress.any c.sentFrame || s.fab.waiting.any c.sentCopy
    || s.ports.any fun (e : Nat × PortState) => e.2.egress.queues.any fun (q : Nat × List Queued) => q.2.any c.sentCopy)

/-- The frames of a context that have not started are not sent (R557). -/
def State.unsend (c : Ctx) (s : State) : State :=
  if s.sentAll c then s
  else
    { s with
      fab := { s.fab with
        selfEgress := s.fab.selfEgress.filter fun f => !c.sentFrame f, waiting := s.fab.waiting.filter fun q => !c.sentCopy q }
      ports := s.ports.map fun (e : Nat × PortState) => (e.1, { e.2 with egress := { e.2.egress with
        queues := e.2.egress.queues.map fun (q : Nat × List Queued) => (q.1, q.2.filter fun x => !c.sentCopy x) } }) }

/-- An impression whose work is done ends with a code once the last frame of its results has left (R214). -/
def State.endSent (p : Port) (c : Ctx) (code : BitVec 16) (s : State) : State :=
  if s.sentAll c then s.endCtx p c code [] else s.setCtx p { c with phase := .sending, closing := some (code, 0) }

/-! ## The assignment of CONTRIB frames (R204, R219) -/

/-- Is a frame a contribution to a REDUCE of a shard and tensor of a job. -/
def State.sameSum (d : Desc) (f : Frame) (s : State) : Bool :=
  let t := s.tensor d
  d.op == 1 && d.job == f.job && t.id == f.ident && t.shard == f.detail.setWidth 32

/-- The step of a contribution frame (R351). -/
def contribStep (f : Frame) : Word := (f.detail >>> 32).setWidth 32

/-- The active context that takes a contribution: the one of its step, else the one that stages it (R204, R219). -/
def State.contribCtx (p : Port) (f : Frame) (s : State) : Option Ctx :=
  let cs := (s.eng p).ctxs.filter fun c => s.sameSum c.desc f
  (cs.find? fun c => c.desc.step == contribStep f).orElse fun _ => cs.find? fun c => c.desc.step + 1 == contribStep f

/-- The active context of another step that counts a contribution which nothing takes: that of the lowest step (R219; log entry 23). -/
def State.otherCtx (p : Port) (f : Frame) (s : State) : Option Ctx :=
  ((s.eng p).ctxs.filter fun c => s.sameSum c.desc f).foldl (fun acc c => match acc with
    | none => some c
    | some b => if c.desc.step < b.desc.step then some c else acc) none

/-- The number of 128-byte units of a frame. -/
def frameUnits (f : Frame) : List Nat := (List.range (f.payload.length / 128)).map fun i => f.offset.toNat / 128 + i

/-- Does a frame break R218 for a contribution of length n. -/
def breaks218 (n : Nat) (f : Frame) : Bool :=
  f.offset.toNat % 128 != 0 || f.payload.length % 128 != 0 || decide (n < f.offset.toNat + f.payload.length)

/-- The instant of a context's deadline; none where it has none (R221). -/
def Ctx.due (c : Ctx) : Option Nat := if c.desc.deadline = 0 then none else some (c.start + 256 * c.desc.deadline)
/-- Has the deadline of a context passed. -/
def Ctx.expired (now : Nat) (c : Ctx) : Bool :=
  match c.due with
  | some d => decide (d < now)
  | none => false

/-- Where set, slot and log of an ordinal stand, as an offset from slot_base and log_base (R217). -/
def slotOffset (d : Desc) (step : Word) (q : Nat) : Nat := step.toNat % 2 * d.setStride + q * d.slotPitch

/-- The five layout values of R217. -/
def Desc.layout (d : Desc) : List DWord := [d.slotBase, d.logBase, d.w.getD 11 0]

/-- Is the slot set of a parity held (R224): after a REDUCE, or by an active context of another step. -/
def State.setHeld (p : Port) (no : JobNo) (shard tensor step : Word) (s : State) : Bool :=
  (s.eng p).heldSets.any (fun h => h.job == no && h.shard == shard && h.tensor == tensor && h.parity == step.getLsbD 0)
    || (s.eng p).ctxs.any fun c => c.desc.op == 1 && c.desc.job == no && (s.tensor c.desc).shard == shard
      && (s.tensor c.desc).id == tensor && c.desc.step != step && c.desc.step.getLsbD 0 == step.getLsbD 0

/-- Is an injection of a code armed for a job, number and detail at a step (R524). -/
def State.injected (no : JobNo) (code number : BitVec 16) (detail step : Word) (s : State) : Bool :=
  s.armed.any fun i => i.job == no && i.code == code && i.number == number && i.detail == detail && i.step == step

/-- Commit a contribution frame for an ordinal of a step: its bytes go to the slot and to the log (R32, R218); answers whether the
impression goes on. -/
def State.writeContrib (p : Port) (c : Ctx) (step : Word) (q : Nat) (f : Frame) (s : State) : Bool × State :=
  let o := slotOffset c.desc step q + f.offset.toNat
  let r := s.put p c (c.desc.slotBase.toNat + o) f.payload
  if r.1 then r.2.put p c (c.desc.logBase.toNat + o) f.payload else r

/-- A frame of the context's own step is written (R219, last row): its units commit, and the rank may have arrived. -/
def Ctx.take (q : Nat) (f : Frame) (dest : Nat) (c : Ctx) : Ctx :=
  let c1 := { c with units := c.units ++ (frameUnits f).map fun u => (q, u), payloads := insertPayload dest f.payload c.payloads }
  if c1.hasArrived q then { c1 with arrived := c1.arrived + 1, firstArrival := true } else c1

/-- Stage a frame for step s + 1 of a context (R40, R217). A frame that comes again is staged again and counts nowhere (R219, fifth row). -/
def State.stage (p : Port) (c : Ctx) (q : Nat) (f : Frame) (s : State) : State :=
  let step := c.desc.step + 1
  let shard := (s.ctxTensor c).shard
  let tensor := (s.ctxTensor c).id
  let dest := slotOffset c.desc step q + f.offset.toNat
  let old := (s.eng p).staged.find? fun x => x.job == c.desc.job && x.shard == shard && x.tensor == tensor && x.step == step
  let base : StagedSet := old.getD ⟨c.desc.job, shard, tensor, step, c.mask, c.desc.layout, [], []⟩
  let r := s.writeContrib p c step q f
  let new := { base with
    units := base.units ++ ((frameUnits f).map fun u => (q, u)).filter fun x => !base.units.contains x
    payloads := insertPayload dest f.payload (base.payloads.filter fun x => x.1 != dest) }
  if r.1 then r.2.modEng p fun e => { e with staged := (e.staged.filter fun x => x != base) ++ [new] } else r.2

/-! ## Elements, norms and stages (R88 to R94, R125) -/

/-- One element of the running sum, its flags, and the stages of R125 that it meets. -/
def addElem (first : Bool) (acc : Word) (x : Word × NFlags) : Word × NFlags × Nat :=
  let dec := if x.1.toNat % 2 ^ 31 = 0x7F800000 then 1 else 0
  if first then (x.1, x.2, dec)
  else
    let r := f32add acc x.1
    (r.1, x.2.or r.2, dec + (if r.2.ov then 2 else 0))

/-- The sum of squares of R93. -/
def sumSquares (xs : List Word) : Word × NFlags :=
  xs.foldl (fun q x => let r := f32fma x x q.1; (r.1, q.2.or r.2)) (0, NFlags.none)

/-- The binary32 values in bytes. -/
def words32 (n : Nat) (bs : List Byte) : List Word := (List.range n).map fun i => BitVec.ofNat 32 (leNat ((bs.drop (4 * i)).take 4))
/-- The bytes of binary32 values. -/
def bytes32 (ws : List Word) : List Byte := ws.flatMap fun w => leBytes 4 w.toNat

/-- Merge ascending lists of element numbers. -/
def mergeNats (a b : List Nat) : List Nat := sortBy (fun x y => x ≤ y) (a ++ b).dedup

/-- The bits of a set of stages. -/
def orStages (l : List Nat) : BitVec 4 := BitVec.ofNat 4 (l.foldl (fun a b => a ||| b) 0)

/-- The elements of a list of results whose stages are not 0. -/
def hitElems (st : List Nat) : List Nat := ((List.range st.length).zip st).filterMap fun e => if e.2 = 0 then none else some e.1

/-- Has the sum a NaN (stage nan, R125). -/
def isNan32 (w : Word) : Bool := decide (0x7F800000 < w.toNat % 2 ^ 31)

/-- The nan stage of finished values, and its elements. -/
def nanStage (acc : List Word) : List Nat := acc.map fun w => if isNan32 w then 8 else 0

/-- The decode stage of an element (R125). -/
def decStage (x : Word) : Nat := if x.toNat % 2 ^ 31 = 0x7F800000 then 1 else 0

/-- A context with the contribution of an ordinal decoded: its norm n_r, its flags and its decode stage (R90, R93, R125, R220). -/
def Ctx.decodedUp (q : Nat) (xs : List (Word × NFlags)) (c : Ctx) : Ctx :=
  let nr := sumSquares (xs.map (·.1))
  let fl := orFlags (xs.map (·.2))
  let st := xs.map fun x => decStage x.1
  { c with
    norms := Table.set 0 q nr.1 c.norms, flags := (c.flags.or fl).or nr.2, ofStage := c.ofStage || fl.ov
    stages := c.stages ||| orStages st, aff := mergeNats c.aff (hitElems st) }

/-- A rank has arrived: its contribution is decoded from its slot, and its norm stands (R94, R220); answers whether the impression goes
on. -/
def State.arrive (p : Port) (c : Ctx) (q : Nat) (s : State) : Bool × Ctx × State :=
  let t := s.ctxTensor c
  match Fmt.ofCode t.fmt with
  | none => (true, c, s)
  | some f =>
    let r := s.pull p c (c.desc.slotBase.toNat + slotOffset c.desc c.desc.step q) c.desc.length
    match r.1 with
    | none => (false, c, r.2)
    | some bs => (true, c.decodedUp q (t.decode f bs), r.2)

/-- Several ranks have arrived. -/
def State.arriveAll (p : Port) : List Nat → Ctx → State → Bool × Ctx × State
  | [], c, s => (true, c, s)
  | q :: qs, c, s =>
    let a := s.arrive p c q
    if a.1 then State.arriveAll p qs a.2.1 a.2.2 else a

/-- Does a mapping switch of a job hold back a REDUCE of a step: no REDUCE of the effective step becomes active before the switch barrier
completes, and a contribution to one is stray till then (R263). -/
def State.switchHeld (no : JobNo) (step : Word) (s : State) : Bool :=
  match (s.job no).mapPend with
  | some e => decide (e.1 ≤ step)
  | none => false

/-- The disposition of a frame matched to a REDUCE context (R219, R224, R263). -/
def State.dispose (p : Port) (c : Ctx) (f : Frame) (s : State) : State :=
  let q := c.mask.idxOf f.srcRank.toNat
  let fs := contribStep f
  let shard := (s.ctxTensor c).shard
  if c.expired s.time || s.injected c.desc.job Code.injDropRank (f.srcRank.setWidth 16) shard fs then
    s.setCtx p { c with late := c.late + 1 }
  else if c.mask.length ≤ q || breaks218 c.desc.length f then s.setCtx p { c with stray := c.stray + 1 }
  else if fs < c.desc.step then s.setCtx p { c with late := c.late + 1 }
  else if c.desc.step + 1 < fs ∨ s.switchHeld c.desc.job fs then s.setCtx p { c with stray := c.stray + 1 }
  else if fs = c.desc.step + 1 then
    if s.setHeld p c.desc.job shard (s.ctxTensor c).id fs then s.setCtx p { c with held := c.held ++ [f] }
    else s.stage p c q f
  else if c.phase == .waitReads then s.setCtx p { c with held := c.held ++ [f] }
  else if c.hasArrived q || (frameUnits f).any fun u => c.units.contains (q, u) then s.setCtx p { c with dup := c.dup + 1 }
  else
    let r := s.writeContrib p c fs q f
    let c := c.take q f (slotOffset c.desc fs q + f.offset.toNat)
    if !r.1 then r.2
    else if !c.hasArrived q then r.2.setCtx p c
    else
      let a := r.2.arrive p c q
      if a.1 then a.2.2.setCtx p a.2.1 else a.2.2

/-- Does a frame match a queued descriptor (R204). -/
def State.matchesQueue (p : Port) (f : Frame) (s : State) : Bool :=
  (s.eng p).queue.any fun x =>
    if f.kind = 1 then
      s.sameSum x.desc f && (x.desc.step == contribStep f || x.desc.step + 1 == contribStep f) && !s.switchHeld f.job (contribStep f)
    else x.desc.op != 1 && x.desc.job == f.job && x.desc.impr == f.ident

/-- A contribution frame reaches an engine: its context, else held back for a queued descriptor, else counted (R204, R219). -/
def State.contrib (p : Port) (f : Frame) (s : State) : State :=
  match s.contribCtx p f with
  | some c => s.dispose p c f
  | none =>
    if s.matchesQueue p f then s.modEng p fun e => { e with held := e.held ++ [f] }
    else match s.otherCtx p f with
      | some c => s.dispose p c f
      | none => s.modEng p fun e => { e with stray := e.stray + 1 }

/-! ## Additions (R88 to R94, R220) -/

/-- Read the running sum of a REDUCE (R216, R217). -/
def State.pullSum (p : Port) (c : Ctx) (s : State) : Option (List Word) × State :=
  let n := (s.ctxTensor c).elems
  let r := s.pull p c c.desc.accBase.toNat (4 * n)
  (r.1.map (words32 n), r.2)

/-- S1 of the norms so far (R93). -/
def sumNorms (l : List Word) : Word × NFlags := l.foldl (fun a n => let r := f32add a.1 n; (r.1, a.2.or r.2)) ((0 : Word), NFlags.none)

/-- A context once its sum stands: S1, S2, the count and the nan stage (R93, R125, R220). -/
def Ctx.summedUp (acc : List Word) (c : Ctx) : Ctx :=
  let s1 := sumNorms ((List.range c.mask.length).map fun q => Table.get 0 q c.norms)
  let s2 := sumSquares acc
  let ns := nanStage acc
  { c with
    s1 := s1.1, s2 := s2.1, count := c.mask.length, flags := (c.flags.or s1.2).or s2.2
    stages := c.stages ||| orStages ns, aff := mergeNats c.aff (hitElems ns) }

/-- A context after one ordinal has been added: the flags and stages of its additions (R90, R125). -/
def Ctx.addedUp (es : List (Word × NFlags × Nat)) (c : Ctx) : Ctx :=
  let fl := orFlags (es.map fun e => e.2.1)
  let st := es.map fun e => e.2.2
  { c with
    flags := c.flags.or fl, ofStage := c.ofStage || fl.ov
    stages := c.stages ||| orStages st, aff := mergeNats c.aff (hitElems st) }

/-- Add the next ordinal of a REDUCE (R88, R89, R93, R220, R223). After the last one the sum stands, with S1, S2 and the
count. -/
def State.reduceAdd (p : Port) (c : Ctx) (s : State) : State :=
  let q := c.added
  if c.desc.op ≠ 1 ∨ c.phase ≠ .collecting ∨ c.mask.length ≤ q ∨ !c.hasArrived q then s
  else
    let t := s.ctxTensor c
    match Fmt.ofCode t.fmt with
    | none => s
    | some f =>
      let r := s.pull p c (c.desc.slotBase.toNat + slotOffset c.desc c.desc.step q) c.desc.length
      match r.1 with
      | none => r.2
      | some bs =>
        let o := if q = 0 then (some (List.replicate t.elems 0), r.2) else r.2.pullSum p c
        match o.1 with
        | none => o.2
        | some old =>
          let xs := t.decode f bs
          let es := (old.zip xs).map fun ax => addElem (q == 0) ax.1 ax.2
          let acc := es.map (·.1)
          let w := o.2.put p c c.desc.accBase.toNat (bytes32 acc)
          let c := { c.addedUp es with added := q + 1 }
          if !w.1 then w.2
          else if q + 1 < c.mask.length then w.2.setCtx p c
          else w.2.setCtx p { c.summedUp acc with phase := .summed }

/-! ## Delivery, replay and vote (R222, R126 to R130) -/

/-- The next wider rung of a format in the ladder of a reduction (R126). -/
def nextRung : Nat → Nat
  | 3 => 5
  | 4 => 5
  | _ => 6

/-- Is a rung above a format in the ladder of the weights (R128). -/
def widerWeight (fmt rung : Nat) : Bool :=
  match fmt with
  | 1 => rung == 5 || rung == 6
  | 3 => rung == 5 || rung == 6
  | 4 => rung == 5 || rung == 6
  | 5 => rung == 6
  | _ => false

/-- The numeric mode that applies to a step of a job (R123, R124). -/
def Job.modeAt (step : Word) (j : Job) : BitVec 4 :=
  j.modePend.foldl (fun m e => if e.1 ≤ step then e.2 else m) j.mode

/-- The Philox word of element i of a delivery; none where it rounds to nearest (R121, R122). -/
def State.drawOf (c : Ctx) (t : Tensor) (s : State) : Nat → Option Word :=
  fun i =>
    if UseCode.grad.stochastic t.priv then
      some (drawWord ((s.plate c.desc.job).map (·.seed) |>.getD 0) (4 * t.base4 + i) t.id c.desc.step (BitVec.ofNat 12 c.desc.ownerRank) UseCode.grad.code)
    else none

/-- Cast the vote of a REDUCE with vote = 1 and wait for its barrier; a generation that is over without it has missed its deadline. With
vote = 0 the outcome stands (R134, R222 step 3, R287, R290). -/
def State.castVote (p : Port) (c : Ctx) (s : State) : State :=
  if c.desc.vote then
    match s.barDef c.desc.job c.desc.voteBarrier with
    | some b =>
      let k := s.bar b.slot.toNat
      let over_ := decide (barVoteGen c.desc.step k < k.gen.toNat)
      let s := s.setCtx p (if over_ then { c with phase := .outcome, outcome := some (1, false) } else { c with phase := .voting })
      s.barVoteOf c.desc.job b c.desc.step c.vote
    | none => s.setCtx p { c with phase := .voting }
  else s.setCtx p { c with phase := .outcome, outcome := some (0, false) }

/-- Is a list of values finite. -/
def allFinite (ws : List Word) : Bool := ws.all fun w => !notFinite w

/-- Read the absmax table of a REDUCE (R209, R216). A record is NONE at the first conversion of a job and at the first one after a PERMUTE
has moved the tensor (R118). -/
def State.pullTable (p : Port) (c : Ctx) (t : Tensor) (s : State) : Option AbsTable × State :=
  let r := s.pull p c t.absmax.toNat t.tableBytes
  (r.1.map fun bs =>
    let a := AbsTable.ofBytes t.unitsN bs
    { a with valid := a.valid && (s.job c.desc.job).scaled.contains t.id }, r.2)

/-- Write the absmax table of a tensor that has been converted (R115, R118). -/
def State.putTable (p : Port) (c : Ctx) (t : Tensor) (a : AbsTable) (s : State) : Bool × State :=
  (s.modJob c.desc.job fun j => { j with scaled := if j.scaled.contains t.id then j.scaled else j.scaled ++ [t.id] }).put p c t.absmax.toNat a.bytes

/-- A table with the record of a conversion (R115). -/
def AbsTable.recorded (absr : AbsRec) (a : AbsTable) : AbsTable :=
  { a with valid := true, tensor := absr.tensor, coarse := absr.coarse, units := absr.units }

/-- The elements of a finite value among some elements: the conversion stage is that of a finite sum (R125). -/
def finiteOf (acc : List Word) (l : List Nat) : List Nat := l.filter fun i => !notFinite (acc.getD i 0)

/-- A context after a conversion of its sum (R125): its flags, and the conversion stage with its elements. -/
def Ctx.converted (acc : List Word) (cv : List Nat × NFlags × List Nat) (c : Ctx) : Ctx :=
  let hit := finiteOf acc cv.2.2
  { c with
    flags := c.flags.or cv.2.1, ofStage := c.ofStage || cv.2.1.ov
    stages := c.stages ||| (if hit.isEmpty then 0 else 4), aff := mergeNats c.aff hit }

/-- The first delivery of a finished sum (R222 step 1, R125): scales, conversion, the new record, and which response
follows: a replay, or the vote. -/
def State.deliver (p : Port) (c : Ctx) (s : State) : State :=
  let t := s.ctxTensor c
  let r := s.pullTable p c t
  match r.1, Fmt.ofCode t.deliv with
  | some tab, some f =>
    let a := r.2.pullSum p c
    match a.1 with
    | none => a.2
    | some acc =>
      let s := a.2
      let inj := s.armed.find? fun i => i.job == c.desc.job && i.code == Code.injOverflow && i.detail == t.id
      let forced : BitVec 4 := match inj with | some i => i.number.setWidth 4 | none => 0
      let s := { s with armed := match inj with | some i => s.armed.erase i | none => s.armed }
      let sc := t.recipe f tab
      let c := c.converted acc (t.convertAll f sc (s.drawOf c t) acc)
      let absr := t.record acc sc
      let c : Ctx := { c with
        flags := c.flags.or (if forced = 0 then NFlags.none else .onlyOf), stages := c.stages ||| forced
        ofStage := c.ofStage || forced != 0, injected := c.injected || forced != 0
        rung := BitVec.ofNat 4 t.deliv, absrec := some absr }
      let w := s.putTable p c t (tab.recorded absr)
      if !w.1 then w.2
      else if ((s.job c.desc.job).modeAt c.desc.step == (0 : BitVec 4)) || !c.desc.vote then
        if c.stages &&& 0xB ≠ 0 ∨ !allFinite acc then w.2.setCtx p { c with phase := .replay, rung := 6 }
        else if c.stages &&& 4 ≠ 0 then w.2.setCtx p { c with phase := .replay, rung := BitVec.ofNat 4 (nextRung t.deliv) }
        else w.2.castVote p c
      else w.2.castVote p { c with vote := c.ofStage || acc.any isNan32 }
  | some _, none => r.2
  | none, _ => r.2

/-- The sum repeated from the contribution log, with its norms, flags and stages (R72, R87, R88, R90, R94, R126). -/
def State.resum (p : Port) (t : Tensor) (f : Fmt) : List Nat → List Word → Ctx → State → Option (List Word × Ctx) × State
  | [], acc, c, s => (some (acc, c), s)
  | q :: qs, acc, c, s =>
    let r := s.pull p c (c.desc.logBase.toNat + slotOffset c.desc c.desc.step q) c.desc.length
    match r.1 with
    | none => (none, r.2)
    | some bs =>
      let xs := t.decode f bs
      let es := (acc.zip xs).map fun ax => addElem (q == 0) ax.1 ax.2
      State.resum p t f qs (es.map (·.1)) ((c.decodedUp q xs).addedUp es) r.2

/-- The event of a sum that a replay shows to have been corrupted in SRAM (R127). -/
def State.corrupted (c : Ctx) (acc : List Word) (s : State) : State :=
  let low := (((List.range acc.length).zip acc).find? fun e => notFinite e.2).elim (c.aff.headD 0) (·.1)
  match DWord.loc c.desc.accBase with
  | .sram k o =>
    (s.append { s.event Code.sramUncorrectable clsCluster (k.setWidth 16) c.desc.job (BitVec.ofNat 32 (o + 4 * low)) with
      injected := c.injected }).trigger
  | _ => s

/-- The scales of the first delivery, kept in the record (R126). -/
def AbsRec.scales (a : AbsRec) : Byte × List Byte := (a.coarse, a.units.map (·.2))

/-- A sum that a replay has repeated and that stands finite is delivered at a rung with the scales of the first delivery, unless it
overflows there: then the next rung follows (R126, R127). -/
def State.deliverAt (p : Port) (c : Ctx) (t : Tensor) (acc : List Word) (absr : AbsRec) (rung : Nat) (s : State) : State :=
  match Fmt.ofCode rung with
  | some f =>
    let cv := t.convertAll f absr.scales (s.drawOf c t) acc
    let c := c.converted acc cv
    if (finiteOf acc cv.2.2).isEmpty then s.castVote p { c with rung := BitVec.ofNat 4 rung }
    else s.setCtx p { c with rung := BitVec.ofNat 4 (nextRung rung) }
  | none => s

/-- A sum that was not finite has been repeated at the binary32 rung (R127): its record takes the place of that of the first sum (R115);
it is lost, or it stands and the first one was corrupted. -/
def State.confirm (p : Port) (c : Ctx) (t : Tensor) (first acc : List Word) (absr : AbsRec) (s : State) : State :=
  let conf := t.record acc absr.scales
  let c := { c with absrec := some conf }
  let r := s.pullTable p c t
  match r.1 with
  | none => r.2
  | some tab =>
    let w := r.2.putTable p c t (tab.recorded conf)
    if !w.1 then w.2
    else if allFinite acc then (w.2.corrupted c first).deliverAt p c t acc conf t.deliv
    else w.2.castVote p { c with vote := true, result := 0, rung := 6 }

/-- A replay from the log (R94, R126, R127): at the binary32 rung it confirms a sum that was not finite; at a wider rung it
converts with the scales of the first delivery. S1, S2 and the count are those of the repeated sum. -/
def State.replay (p : Port) (c : Ctx) (s : State) : State :=
  if c.phase ≠ .replay then s
  else
    let t := s.ctxTensor c
    match Fmt.ofCode t.fmt, c.absrec with
    | some f, some absr =>
      let a := s.pullSum p c
      match a.1 with
      | none => a.2
      | some first =>
        let r := State.resum p t f (List.range c.mask.length) (List.replicate t.elems 0) { c with norms := [] } a.2
        match r.1 with
        | none => r.2
        | some x =>
          let acc := x.1
          let confirming := c.stages &&& 0xB != 0 || !allFinite first
          let c := { x.2.summedUp acc with replays := c.replays + 1 }
          let w := r.2.put p c c.desc.accBase.toNat (bytes32 acc)
          if !w.1 then w.2
          else if confirming && c.rung == 6 && c.replays == 1 then w.2.confirm p c t first acc absr
          else w.2.deliverAt p c t acc absr c.rung.toNat
    | _, _ => s

/-! ## The outcome (R222 steps 4 to 6, R131, R134, R136, R137) -/

/-- Is a sum not finite after its confirmation (R127). -/
def Ctx.sumLost (acc : List Word) (c : Ctx) : Bool := c.replays != 0 && c.rung == 6 && c.stages &&& 0xB != 0 && !allFinite acc

/-- The 32-byte statistics record (R137). -/
def statsRecord (c : Ctx) (t : Tensor) (skipped : Bool) : List Byte :=
  leBytes 4 c.desc.step.toNat ++ leBytes 4 t.id.toNat ++ leBytes 4 c.s1.toNat ++ leBytes 4 c.s2.toNat ++ leBytes 4 c.count
  ++ leBytes 4 (b2n (c.replays != 0) + 2 * b2n skipped) ++ leBytes 4 t.shard.toNat ++ leBytes 4 0

/-- Write the statistics record into its ring (R137, R222 step 4); the entry holds the newest record of the ring (R462).
Answers whether the impression goes on. -/
def State.writeStats (p : Port) (c : Ctx) (t : Tensor) (skipped : Bool) (s : State) : Bool × State :=
  if c.desc.statsEntries = 0 then (true, s)
  else
    let job := c.desc.job.toNat
    let ring := c.desc.statsRing.toNat
    let w := Table.get 0 job (s.eng p).statsW
    let k := w % c.desc.statsEntries
    let s := s.modEng p fun e => { e with statsW := Table.set 0 job (w + 1) e.statsW }
    let s := s.modDie p.die fun d => { d with
      statRings := Table.set [] ring (((Table.get [] ring d.statRings).filter fun (x : Nat × Nat) => x.2 != k) ++ [(job, k)]) d.statRings }
    s.put p c (c.desc.statsRing.toNat + 32 * (w % c.desc.statsEntries)) (statsRecord c t skipped)

/-- Append to the overflow event log of a job: the latest 4,096 events, and the count of all (R136, R462). -/
def State.logOverflow (e : OvEvent) (s : State) : State :=
  s.modJob e.job fun j => { j with ovLog := pushRing 4096 e j.ovLog, ovN := j.ovN + 1 }

/-- The overflow event of a REDUCE that met a stage (R136). -/
def ovEvent (c : Ctx) (t : Tensor) (mode : BitVec 4) (action toF : BitVec 4) (o : Int) (limit : Bool) (now : Nat) : OvEvent where
  step := c.desc.step
  tensor := t.id
  mode := mode
  kind := BitVec.ofNat 4 t.kind
  job := c.desc.job
  injected := c.injected
  limit := limit
  offset := BitVec.ofInt 8 o
  action := action
  toFmt := toF
  fromFmt := BitVec.ofNat 4 t.deliv
  stages := c.stages
  time := now
  firstRow := (c.aff.headD 0) / max t.rowLen 1
  elements := min c.aff.length 0xFFFFFFFF

/-- The ranks that an outcome record of a barrier names as missing, as the engine reads them; none where a word cannot be read (R134, R216,
R290). -/
def State.missingVotes (p : Port) (c : Ctx) (s : State) : Option (List Nat) × State :=
  match s.barDef c.desc.job c.desc.voteBarrier with
  | some b =>
    let r := s.pull p c (b.outcome.toNat + 32) 512
    (r.1.map maskRanks, r.2)
  | none => (some [], s)

/-- How a REDUCE ends once its outcome stands (R127, R130, R134, R290): the code and the action of its overflow event (R136). A confirmed sum
that is still not finite ends it with SUM_NOT_FINITE even where its barrier completes with a skip vote, which R213 names SKIPPED:
DESIGN CHOICE (log entry 117), R127 knows no exception. -/
def reduceEnd (status : Byte) (vote lost : Bool) : BitVec 16 × BitVec 4 :=
  if status = 1 then (Code.deadlineMissed, 5) else if lost then (Code.sumNotFinite, 4) else if vote then (Code.skipped, 3) else (Code.ok, 1)

/-- Has the barrier of a REDUCE completed with a skip vote (R130). -/
def Ctx.skipped (c : Ctx) : Bool := match c.outcome with | some (status, vote) => status == 0 && vote | none => false

/-- Write the delivered sum to its target at the final rung, and sign it (R222 step 5, R326); answers whether the impression goes on. -/
def State.deliverSum (p : Port) (c : Ctx) (t : Tensor) (acc : List Word) (s : State) : Bool × Ctx × State :=
  match Fmt.ofCode c.rung.toNat, c.absrec with
  | some f, some absr =>
    let cv := t.convertAll f absr.scales (s.drawOf c t) acc
    let bs := t.assemble f cv.1 (t.scaleArea f absr.scales)
    let w := s.emit p c (DWord.target c.desc.dest) c.rung.toNat (c.desc.step.setWidth 64) (some bs.length) bs
    let r := w.2.signOut p { c with result := bs.length } (STarget.base (DWord.target c.desc.dest)) bs
    if w.1 then (true, r) else (false, c, w.2)
  | _, _ => (true, c, s)

/-- The table of a REDUCE's tensor after its step (R131): a completed step counts for every tensor, and a skip raises the offset of a
gradient tensor that overflowed. -/
def AbsTable.afterReduce (kind : Nat) (code : BitVec 16) (skip ovf : Bool) (a : AbsTable) : AbsTable :=
  if code = Code.ok then a.offsetStep false ovf
  else if skip && kind == 3 then a.offsetStep true ovf
  else a

/-- The overflow event of a REDUCE, where it met a stage and its overflow was handled: replayed, skipped, lost or withheld (R126 to R134,
R136). -/
def State.noteOverflow (c : Ctx) (t : Tensor) (e : BitVec 16 × BitVec 4) (old new : AbsTable) (s : State) : State :=
  if c.stages == 0#4 || (e.1 == Code.ok && c.replays == 0) then s
  else
    let toF : BitVec 4 := if e.1 = Code.ok then c.rung else if e.1 = Code.sumNotFinite then 6 else BitVec.ofNat 4 t.deliv
    s.logOverflow (ovEvent c t ((s.job c.desc.job).modeAt c.desc.step) e.2 toF new.o (decide (24 ≤ old.o)) s.time)

/-- The last part of a REDUCE: the offset, the overflow event, the status record and done_inc (R131, R136, R222 step 6). -/
def State.closeReduce (p : Port) (c : Ctx) (t : Tensor) (e : BitVec 16 × BitVec 4) (s : State) : State :=
  let r := s.pullTable p c t
  match r.1 with
  | none => r.2
  | some tab =>
    let new := tab.afterReduce t.kind e.1 c.skipped c.ofStage
    let w := r.2.putTable p c t new
    if !w.1 then w.2
    else
      let late := e.1 == Code.deadlineMissed
      let m := if late then w.2.missingVotes p c else (some [], w.2)
      match m.1 with
      | none => m.2
      | some missing =>
        let s := m.2.noteOverflow c t e tab new
        let c := if late then { c with aux0 := missing.length, aux1 := missing.headD 0xFFFFFFFF } else c
        let s := s.endCtx p c e.1 missing
        if c.skipped then s.freeStep c.desc.job t.shard c.desc.step else s

/-- A context whose results have been handed over ends, where the last frame of them has left (R214, R222 step 6). -/
def State.closeSent (p : Port) (c : Ctx) (s : State) : State :=
  match c.closing with
  | none => s
  | some e =>
    if !s.sentAll c then s
    else if c.desc.op = 1 then s.closeReduce p { c with closing := none } (s.ctxTensor c) e
    else s.endCtx p { c with closing := none } e.1 []

/-- Finish a REDUCE whose outcome stands (R222 steps 4 to 6). A NaN in its sum counts as an overflow of its tensor (R131). -/
def State.finishReduce (p : Port) (c : Ctx) (s : State) : State :=
  match c.outcome with
  | none => s
  | some (status, vote) =>
    if status = 2 then s.endCtx p c Code.aborted []
    else
      let t := s.ctxTensor c
      let a := s.pullSum p c
      match a.1 with
      | none => a.2
      | some acc =>
        let e := reduceEnd status vote (c.sumLost acc)
        let w := a.2.writeStats p c t (vote || status != 0)
        if !w.1 then w.2
        else
          let c := { c with ofStage := c.ofStage || acc.any isNan32 }
          let d := if e.1 = Code.ok then w.2.deliverSum p c t acc else (true, c, w.2)
          if !d.1 then d.2.2
          else if d.2.2.sentAll d.2.1 then d.2.2.closeReduce p d.2.1 t e
          else d.2.2.setCtx p { d.2.1 with phase := .sending, closing := some e }

/-- A deadline with ranks missing ends a collecting impression (R221, R232, R235). -/
def State.missDeadline (p : Port) (c : Ctx) (missing : List Nat) (s : State) : State :=
  let shard := (s.ctxTensor c).shard
  let dropped := missing.any fun r => s.injected c.desc.job Code.injDropRank (BitVec.ofNat 16 r) shard c.desc.step
  (s.unsend c).endCtx p { c with aux0 := missing.length, aux1 := missing.headD 0, injected := c.injected || dropped }
    Code.deadlineMissed missing

end Sys2Proof.Machine
end

