-- ==== Sys2Proof/Machine/Routing.lean ====
section
/-! DEFINITION. Routes over the fabric map, delivery at the destination, multicast copies, and the egress queues with
their policers, drops and marks (14 R367 to R388; 15 R394, R405 to R409). -/

namespace Sys2Proof.Machine

/-! ## Trunks (R367, R368, R372) -/

/-- The role of a port (R367). -/
def State.role (p : Port) (s : State) : BitVec 4 := (s.port p).role

/-- Is a port an active member of its trunk (R368). -/
def State.memberUp (p : Port) (s : State) : Bool := s.hasPort p && (s.port p).isUp && (s.port p).neighbourOk

/-- The active members of a ring or mirror role's trunk, in ascending port order. -/
def State.trunk (r : BitVec 4) (s : State) : List Port :=
  allPorts.filter fun p => (s.port p).role == r && s.memberUp p

/-- The active members of the trunk to which a port belongs: an endpoint port is a trunk of its own (R368). -/
def State.trunkOf (p : Port) (s : State) : List Port :=
  if s.role p = 1 then (if s.memberUp p then [p] else []) else s.trunk (s.role p)

/-- The number that chooses the trunk member of a unicast frame (R372). -/
def flowNumber (f : Frame) : Nat := f.srcRank.toNat + f.transfer.toNat + f.offset.toNat / 4096

/-- The trunk member for a number. -/
def State.member (r : BitVec 4) (k : Nat) (s : State) : Option Port :=
  let t := s.trunk r
  t[k % max 1 t.length]?

/-! ## Destinations (R375 to R378) -/

/-- Does an engine hold a descriptor that the steering index lists for an impression: queued or active GATHER collect,
SHIFT or PERMUTE (R377). -/
def Engine.steers (no : JobNo) (ident : Word) (e : Engine) : Bool :=
  let mine := fun (d : Desc) => d.job == no && d.impr == ident && ((d.op == 2 && d.word 8 % 2 == 0) || d.op == 3 || d.op == 4)
  e.queue.any (fun (q : QEntry) => mine q.desc) || e.ctxs.any fun (c : Ctx) => mine c.desc

/-- The engine that the steering index names. -/
def State.steering (no : JobNo) (ident : Word) (s : State) : Option Port :=
  (s.engines.find? fun (e : Nat × Engine) => e.2.steers no ident).map fun e => BitVec.ofNat 6 e.1

/-- The reducing engine of a shard that this module owns under the job's mapping in force (R251, R376). -/
def State.shardEngine (no : JobNo) (shard : Word) (s : State) : Option Port :=
  match s.mappingOf no with
  | some m => (m.shards.find? fun (e : ShardEntry) => e.shard == shard && some e.owner == s.ownRank no).map fun e =>
      BitVec.ofNat 6 (2 * e.region.toNat + b2n e.engine)
  | none => none

/-- The unit that takes a SIGNAL or BARRIER frame (R376). -/
def State.barUnit (f : Frame) (s : State) : LocalUnit :=
  match s.barDef f.job (f.ident.toNat % 64) with
  | some b => .die b.done.die
  | none => .hub

/-- The window of a number. -/
def State.window (n : BitVec 12) (s : State) : Option Window := s.windows.find? fun w => w.number == n

/-- The target of a frame with dst_port 0x3F at its destination (R376, R416). A request to no window goes to die 0
(log entry 29). -/
def State.localDest (f : Frame) (s : State) : Dest :=
  match f.kind.toNat with
  | 1 => match s.shardEngine f.job (f.detail.setWidth 32) with | some p => .unit (.engine p) | none => .noTarget
  | 2 => match s.steering f.job f.ident with | some p => .unit (.engine p) | none => .steer
  | 3 => match s.shardEngine f.job ((f.detail >>> 32).setWidth 32) with | some p => .unit (.engine p) | none => .noTarget
  | 4 => .unit (.die f.counter.die)
  | 5 => .unit (s.barUnit f)
  | 6 => match s.window (f.detail.setWidth 12) with
    | some w => match DWord.loc w.base with | .dram k _ => .unit (.mem (BitVec.ofNat 2 (k.toNat / 8))) | _ => .unit (.mem 0)
    | none => .unit (.mem 0)
  | 7 => .unit (.die (f.ident.extractLsb' 30 2))
  | 8 => .unit .pair
  | _ => .unit .hub

/-- Did a frame come in on a mirror port. -/
def State.onMirror (src : Option Port) (s : State) : Bool := match src with | some p => s.role p == 6#4 | none => false

/-- The way of a frame to another module over the rings (R371, R372). -/
def State.ringRoute (f : Frame) (s : State) : Dest :=
  match s.fab.map with
  | none => .noRoute true
  | some m =>
    match m.nextDir s.fab.module.toNat f.dstModule.toNat (!f.offset.getLsbD 12) with
    | .ring r => match s.member r (flowNumber f) with | some p => .port p | none => .noRoute true
    | _ => .noRoute true

/-- The way of a frame to the pair partner: the mirror trunk, or without an active member there the ring route (R375). -/
def State.pairRoute (f : Frame) (s : State) : Dest :=
  match s.member 6 (flowNumber f) with
  | some p => .port p
  | none => s.ringRoute f

/-- The destination of a unicast frame from an ingress port, or from a unit of the module (R371, R372, R375, R376). A
frame on a mirror port that names a port is a forwarded frame of proof mode, and so is one of the job of a twin on any port (R324; log
entry 30). -/
def State.unicast (src : Option Port) (f : Frame) (s : State) : Dest :=
  let me := s.fab.module
  let mirror := s.onMirror src
  if f.dstModule = me then
    if f.dstPort ≠ 0x3F ∧ src.isSome ∧ (s.job f.job).proofRole = 2 then .unit .pair
    else if mirror then (if f.dstPort = 0x3F then s.localDest f else .unit .pair)
    else if f.dstPort = 0x3F then s.localDest f
    else if s.hasPort f.dstPort && s.role f.dstPort == 1#4 then .port f.dstPort else .noRoute false
  else if mirror then .noRoute false
  else
    if src.isNone && f.kind == 8#4 && s.partner == some f.dstModule then s.pairRoute f else s.ringRoute f

/-- The module of a rank-list entry (R247). -/
def State.rankModule (no : JobNo) (r : Nat) (s : State) : Option Nat := (s.rankEntry no r).map fun e => e.module.toNat

/-- The copies of a multicast frame that this module sends (R378, R379; log entry 116 for a trunk without members). -/
def State.mcDests (f : Frame) (s : State) : List Dest :=
  match s.mappingOf f.job, s.fab.map with
  | some mp, some fm =>
    let members := mp.groups.getD f.group.toNat []
    let me := s.fab.module.toNat
    let ends := members.filterMap fun r => (s.rankEntry f.job r).bind fun e =>
      if e.kind = 1 ∧ e.module.toNat = me ∧ s.role e.port = 1 then some (Dest.port e.port) else none
    let own := if (members.any fun r => s.ownRank f.job == some r) then [Dest.unit .window] else []
    let src := (s.rankModule f.job f.srcRank.toNat).getD me
    let far := (members.filterMap fun r => s.rankModule f.job r).filter fun d =>
      d != me && fm.passes d me (fm.nx + fm.ny) src
    let ring := ([2, 3, 4, 5] : List (BitVec 4)).filterMap fun r =>
      if far.any fun d => fm.nextDir me d true == .ring r then
        some (match s.member r (f.group.toNat + f.transfer.toNat + f.offset.toNat / 4096) with
          | some p => Dest.port p
          | none => Dest.noRoute true)
      else none
    ends ++ own ++ ring
  | _, _ => [.noRoute false]

/-- Every destination of a frame; on a mirror port the destination module alone decides (R375). -/
def State.dests (src : Option Port) (f : Frame) (s : State) : List Dest :=
  if f.mc && !s.onMirror src then s.mcDests f else [s.unicast src f]

/-! ## Buffers of an ingress (R360, R380) -/

/-- Does a copy of frame uid still stand in the module: in a queue, or with a unit that has not taken it or holds it back (R40, R204,
R282). -/
def State.stands (uid : Nat) (s : State) : Bool :=
  s.ports.any (fun (e : Nat × PortState) =>
    e.2.lookups.any (fun (l : Lookup) => l.uid == uid)
      || e.2.egress.queues.any (fun (q : Nat × List Queued) => q.2.any fun (x : Queued) => x.uid == uid)
      || (match e.2.egress.sending with | some q => q.uid == uid | none => false))
    || s.fab.waiting.any (fun (q : Queued) => q.uid == uid) || s.fab.heldStream.any (fun (q : Queued) => q.uid == uid)
    || s.fab.inbox.any (fun (e : LocalUnit × Queued) => e.2.uid == uid) || s.fab.unitHeld.any fun (q : Queued) => q.uid == uid

/-- Free the units of a received frame at its ingress once it has arrived and no copy of it stands in the module; a frame
of an earlier link frees nothing. -/
def State.release (q : Queued) (s : State) : State :=
  match q.ingress with
  | some p =>
    if s.stands q.uid ∨ (s.port p).rxUid = some q.uid ∨ q.uid < (s.port p).rxBase then s
    else
      let c := q.f.cls.toNat
      s.modPort p fun x => { x with freed := Table.set 0 c (Table.get 0 c x.freed + BitVec.ofNat 16 (unitCount q.f)) x.freed }
  | none => s

/-! ## The age limit (R388, R392) -/

/-- The age limit of a class in ns; C0 and C1 frames are never aged (R388). -/
def Fabric.ageLimit (c : Nat) (b : Fabric) : Option Nat :=
  match c with
  | 2 => some (1000 * b.ageC2.toNat)
  | 3 => some (1000 * b.ageC3.toNat)
  | 4 => some (1000 * b.ageC4.toNat)
  | _ => none

/-! ## Before a frame is appended (R385, R394, R405 to R409) -/

/-- The colour of a frame of a cost at an instant, 0 green, 1 yellow, 2 red (R405). -/
def Policer.colour (now cost : Nat) (p : Policer) : Nat × Policer :=
  let p := p.fill now
  if p.pir = 0 then (0, p)
  else if p.tp < 1000 * cost then (2, p)
  else if p.tc < 1000 * cost then (1, { p with tp := p.tp - 1000 * cost })
  else (0, { p with tp := p.tp - 1000 * cost, tc := p.tc - 1000 * cost })

/-- xorshift32 (R408). -/
def xorshift (x : Word) : Word :=
  let x := x ^^^ (x <<< 13)
  let x := x ^^^ (x >>> 17)
  x ^^^ (x <<< 5)

/-- The average of a queue after one more frame, with 8 fraction bits, rounded down (R408; log entry 79). -/
def redAverage (avg depth wexp : Nat) : Nat :=
  ((avg : Int) + ((256 * depth : Int) - avg) / (2 ^ wexp : Nat)).toNat

/-- Random early drop at a queue of class c (2 or 3) for a frame of a colour: whether it is dropped (R408). The
generator's first state is its seed. -/
def Egress.redDrop (port : Port) (c colour : Nat) (e : Egress) : Bool × Egress :=
  let avg := redAverage (Table.get 0 c e.avg) (queueUnits (e.queue c)) (if c = 2 then e.wexp.toNat % 16 else e.wexp.toNat / 16)
  let e := { e with avg := Table.set 0 c avg e.avg }
  let r := Table.get RedProf.reset (3 * (c - 2) + colour) e.red
  if !r.en || decide (avg < 256 * r.minTh.toNat) then (false, e)
  else if 256 * r.maxTh.toNat ≤ avg then (true, e)
  else
    let g := Table.get 0 c e.gen
    let x := xorshift (if g = 0 then BitVec.ofNat 32 (0x5EED0000 + 8 * port.toNat + c) else g)
    let p16 := r.maxP.toNat * (avg - 256 * r.minTh.toNat) / (256 * (r.maxTh.toNat - r.minTh.toNat))
    (decide ((x >>> 16).toNat < p16), { e with gen := Table.set 0 c x e.gen })

/-- The marking threshold of a class (R385, R392). -/
def Fabric.threshold (c : Nat) (b : Fabric) : Nat := if c = 2 then b.ecnThresh.toNat % 65536 else b.ecnThresh.toNat / 65536

/-- Is a copy a whole signal-only C1 frame that nothing has left of (R278, R285, R351). -/
def Queued.signalOnly (q : Queued) : Bool :=
  q.f.kind == 4#4 && q.f.cls == 1#3 && q.whole && !q.again && q.f.inc != 0#16 && q.f.announced == 0#32 && !q.f.echo && !q.f.mc && q.f.payload.isEmpty

/-- Do two copies merge: signal-only frames of one job for one counter of one destination, whose sum fits (R285; log entry 87). -/
def Queued.merges (x q : Queued) : Bool :=
  x.signalOnly && q.signalOnly && x.f.job == q.f.job && x.f.dstModule == q.f.dstModule && x.f.dstPort == q.f.dstPort
    && x.f.counter == q.f.counter && decide (x.f.inc.toNat + q.f.inc.toNat < 65536)

/-- The frame of two that merge: the earlier one with the sum of both (R285). -/
def Queued.merged (x q : Queued) : Queued := { x with f := ({ x.f with inc := x.f.inc + q.f.inc } : Frame).sealCrc }

/-- Put a copy into a queue: into the first copy that it merges with, else at the end. -/
def mergeInto (q : Queued) : List Queued → List Queued
  | [] => [q]
  | x :: t => if x.merges q then x.merged q :: t else x :: mergeInto q t

/-- Merge the signal-only frames of the C1 queue of an egress, and count the merges on its die (R285). -/
def State.mergePort (p : Port) (s : State) : State :=
  let l := (s.port p).egress.queue 1
  let m := l.foldl (fun acc q => mergeInto q acc) []
  if m.length = l.length then s
  else (s.modPort p fun x => { x with egress := x.egress.setQueue 1 m }).modDie p.die fun d => { d with
    sigCombined := sat32 d.sigCombined (l.length - m.length) }

/-- Append a frame to its class queue under the age limit that holds, and mark it where the queue then holds more units than the threshold
(R385, R392); signal-only frames merge (R285). -/
def State.appendQ (p : Port) (q : Queued) (s : State) : State :=
  let c := q.f.cls.toNat
  let e := (s.port p).egress
  let mark := (c == 2 || c == 3) && !q.f.ecn && decide (s.fab.threshold c < queueUnits (e.queue c) + unitCount q.f)
  let q := if mark then { q with f := { q.f with ecn := true } } else q
  let q := { q with limit := s.fab.ageLimit c }
  let s := if mark then s.modFab fun b => { b with ecnMarked := b.ecnMarked + 1 } else s
  let s := s.modPort p fun x => { x with egress := x.egress.setQueue c (x.egress.queue c ++ [q]) }
  if q.signalOnly then s.mergePort p else s

/-- A frame reaches an egress: the policer colours it, red C4 frames and early drops are discarded, the rest is appended
(R394). On a mirror port the policers and profiles of C3 do not act on MODULE frames (R507). -/
def State.reachQ (p : Port) (q : Queued) (s : State) : State :=
  let c := q.f.cls.toNat
  let x := s.port p
  if c < 2 ∨ 4 < c ∨ (x.role = 6 ∧ q.f.kind = 8) then s.appendQ p q
  else
    let r := (Table.get Policer.reset (c - 2) x.egress.policers).colour s.time (frameCost q.f)
    let k := 3 * (c - 2) + r.1
    let e := { x.egress with
      policers := Table.set Policer.reset (c - 2) r.2 x.egress.policers
      colours := Table.set 0 k (Table.get 0 k x.egress.colours + 1) x.egress.colours }
    if c = 4 then
      if r.1 = 2 then s.setPort p { x with egress := { e with polDrop4 := e.polDrop4 + 1 } }
      else (s.setPort p { x with egress := e }).appendQ p q
    else
      let d := e.redDrop p c r.1
      if d.1 then
        s.setPort p { x with egress := if c = 2 then { d.2 with redDrop2 := d.2.redDrop2 + 1 } else { d.2 with redDrop3 := d.2.redDrop3 + 1 } }
      else (s.setPort p { x with egress := d.2 }).appendQ p q

/-- Does a frame from an ingress enter the ring of an egress role (R383). -/
def entersRing (r : BitVec 4) (inRole : Option (BitVec 4)) : Bool :=
  if r = 2 then inRole != some 3 else if r = 3 then inRole != some 2
  else if r = 4 then inRole != some 5 else if r = 5 then inRole != some 4 else false

/-- Is the placing of a frame on an egress stopped by a drain: a ring or mirror egress, and a frame from an endpoint
port or a unit of the module (R390). -/
def State.stopped (p : Port) (ingress : Option Port) (s : State) : Bool :=
  s.fab.st != .active && decide (2 ≤ (s.role p).toNat) &&
    (match ingress with | some i => s.role i == 1#4 | none => true)

/-- The copy with its age in place of the instant from which it runs, and back again: a wait for admission adds nothing to the age
(R390). -/
def Queued.turned (now : Nat) (q : Queued) : Queued := { q with born := now - q.born }

/-- A copy waits for admission, once for all its egresses (R390). -/
def State.park (q : Queued) (s : State) : State :=
  s.modFab fun b => { b with
    waiting := if b.waiting.any fun (x : Queued) => x.uid == q.uid then b.waiting else b.waiting ++ [q.turned s.time] }

/-- Place one copy on an egress: ttl falls by 1 at a forward (R354, R374). -/
def State.forward (p : Port) (q : Queued) (s : State) : State :=
  if s.stopped p q.ingress then s.park q
  else
    let q := { q with
      f := if q.ingress.isSome then { q.f with ttl := q.f.ttl - 1 } else q.f
      entering := entersRing (s.role p) (q.ingress.map fun i => s.role i) }
    s.reachQ p q

/-! ## Delivery here (R376, R385, R386) -/

/-- The line rate toward a rank: that of the egress by which its frames leave; 125,000 MB/s where no port leads there. -/
def State.lineTo (no : JobNo) (r : Rank) (s : State) : Nat :=
  match (s.rankEntry no r.toNat).map fun e => s.unicast none (Frame.blank.toRank e) with
  | some (.port p) => portRate (laneCount (s.port p).txLanes)
  | _ => 125000

/-- The congestion response with its bucket filled to an instant at the rate that has held since the last time. -/
def EcnRate.fill (line now : Nat) (r : EcnRate) : EcnRate :=
  { r with bucket := fillBucket 8192000 (min r.rate line) r.bucket (now - r.filled), filled := now }

/-- An echo from a rank: the rate halves, at most once in 8 µs. -/
def EcnRate.halve (line now : Nat) (r : EcnRate) : EcnRate :=
  if r.reduced = 0 ∨ r.reduced + 8000 ≤ now then { r with rate := max (min r.rate line / 2) 1000, reduced := now, lastEcho := now, raised := now }
  else { r with lastEcho := now, raised := now }

/-- 20 µs without an echo: the rate rises by 2,500 MB/s; 1 ms without one gives the line rate. -/
def EcnRate.raise (line now : Nat) (r : EcnRate) : EcnRate :=
  if r.lastEcho + 1000000 ≤ now then { r with rate := line, raised := now }
  else if r.raised + 20000 ≤ now then { r with rate := min (r.rate + 2500) line, raised := now }
  else r

/-- Change the congestion response toward a rank. -/
def State.modEcn (no : JobNo) (r : Rank) (g : EcnRate → EcnRate) (s : State) : State :=
  let k := ecnKey no r
  s.modFab fun b => { b with ecn := Table.set EcnRate.reset k (g (Table.get EcnRate.reset k b.ecn)) b.ecn }

/-- An echo from a rank has been received (R387). -/
def State.echoFrom (no : JobNo) (r : Rank) (s : State) : State :=
  (s.modEcn no r fun e => (e.fill (s.lineTo no r) s.time).halve (s.lineTo no r) s.time).modFab fun b => { b with echoRx := b.echoRx + 1 }

/-- Answer a marked C2 or C3 frame with an echo to its rank, unless one has gone to it within 4 µs (R386). -/
def State.echo (f : Frame) (s : State) : State :=
  let k := ecnKey f.job f.srcRank
  let r := Table.get EcnRate.reset k s.fab.ecn
  let recent := match r.echoed with | some t => decide (s.time < t + 4000) | none => false
  if !f.ecn || !(f.cls == 2#3 || f.cls == 3#3) || recent then s
  else
    match s.rankEntry f.job f.srcRank.toNat with
    | some e =>
      let s := s.sendJob f.job ({ Frame.blank with
        kind := 4, cls := 1, echo := true, job := f.job
        srcRank := BitVec.ofNat 12 ((s.ownRank f.job).getD 0) }.toRank e)
      s.modFab fun b => { b with echoTx := b.echoTx + 1, ecn := Table.set EcnRate.reset k { r with echoed := some s.time } b.ecn }
    | none => s

/-- The primary of a pair in proof mode forwards a frame that it commits to an engine, a counter, a pending-signal table or a waiting
command to the twin on the mirror ports, or by the ring route where none is active (R324, R375). Its ingress port stands in dst_port (log entry
30). The copy keeps the number and the ingress of the frame: while it waits for its egress, the frame keeps its units, and so the ingress holds
back (R324). -/
def State.forwardTwin (q : Queued) (f : Frame) (s : State) : State :=
  if (s.job f.job).proofRole = 1 then
    match s.partner with
    | some m =>
      let q := { q with f := { f with dstModule := m, dstPort := q.ingress.getD 0 }.sealCrc, born := s.time, entering := false, whole := true, twin := true }
      match s.pairRoute q.f with
      | .port p => if s.stopped p q.ingress then s.park q else s.reachQ p { q with entering := entersRing (s.role p) (q.ingress.map fun i => s.role i) }
      | _ => s.modFab fun b => { b with noRoute := b.noRoute + 1 }
    | none => s
  else s

/-- The units of a class that wait for a unit of the module. -/
def State.boxUnits (u : LocalUnit) (c : BitVec 3) (s : State) : Nat :=
  s.fab.inbox.foldl (fun n x => if x.1 = u ∧ x.2.f.cls = c then n + unitCount x.2.f else n) 0

/-- A frame joins those that wait for a unit of the module. On the crossbar output of a die two signal-only frames for one counter merge,
and the die counts the merge (R285). -/
def State.intoBox (u : LocalUnit) (q : Queued) (s : State) : State :=
  match u, s.fab.inbox.find? fun (e : LocalUnit × Queued) => e.1 == u && e.2.merges q with
  | .die d, some e =>
    (s.modFab fun b => { b with inbox := b.inbox.map fun x => if x = e then (x.1, x.2.merged q) else x }).modDie d fun x => { x with
      sigCombined := sat32 x.sigCombined 1 }
  | _, _ => s.modFab fun b => { b with inbox := b.inbox ++ [(u, q)] }

/-- The frame that waits for a unit, where it is the first of its source and class: links and crossbars keep the order of the frames of one
source (R18). -/
def State.boxed (u : LocalUnit) (f : Frame) (s : State) : Option Queued :=
  match s.fab.inbox.find? fun (e : LocalUnit × Queued) => e.1 == u && e.2.f.job == f.job && e.2.f.srcRank == f.srcRank && e.2.f.cls == f.cls with
  | some e => if e.2.f = f then some e.2 else none
  | none => none

/-- Does a frame stand behind an earlier one of its source and class (R18). -/
def State.behind (u : LocalUnit) (f : Frame) (s : State) : Bool :=
  s.fab.inbox.any (fun (e : LocalUnit × Queued) => e.1 == u && e.2.f == f) && (s.boxed u f).isNone

/-- A unit takes a frame that the fabric delivered to it: the frame as it waited, and the state without it; its units at the ingress are not
free yet. -/
def State.takeOut (u : LocalUnit) (f : Frame) (s : State) : Option Queued × State :=
  match s.boxed u f with
  | some q => (some q, s.modFab fun b => { b with inbox := b.inbox.erase (u, q) })
  | none => (none, s)

/-- A unit takes a frame that the fabric delivered to it, and the units of the frame at its ingress are free (R360, R376). -/
def State.unbox (u : LocalUnit) (f : Frame) (s : State) : State :=
  let r := s.takeOut u f
  match r.1 with
  | some q => r.2.release q
  | none => s

/-- A unit takes a frame that it may hold back: its units at the ingress are free only once the unit has disposed of it (R40, R204). -/
def State.unboxHeld (u : LocalUnit) (f : Frame) (s : State) : State :=
  match s.boxed u f with
  | some q => s.modFab fun b => { b with inbox := b.inbox.erase (u, q), unitHeld := b.unitHeld ++ [q] }
  | none => s

/-- Does an engine or one of its contexts hold a frame back (R40, R204, R219, R238). -/
def State.heldBack (f : Frame) (s : State) : Bool :=
  s.engines.any fun (e : Nat × Engine) => e.2.held.contains f || e.2.ctxs.any fun (c : Ctx) => c.held.contains f

/-- Frames that no unit holds back any more free their units at their ingress. -/
def State.freeUnits (s : State) : State :=
  let qs := s.fab.unitHeld.filter fun (q : Queued) => !s.heldBack q.f
  qs.foldl (fun s q => (s.modFab fun b => { b with unitHeld := b.unitHeld.erase q }).release q) s

/-- Give a whole frame to a unit of the module. An echo that a C1 or C2 frame carries acts at once (R386, R387). The module's own receive window
takes a multicast copy at once. -/
def State.deliver_ (u : LocalUnit) (q : Queued) (s : State) : State :=
  let c := q.f.cls.toNat
  let mark := (c == 2 || c == 3) && !q.f.ecn && decide (s.fab.threshold c < s.boxUnits u q.f.cls + unitCount q.f)
  let f := if mark then { q.f with ecn := true } else q.f
  let s := if mark then s.modFab fun b => { b with ecnMarked := b.ecnMarked + 1 } else s
  let s := s.echo f
  let s := if f.echo && (f.cls == 1#3 || f.cls == 2#3) then s.echoFrom f.job f.srcRank else s
  match u with
    | .window => s.output (.window f.job f.offset f.payload)
    | .engine _ => (s.forwardTwin q f).intoBox u { q with f := f }
    | .die _ => (s.forwardTwin q f).intoBox u { q with f := f }
    | _ => s.intoBox u { q with f := f }

/-- A whole frame that has no egress: delivered, held back for its steering entry, or discarded with its count
(R372, R375, R376, R377). -/
def State.settleDest (q : Queued) (d : Dest) (s : State) : State :=
  match d with
  | .port _ => s
  | .unit u => s.deliver_ u q
  | .steer => s.modFab fun b => { b with heldStream := b.heldStream ++ [{ q with born := s.time }] }
  | .noTarget => s.modFab fun b => { b with noTarget := b.noTarget + 1 }
  | .noRoute lost =>
    let s := s.modFab fun b => { b with noRoute := b.noRoute + 1 }
    if lost && !s.fab.lost.contains q.f.dstModule.toNat then
      (s.modFab fun b => { b with lost := b.lost ++ [q.f.dstModule.toNat] }).log Code.routeLost clsModule
        (q.f.dstModule.setWidth 16) q.f.job 0
    else s

/-- The copies of a frame on egress ports. -/
def State.placePorts (q : Queued) (ds : List Dest) (s : State) : State :=
  ds.foldl (fun s d => match d with | .port p => s.forward p q | _ => s) s

/-- What a whole frame does here. -/
def State.placeHere (q : Queued) (ds : List Dest) (s : State) : State :=
  (ds.foldl (fun s d => s.settleDest q d) s).release q

/-- Route a whole frame (R376, R378). -/
def State.routeWhole (q : Queued) (s : State) : State :=
  let ds := s.dests q.ingress q.f
  (s.placePorts q ds).placeHere q ds

/-- A frame as a copy that has just been made. -/
def State.newCopy (f : Frame) (ingress : Option Port) (s : State) : Queued × State :=
  (⟨s.fab.nextUid, f, s.time, false, ingress, true, false, none, false, 0, false⟩, s.modFab fun b => { b with nextUid := b.nextUid + 1 })

/-- Frames that the module's own units have made reach their egress or their unit here (R381, R394). -/
def State.dispatchOwn (s : State) : State :=
  let fs := s.fab.selfEgress
  fs.foldl (fun s f =>
    let r := s.newCopy f none
    r.2.routeWhole r.1) (s.modFab fun b => { b with selfEgress := [] })

/-- STREAM frames whose steering entry has appeared are delivered (R377). -/
def State.releaseStream (s : State) : State :=
  let qs := s.fab.heldStream
  qs.foldl (fun s q =>
    match s.steering q.f.job q.f.ident with
    | some p => ((s.modFab fun b => { b with heldStream := b.heldStream.filter fun (x : Queued) => x.uid != q.uid }).deliver_ (.engine p) q).release q
    | none => s) s

/-- What a frame that is still arriving meets in the module itself waits for its tail, with the lookup that holds it (R372). -/
def State.awaitTail (q : Queued) (ds : List Dest) (s : State) : State :=
  match q.ingress with
  | some p => if ds.isEmpty then s else s.modPort p fun x => { x with
      lookups := (x.lookups.filter fun (l : Lookup) => l.uid != q.uid) ++
        [⟨q.uid, q.f, q.born, false, true, ((x.lookups.filter fun (l : Lookup) => l.uid == q.uid).flatMap fun (l : Lookup) => l.dests) ++ ds⟩] }
  | none => s

/-- Frames that a drain has stopped take their routes again (R389, R390). -/
def State.admitWaiting (s : State) : State :=
  let qs := s.fab.waiting.map (Queued.turned s.time)
  qs.foldl (fun s q =>
    let ds := (if q.twin then [s.pairRoute q.f] else s.dests q.ingress q.f).filter fun d => match d with
      | .port p => decide (2 ≤ (s.role p).toNat)
      | .noRoute _ => true
      | _ => false
    let here := ds.filter fun d => match d with | .port _ => false | _ => true
    if q.whole then (s.placePorts q ds).placeHere q here else (s.placePorts q ds).awaitTail q here)
    (s.modFab fun b => { b with waiting := [] })

end Sys2Proof.Machine
end

