-- ==== Sys2Proof/Machine/Stream.lean ====
section
/-! DEFINITION. The activation and checks of stream descriptors, GATHER, SHIFT, PERMUTE, SORT, FILTER and MULTICAST, and
what follows of itself once a command has taken effect (08 R203, R211, R227 to R243, R556 to R558). -/

namespace Sys2Proof.Machine

/-! ## Fields of bytes 0x40 to 0x7F (R210) -/

/-- GATHER: serve mode. -/
def Desc.serve (d : Desc) : Bool := d.op == 2 && d.word 8 % 2 == 1
/-- SHIFT: the ring length n and the distance k. -/
def Desc.ringN (d : Desc) : Nat := bitsOf (d.word 8) 0 16
/-- SHIFT: k. -/
def Desc.ringK (d : Desc) : Nat := bitsOf (d.word 8) 16 16
/-- The address in word 9: ring list, PERMUTE table, SORT histogram, FILTER residual. -/
def Desc.addr9 (d : Desc) : DWord := d.w.getD 9 0
/-- PERMUTE: incoming block count. -/
def Desc.incoming (d : Desc) : Nat := bitsOf (d.word 8) 32 32
/-- PERMUTE: in_place. -/
def Desc.inPlace (d : Desc) : Bool := d.word 10 % 2 == 1
/-- SORT: record size. -/
def Desc.recSize (d : Desc) : Nat := bitsOf (d.word 8) 0 16
/-- SORT: key word index. -/
def Desc.keyIndex (d : Desc) : Nat := bitsOf (d.word 8) 16 8
/-- SORT: key type. -/
def Desc.keyType (d : Desc) : Nat := bitsOf (d.word 8) 24 2
/-- SORT: B. -/
def Desc.bucketsN (d : Desc) : Nat := bitsOf (d.word 8) 32 32
/-- SORT: capacity C. -/
def Desc.capacity (d : Desc) : Nat := bitsOf (d.word 10) 0 32
/-- SORT: overflow address. -/
def Desc.overflowAddr (d : Desc) : DWord := d.w.getD 11 0
/-- FILTER: top-k mode. -/
def Desc.topK (d : Desc) : Bool := d.word 8 % 2 == 1
/-- FILTER: t or k. -/
def Desc.tk (d : Desc) : Nat := bitsOf (d.word 8) 32 32
/-- MULTICAST: group. -/
def Desc.group (d : Desc) : Nat := bitsOf (d.word 8) 0 12
/-- MULTICAST: notice_only. -/
def Desc.noticeOnly (d : Desc) : Bool := Nat.testBit (d.word 8) 16
/-- MULTICAST: notice kind. -/
def Desc.noticeKind (d : Desc) : Nat := bitsOf (d.word 8) 17 3
/-- MULTICAST: entry count e. -/
def Desc.entriesN (d : Desc) : Nat := bitsOf (d.word 11) 0 16
/-- MULTICAST: rung. -/
def Desc.rungOf (d : Desc) : Nat := bitsOf (d.word 11) 16 4

/-- The bits of words 8 to 15 that an operation uses (R210); every other bit is reserved. -/
def Desc.usedBits (op : Nat) (serve : Bool) : List Nat :=
  let all := 2 ^ 64 - 1
  match op with
  | 1 => [2 ^ 51 - 1 - (2 ^ 44 - 2 ^ 44), all, all, all, all, all, 2 ^ 16 - 1, 0]
  | 2 => [1 + (if serve then 2 ^ 64 - 2 ^ 32 else 0), 0, 0, 0, 0, 0, 0, 0]
  | 3 => [2 ^ 32 - 1, all, 0, 0, 0, 0, 0, 0]
  | 4 => [all, all, 1, 0, 0, 0, 0, 0]
  | 5 => [all - (2 ^ 32 - 2 ^ 26), all, 2 ^ 32 - 1, all, 0, 0, 0, 0]
  | 6 => [all - (2 ^ 32 - 2), all, 0, 0, 0, 0, 0, 0]
  | _ => [all - (2 ^ 32 - 2 ^ 20) - (2 ^ 16 - 2 ^ 12), all, all, 2 ^ 20 - 1, 0, 0, 0, 0]

/-- Is a reserved bit of a descriptor set (R206, R210, R211). -/
def Desc.reservedSet (d : Desc) : Bool :=
  bitsOf (d.word 0) 12 4 != 0 || bitsOf (d.word 2) 24 8 != 0 || bitsOf (d.word 2) 44 20 != 0
    || ((List.range 8).zip (Desc.usedBits d.op d.serve)).any fun e => d.word (8 + e.1) &&& (2 ^ 64 - 1 - e.2) != 0

/-! ## Checks at activation (R211, R556) -/

/-- What one address or target adds to a check: a broken rule, or a disabled cluster. -/
inductive Chk where
  | ok
  | bad
  | absent
  deriving DecidableEq, Repr

/-- A module address that must be al-aligned and hold n bytes outside the firmware reserve; one whose length depends on the data names a
byte at least (R211, R446, R558). -/
def State.chkAddr (a : DWord) (n al : Nat) (s : State) : Chk :=
  if a.toNat % al ≠ 0 ∨ !inSpace a (max n 1) ∨ inReserve a (max n 1) then .bad else if s.absentAt a then .absent else .ok

/-- A condition that must hold. -/
def chk (b : Bool) : Chk := if b then .ok else .bad

/-- Is an address in a cluster SRAM. -/
def isSram (a : DWord) : Bool := match DWord.loc a with | .sram _ _ => true | _ => false
/-- Is an address in the stack of the region of a port (R23, R447). -/
def inOwnStack (p : Port) (a : DWord) : Bool := match DWord.loc a with | .dram k _ => k.toNat == p.toNat / 2 | _ => false
/-- Is an address in a cluster SRAM of the region of a port (R23, R449). -/
def inOwnSram (p : Port) (a : DWord) : Bool := match DWord.loc a with | .sram c _ => c.region.toNat == p.toNat / 2 | _ => false

/-- Several checks in one: a broken rule wins over a disabled cluster. -/
def Chk.all (l : List Chk) : Chk := if l.contains .bad then .bad else if l.contains .absent then .absent else .ok

/-- A stream target that receives n bytes (R207, R211). -/
def State.chkTarget (no : JobNo) (a : DWord) (n : Nat) (s : State) : Chk :=
  match DWord.target a with
  | .addr a => s.chkAddr a n 1
  | .rank r _ => chk (s.rankEntry no r.toNat).isSome
  | .group _ _ => .ok
  | .bad => .bad

/-- Does an operation take a tensor in every format but HX6: no stream engine reduces, filters or multicasts HX6, and no frame carries it as
a typed payload. A SORT reads and writes records in memory (R45, R128; log entry 104). -/
def Desc.onWire (d : Desc) : Bool := d.op != 5

/-- The address of a tensor descriptor (R208, R556). -/
def State.chkTensorAddr (d : Desc) (s : State) : Chk :=
  if d.tensorAddr = 0 ∧ (d.op = 1 ∨ d.op = 6) then .bad else s.chkAddr d.tensorAddr 32 32

/-- A tensor descriptor and what it names (R45, R128, R208). DESIGN CHOICE (log entry 117): init_e = -128, outside the values of R114, for
which no rule gives an outcome, is taken; the clamp of R117 then makes it act as -127. -/
def State.chkTensor (d : Desc) (s : State) : List Chk :=
  let t := s.tensor d
  [chk (1 ≤ t.kind && t.kind ≤ 5 && 1 ≤ t.fmt && t.fmt ≤ 6 && !(t.fmt == 2 && (t.kind == 1 || t.kind == 5 || d.onWire)))]

/-- The checks of a REDUCE that its descriptor alone decides (R211, R217, R449). -/
def State.chkReduce (d : Desc) (s : State) : List Chk :=
  [chk (d.cls == 0 && d.deadline != 0 && d.length % 128 == 0)
  , chk (d.slotPitch % 128 == 0 && decide (d.length ≤ d.slotPitch))
  , chk (isSram d.slotBase && isSram d.accBase)
  , s.chkAddr d.slotBase 1 1, s.chkAddr d.logBase 1 1, s.chkAddr d.accBase 1 1
  , chk (!(d.statsEntries == 0 && d.statsRing != 0))
  , if d.statsEntries = 0 then .ok else s.chkAddr d.statsRing (32 * d.statsEntries) 1
  , chk (!d.vote || (match s.barDef d.job d.voteBarrier with | some b => b.kind == 1 | none => false))
  , s.chkTarget d.job d.dest 1]

/-- The slots and log entries of both sets for p ranks: each slot in one cluster SRAM and each log entry in the stack of the engine's own
region (R211, R217, R449). -/
def State.chkSlots (port : Port) (d : Desc) (p : Nat) (s : State) : Chk :=
  Chk.all ((List.range 2).flatMap fun k => (List.range p).flatMap fun q =>
    let o := k * d.setStride + q * d.slotPitch
    let slot := BitVec.ofNat 64 (d.slotBase.toNat + o)
    let log := BitVec.ofNat 64 (d.logBase.toNat + o)
    [chk (inOwnSram port slot && inOwnStack port log), s.chkAddr slot d.length 1, s.chkAddr log d.length 1])

/-- The checks of a REDUCE that its mask of p ranks and its tensor decide (R217, R211, R222). The statistics ring lies in the stack of the
engine's region (R137, R447). -/
def State.chkReduceTable (port : Port) (d : Desc) (p : Nat) (s : State) : List Chk :=
  let t := s.tensor d
  let size := match Fmt.ofCode t.fmt with | some f => t.size f | none => 0
  let wide := match Fmt.ofCode 6 with | some f => t.size f | none => 0
  [chk (d.length == size && 3 ≤ t.deliv && t.deliv ≤ 6 && decide (p * d.slotPitch ≤ d.setStride))
  , s.chkSlots port d p
  , chk (d.statsEntries == 0 || inOwnStack port d.statsRing)
  , s.chkAddr d.accBase (4 * t.elems) 1
  , s.chkAddr t.absmax t.tableBytes 1
  , s.chkTarget d.job d.dest wide]

/-- A module address in a source or dest field that holds n bytes. -/
def State.chkPlace (a : DWord) (n : Nat) (s : State) : Chk :=
  match DWord.target a with
  | .addr a => s.chkAddr a n 1
  | _ => .bad

/-- The checks of the other operations that their descriptor alone decides. A length that the data decides is checked where the bytes are
written (R558): the kept records and the overflow of a SORT with a capacity, and the records of a FILTER by threshold. DESIGN CHOICE
(log entry 119): a SORT length that is no multiple of the record size breaks a rule. -/
def State.chkOther (d : Desc) (s : State) : List Chk :=
  let mod128 := d.length % 128 == 0
  match d.op with
  | 2 =>
    if d.serve then
      [chk (mod128 && decide (128 ≤ d.length) && d.deadline != 0)
      , chk (match s.shards.find? fun r => r.job == d.job && r.shard == d.shard8 with | some r => decide (d.length ≤ r.areaSize) | none => true)]
    else [chk mod128, s.chkPlace d.dest 1]
  | 3 => [chk (2 ≤ d.ringN && d.ringN ≤ 4096 && 1 ≤ d.ringK && decide (d.ringK < d.ringN)), s.chkAddr d.addr9 (2 * d.ringN) 1]
  | 4 =>
    let b := d.blockSize
    [chk (b % 128 == 0 && 128 ≤ b && b ≤ 1048576 && d.length % b == 0)
    , s.chkAddr d.addr9 (4 * (d.length / max b 1)) 1
    , s.chkPlace d.source d.length
    , s.chkPlace d.dest 0]
  | 5 =>
    [chk (d.recSize % 16 == 0 && 16 ≤ d.recSize && d.recSize ≤ 4096 && decide (4 * d.keyIndex + 4 ≤ d.recSize) && d.keyType != 3
        && d.length % max d.recSize 1 == 0 && d.bucketsN ≤ 65536 && (d.bucketsN == 0 || d.keyType == 0))
    , s.chkPlace d.source d.length
    , s.chkTarget d.job d.dest (if d.bucketsN = 0 ∨ d.capacity = 0 then d.length else 0)
    , if d.bucketsN = 0 then .ok else s.chkAddr d.addr9 (4 * d.bucketsN) 1
    , if d.bucketsN = 0 ∨ d.capacity = 0 then .ok else s.chkAddr d.overflowAddr 0 1]
  | 6 => [s.chkPlace d.source 1, chk (d.topK || !isNan32 (BitVec.ofNat 32 d.tk))]
  | _ =>
    [chk (match DWord.target d.dest with | .group g _ => g.toNat == d.group | _ => false)
    , chk (1 ≤ d.noticeKind && d.noticeKind ≤ 3 && d.entriesN ≤ 1020 && d.rungOf ≤ 6 && d.rungOf != 2)
    , if d.entriesN = 0 then .ok else s.chkAddr (d.w.getD 10 0) (8 * d.entriesN) 1
    , if d.noticeOnly then chk (d.length == 0) else s.chkPlace d.source d.length]

/-- The checks of the other operations that their tensor or their mask of p ranks decides. -/
def State.chkOtherTable (d : Desc) (p : Nat) (s : State) : List Chk :=
  match d.op with
  | 2 => if d.serve then [] else [s.chkPlace d.dest (p * d.length)]
  | 6 =>
    let t := s.tensor d
    let size := match Fmt.ofCode t.fmt with | some f => t.size f | none => 0
    [s.chkPlace d.source size
    , s.chkTarget d.job d.dest (if d.topK then 8 * d.tk else 0)
    , if d.addr9 = 0 then .ok else s.chkAddr d.addr9 (4 * t.elems) 1
    , chk (!d.topK || decide (d.tk ≤ t.elems))]
  | _ => []

/-- The list of a SHIFT: ranks below 4,096, each one once (R234). -/
def State.chkRing (d : Desc) (s : State) : Chk :=
  let l := (List.range d.ringN).map fun i => s.readLe (d.addr9.toNat + 2 * i) 2
  chk (l.dedup.length == l.length && l.all fun v => decide (v < 4096))

/-- Does another context of the engine than that of a number hold the same job and operation key (R225). -/
def State.keyTaken (p : Port) (id : Nat) (d : Desc) (s : State) : Bool :=
  (s.eng p).ctxs.any fun c =>
    c.id != id && c.desc.job == d.job && (if d.op = 1 then
      c.desc.op == 1 && (s.tensor c.desc).shard == (s.tensor d).shard && (s.tensor c.desc).id == (s.tensor d).id && c.desc.step == d.step
    else (d.op == 2 || d.op == 3 || d.op == 4) && (c.desc.op == 2 || c.desc.op == 3 || c.desc.op == 4) && c.desc.impr == d.impr)

/-- Does an operation need a participant mask (R556). -/
def Desc.needsMask (d : Desc) : Bool := d.op == 1 || (d.op == 2 && !d.serve)

/-- Does an older descriptor with the same steering key stand at another port (R377). -/
def State.keyElsewhere (p : Port) (d : Desc) (accepted : Nat) (s : State) : Bool :=
  let keyed := fun (x : Desc) => (x.op == 2 && !x.serve) || x.op == 3 || x.op == 4
  let mine := fun (n : Nat) (x : Desc) (t : Nat) =>
    keyed x && x.job == d.job && x.impr == d.impr && decide (t < accepted ∨ (t = accepted ∧ n < p.toNat))
  keyed d && s.engines.any fun (e : Nat × Engine) => e.1 != p.toNat &&
    (e.2.queue.any (fun (q : QEntry) => mine e.1 q.desc q.accepted) || e.2.ctxs.any fun (c : Ctx) => mine e.1 c.desc c.accepted)

/-- Does a descriptor use tensor_addr: 0 is untyped bytes where the operation needs no tensor (R556). -/
def Desc.usesTensor (d : Desc) : Bool := d.op == 1 || d.op == 6 || (d.tensorAddr != 0 && !(d.op == 7 && d.noticeOnly))

/-- The tables that an engine reads to check a descriptor: mask, tensor descriptor, ring list, each with its length (R206, R208, R234). -/
def State.tables (d : Desc) (s : State) : List (Chk × DWord × Nat) :=
  (if d.needsMask then [(if d.maskAddr = 0 then .bad else s.chkAddr d.maskAddr 512 1, d.maskAddr, 512)] else [])
  ++ (if d.usesTensor then [(s.chkTensorAddr d, d.tensorAddr, 32)] else [])
  ++ (if d.op = 3 then [(s.chkAddr d.addr9 (2 * d.ringN) 1, d.addr9, 2 * d.ringN)] else [])

/-- The checks of a context's descriptor that need no table (R211). -/
def State.plainChecks (p : Port) (c : Ctx) (s : State) : List Chk :=
  let d := c.desc
  let gateOk := d.startGate == 0xFFF || s.hasEntry d.job d.startGate
  let n := if d.writesMask then 576 else 64
  [chk (1 ≤ d.op && d.op ≤ 7 && d.cls ≤ 3 && !d.reservedSet && gateOk)
  , s.chkAddr d.statusAddr n 64
  , chk (d.doneInc == 0 || (s.counter d.doneCounter).job == d.job)
  , chk (d.op == 1 || !s.keyTaken p c.id d), chk (!s.keyElsewhere p d c.accepted)]

/-- The checks of a context's descriptor that follow once the tables have been read; what an absent table would decide stays open (R211). -/
def State.tableChecks (p : Port) (c : Ctx) (s : State) : List Chk :=
  let d := c.desc
  let there := fun (need : Bool) (a : DWord) => !need || !s.absentAt a
  let mask := there d.needsMask d.maskAddr
  let tensor := there d.usesTensor d.tensorAddr
  [chk (!mask || !d.needsMask || !c.mask.isEmpty)]
  ++ (if d.usesTensor && tensor then chk (d.op != 1 || !s.keyTaken p c.id d) :: s.chkTensor d else [])
  ++ (if d.op = 3 ∧ !s.absentAt d.addr9 then [s.chkRing d] else [])
  ++ (if d.op = 1 then s.chkReduce d else s.chkOther d)
  ++ (if mask && tensor then (if d.op = 1 then s.chkReduceTable p d c.mask.length else s.chkOtherTable d c.mask.length) else [])

/-- The code with which a descriptor ends at once; none for one that is good (R211). -/
def checkCode (l : List Chk) : Option (BitVec 16) :=
  if l.contains .bad then some Code.streamDescriptorInvalid else if l.contains .absent then some Code.absentEngine else none

/-! ## Notices (R228) -/

/-- A shard notice. -/
def noticeBytes (kind : Nat) (no : JobNo) (shard step st : Word) (rung : Nat) (entries : List Byte) : List Byte :=
  let bs := leBytes 4 (kind + 65536 * no.toNat) ++ leBytes 4 shard.toNat ++ leBytes 4 step.toNat ++ leBytes 4 st.toNat
    ++ leBytes 4 (entries.length / 8 + 65536 * rung) ++ leBytes 12 0 ++ entries
  bs ++ List.replicate (up128 bs.length - bs.length) 0

/-- The shard record of a job (R306). -/
def State.shardRec (no : JobNo) (shard : Word) (s : State) : Option Shard := s.shards.find? fun r => r.job == no && r.shard == shard

/-! ## GATHER (R232, R233, R309) -/

/-- A piece frame of a collecting GATHER (R219, R232). -/
def State.collect (p : Port) (c : Ctx) (f : Frame) (s : State) : State :=
  let q := c.mask.idxOf f.srcRank.toNat
  if c.expired s.time then s.setCtx p { c with late := c.late + 1 }
  else if f.kind ≠ 2 ∨ c.mask.length ≤ q ∨ breaks218 c.desc.length f then s.setCtx p { c with stray := c.stray + 1 }
  else if c.hasArrived q || (frameUnits f).any fun u => c.units.contains (q, u) then s.setCtx p { c with dup := c.dup + 1 }
  else
    let dest := c.desc.dest.toNat + q * c.desc.length + f.offset.toNat
    let w := s.put p c dest f.payload
    let c := c.take q f dest
    if !w.1 then w.2
    else if c.arrived < c.mask.length then w.2.setCtx p c
    else
      let r := w.2.signOut p c c.desc.dest.toNat (c.payloads.flatMap (·.2))
      r.2.endCtx p r.1 Code.ok []

/-- The format that a GATHER notice names (R233). -/
def State.serveRung (c : Ctx) (weights : Bool) (s : State) : Nat := if weights && c.desc.tensorAddr != 0 then (s.ctxTensor c).fmt else 0

/-- Answer a request with bytes and a notice (R233, R284): frames to the requester's rank at the offset it names. Each reply ends a transfer
of its own (log entry 102). -/
def State.answer (p : Port) (c : Ctx) (f : Frame) (kind : Nat) (weights : List Byte) (s : State) : Ctx × State :=
  let st : Word := f.detail.setWidth 32
  let rung := s.serveRung c (kind == 4)
  let bs := weights ++ noticeBytes kind c.desc.job c.desc.shard8 c.step st rung []
  let s := (s.emit p c (.rank f.srcRank f.offset) rung (c.step.setWidth 64) (some bs.length) bs).2
  let r := s.signOut p c f.offset.toNat bs
  ({ r.1 with result := r.1.result + bs.length }, r.2)

/-- The deadline of a serve context: every request not answered gets a notice without weights, and the impression ends
OK once a reply that has begun has left (R233). -/
def State.serveDeadline (p : Port) (c : Ctx) (s : State) : State :=
  let cs := c.requests.foldl (fun (cs : Ctx × State) f =>
    let st : Word := f.detail.setWidth 32
    let kind := match cs.2.shardRec c.desc.job c.desc.shard8 with
      | some r => if (r.areaOf st).isSome || (r.isFilling && r.st == st) then 7 else if r.st < st then 6 else 5
      | none => 5
    let s := if kind = 5 then cs.2.modDie p.die fun d => { d with stateGone := sat32 d.stateGone 1 } else cs.2
    let r := s.answer p cs.1 f kind []
    ({ r.1 with arrived := r.1.arrived + 1 }, r.2)) ({ c with requests := [] }, s)
  if c.serving.isSome then cs.2.setCtx p { cs.1 with readsDone := true, phase := .sending } else cs.2.endCtx p cs.1 Code.ok []

/-- Serve the requests at the head of a context, in order, until one starts a reply with weights or waits for a fill; past the deadline each
one gets a notice without weights (R233). -/
def State.serveHeads (p : Port) : Nat → Ctx → State → State
  | 0, c, s => s.setCtx p c
  | n + 1, c, s =>
    if c.expired s.time then s.serveDeadline p c
    else match c.requests, c.serving with
    | f :: rest, none =>
      let st : Word := f.detail.setWidth 32
      match s.shardRec c.desc.job c.desc.shard8 with
      | some r =>
        match r.areaOf st with
        | some a =>
          let q := s.pull p c (r.wireBase.toNat + a * r.areaSize) c.desc.length
          match q.1 with
          | some bs =>
            let s := q.2.modShard r.job r.shard fun x => { x with readers := x.readers ++ [a] }
            let cs := s.answer p { c with phase := .sending } f 4 bs
            cs.2.setCtx p { cs.1 with requests := rest, serving := some (BitVec.ofNat 32 a) }
          | none => q.2
        | none =>
          if r.isFilling && r.st == st then s.setCtx p { c with phase := .waitReads }
          else
            let gone := decide (st ≤ r.st)
            let s := if gone then s.modDie p.die fun d => { d with stateGone := sat32 d.stateGone 1 } else s
            let cs := s.answer p c f (if gone then 5 else 6) []
            State.serveHeads p n { cs.1 with requests := rest, arrived := cs.1.arrived + 1, phase := .collecting } cs.2
      | none =>
        let s := s.modDie p.die fun d => { d with stateGone := sat32 d.stateGone 1 }
        let cs := s.answer p c f 5 []
        State.serveHeads p n { cs.1 with requests := rest, arrived := cs.1.arrived + 1, phase := .collecting } cs.2
    | _, _ => s.setCtx p { c with phase := if c.serving.isSome then .sending else .collecting }

/-- A request reaches a serve context (R233). -/
def State.serveReq (p : Port) (c : Ctx) (f : Frame) (s : State) : State :=
  if f.kind ≠ 3 ∨ (f.detail >>> 32).setWidth 32 ≠ c.desc.shard8 then s.setCtx p { c with stray := c.stray + 1 }
  else State.serveHeads p (c.requests.length + 1) { c with requests := c.requests ++ [f], firstArrival := true } s

/-- A released area: valid falls, and release_counter moves (R308, R309). -/
def State.releaseArea (src : AddSrc) (r : Shard) (a : Nat) (s : State) : State :=
  let s := s.modShard r.job r.shard fun x => { x with
    areas := x.areas.set a { x.areas.getD a ⟨0, false, false, false, 0⟩ with valid := false }, relDue := x.relDue.erase a }
  s.signal r.release r.job 1 src

/-- A reply's last frame has left: its pin ends, a release that fell due takes effect, and the next request is served
(R309). After the deadline the impression ends (R233). -/
def State.replySent (p : Port) (c : Ctx) (s : State) : State :=
  match c.serving with
  | none => s
  | some a =>
    let s := s.modShard c.desc.job c.desc.shard8 fun x => { x with readers := x.readers.erase a.toNat }
    let s := match s.shardRec c.desc.job c.desc.shard8 with
      | some r => if r.relDue.contains a.toNat && !r.readers.contains a.toNat then s.releaseArea (srcPort p) r a.toNat else s
      | none => s
    let c := { c with serving := none, arrived := c.arrived + 1 }
    State.serveHeads p (c.requests.length + 1) c s

/-! ## SHIFT (R234, R235) -/

/-- The ring list of a SHIFT. -/
def State.ringList (d : Desc) (s : State) : List Nat := (List.range d.ringN).map fun i => s.readLe (d.addr9.toNat + 2 * i) 2 % 4096

/-- The 32-byte units of a ring block that a frame covers (R234, R351). -/
def shiftUnits (f : Frame) : List Nat := (List.range (f.payload.length / 32)).map fun i => f.offset.toNat / 32 + i

/-- Is a frame no part of a ring block: R234 sets no other condition than the length, filled to whole units (R351; log entry 118). -/
def breaks234 (n : Nat) (f : Frame) : Bool := f.offset.toNat % 32 != 0 || decide ((n + 31) / 32 * 32 < f.offset.toNat + f.payload.length)

/-- A frame of a ring block is forwarded to the successor (R234; log entry 24). A block is signed once it has been forwarded whole, in the
order of the ring (R326; log entry 105). DESIGN CHOICE (log entry 118): a block for a successor that the rank list leaves unused goes nowhere
and counts as forwarded. -/
def State.shiftFrame (p : Port) (c : Ctx) (f : Frame) (s : State) : State :=
  let ring := c.mask
  let pos := ring.idxOf f.srcRank.toNat
  if c.expired s.time then s.setCtx p { c with late := c.late + 1 }
  else if f.kind ≠ 2 ∨ ring.length ≤ pos ∨ breaks234 c.desc.length f then s.setCtx p { c with stray := c.stray + 1 }
  else if (shiftUnits f).any fun u => c.units.contains (pos, u) then s.setCtx p { c with dup := c.dup + 1 }
  else
    let succ := ring.getD ((pos + c.desc.ringK) % max ring.length 1) 0
    let c1 := { c with
      units := c.units ++ (shiftUnits f).map (fun u => (pos, u))
      payloads := insertPayload (pos * 2 ^ 32 + f.offset.toNat) f.payload c.payloads, firstArrival := true }
    let whole := c1.hasArrived pos
    let o := bitsOf c.desc.dest.toNat 0 32
    let block := ((c1.payloads.filter fun e => pos * 2 ^ 32 ≤ e.1 && decide (e.1 < (pos + 1) * 2 ^ 32)).flatMap (·.2)).take c.desc.length
    let off := BitVec.ofNat 32 (o + f.offset.toNat)
    let s := match s.rankEntry c.desc.job succ with
      | some e =>
        let n : CounterName := c.desc.impr.extractLsb' 16 16
        let sig := e.kind == 1
        let g : Frame := { f with
          offset := off, transfer := c.desc.impr.setWidth 16, cls := BitVec.ofNat 3 c.desc.cls, ttl := 1023, ecn := false
          sig := sig, sigDie := if sig then n.die else 0, counter := if sig && whole then n else 0
          inc := if sig && whole then 1 else 0
          announced := if sig && whole then BitVec.ofNat 32 ((c.desc.length + 31) / 32 * 32) else 0 }
        s.sendJob c.desc.job (g.toRank e)
      | none => s
    let s := if whole then s.signTiles p c1 (pos * tilesAt o c.desc.length) o block else s
    let c2 := if whole then { c1 with arrived := c1.arrived + 1, result := c1.result + 1 } else c1
    if c2.arrived < ring.length then s.setCtx p c2 else s.endSent p c2 Code.ok

/-- The ranks of a SHIFT's ring that have not sent their block. -/
def Ctx.shiftMissing (c : Ctx) : List Nat :=
  sortBy (fun a b => a ≤ b) (((List.range c.mask.length).zip c.mask).filterMap fun e => if c.hasArrived e.1 then none else some e.2)

/-! ## PERMUTE (R236 to R238) -/

/-- The outgoing blocks of a PERMUTE: source block, destination rank, destination block (R236). -/
def permuteBlocks (n : Nat) (table : List Byte) : List (Nat × Nat × Nat) :=
  ((List.range n).map fun i => let e := leNat ((table.drop (4 * i)).take 4); (i, e / 2 ^ 20, e % 2 ^ 20)).filter fun e => e.2.1 != 0xFFF

/-- Send the outgoing blocks of a PERMUTE in the order of their source: the last block to a receiver ends its transfer (R236, R279, R284).
They are signed in the order of their destinations (R326; log entry 105). DESIGN CHOICE (log entry 118): an offset of 2^32 and above travels
as its low 32 bits, which is what the header field holds. -/
def State.permuteOut (p : Port) (c : Ctx) (s : State) : State :=
  let b := c.desc.blockSize
  let n := c.desc.length / max b 1
  let r := s.pull p c c.desc.source.toNat c.desc.length
  match r.1 with
  | none => r.2
  | some src =>
    let tb := r.2.pull p c c.desc.addr9.toNat (4 * n)
    match tb.1 with
    | none => tb.2
    | some table =>
      let out := permuteBlocks n table
      let bytes := fun (i : Nat) => (src.drop (i * b)).take b
      let s := out.foldl (fun s e =>
        let mine := out.filter fun x => x.2.1 == e.2.1
        let tag := if mine.getLast? = some e then some (mine.length * b) else none
        (s.emit p c (.rank (BitVec.ofNat 12 e.2.1) (BitVec.ofNat 32 (e.2.2 * b))) 0 (BitVec.ofNat 64 e.1) tag (bytes e.1)).2) tb.2
      let cs := (sortBy (fun (x y : Nat × Nat × Nat) => decide (x.2.1 * 2 ^ 20 + x.2.2 ≤ y.2.1 * 2 ^ 20 + y.2.2)) out).foldl
        (fun (cs : Ctx × State) e => cs.2.signOut p cs.1 (e.2.2 * b) (bytes e.1)) ({ c with result := c.desc.length }, s)
      cs.2.setCtx p cs.1

/-- Do two module addresses lie in one SRAM or one stack (R558). -/
def sameSpace (a b : DWord) : Bool :=
  match DWord.loc a, DWord.loc b with
  | .sram c _, .sram d _ => c == d
  | .dram j _, .dram k _ => j == k
  | _, _ => false

/-- May an impression write a range: in the SRAM or stack of its dest, and within reach (R558). -/
def State.mayWrite (dest : DWord) (a n : Nat) (s : State) : Bool := sameSpace dest (BitVec.ofNat 64 a) && s.reaches a n

/-- The bytes of a block with a frame's payload put in. -/
def putBytes (bs : List Byte) (off : Nat) (pl : List Byte) : List Byte := bs.take off ++ pl ++ bs.drop (off + pl.length)

/-- The tensor of a PERMUTE has moved to its new owner: the next conversion finds its record NONE, and the table that has arrived is not
valid (R118, R238, R264); answers whether the impression goes on. -/
def State.forgetTensor (p : Port) (c : Ctx) (s : State) : Bool × State :=
  if c.desc.tensorAddr = 0 then (true, s)
  else
    let t := s.ctxTensor c
    let s := s.modJob c.desc.job fun j => { j with scaled := j.scaled.filter fun x => x != t.id }
    if s.chkAddr t.absmax t.tableBytes 1 = .ok then
      let r := s.pull p c t.absmax.toNat 4
      match r.1 with
      | none => (false, r.2)
      | some bs =>
        let w := leNat bs
        r.2.put p c t.absmax.toNat (leBytes 4 (w - 2 ^ 20 * (w / 2 ^ 20 % 2)))
    else (true, s)

/-- A PERMUTE is complete: the blocks that it has kept are signed by ascending destination, its granules return, and the impression ends
once its own blocks have left (R214, R236, R238, R304, R326). -/
def State.permuteDone (p : Port) (c : Ctx) (s : State) : State :=
  let cs := s.signKept p c
  let w := cs.2.forgetTensor p cs.1
  if w.1 then w.2.endSent p cs.1 Code.ok else w.2

/-- A whole block that a job receives during a mapping switch is a state header where it has the header's form and names a shard of the
job's plate (R263, R264; log entry 107). -/
def State.noteHeader (no : JobNo) (bs : List Byte) (s : State) : State :=
  let h := bs.take 128
  let shard := BitVec.ofNat 32 (leNat (h.take 4))
  let known := match s.plate no with | some p => p.shardRecs.any fun (r : Shard) => r.shard == shard | none => false
  if (s.job no).mapOn.isSome && known && leNat ((h.drop 8).take 2) == no.toNat && (h.drop 10).all (· == 0) then
    s.modJob no fun j => { j with
      headers := (j.headers.filter fun x => x.1 != shard) ++ [(shard, BitVec.ofNat 32 (leNat ((h.drop 4).take 4)))] }
  else s

/-- Write a whole block where it wins its destination (R237). -/
def State.blockIn (p : Port) (c : Ctx) (b : PBlock) (s : State) : State :=
  let a := c.desc.dest.toNat + b.index * c.desc.blockSize
  let same := c.blocks.filter fun x => x.index == b.index && !(x.srcRank == b.srcRank && x.srcBlock == b.srcBlock)
    && decide (c.desc.blockSize / 128 ≤ x.units.length)
  let c := { c with arrived := c.arrived + 1, aux0 := c.aux0 + (if same.isEmpty then 0 else 1) }
  if !s.mayWrite c.desc.dest a c.desc.blockSize then s.accessFault p c a
  else
    let s := s.noteHeader c.desc.job b.bytes
    let now := !c.desc.inPlace || c.readsDone
    let w := if now && blockWins b same then s.put p c a b.bytes else (true, s)
    if !w.1 then w.2
    else if c.arrived < c.desc.incoming ∨ !now then w.2.setCtx p c
    else w.2.permuteDone p c

/-- A frame of an incoming block (R236 to R238). For in_place, the bytes wait in granules; without one the frame is held
back. -/
def State.permuteFrame (p : Port) (c : Ctx) (f : Frame) (s : State) : State :=
  let b := c.desc.blockSize
  let idx := f.offset.toNat / max b 1
  let off := f.offset.toNat % max b 1
  let src := f.detail.toNat % 2 ^ 32
  if c.expired s.time then s.setCtx p { c with late := c.late + 1 }
  else if f.kind ≠ 2 ∨ off % 128 ≠ 0 ∨ f.payload.length % 128 ≠ 0 ∨ b < off + f.payload.length then
    s.setCtx p { c with stray := c.stray + 1 }
  else
    let isThis := fun (x : PBlock) => x.index == idx && x.srcRank == f.srcRank.toNat && x.srcBlock == src
    let old := (c.blocks.find? isThis).getD ⟨idx, f.srcRank.toNat, src, List.replicate b 0, []⟩
    let us := (List.range (f.payload.length / 128)).map fun i => off / 128 + i
    if us.any old.units.contains then s.setCtx p { c with dup := c.dup + 1 }
    else if c.closing.isSome then s.setCtx p { c with stray := c.stray + 1 }
    else
      let held := (c.blocks.foldl (fun n x => n + 128 * x.units.length) 0) + f.payload.length
      let need := c.desc.inPlace && !c.readsDone && decide (1048576 * c.granules.length < held)
      let w : GranReq := ⟨256 + p.toNat, true, c.desc.job, none⟩
      let got := if need then (if s.waitsForGranule w then (none, s) else s.request w) else (none, s)
      if need && got.1.isNone then got.2.setCtx p { c with held := c.held ++ [f] }
      else
        let new := { old with bytes := putBytes old.bytes off f.payload, units := old.units ++ us }
        let c := { c with
          granules := c.granules ++ got.1.toList, blocks := c.blocks.filter (fun x => !isThis x) ++ [new]
          payloads := insertPayload (permuteKey f.offset.toNat f.srcRank.toNat src) f.payload c.payloads, firstArrival := true }
        if new.units.length < b / 128 then got.2.setCtx p c else got.2.blockIn p c new

/-- Write blocks one after another; answers whether the impression goes on. -/
def State.putBlocks (p : Port) (c : Ctx) : List PBlock → State → Bool × State
  | [], s => (true, s)
  | b :: t, s =>
    let w := s.put p c (c.desc.dest.toNat + b.index * c.desc.blockSize) b.bytes
    if w.1 then State.putBlocks p c t w.2 else w

/-- Every outgoing read of an in-place PERMUTE has completed: the waiting blocks are written, and the impression may be complete; its
granules return when it ends (R238, R304). -/
def State.readsDone (p : Port) (c : Ctx) (s : State) : State :=
  if c.readsDone then s
  else
    let full := c.blocks.filter fun x => decide (c.desc.blockSize / 128 ≤ x.units.length)
    let c := { c with readsDone := true }
    let w := s.putBlocks p c (full.filter fun x => blockWins x full)
    if !w.1 then w.2 else if c.arrived < c.desc.incoming then w.2.setCtx p c else w.2.permuteDone p c

/-! ## SORT (R239, R240) -/

/-- The order number of a key (R239). -/
def sortKey (type : Nat) (k : Nat) : Int :=
  match type with
  | 0 => k
  | 1 => (BitVec.ofNat 32 k).toInt
  | _ =>
    let w := BitVec.ofNat 32 k
    if isNan32 w then 2 ^ 33
    else
      let m : Int := if k / 2 ^ 23 % 256 = 0 then 0 else k % 2 ^ 31
      if k < 2 ^ 31 then m else -m - 1

/-- The records of a SORT's source, each with its key and order number, in sorted order. -/
def sortedRecords (d : Desc) (src : List Byte) : List (Nat × Int × List Byte) :=
  let n := d.length / max d.recSize 1
  sortBy (fun a b => a.2.1 ≤ b.2.1) ((List.range n).map fun i =>
    let r := (src.drop (i * d.recSize)).take d.recSize
    let k := leNat ((r.drop (4 * d.keyIndex)).take 4)
    (k, sortKey d.keyType k, r))

/-- The kept, overflowed and out-of-range records of a bucketed sort (R240). -/
def bucketSplit (b cap : Nat) (l : List (Nat × Int × List Byte)) : List (Nat × List Byte) × List (List Byte) × List (List Byte) :=
  let r := l.foldl (fun (acc : List (Nat × List Byte) × List (List Byte) × List (List Byte)) x =>
    if b ≤ x.1 then (acc.1, acc.2.1, x.2.2 :: acc.2.2)
    else if cap ≠ 0 ∧ cap ≤ (acc.1.filter fun y => y.1 == x.1).length then (acc.1, x.2.2 :: acc.2.1, acc.2.2)
    else ((x.1, x.2.2) :: acc.1, acc.2.1, acc.2.2)) ([], [], [])
  (r.1.reverse, r.2.1.reverse, r.2.2.reverse)

/-- The end of an impression that has written or handed over its bytes for dest: they are signed, and it is OK once they have left (R214,
R326). -/
def State.sentOut (p : Port) (c : Ctx) (bs : List Byte) (w : Bool × State) : State :=
  if w.1 then
    let q := w.2.signOut p c (STarget.base (DWord.target c.desc.dest)) bs
    q.2.endSent p q.1 Code.ok
  else w.2

/-- The work of a SORT (R239, R240). -/
def State.sortWork (p : Port) (c : Ctx) (s : State) : State :=
  let d := c.desc
  let r := s.pull p c d.source.toNat d.length
  match r.1 with
  | none => r.2
  | some src =>
    let s := r.2
    let sorted := sortedRecords d src
    if d.bucketsN = 0 then
      let bs := sorted.flatMap (·.2.2)
      let c := { c with result := sorted.length }
      State.sentOut p c bs (s.emit p c (DWord.target d.dest) 0 0 (some bs.length) bs)
    else
      let sp := bucketSplit d.bucketsN d.capacity sorted
      let out := sp.1.map (·.2) ++ sp.2.2
      let counts := (List.range d.bucketsN).flatMap fun k => leBytes 4 ((sp.1.filter fun y => y.1 == k).length)
      let c := { c with result := out.length, aux0 := sp.2.1.length, aux1 := sp.2.2.length }
      let w := s.put p c d.addr9.toNat counts
      let w := if w.1 && d.capacity != 0 then w.2.putWithin p c d.overflowAddr.toNat sp.2.1.flatten else w
      if w.1 then State.sentOut p c out.flatten (w.2.emit p c (DWord.target d.dest) 0 0 (some out.flatten.length) out.flatten) else w.2

/-! ## FILTER (R241 to R243) -/

/-- Does element a rank above element b: NaN above all, then magnitude, then the lower index (R241). -/
def filterAbove (a b : Nat × Word) : Bool :=
  let key := fun (w : Word) => if isNan32 w then 2 ^ 32 else (f32abs w).toNat
  decide (key b.2 < key a.2) || (key a.2 == key b.2 && a.1 ≤ b.1)

/-- The indices that a FILTER selects, ascending (R242). -/
def filterSelect (d : Desc) (xs : List Word) : List Nat :=
  let ix := (List.range xs.length).zip xs
  if d.topK then sortBy (fun a b => a ≤ b) (((sortBy filterAbove ix).take d.tk).map (·.1))
  else ix.filterMap fun e => if isNan32 e.2 || f32cmp 5 (f32abs e.2) (BitVec.ofNat 32 d.tk) then some e.1 else none

/-- The work of a FILTER (R241 to R243). -/
def State.filterWork (p : Port) (c : Ctx) (s : State) : State :=
  let d := c.desc
  let t := s.ctxTensor c
  match Fmt.ofCode t.fmt with
  | none => s
  | some f =>
    let r := s.pull p c d.source.toNat (t.size f)
    match r.1 with
    | none => r.2
    | some src =>
      let s := r.2
      let dec := t.decode f src
      let xs := dec.map fun e => if isNan32 e.1 then nan32 else e.1
      let sel := filterSelect d xs
      let recs := sel.flatMap fun i => leBytes 4 i ++ leBytes 4 (xs.getD i 0).toNat
      let c := { c with flags := c.flags.or (orFlags (dec.map (·.2))), result := sel.length }
      let rest := bytes32 (((List.range xs.length).zip xs).map fun e => if sel.contains e.1 then 0 else e.2)
      let w := if d.addr9 = 0 then (true, s) else s.put p c d.addr9.toNat rest
      if w.1 then State.sentOut p c recs (w.2.emit p c (DWord.target d.dest) 0 0 (some recs.length) recs) else w.2

/-! ## MULTICAST (R230, R231) -/

/-- Does a MULTICAST with an UPDATE notice name a state other than the shard's current one (R231). -/
def State.stateMismatch (d : Desc) (s : State) : Bool :=
  d.op == 7 && d.noticeKind == 1 &&
    (match s.shardRec d.job d.shard8 with | some r => r.st != d.stateNo | none => true)

/-- The elements of a wider weight payload whose values overflow in the tensor's own format: those that the conversion which overflowed
affected (R136; log entry 106). An HX16 payload carries the scales of that conversion (R126); for binary32 they are the bytes of the last
conversion in the absmax table (R209). -/
def State.widened (c : Ctx) (t : Tensor) (rung : Nat) (tab : AbsTable) (src : List Byte) (s : State) : List Nat :=
  match Fmt.ofCode t.fmt, Fmt.ofCode rung with
  | some narrow, some wide =>
    let xs := (t.decode wide src).map (·.1)
    let area := src.drop (t.scaleAt wide)
    let sc : Byte × List Byte :=
      if wide = .b32 then (tab.coarse, tab.units.map (·.2))
      else if t.block then (area.headD 0, (area.drop 1).take t.unitsN) else (0, area.take t.unitsN)
    let draw := fun (i : Nat) =>
      if UseCode.weight.stochastic t.priv then
        some (drawWord ((s.plate c.desc.job).map (·.seed) |>.getD 0) (4 * t.base4 + i) t.id c.desc.step
          (BitVec.ofNat 12 ((s.ownRank c.desc.job).getD 0)) UseCode.weight.code)
      else none
    (t.convertAll narrow sc draw xs).2.2
  | _, _ => []

/-- What a weight multicast says of the conversion that it carries (R123, R128, R132, R136; log entry 106): a rung above the tensor's format
is the wider rung of a conversion that overflowed, and writes a WIDEN event; outside NORMAL it raises the offset of the tensor, and a step
without overflow counts as clean. -/
def State.noteWeights (p : Port) (c : Ctx) (rung : Nat) (src : List Byte) (s : State) : Bool × State :=
  let d := c.desc
  let t := s.ctxTensor c
  if d.noticeOnly ∨ d.noticeKind ≠ 1 ∨ d.tensorAddr = 0 ∨ !(t.kind = 1 ∨ t.kind = 5) ∨ s.chkAddr t.absmax t.tableBytes 1 ≠ .ok then (true, s)
  else
    let r := s.pull p c t.absmax.toNat t.tableBytes
    match r.1 with
    | none => (false, r.2)
    | some bs =>
      let tab := AbsTable.ofBytes t.unitsN bs
      let wide := widerWeight t.fmt rung
      let mode := (r.2.job d.job).modeAt d.step
      let new := tab.offsetStep (wide && mode != 0 && decide (tab.o < 24)) wide
      let w := r.2.put p c t.absmax.toNat new.bytes
      if !w.1 ∨ !wide then w
      else
        let c := { c with stages := 4, aff := w.2.widened c t rung tab src }
        (true, w.2.logOverflow { ovEvent c t mode 2 (BitVec.ofNat 4 rung) new.o (decide (24 ≤ tab.o)) s.time with fromFmt := BitVec.ofNat 4 t.fmt })

/-- Fill bytes up to the next multiple of 128. -/
def pad128 (bs : List Byte) : List Byte := bs ++ List.replicate (up128 bs.length - bs.length) 0

/-- The work of a MULTICAST: the payload, then the notice from the next 128-byte boundary (R228, R230). DESIGN CHOICE (log entry 118): a
SKIP or WITHHELD notice of a shard without a record here names the state of the descriptor. -/
def State.multicastWork (p : Port) (c : Ctx) (s : State) : State :=
  let d := c.desc
  let r := if d.noticeOnly then (some [], s) else s.pull p c d.source.toNat d.length
  match r.1 with
  | none => r.2
  | some src =>
    let o := if d.entriesN = 0 then (some [], r.2) else r.2.pull p c (d.w.getD 10 0).toNat (8 * d.entriesN)
    match o.1 with
    | none => o.2
    | some entries =>
      let s := o.2
      let rung := if d.noticeOnly then 0 else if d.rungOf ≠ 0 then d.rungOf else if d.tensorAddr = 0 then 0 else (s.ctxTensor c).fmt
      let st := match s.shardRec d.job d.shard8 with | some q => q.st | none => d.stateNo
      let bs := pad128 src ++ noticeBytes d.noticeKind d.job d.shard8 d.step st rung entries
      let c := { c with result := bs.length }
      let w := s.noteWeights p c rung src
      if w.1 then State.sentOut p c bs (w.2.emit p c (DWord.target d.dest) rung (d.step.setWidth 64) (some bs.length) bs) else w.2

/-- The work of an impression that needs no arrivals is done (R214, R244): SORT, FILTER, MULTICAST, a PERMUTE without
incoming blocks. -/
def State.workDone (p : Port) (c : Ctx) (s : State) : State :=
  if c.closing.isSome then s
  else match c.desc.op with
  | 4 =>
    if c.desc.incoming = 0 ∧ (!c.desc.inPlace ∨ c.readsDone) then s.permuteDone p c else s
  | 5 => s.sortWork p c
  | 6 => s.filterWork p c
  | 7 => s.multicastWork p c
  | _ => s

/-! ## The assignment of other frames (R204) -/

/-- A frame for an impression that is not a REDUCE: its context, else held for a queued descriptor, else stray. -/
def State.toCtx (p : Port) (f : Frame) (want : Ctx → Bool) (go : Ctx → State → State) (s : State) : State :=
  match (s.eng p).ctxs.find? fun c => c.desc.op != 1 && c.desc.job == f.job && c.desc.impr == f.ident && want c with
  | some c => go c s
  | none =>
    if s.matchesQueue p f then s.modEng p fun e => { e with held := e.held ++ [f] }
    else s.modEng p fun e => { e with stray := e.stray + 1 }

/-- A frame reaches the engine and is disposed of by the operation of its context. -/
def State.ingress (p : Port) (f : Frame) (s : State) : State :=
  if f.kind = 1 then s.contrib p f
  else s.toCtx p f (fun c => c.desc.op == 2 || c.desc.op == 3 || c.desc.op == 4) fun c s =>
    match c.desc.op with
    | 2 => if c.desc.serve then s.serveReq p c f else s.collect p c f
    | 3 => s.shiftFrame p c f
    | _ => s.permuteFrame p c f

/-- Give the frames that an engine held back to it again (R204). -/
def State.releaseHeld (p : Port) (s : State) : State :=
  let fs := (s.eng p).held
  fs.foldl (fun s f => s.ingress p f) (s.modEng p fun e => { e with held := [] })

/-! ## Activation (R203, R211, R217, R224, R231) -/

/-- The lowest free context number of an engine. -/
def Engine.freeId (e : Engine) : Option Nat := (List.range 16).find? fun i => !(e.ctxs.any fun c => c.id == i)

/-- Does the gate of a descriptor hold, has the start of its schedule entry come, and does no mapping switch hold it back (R203, R249,
R263, R318). -/
def State.gateHolds (q : QEntry) (s : State) : Bool :=
  let d := q.desc
  (d.startGate == 0xFFF || !s.hasEntry d.job d.startGate || s.gateOpen d.job d.startGate)
    && !(d.op == 1 && s.switchHeld d.job d.step)
    && (match q.entry with | some e => decide ((Table.get EntryProg.reset e (s.job d.job).prog).start ≤ s.time) | none => true)

/-- Take over what was staged for a REDUCE: units and payload where mask and layout agree (R217). -/
def State.adopt (p : Port) (c : Ctx) (s : State) : Bool × Ctx × State :=
  let t := s.ctxTensor c
  let mine := fun (x : StagedSet) => x.job == c.desc.job && x.shard == t.shard && x.tensor == t.id && x.step == c.desc.step
  match (s.eng p).staged.find? mine with
  | none => (true, c, s)
  | some x =>
    let s := s.modEng p fun e => { e with staged := e.staged.filter fun y => !mine y }
    if x.mask == c.mask && x.layout == c.desc.layout then
      let c := { c with units := x.units, payloads := x.payloads }
      let n := ((List.range c.mask.length).filter c.hasArrived).length
      (true, { c with arrived := n, firstArrival := decide (0 < n) }, s)
    else (false, { c with stray := x.payloads.length }, s)

/-- A good descriptor begins: what its operation does at once (R224, R231, R236). The tiles of a SHIFT have their sequence numbers by their
place in the ring (R326). -/
def State.begin_ (p : Port) (c : Ctx) (s : State) : State :=
  match c.desc.op with
  | 1 =>
    let t := s.ctxTensor c
    if s.setHeld p c.desc.job t.shard t.id c.desc.step then s.setCtx p { c with phase := .waitReads } else s
  | 3 => s.setCtx p { c with signSeq := c.desc.ringN * tilesAt (bitsOf c.desc.dest.toNat 0 32) c.desc.length }
  | 4 => s.permuteOut p c
  | 7 => if s.stateMismatch c.desc then s.endCtx p c Code.stateMismatch [] else s
  | _ => s

/-- Read the tables that lie in enabled units; none where a word cannot be read (R211, R216). -/
def State.pullTables (p : Port) (c : Ctx) : List (Chk × DWord × Nat) → State → Bool × State
  | [], s => (true, s)
  | t :: ts, s =>
    if t.1 = .ok then
      let r := s.pull p c t.2.1.toNat t.2.2
      match r.1 with
      | some _ => State.pullTables p c ts r.2
      | none => (false, r.2)
    else State.pullTables p c ts s

/-- A descriptor that has become active is checked, and begins or ends at once (R211, R217). -/
def State.checkIn (p : Port) (c : Ctx) (s : State) : State :=
  let d := c.desc
  let tabs := s.tables d
  let plain := tabs.map (·.1) ++ s.plainChecks p c
  if plain.contains .bad then s.endCtx p c Code.streamDescriptorInvalid []
  else
    let r := s.pullTables p c tabs
    if !r.1 then r.2
    else
      match checkCode (plain ++ r.2.tableChecks p c) with
      | some x => r.2.endCtx p c x []
      | none =>
        let a := if d.op = 1 then r.2.adopt p c else (true, c, r.2)
        if !a.1 then a.2.2.endCtx p a.2.1 Code.streamDescriptorInvalid []
        else
          let b := (a.2.2.setCtx p a.2.1).arriveAll p ((List.range c.mask.length).filter fun q => d.op == 1 && a.2.1.hasArrived q) a.2.1
          if b.1 then (b.2.2.setCtx p b.2.1).begin_ p b.2.1 else b.2.2

/-- The ranks that a descriptor names: the mask of a REDUCE or a GATHER, the ring list of a SHIFT, which its context keeps (R208, R234). -/
def State.ranksNamed (d : Desc) (s : State) : List Nat :=
  if d.op = 3 then (if s.chkAddr d.addr9 (2 * d.ringN) 1 = .ok then s.ringList d else [])
  else if d.needsMask && d.maskAddr != 0 && s.chkAddr d.maskAddr 512 1 == .ok then maskRanks (s.read d.maskAddr.toNat 512)
  else []

/-- The head descriptor of an engine becomes active where a context is free and its gate holds (R203); then the engine assigns the frames
that it held back (R204). -/
def State.activate (p : Port) (s : State) : State :=
  match (s.eng p).queue, (s.eng p).freeId with
  | q :: rest, some id =>
    if !s.gateHolds q then s
    else
      let c := Ctx.fresh id q s.time (s.ranksNamed q.desc)
      let s := s.modJob q.desc.job (Job.ledgerOpens q.step)
      let s := s.modEng p fun e => { e with
        queue := rest, lastGate := Table.set 0 q.desc.startGate s.time e.lastGate
        ctxs := (e.ctxs.filter fun x => x.id != id) ++ [c] }
      (s.checkIn p c).releaseHeld p
  | _, _ => s

/-! ## What follows of itself -/

/-- A REDUCE that waited for its slot set and finds it free begins, and its frames are released (R224). Frames for the
next step that waited for their set are staged (R219). -/
def State.settleReduce (p : Port) (c : Ctx) (s : State) : State :=
  let t := s.ctxTensor c
  if c.phase == .waitReads then
    if s.setHeld p c.desc.job t.shard t.id c.desc.step then s
    else c.held.foldl (fun s f => s.ingress p f) (s.setCtx p { c with phase := .collecting, held := [] })
  else if !c.held.isEmpty && !s.setHeld p c.desc.job t.shard t.id (c.desc.step + 1) then
    c.held.foldl (fun s f => s.ingress p f) (s.setCtx p { c with held := [] })
  else s

/-- One context after a command: a REDUCE whose vote has its outcome ends, a waiting one goes on, a GATHER whose fill is
complete serves its head, a PERMUTE that has been granted a granule takes the frames it held. -/
def State.settleCtx (p : Port) (id : Nat) (s : State) : State :=
  match s.ctx p id with
  | some c =>
    if c.phase == .outcome then s.finishReduce p c
    else if c.closing.isSome && s.sentAll c then s.closeSent p c
    else if c.desc.op = 1 then s.settleReduce p c
    else if c.desc.serve && c.phase == .waitReads then State.serveHeads p (c.requests.length + 1) c s
    else if c.desc.op = 4 ∧ !c.held.isEmpty ∧ (c.readsDone ∨ !s.waitsForGranule ⟨256 + p.toNat, true, c.desc.job, none⟩) then
      c.held.foldl (fun s f => s.ingress p f) (s.setCtx p { c with held := [] })
    else s
  | none => s

/-- Impressions whose last frame has left on its route end (R214). -/
def State.settleSent (s : State) : State :=
  let done := s.engines.flatMap fun (e : Nat × Engine) =>
    (e.2.ctxs.filter fun (c : Ctx) => c.closing.isSome && s.sentAll c).map fun (c : Ctx) => ((BitVec.ofNat 6 e.1 : Port), c)
  if done.isEmpty then s else (done.foldl (fun s e => s.closeSent e.1 e.2) s).dispatchOwn

/-- An engine whose held frames match a queued descriptor no longer assigns them anew: to their contexts, else as stray (R204). -/
def State.settleEngine (p : Port) (s : State) : State :=
  if (s.eng p).held.all fun f => s.matchesQueue p f then s else s.releaseHeld p

/-- Everything that follows of itself once a command has taken effect, engine by engine and context by context; frames that no unit holds
back any more free their buffers. -/
def State.settle (s : State) : State :=
  (s.engines.foldl (fun s e =>
    (e.2.ctxs.foldl (fun s c => s.settleCtx (BitVec.ofNat 6 e.1) c.id) s).settleEngine (BitVec.ofNat 6 e.1)) s).freeUnits

end Sys2Proof.Machine
end

