-- ==== Sys2Proof/Machine/Mirror.lean ====
section
/-! DEFINITION. The mirroring of updates: the pieces of a mirrored move, staged bytes, seals, the local shadow, and the
end of a move (07 R186, R188, R189; 21 R508 to R510, R513, R515, R516). -/

namespace Sys2Proof.Machine

/-! ## Staged bytes (R509, R510) -/

/-- Bytes staged for a state number of an image: the state number, the image offset, the bytes. -/
abbrev Staged := Word × Nat × List Byte

/-- The staged bytes of one state number. -/
def stagedOf (st : Word) (l : List Staged) : List Staged := l.filter fun x => x.1 == st
/-- The staged bytes of every other state number. -/
def stagedBut (st : Word) (l : List Staged) : List Staged := l.filter fun x => x.1 != st
/-- The number of bytes staged. -/
def stagedBytes (l : List Staged) : Nat := l.foldl (fun n x => n + x.2.2.length) 0

/-- Write bytes at an offset of a shadow, granule by granule of 1 MiB, in 16-byte units (R294, R516). -/
def State.writeShadow (no : JobNo) (gs : List DWord) : Nat → Nat → List Byte → State → State
  | 0, _, _, s => s
  | n + 1, off, bs, s =>
    if bs.isEmpty then s
    else
      let k := min (1048576 - off % 1048576) bs.length
      let s := s.cpStore no ((gs.getD (off / 1048576) 0).toNat + off % 1048576) (bs.take k)
      State.writeShadow no gs n (off + k) (bs.drop k) s

/-- A shadow takes the staged bytes of a state as one update and records the state (R510, R516). -/
def State.sealShadow (x : Shadow) (st : Word) (s : State) : State :=
  let s := (stagedOf st x.staged).foldl (fun s e => s.writeShadow x.job x.copy (e.2.2.length / 1048576 + 2) e.2.1 e.2.2) s
  s.modPair fun p => { p with shadows := p.shadows.map fun y =>
    if y.job = x.job ∧ y.shard = x.shard then { y with st := st, staged := stagedBut st y.staged } else y }

/-- The effect of a SEAL_ACK: the owner adds 1 to sealed_counter (R510). -/
def State.sealed (no : JobNo) (shard st : Word) (s : State) : State :=
  let s := s.modPair fun p => { p with seals := p.seals.filter fun x => !(x.job == no && x.shard == shard && x.st == st) }
  match s.mirrorSource no shard with
  | some m => s.signal m.sealed no 1 ⟨clsModule, 0⟩
  | none => s

/-- In SOLO and in RESYNC every waiting SEAL seals into its local shadow (R515, R516). -/
def State.sealShadows (s : State) : State :=
  if s.pair.st = .solo ∨ s.pair.st = .resync then
    s.pair.seals.foldl (fun s q =>
      match s.pair.shadows.find? fun x => x.job == q.job && x.shard == q.shard with
      | some x => (s.sealShadow x q.st).sealed q.job q.shard q.st
      | none => s) s
  else s

/-! ## Mirrored moves (R509) -/

/-- The image offsets of the MIRROR_DATA frames for n bytes at an offset of an image, each with its length. MODULE frames carry 32-byte units
(R350, R506), so the units that the bytes touch are sent as they stand in the own image (log entry 25). -/
def imagePieces (off n : Nat) : List (Nat × Nat) :=
  let lo := off / 32 * 32
  let len := (off + n + 31) / 32 * 32 - lo
  (List.range ((len + 4095) / 4096)).map fun i => (lo + 4096 * i, min 4096 (len - 4096 * i))

/-- The image offsets of the MIRROR_DATA frames of a mirrored move, each with its length. -/
def MoveOut.pieces (m : MoveOut) (base : DWord) : List (Nat × Nat) := imagePieces (m.dst.toNat - base.toNat) m.len

/-- Send pieces of an image as MIRROR_DATA frames that stage a state; one that cannot be read is not sent (R313, R506). -/
def State.sendPieces (no : JobNo) (shard st : Word) (base : DWord) (ps : List (Nat × Nat)) (s : State) : State :=
  ps.foldl (fun s p =>
    let r := s.cpRead no (base.toNat + p.1) p.2
    match r.1 with
    | some bs => r.2.sendPair (pairFrame 1 3 no (pairDetail shard st) (BitVec.ofNat 32 p.1) bs)
    | none => r.2) s

/-- Send the MIRROR_DATA frames of a mirrored move (R506, R509): the state number is the shard's current one plus 1. -/
def State.sendMirror (m : MoveOut) (e : MirrorEntry) (ps : List (Nat × Nat)) (s : State) : State :=
  s.sendPieces m.impr.job m.shard (s.shardState m.impr.job m.shard + 1) e.base ps

/-- Stage the bytes of a mirrored move in the local shadow of its shard (R516). -/
def State.stageShadow (m : MoveOut) (e : MirrorEntry) (s : State) : State :=
  let st := s.shardState m.impr.job m.shard + 1
  let off := m.dst.toNat - e.base.toNat
  let r := s.cpRead m.impr.job m.dst.toNat m.len
  match r.1 with
  | some bs => r.2.modPair fun p => { p with shadows := p.shadows.map fun y =>
      if y.job = m.impr.job ∧ y.shard = m.shard then { y with staged := y.staged ++ [(st, off, bs)] } else y }
  | none => r.2

/-! ## The end of a move (R186, R188, R189) -/

/-- Take a move off the outstanding moves of its cluster. -/
def State.dropMove (c : ClusterId) (m : MoveOut) (s : State) : State :=
  s.modClu c fun k => { k with moves := k.moves.erase m }

/-- All bytes of a move have committed: its increment applies, and it is no longer outstanding. -/
def State.moveDone (c : ClusterId) (m : MoveOut) (s : State) : State :=
  (s.dropMove c m).signal m.counter m.impr.job m.inc.toNat (srcCluster c)

/-- Replace an outstanding move by its next form. -/
def State.setMove (c : ClusterId) (old new : MoveOut) (s : State) : State :=
  s.modClu c fun k => { k with moves := k.moves.map fun m => if m = old then new else m }

/-- The parts of a range of n bytes from a, cut at the aligned 128-byte lines. -/
def blocks128 : Nat → Nat → Nat → List (Nat × Nat)
  | 0, _, _ => []
  | k + 1, a, n => if n = 0 then [] else let m := min (128 - a % 128) n; (a, m) :: blocks128 k (a + m) (n - m)

/-- Copy the bytes of a move line by line of its source; a line that cannot be read is not written, and a part of an uncorrectable word of
the destination stays as it is (R150, R438, R442). Answers the first failure. -/
def State.copyMove (c : ClusterId) (m : MoveOut) (s : State) : State × Option ReadFail :=
  (blocks128 (m.len / 16 + 1) m.src.toNat m.len).foldl (fun acc b =>
    let r := acc.1.demand b.1 b.2 (c.setWidth 16) m.impr.job
    match r.1.2 with
    | none =>
      let w := r.2.storeBy (c.setWidth 16) m.impr.job (m.dst.toNat + (b.1 - m.src.toNat)) r.1.1
      (w.2, acc.2.orElse fun _ => w.1)
    | some f => (r.2, acc.2.orElse fun _ => some f)) (s, none)

/-- Cut n bytes at a at 64 KiB boundaries. -/
def cutTiles : Nat → Nat → Nat → List (Nat × Nat)
  | 0, _, _ => []
  | k + 1, a, n => if n = 0 then [] else let m := min (65536 - a % 65536) n; (a, m) :: cutTiles k (a + m) (n - m)

/-- The tiles of an object of n bytes at a: one up to 64 KiB, else those between the 64 KiB boundaries (R326). -/
def cut64k (a n : Nat) : List (Nat × Nat) := if n ≤ 65536 then [(a, n)] else cutTiles (n / 65536 + 2) a n

/-- Sign the destination tiles of a move into DRAM (R326). -/
def State.signMove (c : ClusterId) (m : MoveOut) (s : State) : State :=
  match DWord.loc m.dst with
  | .dram _ o =>
    let tiles := cut64k o m.len
    ((List.range tiles.length).zip tiles).foldl (fun s e =>
      s.sign c.die m.impr.job 1 c 2 m.impr.id m.impr.step (BitVec.ofNat 32 (m.seq + e.1)) 0xFFFFFFFF false
        (s.read (m.dst.toNat - o + e.2.1) e.2.2)) s
  | _ => s

/-- A move whose source cannot be read adds no increment, and the impression that issued it ends with the code at the
next step boundary of its cluster (R150, R442). Where that impression has ended already, an SRAM word is reported in the
event log only. -/
def State.moveFailed (c : ClusterId) (m : MoveOut) (f : ReadFail) (s : State) : State :=
  let s := s.dropMove c m
  let k := s.clu c
  if k.impr = some m.impr then s.endAtBoundary c ⟨f.code, k.pc, 4, 6, BitVec.ofNat 32 f.word, f.inj⟩
  else if f.code = Code.sramUncorrectable then
    (s.append { s.event f.code clsCluster (c.setWidth 16) m.impr.job (BitVec.ofNat 32 f.word) with injected := f.inj }).trigger
  else s

/-- The bytes of a mirrored move have committed here: they go to the partner, wait for it, or go to the local shadow
(R509, R511, R513, R516). -/
def State.mirrorMove (c : ClusterId) (m : MoveOut) (e : MirrorEntry) (s : State) : State :=
  let ps := m.pieces e.base
  let waits : MoveOut := { m with copied := true, acksDue := ps.map (·.1) }
  match s.pair.st with
  | .solo => (s.stageShadow m e).moveDone c m
  | .resync => (s.stageShadow m e).moveDone c m
  | .paired => (s.setMove c m waits).sendMirror waits e ps
  | .recovering => (s.setMove c m waits).sendMirror waits e ps
  | .partnerLost => s.setMove c m waits
  | .takeover => s.setMove c m waits
  | .unpaired => s.moveDone c m
  | .fenced => s.setMove c m waits

/-- MOVE_COMPLETE: the bytes commit at the destination; then the increment, at once or after the mirror (R186, R509). -/
def State.moveComplete (c : ClusterId) (m : MoveOut) (s : State) : State :=
  if m.copied then s
  else
    let r := s.copyMove c m
    match r.2 with
    | some f => r.1.moveFailed c m f
    | none =>
      let s := r.1.signMove c m
      if m.mirrored then
        match s.mirrorSource m.impr.job m.shard with
        | some e => s.mirrorMove c m e
        | none => s.moveDone c m
      else s.moveDone c m

end Sys2Proof.Machine
end

