-- ==== Sys2Proof/Machine/Proof.lean ====
section
/-! DEFINITION. The signatures of proof mode: batches to the partner, the comparison of entries, divergence (12 R325 to
R329). -/

namespace Sys2Proof.Machine

/-! ## Proof mode (R324 to R329) -/

/-- Do two entries of one key agree in every field but the state (R328). -/
def sigAgrees (a b : SigEntry) : Bool := a.object == b.object && a.crc == b.crc && a.bytes == b.bytes

/-- The order of keys: unit kind, unit, impression, step, sequence number (R327, R329). -/
def sigOrder (k : SigKey) : Nat :=
  ((((k.unitKind.toNat * 256 + k.unit.toNat) * 2 ^ 32 + k.impression.toNat) * 2 ^ 32 + k.step.toNat) * 2 ^ 32) + k.seq.toNat

/-- The 32 bytes of a signature entry (R327). -/
def sigBytes (e : SigEntry) : List Byte :=
  leBytes 4 (e.key.unitKind.toNat + 256 * e.key.unit.toNat + 65536 * e.object.toNat) ++ leBytes 4 e.key.impression.toNat
    ++ leBytes 4 e.key.seq.toNat ++ leBytes 4 e.state.toNat ++ leBytes 8 e.crc.toNat ++ leBytes 4 e.key.step.toNat
    ++ leBytes 4 e.bytes.toNat

/-- Is the comparison of a job's signatures still to act: it runs, or it is DONE and has not ended (R328, R459). -/
def Job.compares (j : Job) : Bool := j.st == .running || j.st == .done

/-- A divergence of a job that has not stopped: the report names the lowest key that this module found or was told of before its
stop, and counts the others; then the job stops (R328, R329). -/
def State.diverge (no : JobNo) (missing detector injected : Bool) (own : SigEntry) (partnerCrc : DWord) (further : Nat) (s : State) : State :=
  let j := s.job no
  if j.compares then
    let r : DivReport := ⟨no, missing, detector, injected, own, if missing then 0 else partnerCrc, s.time, further, j.cleanCmp⟩
    let s := s.modJob no fun j => { j with report := some r, divMore := further }
    s.stopJob no Code.proofDiverged clsModule 0 (own.key.impression)
  else s

/-- The 64 bytes of a divergence report (R329). -/
def DivReport.bytes (r : DivReport) : List Byte :=
  leBytes 4 (r.job.toNat + 2 ^ 16 * b2n r.missing + 2 ^ 18 * b2n r.detector + 2 ^ 19 * b2n r.injected)
  ++ leBytes 4 r.own.key.impression.toNat ++ leBytes 4 r.own.key.step.toNat ++ leBytes 4 r.own.state.toNat
  ++ leBytes 4 (r.own.key.unitKind.toNat + 2 ^ 8 * r.own.key.unit.toNat + 2 ^ 16 * r.own.object.toNat) ++ leBytes 4 r.own.key.seq.toNat
  ++ leBytes 8 r.own.crc.toNat ++ leBytes 8 r.partnerCrc.toNat ++ leBytes 8 r.time
  ++ leBytes 4 (min r.further 0xFFFFFFFF) ++ leBytes 4 r.clean ++ leBytes 8 0

/-- The notice of a divergence to the partner (R328): a MODULE frame with the own entry as payload (log entry 35). -/
def State.sendNotice (no : JobNo) (own : SigEntry) (s : State) : State := s.sendPair (pairFrame 9 1 no 0 0 (sigBytes own))

/-- Signature entries that a die has not sent yet leave in batches of at most 128 for the partner's same die (R327; log
entry 35). -/
def State.sendBatches (s : State) : State :=
  allDies.foldl (fun s d =>
    let es := (s.die d).sigOwn.filter fun (x : SigHeld) => !x.sent
    if es.isEmpty then s
    else
      let s := s.modDie d fun x => { x with sigOwn := x.sigOwn.map fun y => { y with sent := true } }
      (List.range ((es.length + 127) / 128)).foldl (fun s i =>
        let part := (es.drop (128 * i)).take 128
        s.sendPair (pairFrame 8 1 (part.headD ⟨⟨⟨0, 0, 0, 0, 0⟩, 0, 0, 0, 0⟩, 0, 0, true, false⟩).job (d.setWidth 64) 0
          (part.flatMap fun (x : SigHeld) => sigBytes x.e))) s) s

/-- The partner's entry of a key on a die. -/
def DieState.partnerEntry (k : SigKey) (x : DieState) : Option SigHeld := x.sigPartner.find? fun (y : SigHeld) => y.e.key == k

/-- The mismatches of one job on every die: the one with the lowest key stops the job and is told to the partner, the others are counted
(R328, R329). -/
def State.mismatch (bad : List (SigHeld × SigHeld)) (s : State) : State :=
  match sortBy (fun (a b : SigHeld × SigHeld) => decide (sigOrder a.1.e.key ≤ sigOrder b.1.e.key)) bad with
  | b :: rest =>
    if (s.job b.1.job).compares then
      (s.diverge b.1.job false false b.1.inj b.1.e b.2.e.crc rest.length).sendNotice b.1.job b.1.e
    else s
  | [] => s

/-- The own entries of a die whose partner entry has arrived, with that entry (R328). -/
def DieState.sigPairs (x : DieState) : List (SigHeld × SigHeld) :=
  x.sigOwn.filterMap fun (o : SigHeld) => (x.partnerEntry o.e.key).map fun p => (o, p)

/-- The entries of a die that have been compared leave. -/
def State.dropPairs (d : Die) (s : State) : State :=
  let keys := (s.die d).sigPairs.map fun x => x.1.e.key
  if keys.isEmpty then s
  else s.modDie d fun x => { x with
    sigOwn := x.sigOwn.filter fun (y : SigHeld) => !keys.contains y.e.key
    sigPartner := x.sigPartner.filter fun (y : SigHeld) => !keys.contains y.e.key }

/-- Compare every own entry whose partner entry has arrived, each die its own (R328): clean pairs are counted and leave; the mismatches of
each job, on whichever die, stop it (R329). -/
def State.matchSigs (s : State) : State :=
  let pairs := allDies.flatMap fun d => (s.die d).sigPairs
  if pairs.isEmpty then s
  else
    let s := allDies.foldl (fun s d => s.dropPairs d) s
    let clean := pairs.filter fun x => sigAgrees x.1.e x.2.e
    let bad := pairs.filter fun x => !sigAgrees x.1.e x.2.e
    let s := clean.foldl (fun s x => s.modJob x.1.job fun j => { j with cleanCmp := sat32 j.cleanCmp 1 }) s
    (bad.map fun x => x.1.job).dedup.foldl (fun s no => s.mismatch (bad.filter fun x => x.1.job == no)) s

end Sys2Proof.Machine
end

