-- ==== Sys2Proof/Machine/Maps.lean ====
section
/-! DEFINITION. The install of shard records and the switch of a job to another mapping (09 R263 to R265; 11 R306, R307;
21 R515), and the advances of proof mode that waited for signatures (12 R325). -/

namespace Sys2Proof.Machine

/-- An area that holds nothing. -/
def Area.free : Area := ⟨0, false, false, false, 0⟩

/-- The areas of a shard record whose state n is installed, valid or filling (R306). -/
def installAreas (hold : Nat) (n : Word) (fill : Bool) : List Area :=
  (List.range 4).map fun a => if a = n.toNat % max 1 hold then ⟨n, !fill, false, fill, 0⟩ else Area.free

/-- A shard record at its install. -/
def Shard.install (n : Word) (fill : Bool) (r : Shard) : Shard :=
  { r with st := n, areas := installAreas r.hold n fill, readers := [], relDue := [], advDue := 0 }

/-- The mirror-table entry of a shard. -/
def Plate.mirrorOf (shard : Word) (p : Plate) : Option MirrorEntry := p.mirror.find? fun m => m.shard == shard

/-- The state number of a shard that has come: that of the state header received for it, else that of the header at the start of its
image, else the plate's own (R264; log entry 107). -/
def State.headerState (p : Plate) (r : Shard) (s : State) : Word × State :=
  match (s.job r.job).headers.find? fun x => x.1 == r.shard with
  | some x => (x.2, s)
  | none =>
    match p.mirrorOf r.shard with
    | some m =>
      let h := s.cpRead r.job m.base.toNat 16
      match h.1 with
      | some bs =>
        (if leNat (bs.take 4) = r.shard.toNat ∧ leNat ((bs.drop 8).take 2) = r.job.toNat then BitVec.ofNat 32 (leNat ((bs.drop 4).take 4)) else r.st, h.2)
      | none => (r.st, h.2)
    | none => (r.st, s)

/-- Install the record of a shard and mark its wire areas. -/
def State.install (n : Word) (fill : Bool) (r : Shard) (s : State) : State :=
  let s := { s with shards := (s.shards.filter fun (x : Shard) => !(x.job == r.job && x.shard == r.shard)) ++ [r.install n fill] }
  s.markWire r

/-- Free the granules that a range of a stack touches, where a job holds them. -/
def State.freeRange (a n : Nat) (no : JobNo) (s : State) : State :=
  (granulesIn a n).foldl (fun s g =>
    match granuleAt g with
    | some x => if (s.gran x).job = no ∧ (s.gran x).st ≠ .free then s.freeGranule g else s
    | none => s) s

/-- A shard leaves this module: its record, its wire areas and its state image go (R263). -/
def State.dropShard (r : Shard) (s : State) : State :=
  let s := { s with shards := s.shards.filter fun (x : Shard) => !(x.job == r.job && x.shard == r.shard) }
  let s := s.freeRange r.wireBase.toNat (r.hold * r.areaSize) r.job
  match (s.plate r.job).bind (Plate.mirrorOf r.shard) with
  | some m => if m.hold then s else s.freeRange m.base.toNat m.length r.job
  | none => s

/-- The shards that this module owns under mapping b. -/
def State.ownedIn (no : JobNo) (b : Nat) (s : State) : List Word :=
  match s.plate no with
  | some p => match p.mappings[b]? with
    | some m => (m.shards.filter fun (e : ShardEntry) => some e.owner == s.ownRank no).map fun (e : ShardEntry) => e.shard
    | none => []
  | none => []

/-! ## The tensors of a job (R118, R264) -/

/-- The addresses of the stream descriptors that a plate holds: those of its schedule, and every 128 bytes of its descriptor
areas. -/
def Plate.descAddrs (p : Plate) : List Nat :=
  ((p.sched.filter fun (e : SchedEntry) => e.kind == 2#2).map fun (e : SchedEntry) => e.address.toNat)
    ++ (p.images.filter fun (i : Image) => i.type == 0x13).flatMap fun (i : Image) => (List.range (i.bytes.length / 128)).map fun k => i.dest.toNat + 128 * k

/-- The tensors that the descriptors of a job on this module name. -/
def State.namedTensors (no : JobNo) (s : State) : List Tensor :=
  match s.plate no with
  | some p =>
    let ds := (p.descAddrs.map fun a => Desc.ofBytes (s.read a 128)).filter fun (d : Desc) => 1 ≤ d.op ∧ d.op ≤ 7 ∧ d.job = no ∧ d.tensorAddr ≠ 0
    ((ds.map fun d => s.tensor d).filter fun (t : Tensor) => t.absmax != 0).eraseDups
  | none => []

/-- The tensors of a job on this module: those of its descriptors whose shard no other module owns. -/
def State.jobTensors (no : JobNo) (s : State) : List Tensor :=
  let theirs := match s.mappingOf no with
    | some m => (m.shards.filter fun (e : ShardEntry) => some e.owner != s.ownRank no).map fun (e : ShardEntry) => e.shard
    | none => []
  (s.namedTensors no).filter fun (t : Tensor) => !theirs.contains t.shard

/-- Clear valid in the absmax table of a tensor; o and clean_steps stay (R118, R264). -/
def State.clearValid (no : JobNo) (t : Tensor) (s : State) : State :=
  let r := s.cpRead no t.absmax.toNat 4
  match r.1 with
  | some bs => r.2.cpStore no t.absmax.toNat (leBytes 4 (leNat bs - 2 ^ 20 * (leNat bs / 2 ^ 20 % 2)))
  | none => r.2

/-! ## The start of a switch (R263, R265) -/

/-- Has every entry of the mapping in force ended its last step before the effective one of a switch (R263; log entry 28). -/
def Job.entriesDue (p : Plate) (eff : Word) (j : Job) : Bool :=
  (List.range p.sched.length).all fun i => match p.sched[i]? with
    | some x =>
      let g := Table.get EntryProg.reset i j.prog
      x.mapping.toNat != j.mapping || ((decide (eff.toNat ≤ x.first + g.next) || decide (x.last < x.first + g.next)) && !g.running)
    | none => true

/-- Has the step boundary of a switch come: every step before the effective one is complete under the mapping in force, on the clusters and
in the engines (R263, step 1; log entry 28). -/
def State.mapDue (no : JobNo) (p : Plate) (eff : Word) (s : State) : Bool :=
  (s.job no).entriesDue p eff
    && !(s.engines.any fun e => (e.2.queue.any fun q => q.desc.job == no && decide (q.step < eff))
        || (e.2.pacorWait.any fun q => q.1.desc.job == no && decide (q.1.step < eff))
        || (e.2.ctxs.any fun c => c.desc.job == no && decide (c.step < eff)))

/-- May a switch to mapping b start: not in a local recovery, and during a pair failover, which ends with the switch to its mapping, only
that one (R265). -/
def State.mapMayStart (b : Nat) (s : State) : Bool :=
  s.pair.recUnits.isEmpty && s.pair.st != .partnerLost && s.pair.st != .takeover
    && (!s.pair.solo || b == s.pair.foMapping
        || !(s.jobs.any fun e => e.2.st == .running && (match e.2.mapPend with | some m => m.2 == s.pair.foMapping | none => false)))

/-- The work of a mapping switch: a PERMUTE, and a program, which launches such work and arrives at the switch barrier (R263; log entry
28). -/
def State.switchWork (x : SchedEntry) (s : State) : Bool :=
  x.kind == 1#2 || (Desc.ofBytes (s.read x.address.toNat 128)).op == 4

/-- Is an impression of a step of a job held by a mapping switch that takes effect there: until mapping b holds nothing but the work of the
switch starts, and that once the switch has started (R263, R265). -/
def State.stepHeld (no : JobNo) (x : SchedEntry) (step : Nat) (s : State) : Bool :=
  match (s.job no).mapPend with
  | some e => decide (e.1.toNat ≤ step) && !((s.job no).mapOn.isSome && s.switchWork x)
  | none => false

/-- The switch that the plate itself names after a step: to the mapping whose entries begin at the lowest step beyond it, of those that begin
beyond the first step of the mapping in force. The spec does not say how a plate names a boundary: DESIGN CHOICE (log entry 108; R263). -/
def Plate.nextSwitch (p : Plate) (cur : Nat) (after : Nat) : Option (Word × Nat) :=
  let firsts := fun (b : Nat) => (p.sched.filter fun (e : SchedEntry) => e.mapping.toNat == b).map fun (e : SchedEntry) => e.first
  let here := (firsts cur).min?
  let next := ((List.range 4).filter (· != cur)).filterMap fun b => match (firsts b).min?, here with
    | some f, some h => if h < f ∧ after < f then some (f, b) else none
    | _, _ => none
  (next.foldl (fun (o : Option (Nat × Nat)) x => match o with
    | some y => if x.1 < y.1 then some x else o
    | none => some x) none).map fun x => (BitVec.ofNat 32 x.1, x.2)

/-! ## Step 3: the copies of the shards that have come, and their records (R263, R264, R306) -/

/-- Send the image of a shard that has come to the partner at its state number, or stage it in the local shadow of a module without one
(R263, R509, R516). -/
def State.copyShard (m : MirrorEntry) (n : Word) (s : State) : State :=
  if s.pair.st = .paired ∨ s.pair.st = .recovering then
    s.sendPieces m.job m.shard n m.base (imagePieces 0 m.length)
  else
    let r := s.cpRead m.job m.base.toNat m.length
    match r.1 with
    | some bs => r.2.modPair fun p => { p with shadows := p.shadows.map fun y =>
        if y.job = m.job ∧ y.shard = m.shard then { y with staged := y.staged ++ [(n, 0, bs)] } else y }
    | none => r.2

/-- Is every granule of a shard's wire areas free, or held for them already: the install requests them for the pacor control processor of
their die, and waits until it has them (R294, R302). -/
def State.wireFree (r : Shard) (s : State) : Bool :=
  (granulesIn r.wireBase.toNat (r.hold * r.areaSize)).all fun a => match granuleAt a with
    | some g => (s.gran g).st == .free || ((s.gran g).st == .wire && (s.gran g).job == r.job)
    | none => true

/-- One shard has come: its copy is made, its record installed with its area filling, and the absmax tables that came with it are not
valid (R263, R264). In proof mode no copy is sent (R325). -/
def State.shardCame (no : JobNo) (p : Plate) (r : Shard) (s : State) : State :=
  let h := s.headerState p r
  let n := h.1
  let s := h.2
  let s := match p.mirrorOf r.shard with
    | some m => if m.hold || s.inProof no then s else s.copyShard { m with job := no } n
    | none => s
  let s := ((s.namedTensors no).filter fun (t : Tensor) => t.shard == r.shard).foldl (fun s t => s.clearValid no t) (s.install n true r)
  s.modJob no fun j => { j with headers := (j.headers.filter fun x => x.1 != r.shard) ++ [(r.shard, n)] }

/-- Step 3 of a switch to mapping b, before this module arrives at the switch barrier: it is done once every shard has come. -/
def State.switchCopies (no : JobNo) (b : Nat) (s : State) : State :=
  match s.plate no with
  | some p =>
    let mine := s.ownedIn no b
    let new := p.shardRecs.filter fun (r : Shard) => mine.contains r.shard && (s.shardState no r.shard == 0xFFFFFFFF)
    let s := new.foldl (fun s r => if s.wireFree { r with job := no } then s.shardCame no p { r with job := no } else s) s
    if new.all fun r => s.shardState no r.shard != 0xFFFFFFFF then s.modJob no fun j => { j with mapHere := true } else s
  | none => s

/-- After an aborted switch the records of the shards that came for it go again (R265). -/
def State.switchUndo (no : JobNo) (s : State) : State :=
  let j := s.job no
  let mine := s.ownedIn no j.mapping
  let came := s.shards.filter fun (r : Shard) => r.job == no && !mine.contains r.shard && r.isFilling && (j.headers.any fun x => x.1 == r.shard)
  let s := came.foldl (fun s r => s.dropShard r) s
  s.modJob no fun j => { j with mapBad := false, mapHere := false, headers := [] }

/-- Mapping b holds from now on: the shards that go are dropped with their granules and with the mirror copies that nobody here owes any
more, and its schedule entries run from the effective step (R263, R306). -/
def State.switchTo (no : JobNo) (b : Nat) (s : State) : State :=
  match s.plate no with
  | some p =>
    let mine := s.ownedIn no b
    let old := s.shards.filter fun (r : Shard) => r.job == no && !mine.contains r.shard
    let s := old.foldl (fun s r => s.dropShard r) s
    let theirs := match p.mappings[b]? with
      | some m => (m.shards.filter fun (e : ShardEntry) => match s.rankModule no e.owner, s.partner with
          | some x, some y => x == y.toNat
          | _, _ => false).map fun (e : ShardEntry) => e.shard
      | none => []
    let gone := s.pair.holds.filter fun (h : HoldRange) => h.job == no && !theirs.contains h.shard && !mine.contains h.shard
    let s := gone.foldl (fun s (h : HoldRange) => s.freeRange h.base.toNat h.length no) s
    let s := s.modPair fun x => { x with holds := x.holds.filter fun h => !gone.contains h }
    let eff := match (s.job no).mapPend with | some e => e.1.toNat | none => 0
    s.modJob no fun j => { j with
      mapping := b, mapPend := j.mapNext.orElse fun _ => p.nextSwitch b eff, mapNext := none
      mapReady := false, mapOn := none, mapAt := none, mapHere := false, headers := [], mapSince := s.time, mapStep := eff
      prog := (List.range p.sched.length).foldl (fun (t : Table EntryProg) i => match p.sched[i]? with
        | some (x : SchedEntry) =>
          let g := Table.get EntryProg.reset i t
          if x.mapping.toNat = b then Table.set EntryProg.reset i { g with next := max g.next (eff - x.first), due := 0 } t else t
        | none => t) j.prog }
  | none => s

/-- A precise fault of a program that started within a switch, before the switch barrier has completed here, aborts it (R265). -/
def State.mapHalted (no : JobNo) (s : State) : State :=
  s.clusters.foldl (fun s e => match e.2.impr, e.2.faultRec with
    | some r, some f => if e.2.gstate = .halted ∧ r.job = no then s.mapFail no r.start f.code else s
    | _, _ => s) s

/-- One job's mapping switch goes as far as it can: it starts at its step boundary, its copies are made when this module arrives at the
switch barrier, and mapping b holds once that barrier has completed (R263, R265). -/
def State.mapSwitch (no : JobNo) (s : State) : State :=
  let s := s.mapHalted no
  let s := if (s.job no).mapBad then s.switchUndo no else s
  match (s.job no).mapPend, s.plate no with
  | some m, some p =>
    let s := if (s.job no).mapOn.isNone && s.mapDue no p m.1 && s.mapMayStart m.2 then
        s.modJob no fun j => { j with mapOn := some s.time } else s
    let s := if (s.job no).mapAt.isSome && !(s.job no).mapHere then s.switchCopies no m.2 else s
    if (s.job no).mapReady && (s.job no).mapHere && s.pair.recUnits.isEmpty then s.switchTo no m.2 else s
  | _, _ => s

/-- Every mapping switch of a running job (R263, R265). -/
def State.mapSwitches (s : State) : State :=
  s.jobs.foldl (fun s e => if e.2.st = .running ∧ (e.2.mapPend.isSome || e.2.mapBad) then s.mapSwitch e.2.no else s) s

/-- The advances that waited for signatures and wait no longer; a stopped job advances nothing (R325). -/
def State.advancesDue (s : State) : State :=
  s.shards.foldl (fun s r =>
    if 0 < r.advDue ∧ !s.unmatched r.job ∧ (s.job r.job).st ≠ .stopped then
      (s.modShard r.job r.shard fun x => { x with advDue := x.advDue - 1 }).advanceShard r
    else s) s

end Sys2Proof.Machine
end

