-- ==== Sys2Proof/Machine/Messages.lean ====
section
/-! DEFINITION. Command messages: their arguments, their replies over every path, the mailboxes of a die (18 R453 to
R458, R470 to R473). -/

namespace Sys2Proof.Machine

/-! ## Arguments and replies -/

/-- The reply to a message: its status, its detail byte and its result words (R453, R457). -/
structure Reply where
  status : BitVec 16
  detail : Byte
  res    : List Word
  deriving DecidableEq, Repr

/-- What a command does: its reply, none where it is still in progress, and the state after it. -/
abbrev Effect := Option Reply × State

/-- Argument n of a message (R453). -/
def Msg.arg (n : Nat) (m : Msg) : Word := m.args.getD n 0
/-- Argument n as a number. -/
def Msg.argN (n : Nat) (m : Msg) : Nat := (m.args.getD n 0).toNat
/-- Two arguments as one 64-bit number, the low word first. -/
def Msg.arg64 (n : Nat) (m : Msg) : DWord := (m.args.getD n 0).setWidth 64 ||| ((m.args.getD (n + 1) 0).setWidth 64 <<< 32)
/-- Are the arguments beyond the first n, and those of a list, 0. -/
def Msg.onlyArgs (l : List Nat) (m : Msg) : Bool := (List.range 28).all fun i => l.contains i || Msg.arg i m == 0

/-- A command that is done, without results. -/
def Reply.ok : Reply := ⟨Code.ok, 0, []⟩
/-- A command that ends with a status and no result. -/
def Reply.fail (c : BitVec 16) : Reply := ⟨c, 0, []⟩
/-- A command that ends with a status and a detail. -/
def Reply.failD (c : BitVec 16) (d : Byte) : Reply := ⟨c, d, []⟩

/-- The state goes on with a reply. -/
def State.replies (r : Reply) (s : State) : Effect := (some r, s)

/-- Bytes as result words (R457: little-endian). -/
def wordsOf : Nat → List Byte → List Word
  | 0, _ => []
  | n + 1, bs => BitVec.ofNat 32 (leNat (bs.take 4)) :: wordsOf n (bs.drop 4)

/-- A result of bytes, whole words of them. -/
def Reply.bytes (bs : List Byte) : Reply := ⟨Code.ok, 0, wordsOf (bs.length / 4) bs⟩

/-- A 64-bit result as two words, the low one first. -/
def words64 (v : DWord) : List Word := [v.setWidth 32, (v >>> 32).setWidth 32]

/-- A page of records of k bytes: the index of the next record, 0xFFFF_FFFF after the last one, the number held, and as many whole
records as fit in 120 bytes (R461). -/
def paged (k : Nat) (first : Nat) (recs : List (List Byte)) : Reply :=
  let n := 120 / max k 1
  let part := (recs.drop first).take n
  let next : Word := if first + part.length < recs.length then BitVec.ofNat 32 (first + part.length) else 0xFFFFFFFF
  ⟨Code.ok, 0, [next, BitVec.ofNat 32 recs.length] ++ (part.flatMap fun bs => wordsOf ((bs.length + 3) / 4) bs)⟩

/-! ## Images and datagrams (R457, R470) -/

/-- The 256-byte image of a reply (R457). -/
def replyImage (code : BitVec 16) (m : Msg) (r : Reply) : List Byte :=
  leBytes 4 (code.toNat + 65536 * m.seq.toNat) ++ leBytes 4 (r.status.toNat + 65536 * m.seq.toNat)
    ++ leBytes 4 (m.job.toNat + 65536 * m.target.toNat) ++ leBytes 4 (4 * r.res.length + 2 ^ 24 * r.detail.toNat)
    ++ ((List.range 28).flatMap fun i => leBytes 4 (Msg.argN i m))
    ++ ((List.range 32).flatMap fun i => leBytes 4 (r.res.getD i 0).toNat)

/-- The bytes of a text. -/
def textBytes (t : String) : List Byte := t.toList.map fun c => BitVec.ofNat 8 c.toNat

/-- The envelope of a datagram (R470). -/
def envelope (reply relayed : Bool) (dataLen : Nat) (agent : DWord) (module : BitVec 9) (time : DWord) : List Byte :=
  leBytes 4 0x4D4C4E48 ++ leBytes 4 (1 + 256 * b2n reply + 512 * b2n relayed + 65536 * dataLen) ++ leBytes 8 agent.toNat
    ++ leBytes 4 module.toNat ++ leBytes 4 0 ++ leBytes 8 time.toNat

/-- Bytes with the identity key's signature under a context (R470, R539). -/
def signed (context : String) (bs : List Byte) : List Byte := bs ++ Config.ed448Sign "identity" (textBytes context) bs

/-- The number of this module, 0x1FF before a map is active (R462). -/
def State.ownModule (s : State) : BitVec 9 := if s.fab.map.isSome then s.fab.module else 0x1FF

/-- The datagram of a reply, signed with the identity key. -/
def State.replyDatagram (code : BitVec 16) (relayed : Bool) (agent : DWord) (m : Msg) (r : Reply) (s : State) : List Byte :=
  signed "HNL-MGMT" (envelope true relayed 0 agent s.ownModule (BitVec.ofNat 64 s.time) ++ replyImage code m r)

/-- A C4 frame of the relay: 402 bytes padded to 13 units; detail names the relaying module (R473). -/
def relayFrame (ident : Word) (relay dst : BitVec 9) (bytes : List Byte) : Frame :=
  { Frame.blank with
    kind := 9, cls := 4, plen := 13, job := 0, srcRank := 0, dstModule := dst, dstPort := 0x3F, ident := ident
    detail := relay.setWidth 64, payload := (bytes ++ List.replicate 416 0).take 416 }

/-! ## Replies -/

/-- Does a path name a remote agent. -/
def Path.agent (p : Path) : Option DWord :=
  match p with
  | .mgmt a _ => some a
  | .service a _ => some a
  | .relay a _ => some a
  | _ => none

/-- Does a message come over the service port. -/
def Path.isService (p : Path) : Bool :=
  match p with
  | .service _ _ => true
  | _ => false

/-- The right with which a message comes; local software has every right. -/
def Path.right (p : Path) : Nat :=
  match p with
  | .mgmt _ r => r.toNat
  | .service _ r => r.toNat
  | .relay _ r => r.toNat
  | _ => 3

/-- Send a reply to an agent where its request came from, and keep it for a repeated request (R470, R472, R473). -/
def State.replyAgent (code : BitVec 16) (a : DWord) (m : Msg) (r : Reply) (s : State) : State :=
  match s.hub.agentSeqs.find? fun (x : AgentSeq) => x.agent == a with
  | some x =>
    let bytes := s.replyDatagram code x.via.isSome a m r
    let s := s.modHub fun h => { h with agentSeqs := h.agentSeqs.map fun (y : AgentSeq) => if y.agent = a then { y with reply := bytes } else y }
    match x.via with
    | some v => s.send (relayFrame 2 v v bytes)
    | none => s.output (.datagram (Path.isService m.path) x.addr x.port bytes)
  | none => s.output (.reply code r.status m.seq r.detail r.res)

/-- Put the words of a list into a register table. -/
def putWords (ws : List Word) : Table Word := (List.range ws.length).foldl (fun t i => Table.set 0 i (ws.getD i 0) t) []

/-- A mailbox completes: results, then the final status, then busy and done (R454). -/
def State.mailboxDone (d : Die) (k : Nat) (r : Reply) (s : State) : State :=
  s.modDie d fun x => { x with
    mbx := Table.set Mailbox.reset k { Table.get Mailbox.reset k x.mbx with
      status := r.status, detail := r.detail, resLen := BitVec.ofNat 16 (4 * r.res.length), res := putWords r.res, owned := false } x.mbx
    busy := x.busy &&& ~~~ (1#16 <<< k)
    done := x.done ||| (1#16 <<< k) }

/-- The die that a message's target names (R457). -/
def Msg.die (m : Msg) : Die := BitVec.ofNat 2 m.target.toNat

/-- The hub commands that act on the dies: a plate is placed on them, a job starts, stops and ends on them (R458). Their checks fail in the
hub: DEDUCED (log entry 112). -/
def actsOnDies (code : BitVec 16) : Bool := [0x21, 0x22, 0x30, 0x31, 0x32].contains code.toNat

/-- The reply of a hub command that acts on the dies: a failure names the hub, but for a wrong state, whose detail is the state, and what a die
has met, whose detail is that die (R458, R459). -/
def hubReply (code : BitVec 16) (r : Reply) : Reply :=
  if actsOnDies code ∧ !([Code.ok, Code.wrongState, Code.cmdLost, Code.dramUncorrectable].contains r.status) then { r with detail := 0xFF } else r

/-- Answer a message: in the mailbox that held it, and to the agent that sent it. -/
def State.answerMsg (code : BitVec 16) (k : Nat) (m : Msg) (r : Reply) (s : State) : State :=
  let r := if m.target = 0 then hubReply code r else r
  let s := if k < 16 then s.mailboxDone (Msg.die m) k r else s
  match m.path with
  | .internal => s.output (.reply code r.status m.seq r.detail r.res)
  | .mailbox _ _ => s
  | .mgmt a _ => s.replyAgent code a m r
  | .service a _ => s.replyAgent code a m r
  | .relay a _ => s.replyAgent code a m r

/-- The outcome of a command: a reply that is there is sent. -/
def State.concludes (code : BitVec 16) (k : Nat) (m : Msg) (e : Effect) : State :=
  match e.1 with
  | some r => e.2.answerMsg code k m r
  | none => e.2

/-- The interrupt of the system processor: some done bit of some die is set (R454). -/
def State.interrupt (s : State) : Bool := allDies.any fun d => (s.die d).done != 0

/-! ## Job states (R459) -/

/-- The code of a job state. -/
def JobSt.code (x : JobSt) : Nat :=
  match x with
  | .none => 0
  | .loading => 1
  | .loaded => 2
  | .starting => 3
  | .running => 4
  | .done => 5
  | .stopped => 6

/-- Is a job started: RUNNING, DONE, STOPPED, or LOADED after a JOB_END (R460). -/
def Job.started (j : Job) : Bool := j.st == .running || j.st == .done || j.st == .stopped || (j.st == .loaded && j.ended)

/-- A command in a state that its job does not allow (R459). -/
def Job.wrong (j : Job) : Reply := Reply.failD Code.wrongState (BitVec.ofNat 8 j.st.code)

/-- Job 0 names no job (R459); a job in no allowed state stops the command. -/
def State.jobCheck (no : JobNo) (ok : Job → Bool) (s : State) : Option Reply :=
  if no = 0 then some (Reply.fail Code.badArgument)
  else if ok (s.job no) then none
  else some (s.job no).wrong

/-- Go on with a command unless a check has answered it. -/
def State.unless (c : Option Reply) (e : State → Effect) (s : State) : Effect :=
  match c with
  | some r => s.replies r
  | none => e s

/-- The first answer of a list of checks. -/
def firstReply : List (Option Reply) → Option Reply
  | [] => none
  | some r :: _ => some r
  | none :: l => firstReply l

/-- A check: the reply where the condition fails. -/
def need (ok : Bool) (r : Reply) : Option Reply := if ok then none else some r

/-- The reply BAD_ARGUMENT. -/
def badArg : Reply := Reply.fail Code.badArgument

end Sys2Proof.Machine
end

