-- ==== Sys2Proof/Machine/Event.lean ====
section
/-! DEFINITION. How a command becomes an outcome: time moves on to its instant, its effect takes place, and what
follows of itself is settled. The queue and the fuses are no part of any effect. -/

namespace Sys2Proof.Machine

/-- A JOB_START in progress whose job has been stopped ends with WRONG_STATE (R458). -/
def State.answerStopped (s : State) : State :=
  s.jobs.foldl (fun s (e : Nat × Job) =>
    match e.2.startMsg with
    | some m =>
      if e.2.st = .stopped then
        (s.modJob e.2.no fun j => { j with startMsg := none }).answerMsg 0x0030 16 m (Job.wrong e.2)
      else s
    | none => s) s

/-- What follows of itself once a command has taken effect: a JOB_START whose job has been stopped is answered, signatures are compared, advances and mapping switches that
are ready take place, a shadow takes the SEALs it can, the contexts of the engines go on, signatures leave, the
frames that the module's units have made take their routes, and the impressions whose last frame has left end. -/
def State.aftermath (s : State) : State :=
  s.answerStopped.matchSigs.advancesDue.mapSwitches.sealShadows.settle.sendBatches.releaseStream.dispatchOwn.settleSent

/-- The state after a command at instant now that made t of the state s; the queue of commands and the fuses (R9, R11)
are those of s, and network time does not run backwards (R25). -/
def State.finish (s : State) (now : Nat) (t : State) : State :=
  { t.aftermath with pending := s.pending, fuse := s.fuse, time := max s.time now }

/-- A command at instant now has the effect e. -/
def State.happens (now : Nat) (e : State → State) (s : State) : Host.Outcome State Fault Refusal :=
  .next (s.finish now (e (s.advanceTo now)))

/-- A command that comes without an instant has the effect e now. -/
def State.acts (e : State → State) (s : State) : Host.Outcome State Fault Refusal := .next (s.finish s.time (e s))

/-- An event of a cluster. A cluster that the fuses disable takes no step and has no event: time alone moves on (R8). -/
def State.onCluster (c : ClusterId) (now : Nat) (e : State → State) (s : State) : Host.Outcome State Fault Refusal :=
  s.happens now fun s => if s.hasCluster c then e s else s

/-- An event of a port or its stream engine. A disabled port ignores every received symbol and its stream engine does not exist: time
alone moves on (R7). -/
def State.onPort (p : Port) (now : Nat) (e : State → State) (s : State) : Host.Outcome State Fault Refusal :=
  s.happens now fun s => if s.hasPort p then e s else s

end Sys2Proof.Machine
end

