-- ==== Sys2Proof/Machine/Frames.lean ====
section
/-! DEFINITION. Frames as units on a link: the header and tail fields, the checks of a received frame, cut-through
forwarding and stomps, and the choice of the next frame at an egress (13 R349 to R362; 14 R380 to R388; 15 R395 to
R402, R411). -/

namespace Sys2Proof.Machine

/-! ## Units (R349, R350, R352) -/

/-- Cut bytes into n units of 32 bytes. -/
def unitsOf : Nat → List Byte → List (List Byte)
  | 0, _ => []
  | n + 1, bs => bs.take 32 :: unitsOf n (bs.drop 32)

/-- The header fields in 32 bytes; reserved tells whether a reserved bit is set (R350). -/
def headerOf (bs : List Byte) : Frame :=
  let v := leNat bs
  let b := fun (lo n : Nat) => bitsOf v lo n
  { Frame.blank with
    kind := BitVec.ofNat 4 (b 0 4), cls := BitVec.ofNat 3 (b 4 3), mc := b 7 1 == 1, plen := BitVec.ofNat 8 (b 8 8)
    ecn := b 16 1 == 1, echo := b 17 1 == 1, fmt := BitVec.ofNat 4 (b 20 4), sigDie := BitVec.ofNat 2 (b 24 2)
    sig := b 26 1 == 1, job := BitVec.ofNat 16 (b 32 16), srcRank := BitVec.ofNat 12 (b 48 12)
    dstModule := BitVec.ofNat 9 (b 64 9), dstPort := BitVec.ofNat 6 (b 73 6), group := BitVec.ofNat 12 (b 80 12)
    transfer := BitVec.ofNat 16 (b 96 16), ttl := BitVec.ofNat 10 (b 112 10), ident := BitVec.ofNat 32 (b 128 32)
    offset := BitVec.ofNat 32 (b 160 32), detail := BitVec.ofNat 64 (b 192 64)
    reserved := b 18 2 != 0 || b 27 5 != 0 || b 60 4 != 0 || b 79 1 != 0 || b 92 4 != 0 || b 122 6 != 0 }

/-- A frame with the tail fields of 32 bytes; the reserved bits that the CRC covers stay as they came (R352, R353). -/
def withTail (bs : List Byte) (f : Frame) : Frame :=
  let v := leNat bs
  { f with
    counter := BitVec.ofNat 16 (bitsOf v 0 16), inc := BitVec.ofNat 16 (bitsOf v 16 16)
    announced := BitVec.ofNat 32 (bitsOf v 32 32), stomp := bitsOf v 64 1 == 1, spare := BitVec.ofNat 127 (bitsOf v 65 127), crc := BitVec.ofNat 64 (bitsOf v 192 64) }

/-- The classes that a kind may carry (R351). -/
def classAllowed (kind cls : Nat) : Bool :=
  match kind with
  | 1 => cls == 0
  | 2 => cls == 0 || cls == 3
  | 3 => cls == 0
  | 4 => cls == 1
  | 5 => cls == 1
  | 6 => cls == 2
  | 7 => cls == 2
  | 8 => cls == 1 || cls == 3
  | 9 => cls == 4
  | _ => false

/-- Is a header one that the receiver cannot parse: it discards up to the next boundary (R354). -/
def headerBad (f : Frame) : Bool := f.kind == 0#4 || decide (9 < f.kind.toNat) || decide (128 < f.plen.toNat) || f.reserved

/-- Is a parsed header refused at an ingress: its class, a kind or a multicast that an endpoint may not send, no hops
left at a module that would forward (R354, R378). -/
def State.headerRefused (p : Port) (f : Frame) (s : State) : Bool :=
  let endp := s.role p == 1#4
  !classAllowed f.kind.toNat f.cls.toNat || (endp && (f.kind == 8#4 || f.kind == 9#4 || f.mc))
    || (f.ttl == 0#10 && (s.dests (some p) f).any fun d => match d with | .port _ => true | _ => false)

/-! ## Starting and continuing a frame on an egress -/

/-- Has the ingress of a copy been in no link retry since an instant (R357). -/
def State.ingressCalm (since : Nat) (i : Option Port) (s : State) : Bool :=
  match i with
  | some i => (s.port i).retrySince.isNone && decide ((s.port i).retryEnd ≤ since)
  | none => true

/-- Was a copy held whole for its egress, which is wider than the lanes on which it arrived (R381). -/
def PortState.narrow (q : Queued) (x : PortState) : Bool := q.ingress.isSome && decide (q.inWidth < laneCount x.txLanes)

/-- Is a C0 frame that leaves whole now one whose latency R411 bounds, and then what is measured of it. -/
def State.measured (p : Port) (q : Queued) (s : State) : Option Meas :=
  let x := s.port p
  if q.f.cls == 0#3 && q.resv && x.egress.gatedBy != 0#16 && s.ingressCalm q.born q.ingress && x.replayPos.isNone then
    some ⟨q.born, q.f.plen.toNat * 32000, portRate (laneCount x.txLanes), if x.narrow q then portRate q.inWidth else 0, q.ingress⟩
  else none

/-- Units that wait for their DATA block. -/
def PortState.push (us : List TxUnit) (p : PortState) : PortState := { p with txUnits := p.txUnits ++ us }

/-- A unit that does not begin a header. -/
def bodyUnit (bs : List Byte) : TxUnit := ⟨bs, false, none⟩

/-- The units of a frame without its tail. -/
def headUnits (f : Frame) : List TxUnit :=
  ⟨f.header, true, none⟩ :: (unitsOf (f.payload.length / 32) f.payload).map bodyUnit

/-- End a started copy of a frame that cannot go on with a stomped tail (R358). -/
def PortState.stompSending (p : PortState) : PortState :=
  match p.egress.sending with
  | some q => { (p.push [bodyUnit q.f.stomped.tail]) with
      stompTx := sat32 p.stompTx 1, egress := { p.egress with sending := none } }
  | none => p

/-- Change every copy of a frame that is still arriving, wherever it stands. -/
def State.mapCopies (uid : Nat) (g : Frame → Frame) (whole : Bool) (s : State) : State :=
  let q := fun (x : Queued) => if x.uid = uid ∧ !x.whole then { x with f := g x.f, whole := whole } else x
  let l := fun (x : Lookup) => if x.uid = uid ∧ !x.whole then { x with f := g x.f, whole := whole } else x
  { s with
    ports := s.ports.map fun (e : Nat × PortState) => (e.1, { e.2 with
      lookups := e.2.lookups.map l
      egress := { e.2.egress with
        queues := e.2.egress.queues.map fun (x : Nat × List Queued) => (x.1, x.2.map q)
        sending := e.2.egress.sending.map q } })
    fab := { s.fab with waiting := s.fab.waiting.map q } }

/-- Append a unit to every started copy of a frame; with its tail goes what R411 measures. -/
def State.pushCopies (uid : Nat) (u : List Byte) (tail : Bool) (s : State) : State :=
  { s with ports := s.ports.map fun (e : Nat × PortState) =>
      match e.2.egress.sending with
      | some q =>
        let meas := if tail then s.measured (BitVec.ofNat 6 e.1) q else none
        if q.uid = uid then (e.1, e.2.push [⟨u, false, meas⟩]) else e
      | none => e }

/-- One more payload unit of an arriving frame has been accepted (R347, R381). -/
def State.frameUnit (uid : Nat) (u : List Byte) (s : State) : State :=
  (s.mapCopies uid (fun f => { f with payload := f.payload ++ u }) false).pushCopies uid u false

/-- A received frame as a copy, with the lanes on which it arrives. -/
def Lookup.copy (p : Port) (lanes : Nat) (l : Lookup) : Queued := ⟨l.uid, l.f, l.since, false, some p, l.whole, false, none, false, lanes, false⟩

/-- The copy that frees the units of a received frame at its ingress. -/
def freeing (p : Port) (uid : Nat) (f : Frame) : Queued := Lookup.copy p 0 ⟨uid, f, 0, true, true, []⟩

/-- What a looked-up frame that has arrived whole does in the module itself, as its lookup has found (R372, R382). -/
def State.lookupHere (p : Port) (l : Lookup) (s : State) : State :=
  let s := s.modPort p fun x => { x with lookups := x.lookups.filter fun y => y.uid != l.uid }
  s.placeHere (l.copy p (laneCount (s.port p).rxLanes)) l.dests

/-- The tail of an arriving frame has passed R354: its copies are whole, started ones end with its tail, and a frame
for the module itself takes effect where its lookup has completed (R382). -/
def State.frameWhole (p : Port) (uid : Nat) (f : Frame) (s : State) : State :=
  let put := fun (x : Frame) => { x with counter := f.counter, inc := f.inc, announced := f.announced, stomp := false, spare := f.spare, crc := f.crc }
  let stood := s.stands uid
  let s := (s.mapCopies uid put true).pushCopies uid f.tail true
  let s := match (s.port p).lookups.find? fun (l : Lookup) => l.uid == uid && l.looked with
    | some l => s.lookupHere p l
    | none => s
  let started := s.ports.any fun (e : Nat × PortState) => match e.2.egress.sending with | some q => q.uid == uid | none => false
  let s := { s with ports := s.ports.map fun (e : Nat × PortState) =>
    match e.2.egress.sending with
    | some q => if q.uid = uid then (e.1, { e.2 with egress := { e.2.egress with sending := none } }) else e
    | none => e }
  let s := if f.kind = 4 ∧ f.cls = 1 then (allPorts.filter fun q => s.hasPort q).foldl (fun s q => s.mergePort q) s else s
  if started || !stood || !s.stands uid then s.release (freeing p uid f) else s

/-- An arriving frame has failed: copies that have not started are dropped, started ones are stomped, nothing takes
effect (R358, R380, R382). -/
def State.frameFailed (p : Port) (uid : Nat) (f : Frame) (s : State) : State :=
  let s := { s with
    ports := s.ports.map fun (e : Nat × PortState) =>
      let x := match e.2.egress.sending with
        | some q => if q.uid = uid then e.2.stompSending else e.2
        | none => e.2
      (e.1, { x with
        lookups := x.lookups.filter fun l => l.uid != uid
        egress := { x.egress with queues := x.egress.queues.map fun (k : Nat × List Queued) => (k.1, k.2.filter fun q => q.uid != uid) } })
    fab := { s.fab with waiting := s.fab.waiting.filter fun q => q.uid != uid } }
  s.release (freeing p uid f)

/-! ## Units received at a port (R349, R354) -/

/-- The frame in progress at an ingress, from its units. -/
def PortState.arriving (x : PortState) : Frame :=
  match x.rxUnits with
  | h :: t => { headerOf h with payload := t.flatten }
  | [] => Frame.blank

/-- The frame in progress ends. -/
def PortState.frameOver (x : PortState) : PortState := { x with rxUnits := [], rxUid := none }

/-- The units of a frame that the port discards by itself are free again. -/
def PortState.freeOwn (f : Frame) (x : PortState) : PortState :=
  let c := f.cls.toNat
  { x with freed := Table.set 0 c (Table.get 0 c x.freed + BitVec.ofNat 16 (unitCount f)) x.freed }

/-- A header reaches the port. -/
def State.rxHeader (p : Port) (u : List Byte) (s : State) : State :=
  let f := headerOf u
  let x := s.port p
  if headerBad f then s.setPort p { x with badFrame := sat32 x.badFrame 1, rxSkip := true }
  else if s.headerRefused p f then s.setPort p { x with badFrame := sat32 x.badFrame 1, rxUnits := [u], rxUid := none }
  else
    let n := s.fab.nextUid
    (s.setPort p { x with rxUnits := [u], rxUid := some n, lookups := x.lookups ++ [⟨n, f, s.time, false, false, []⟩] }).modFab fun b =>
      { b with nextUid := n + 1 }

/-- The tail of the frame in progress reaches the port: stomped, failed, or good (R354). -/
def State.rxTail (p : Port) (u : List Byte) (s : State) : State :=
  let x := s.port p
  let f := withTail u x.arriving
  let inj := decide (0 < x.crcInject)
  match x.rxUid with
  | none => s.setPort p (x.freeOwn f).frameOver
  | some n =>
    let s := s.setPort p x.frameOver
    if f.stomp then (s.modPort p fun x => { x with stompRx := sat32 x.stompRx 1 }).frameFailed p n f
    else if inj || f.crc != f.goodCrc then
      let s := s.modPort p fun x => { x with frameCrc := sat32 x.frameCrc 1, crcInject := x.crcInject - 1 }
      let s := s.append { s.event Code.frameCrc clsPort (p.setWidth 16) f.job 0 with injected := inj }
      s.frameFailed p n f
    else s.frameWhole p n f

/-- Is a unit the stomped tail of a frame cut short: stomp = 1 and the complement of the CRC of what has arrived (R353,
R358). -/
def PortState.cutShort (u : List Byte) (x : PortState) : Bool :=
  let f := withTail u x.arriving
  f.stomp && f.crc == ~~~ f.goodCrc

/-- One unit of an accepted DATA block; boundary tells that the first field names it. -/
def State.rxUnit (p : Port) (boundary : Bool) (u : List Byte) (s : State) : State :=
  let s := if boundary then s.modPort p fun x => { x with rxSkip := false } else s
  let x := s.port p
  if x.rxSkip then s
  else if x.rxUnits.isEmpty then (if u.headD 0 &&& 0x0F = 0 then s else s.rxHeader p u)
  else if (x.rxUnits.length - 1 < x.arriving.plen.toNat) && !x.cutShort u then
    let s := s.setPort p { x with rxUnits := x.rxUnits ++ [u] }
    match x.rxUid with
    | some n => s.frameUnit n u
    | none => s
  else s.rxTail p u

/-- The 19 units of an accepted DATA block in order (R348). -/
def State.rxUnits (p : Port) (first : Nat) (bs : List Byte) (s : State) : State :=
  ((List.range 19).zip (unitsOf 19 bs)).foldl (fun s e => s.rxUnit p (e.1 == first) e.2) s

/-! ## The route lookup (R381) -/

/-- Does a destination keep the frame on the package. -/
def Dest.stays (d : Dest) : Bool := match d with | .port _ => false | _ => true

/-- A route lookup completes: copies for egress ports are placed, cut through or whole; what the module takes itself waits
for the tail. -/
def State.lookupDone (p : Port) (l : Lookup) (s : State) : State :=
  let q := l.copy p (laneCount (s.port p).rxLanes)
  let ds := s.dests (some p) l.f
  if l.whole then
    let s := s.modPort p fun x => { x with lookups := x.lookups.filter fun y => y.uid != l.uid }
    (s.placePorts q ds).placeHere q ds
  else
    let here := ds.isEmpty || ds.any Dest.stays
    let s := s.modPort p fun x => { x with
      lookups := if here then x.lookups.map (fun (y : Lookup) => if y.uid = l.uid then { y with looked := true, dests := ds.filter Dest.stays } else y)
        else x.lookups.filter (fun (y : Lookup) => y.uid != l.uid) }
    s.placePorts q ds

/-- Every lookup that is 40 ns old completes. -/
def State.lookupsDone (p : Port) (s : State) : State :=
  ((s.port p).lookups.filter fun l => !l.looked && decide (l.since + 40 ≤ s.time)).foldl (fun s l => s.lookupDone p l) s

/-! ## The next frame of an egress (R387, R388, R395 to R397) -/

/-- Has a frame at an egress outlived the limit under which it was enqueued (R388, R392); one that has started is never aged, and pair frames on
a mirror port do not age (R507). -/
def State.aged (p : Port) (q : Queued) (s : State) : Bool :=
  match q.limit with
  | some l => decide (q.born + l < s.time) && !q.again && !(s.role p == 6#4 && q.f.kind == 8#4)
  | none => false

/-- Discard the aged frames at the head of a queue. -/
def State.ageHead (p : Port) (c : Nat) : Nat → State → State
  | 0, s => s
  | n + 1, s =>
    match (s.port p).egress.queue c with
    | q :: rest =>
      if s.aged p q then
        let s := s.modPort p fun x => { x with egress := x.egress.setQueue c rest }
        let s := s.modFab fun b => if c = 2 then { b with agedC2 := b.agedC2 + 1 }
          else if c = 3 then { b with agedC3 := b.agedC3 + 1 } else { b with agedC4 := b.agedC4 + 1 }
        State.ageHead p c n (s.release q)
      else s
    | [] => s

/-- The class after c in the order C1, C2, C3, C4 (R396). -/
def nextClass (c : Nat) : Nat := if c = 4 then 1 else c + 1

/-- drr_next of R396: the class whose head starts, and the egress with its deficits moved on. -/
def drrNext (ready : Nat → Option Nat) (empty : Nat → Bool) : Nat → Egress → Option Nat × Egress
  | 0, e => (none, e)
  | n + 1, e =>
    let c := e.ptr
    let e := if (ready c).isSome && e.fresh then
      { e with dc := Table.set 0 c (Table.get 0 c e.dc + 256 * weightOf e.weights c) e.dc, fresh := false } else e
    match ready c with
    | some cost =>
      if cost ≤ Table.get 0 c e.dc then (some c, { e with dc := Table.set 0 c (Table.get 0 c e.dc - cost) e.dc })
      else drrNext ready empty n { e with ptr := nextClass c, fresh := true }
    | none =>
      let e := if empty c then { e with dc := Table.set 0 c 0 e.dc } else e
      drrNext ready empty n { e with ptr := nextClass c, fresh := true }

/-- The class that starts a frame now, whether the reservation serves it, and the egress after the choice (R396, R397). -/
def State.chooseClass (p : Port) (s : State) : Option (Nat × Bool) × Egress :=
  let e := (s.port p).egress.fillB0 s.time
  let cost := fun c => (s.ready p c).map fun q => frameCost q.f
  match cost 0 with
  | some k =>
    let head := (e.queue 0).head?.map (·.uid)
    if 1000 * k ≤ e.b0 then (some (0, true), e.payB0 k)
    else if ([1, 2, 3, 4].any fun c => (cost c).isSome) then
      let e := if e.excessHd = head then e else { e with excess := e.excess + 1, excessHd := head }
      let r := drrNext cost (fun c => (e.queue c).isEmpty) 128 e
      (r.1.map fun c => (c, false), r.2)
    else (some (0, false), e.payB0 k)
  | none =>
    if ([1, 2, 3, 4].any fun c => (cost c).isSome) then
      let r := drrNext cost (fun c => (e.queue c).isEmpty) 128 e
      (r.1.map fun c => (c, false), r.2)
    else (none, e)

/-- Start a frame: it takes its credits, its pace and its rate, and its units go to the link (R360, R362, R387). -/
def State.startFrame (p : Port) (c : Nat) (reserved : Bool) (q : Queued) (s : State) : State :=
  let q := { q with resv := reserved }
  let meas := s.measured p q
  let narrow := (s.port p).narrow q
  let s := (s.ecnFor p q).foldl (fun s e => s.modFab fun b => { b with
    ecn := Table.set EcnRate.reset e.1 { e.2 with bucket := e.2.bucket - q.f.plen.toNat * 32000 } b.ecn }) s
  let s := s.modFab fun b => { b with
    storeFwd := if narrow then b.storeFwd + 1 else b.storeFwd
    mcCopies := if q.f.mc then b.mcCopies + 1 else b.mcCopies }
  let s := s.modPort p fun x =>
    let e := { x.egress.setQueue c ((x.egress.queue c).drop 1) with
      pace := fillBucket 8192000 (portRate (laneCount x.txLanes)) x.egress.pace (s.time - x.egress.paceAt) - q.f.plen.toNat * 32000
      paceAt := s.time }
    let x := { x with credits := Table.set 0 c (x.credit c - unitCount q.f) x.credits, egress := e }
    if q.whole then x.push (headUnits q.f ++ [⟨q.f.tail, false, meas⟩])
    else { (x.push (headUnits q.f)) with egress := { e with sending := some q } }
  if q.whole then s.release q else s

/-- An egress that can start a frame chooses the next one (R396). -/
def State.selectFrame (p : Port) (s : State) : State :=
  if (s.port p).canStart then
    let s := [2, 3, 4].foldl (fun s c => s.ageHead p c ((s.port p).egress.queue c).length) s
    let r := s.chooseClass p
    let s := s.modPort p fun x => { x with egress := r.2 }
    match r.1 with
    | some c => match (s.port p).egress.queue c.1 with
      | q :: _ => s.startFrame p c.1 c.2 q
      | [] => s
    | none => s
  else s

/-- A cut-through copy whose next unit does not come ends with a stomped tail; its frame waits to be forwarded again
from its header once its ingress has left link retry (R358, R382). -/
def State.frameStomp (p : Port) (s : State) : State :=
  let x := s.port p
  match x.egress.sending with
  | some q =>
    match q.ingress with
    | some i =>
      if (s.port i).retrySince.isSome && decide (x.txUnits.length < 19) then
        let c := q.f.cls.toNat
        s.modPort p fun y =>
          let y := y.stompSending
          { y with egress := y.egress.setQueue c ({ q with again := true } :: y.egress.queue c) }
      else s
    | none => s
  | none => s

end Sys2Proof.Machine
end

