-- ==== Sys2Proof/Machine/Links.lean ====
section
/-! DEFINITION. The link of a port: training, the codewords and blocks of its lanes, acknowledgement and replay, widths,
link down, and the local recovery that a port fault starts (13 R332 to R347, R354 to R365; 21 R514, R517). -/

namespace Sys2Proof.Machine

/-! ## Local recovery of a port (R514, R517) -/

/-- A trigger-class event of a port: it starts a recovery, extends the one that runs on the port, or fences the module
during another one. -/
def State.portTrigger (p : Port) (code : BitVec 16) (detail : Word) (inj : Bool) (s : State) : State :=
  let ev := { s.event code clsPort (p.setWidth 16) 0 detail with injected := inj }
  if s.pair.st = .fenced then s.append ev
  else if s.pair.recUnits.contains p.toNat then (s.append ev).modPair fun x => { x with recoverAt := s.time }
  else if s.pair.recovering || s.pair.lastTrig == some s.time then (s.append ev).fence
  else
    let s := s.modPair fun x => { x with
      recUnits := [p.toNat], recoverAt := s.time, lastTrig := some s.time
      st := if x.st = .paired then .recovering else x.st }
    s.append { ev with recStart := true, stAfter := s.pair.st.code }

/-- An event that ends the recovery of a port, where one runs (R511, R514). -/
def State.recoveryEnd (p : Port) (code : BitVec 16) (detail : Word) (s : State) : State :=
  if s.pair.recUnits.contains p.toNat then
    let s := s.modPair fun x => { x with
      recUnits := x.recUnits.filter (· != p.toNat), st := if x.st = .recovering then .paired else x.st }
    s.append { s.event code clsPort (p.setWidth 16) 0 detail with recEnd := true }
  else s.log code clsPort (p.setWidth 16) 0 detail

/-! ## Lanes -/

/-- A lane of a port. -/
def PortState.lane (l : Nat) (x : PortState) : Lane := Table.get Lane.reset l x.lanes
/-- Change a lane. -/
def PortState.modLane (l : Nat) (g : Lane → Lane) (x : PortState) : PortState :=
  { x with lanes := Table.set Lane.reset l (g (x.lane l)) x.lanes }

/-- The lane mask with bit l for every lane of a list. -/
def laneMask (l : List Nat) : Byte := BitVec.ofNat 8 (l.foldl (fun n i => n ||| 2 ^ i) 0)
/-- The lanes of a mask, ascending. -/
def lanesOf (m : Byte) : List Nat := (List.range 8).filter m.getLsbD

/-- The active lanes of a direction: the W lowest of the receiver's usable lanes, W the largest of 8, 6, 4 (R338). -/
def activeLanes (usable : Byte) : Byte :=
  let l := lanesOf usable
  laneMask (l.take (if l.length = 8 then 8 else if 6 ≤ l.length then 6 else if 4 ≤ l.length then 4 else 0))

/-- Is a port out of link operation: disabled, or of the role unused (R336, R367). -/
def PortState.dead (x : PortState) : Bool := x.phase == .disabled || x.role == 0#4

/-! ## Phases (R336, R341) -/

/-- The state at which the PRBS13 generator of a lane starts in each training (R333). -/
def prbsStart (l : Nat) : BitVec 13 := BitVec.ofNat 13 (0x1A5A ^^^ l)

/-- A lane as training starts: preset 2, its PRBS at its start; its error count stays (R333, R335). The lane holds the generator's state
XORed with its start. -/
def Lane.train (x : Lane) : Lane := { Lane.reset with symErr := x.symErr }

/-- The port in a phase with every lane at the start of training and nothing of the last link kept; counters, partner
limits of the queue and the egress stay. -/
def PortState.restart (ph : LinkPhase) (now : Nat) (x : PortState) : PortState :=
  { x with
    phase := ph, phaseAt := now, txLanes := 0, rxLanes := 0, rxUsable := 0
    lanes := (List.range 8).foldl (fun t l => Table.set Lane.reset l (x.lane l).train t) x.lanes
    peerCaps := none, peerRun := 0, peerOk := false, peerSaidOk := false, trainSent := 0, mismatch := false
    txSeq := 0, retryBuf := [], replayPos := none, replayAt := none, replaySeq := 0, replayN := 0, ackAdv := now
    lastAckIn := 0xFFFF, rxExpect := 0, rxAny := false, nak := false, retrySince := none
    credits := [], lastFreed := [], freed := [], laneReq := 0, peerReq := 0, widthDue := false, streamPos := 0
    rxUnits := [], rxSkip := false, rxUid := none, txUnits := [], timeIn := false, timeTxIn := 0, timeRxAt := 0, rtts := [], timeDue := false, alignDue := 0
    neighbourOk := false
    egress := { x.egress with sending := none } }

/-- Return to a phase without a link having been up. -/
def State.toPhase (p : Port) (ph : LinkPhase) (s : State) : State := s.modPort p (PortState.restart ph s.time)

/-- The link goes down (R341): what it holds is lost, frames that were arriving are stomped where they have started, and
LINK_DOWN starts or extends a recovery. -/
def State.linkDown (p : Port) (ph : LinkPhase) (inj : Bool) (s : State) : State :=
  let x := s.port p
  if x.isUp then
    let s := match x.rxUid with
      | some n => s.frameFailed p n x.arriving
      | none => s
    let s := s.toPhase p ph
    let s := s.modPort p fun x => { x with recovery := some s.time, down := false }
    s.portTrigger p Code.linkDown 0 inj
  else s.toPhase p ph

/-! ## Yielded rates (R413) -/

/-- An event of a class whose rate yields or is restored, with what it names beside C0: the class and W in its detail, and beside its record
the configured and the effective rate (R413; log entry 123). -/
def State.sayRate (p : Port) (code : BitVec 16) (i conf eff : Nat) (s : State) : State :=
  let w := laneCount (s.port p).txLanes
  (s.modHub fun h => { h with rateNames := pushRing 1024 ⟨h.eventSeq + 1, i + 2, w, conf, eff⟩ h.rateNames }).log code clsPort
    (p.setWidth 16) 0 (BitVec.ofNat 32 (i + 2 + 16 * w))

/-- The effective committed rates of a port's policers, whose buckets have filled at the old ones until now, and an event for each class
that yields or is restored: a class that has yielded is restored when the sum is within the remainder again. The remainder Rp - r0 is exact, in
parts of the weight sum. -/
def State.rates (p : Port) (s : State) : State :=
  let x := s.port p
  let e := x.egress
  let ws := max 1 (weightSum e.weights)
  let rest := portRate (laneCount x.txLanes) * ws - 125000 * weightOf e.weights 0
  let cir := fun (i : Nat) => (Table.get Policer.reset i e.policers).cir.toNat
  let sum := cir 0 + cir 1 + cir 2
  let over_ := x.isUp && decide (rest < sum * ws)
  let eff := fun (i : Nat) => if over_ then cir i * rest / max 1 (sum * ws) else cir i
  let was := e.yielded
  let now := if over_ then [0, 1, 2].filter (fun i => decide (0 < cir i) || was.contains i) else []
  let e := { e with
    yielded := now
    policers := [0, 1, 2].foldl (fun t i =>
      Table.set Policer.reset i { (Table.get Policer.reset i t).fill s.time with eff := BitVec.ofNat 32 (eff i) } t) e.policers }
  let s := s.setPort p { x with egress := e }
  let say := fun (code : BitVec 16) (l : List Nat) (s : State) => l.foldl (fun s i => s.sayRate p code i (cir i) (eff i)) s
  say Code.rateRestored (was.filter fun i => !now.contains i) (say Code.rateYielded (now.filter fun i => !was.contains i) s)

/-! ## Widths and failing lanes (R338 to R340) -/

/-- The new masks as an event's detail: receive lanes in [7:0], transmit lanes in [15:8] (log entry 32). -/
def PortState.maskDetail (x : PortState) : Word := BitVec.ofNat 32 (x.rxLanes.toNat + 256 * x.txLanes.toNat)

/-- Does a lane of the port retrain. -/
def PortState.retraining (x : PortState) : Bool := (List.range 8).any fun l => (x.lane l).retrain

/-- The lane states with the lanes in use: a lane of either direction is active, one that is in use no more is unused; a lane that retrains
or stays out is shown as such (R366). -/
def PortState.showLanes (x : PortState) : PortState :=
  (List.range 8).foldl (fun x l => x.modLane l fun k =>
    if (x.txLanes ||| x.rxLanes).getLsbD l then { k with laneState := 1 } else if k.laneState = 1 then { k with laneState := 0 } else k) x

/-- A completed width change: its count, its event, which ends the recovery at the final width (R340, R514). -/
def State.widthDone (p : Port) (s : State) : State :=
  let s := s.modPort p fun x => { x.showLanes with widthChg := sat32 x.widthChg 1 }
  let s := s.rates p
  let x := s.port p
  if x.retraining || x.laneReq != x.rxLanes then s.log Code.widthChanged clsPort (p.setWidth 16) 0 x.maskDetail
  else s.recoveryEnd p Code.widthChanged x.maskDetail

/-- Request the lanes of the usable set; the direction is in link retry until its width has changed (R339, R357). -/
def PortState.askLanes (now : Nat) (x : PortState) : PortState :=
  let want := activeLanes x.rxUsable
  { x with laneReq := want, retrySince := if want = x.rxLanes then x.retrySince else some (x.retrySince.getD now) }

/-- A receiver declares a lane failing: it is removed from both directions and retrains; below 4 usable lanes the link goes down (R339 to
R341). DESIGN CHOICE (log entry 124): until the partner's request comes, the stream goes over the other lanes of the transmit set. -/
def State.laneFail (p : Port) (l : Nat) (inj : Bool) (s : State) : State :=
  let x := s.port p
  if x.isUp && (x.rxUsable ||| x.txLanes).getLsbD l then
    let others := ~~~ (laneMask [l])
    let s := s.setPort p (({ x.fillPace s.time with
        rxUsable := x.rxUsable &&& others, txLanes := x.txLanes &&& others, rxLanes := x.rxLanes &&& others }.modLane l fun k =>
      { k.train with laneState := 2, retrain := true, retrainAt := s.time }).showLanes)
    let s := s.portTrigger p Code.laneFailed (BitVec.ofNat 32 l) inj
    if laneCount (s.port p).rxUsable < 4 then s.linkDown p .detect inj
    else s.modPort p (PortState.askLanes s.time)
  else s

/-! ## Scrambling and codewords (R342, R343) -/

/-- One bit of the scrambler: its output and its next state. -/
def scrBit (x : BitVec 31) : Bool × BitVec 31 :=
  let o := x.getLsbD 30 ^^ x.getLsbD 27
  (o, (x <<< 1) ||| (if o then 1 else 0))

/-- n bits of the scrambler as a number, bit 0 first. -/
def scrBits : Nat → BitVec 31 → Nat × BitVec 31
  | 0, x => (0, x)
  | n + 1, x =>
    let r := scrBit x
    let t := scrBits n r.2
    (b2n r.1 + 2 * t.1, t.2)

/-- Scramble or descramble bytes. -/
def scramble : List Byte → BitVec 31 → List Byte × BitVec 31
  | [], x => ([], x)
  | b :: bs, x =>
    let r := scrBits 8 x
    let t := scramble bs r.2
    ((b ^^^ BitVec.ofNat 8 r.1) :: t.1, t.2)

/-- The scrambler state at the first block after an ALIGN block of a lane. -/
def scrSeed (l : Nat) : BitVec 31 := BitVec.ofNat 31 (0x7FFFFF00 + l)

/-- The 16 marker bytes of an ALIGN block (R345). -/
def alignMarker : List Byte := [0x57, 0x5A, 0x41, 0x4C, 0x57, 0x5A, 0x41, 0x4C, 0x57, 0x5A, 0x41, 0x4C, 0x57, 0x5A, 0x41, 0x4C]

/-- Is a block an ALIGN block. -/
def isAlign (bs : List Byte) : Bool := (bs.drop 32).take 16 == alignMarker

/-- The block that a lane delivers with the number of corrected symbols: its symbols corrected for an inverted lane, which turns each
level into its negative and so the first bit of each pair over (R331, R332), decoded, and descrambled where it is no ALIGN block; none where the codeword does not decode. The lane's descrambler moves on with every codeword. -/
def Lane.receive (l : Nat) (rx : LaneData) (k : Lane) : Option (List Byte × Nat) × Lane :=
  match rx with
  | .block bs n => (some (bs, n), { k with rxScr := if isAlign bs && bs.head? == some 0x04#8 then scrSeed l else (scrBits 5120 k.rxScr).2, rxSeen := k.rxSeen + 1 })
  | .uncorrectable => (none, { k with rxScr := (scrBits 5120 k.rxScr).2, rxSeen := k.rxSeen + 1 })
  | .codeword sy =>
    match rsDecode (if k.inverted then sy.map fun y => y ^^^ 0x155#10 else sy) with
    | none => (none, { k with rxScr := (scrBits 5120 k.rxScr).2, rxSeen := k.rxSeen + 1 })
    | some r =>
      let bs := symbolsBlock (r.1.take 512)
      if isAlign bs then (some (bs, r.2), { k with rxScr := scrSeed l, rxSeen := k.rxSeen + 1 })
      else
        let d := scramble bs k.rxScr
        (some (d.1, r.2), { k with rxScr := d.2, rxSeen := k.rxSeen + 1 })

/-- A codeword reaches a lane: FEC counts, and a lane with 4 uncorrectable codewords within 1 ms fails (R339, R366). -/
def State.rxCodeword (p : Port) (l : Nat) (rx : LaneData) (s : State) : Option (List Byte) × State :=
  let x := s.port p
  let r := (x.lane l).receive l rx
  match r.1 with
  | some b => (some b.1, s.setPort p ({ x with fecCorr := x.fecCorr + b.2 }.modLane l fun _ => { r.2 with symErr := sat32 r.2.symErr b.2 }))
  | none =>
    let times := (r.2.uncorr.filter fun t => decide (s.time ≤ t + 1000000)) ++ [s.time]
    let s := s.setPort p ({ x with fecUncorr := sat32 x.fecUncorr 1 }.modLane l fun _ => { r.2 with uncorr := times })
    (none, if 4 ≤ times.length then s.laneFail p l false else s)

/-- A field of a block: n bytes at an offset. -/
def blockField (bs : List Byte) (off n : Nat) : Nat := leNat ((bs.drop off).take n)

/-- Does the CRC of a block match (R346). -/
def blockCrcOk (bs : List Byte) : Bool := blockField bs 0x1C 4 == (crc32c (bs.take 28 ++ bs.drop 32)).toNat

/-! ## Acknowledgement and replay (R356) -/

/-- Start a replay from the oldest outstanding block; the eighth without an advance takes the link down. -/
def State.startReplay (p : Port) (s : State) : State :=
  let x := s.port p
  match x.retryBuf with
  | b :: _ =>
    let n := if x.replayN ≠ 0 ∧ x.replaySeq = b.seq then x.replayN + 1 else 1
    let s := s.setPort p { x with
      replayPos := some 0, replayAt := some s.time, replaySeq := b.seq, replayN := n, replays := sat32 x.replays 1, ackAdv := s.time }
    if 8 ≤ n then (s.portTrigger p Code.retryExhausted 0 false).linkDown p .detect false else s
  | [] => s

/-- An ack: everything up to it leaves the retry buffer; one that lies behind an earlier one is ignored. -/
def PortState.takeAck (ack : BitVec 16) (now : Nat) (x : PortState) : PortState :=
  let d := (ack - x.lastAckIn).toNat
  if d = 0 ∨ 32768 ≤ d then x
  else
    let keep := x.retryBuf.filter fun b => decide (32768 ≤ (ack - b.seq).toNat)
    let gone := x.retryBuf.length - keep.length
    { x with
      retryBuf := keep, lastAckIn := ack, ackAdv := now, replayN := 0
      replayPos := x.replayPos.bind fun k => if keep.length + gone ≤ k ∨ keep.isEmpty then none else some (k - gone) }

/-- A nak: a replay, unless one of the same seq started within 4 µs. -/
def State.takeNak (p : Port) (ack : BitVec 16) (s : State) : State :=
  let x := s.port p
  match x.retryBuf with
  | b :: _ =>
    let recent := match x.replayAt with | some t => x.replaySeq == b.seq && decide (s.time < t + 4000) | none => false
    if b.seq = ack + 1 ∧ !recent then s.startReplay p else s
  | [] => s

/-- The freed counts of a block add credits (R360). -/
def PortState.takeCredits (bs : List Byte) (x : PortState) : PortState :=
  (List.range 5).foldl (fun x c =>
    let n := BitVec.ofNat 16 (blockField bs (8 + 2 * c) 2)
    let d := (n - Table.get 0 c x.lastFreed).toNat
    if d < 32768 then { x with credits := Table.set 0 c (x.credit c + d) x.credits, lastFreed := Table.set 0 c n x.lastFreed } else x) x

/-- The lanes of a new transmit set take the highest codeword count of the lanes in use, so that all reach the next multiple of 16,384 at
one position of the stream (R345; log entry 113). -/
def PortState.countAlike (req : Byte) (x : PortState) : PortState :=
  let n := (lanesOf x.txLanes).foldl (fun n l => max n (x.lane l).txCount) 0
  (lanesOf req).foldl (fun y l => y.modLane l fun k => { k with txCount := n }) x

/-- The set of lanes that the partner wants: for a new one ALIGN blocks on the requested set, then striping over it, the blocks numbered on;
the change is complete once the ALIGN blocks have left (R340, R344). With fewer than 4 lanes the direction cannot run (R338, R341). A set with a
lane that still retrains here is taken once that has ended (log entry 124). -/
def State.takeLaneReq (p : Port) (req : Byte) (s : State) : State :=
  let x := s.port p
  if req = x.peerReq then s
  else if laneCount req < 4 then s.linkDown p .detect false
  else if (lanesOf req).any fun l => (x.lane l).retrain then s
  else s.setPort p { (x.countAlike req).fillPace s.time with txLanes := req, peerReq := req, alignDue := req, widthDue := true }

/-- What every accepted block of an active link carries in its control unit (R346, R356, R360). -/
def State.takeControl (p : Port) (bs : List Byte) (s : State) : State :=
  let ack := BitVec.ofNat 16 (blockField bs 4 2)
  let s := s.modPort p fun x => ((x.takeAck ack s.time).takeCredits bs)
  let s := if (blockField bs 6 1) % 2 = 1 then s.takeNak p ack else s
  s.takeLaneReq p (BitVec.ofNat 8 (blockField bs 0x14 1))

/-- A block other than ALIGN reaches a port: accepted where its codeword decodes, its CRC matches and it has the type that
the command names; a DATA block is accepted only where its seq is the one expected too (R341, R347). -/
def State.rxBlock (p : Port) (l : Nat) (type : Nat) (rx : LaneData) (s : State) : Option (List Byte) × State :=
  let r := s.rxCodeword p l rx
  match r.1 with
  | some bs =>
    if blockCrcOk bs ∧ blockField bs 0 1 % 16 = type then (some bs, if type = 1 then r.2 else r.2.modPort p fun x => { x with lastRx := s.time })
    else (none, r.2)
  | none => (none, r.2)

/-- A DATA block is discarded: the receiver is in link retry until it accepts the block it expects (R355 to R357). -/
def PortState.discardData (now : Nat) (x : PortState) : PortState :=
  { x with nak := true, retrySince := some (x.retrySince.getD now) }

/-- A DATA block (R347, R355). -/
def State.dataIn (p : Port) (l : Nat) (rx : LaneData) (s : State) : State :=
  if !(s.port p).isUp then s
  else
    let r := s.rxBlock p l 1 rx
    let s := r.2
    if !(s.port p).isUp then s
    else
      match r.1 with
      | none => s.modPort p (PortState.discardData s.time)
      | some bs =>
        let x := s.port p
        if blockField bs 2 2 ≠ x.rxExpect.toNat then s.modPort p (PortState.discardData s.time)
        else
          let s := s.setPort p { x with
            nak := false, rxAny := true, rxExpect := x.rxExpect + 1, lastRx := s.time
            retryEnd := if x.retrySince.isSome then s.time else x.retryEnd
            retrySince := if x.laneReq = x.rxLanes then none else x.retrySince }
          let s := s.takeControl p bs
          s.rxUnits p (blockField bs 1 1 % 32) (bs.drop 32)

/-- An IDLE block. -/
def State.idleIn (p : Port) (l : Nat) (rx : LaneData) (s : State) : State :=
  if !(s.port p).isUp then s
  else
    let r := s.rxBlock p l 2 rx
    match r.1 with
    | some bs => if (r.2.port p).isUp then r.2.takeControl p bs else r.2
    | none => r.2

/-! ## Network time on the link (R362 to R365) -/

/-- A signed number as a 32-bit magnitude in an event's detail. -/
def absWord (z : Int) : Word := BitVec.ofInt 32 z

/-- A TIME block: the delay, averaged over 16 blocks, and the partner's offset, in units of 1/16 ns (R364, R365; log entry 114). -/
def State.timeIn (p : Port) (l : Nat) (rx : LaneData) (s : State) : State :=
  if !(s.port p).isUp then s
  else
    let r := s.rxBlock p l 3 rx
    match r.1 with
    | none => r.2
    | some bs =>
      let s := r.2.takeControl p bs
      let x := s.port p
      if !x.isUp then s
      else
        let tx := blockField bs 0x20 8
        let rtt := 16 * (s.time - blockField bs 0x28 8) - blockField bs 0x30 4
        let rtts := if blockField bs 0x28 8 = 0 then x.rtts else pushRing 16 rtt x.rtts
        let delay := if rtts.isEmpty then 0 else rtts.foldl (· + ·) 0 / (2 * rtts.length)
        let off : Int := 16 * (tx : Int) - (16 * (s.time : Int) - delay)
        let limit : Nat := if x.role = 1 then 1600 else 800
        let crossed := decide (limit < off.natAbs) && decide (x.offset.natAbs ≤ limit)
        let s := s.setPort p { x with
          timeTxIn := BitVec.ofNat 64 tx, timeRxAt := s.time, timeIn := true, rtts := rtts, delay := delay, offset := off }
        if crossed then s.log (if x.role = 1 then Code.timeSkew else Code.timeOffset) clsPort (p.setWidth 16) 0 (absWord off) else s

/-! ## Training (R332 to R336) -/

/-- A training request for one tap: applied once until it returns to hold; the tap and its status (R334, R335). -/
def tapRequest (req st : Nat) (lo hi tap : Int) : Int × Nat :=
  if req = 0 then (tap, 0)
  else if st ≠ 0 then (tap, st)
  else
    let t := if req = 1 then tap + 1 else if req = 2 then tap - 1 else tap
    if t < lo ∨ hi < t then (tap, 2) else (t, 1)

/-- The transmit taps after the partner's control word (R334, R335). -/
def Lane.control (w : Word) (k : Lane) : Lane :=
  let f := fun (lo : Nat) => bitsOf w.toNat lo 2
  let k := match f 8 with
    | 1 => { k with tapM2 := 0, tapM1 := 0, tapP1 := 0 }
    | 2 => { k with tapM2 := 0, tapM1 := -12, tapP1 := -4 }
    | 3 => { k with tapM2 := 4, tapM1 := -20, tapP1 := -8 }
    | _ => k
  let st := fun (lo : Nat) => bitsOf k.stWord.toNat lo 2
  let a := tapRequest (f 0) (st 0) 0 8 k.tapM2
  let b := tapRequest (f 2) (st 2) (-24) 0 k.tapM1
  let c := tapRequest (f 4) (st 4) (-12) 0 k.tapP1
  { k with tapM2 := a.1, tapM1 := b.1, tapP1 := c.1, stWord := BitVec.ofNat 32 (a.2 + 4 * b.2 + 16 * c.2) }

/-- Has a lane finished equalisation: 16 frames with rx_ready and ready, or its time is over (R336). -/
def Lane.equalised (k : Lane) : Bool := k.timedOut || decide (16 ≤ k.readyRun)

/-- EQUALISE ends when every lane has finished: ALIGN on the usable lanes, or DETECT with fewer than 4 (R336, R338). -/
def State.equaliseEnd (p : Port) (s : State) : State :=
  let x := s.port p
  if x.phase = .equalise ∧ ((List.range 8).all fun l => (x.lane l).equalised) then
    let usable := laneMask ((List.range 8).filter fun l => (x.lane l).rxReady && !(x.lane l).timedOut)
    if laneCount usable < 4 then s.toPhase p .detect
    else s.setPort p { x with phase := .align, phaseAt := s.time, rxUsable := usable }
  else s

/-- A training frame is received on a lane. The receiver of a lane is equalised by the first frame that it takes in
EQUALISE (log entry 33). -/
def State.trainingIn (p : Port) (l : Nat) (t : TrainWords) (s : State) : State :=
  let x := s.port p
  if x.dead || x.down then s
  else
    match x.phase with
    | .detect =>
      let x := x.modLane l fun k => { k with locked := true, inverted := t.inverted }
      if 4 ≤ ((List.range 8).filter fun l => (x.lane l).locked).length then
        s.setPort p { x with phase := .equalise, phaseAt := s.time }
      else s.setPort p x
    | .equalise =>
      let s := s.setPort p (x.modLane l fun k =>
        if k.timedOut then k
        else
          let k := k.control t.control
          { k with
            locked := true, inverted := t.inverted, rxReady := true
            readyRun := if t.status.getLsbD 6 && t.status.getLsbD 7 then k.readyRun + 1 else k.readyRun })
      s.equaliseEnd p
    | .active =>
      let s := if (x.rxUsable ||| x.txLanes).getLsbD l then s.laneFail p l false else s
      s.modPort p fun x => if (x.lane l).retrain then x.modLane l fun k => { k.control t.control with
        locked := true, inverted := t.inverted, rxReady := true
        readyRun := if t.status.getLsbD 6 && t.status.getLsbD 7 then k.readyRun + 1 else k.readyRun } else x
    | _ => s

/-- A lane's 10 ms of equalisation are over: it is unusable until the next DETECT (R336). -/
def State.equaliseLate (p : Port) (l : Nat) (s : State) : State :=
  let x := s.port p
  if x.phase = .equalise ∧ x.phaseAt + 10000000 ≤ s.time ∧ !(x.lane l).equalised then
    (s.setPort p (x.modLane l fun k => { k with timedOut := true })).equaliseEnd p
  else s

/-- An ALIGN block on a lane: codeword lock in ALIGN; on an active link it may complete a width change, and two lost ones
in a row make the lane fail (R336, R339, R340, R345). -/
def State.alignIn (p : Port) (l : Nat) (rx : LaneData) (s : State) : State :=
  let x := s.port p
  if x.dead then s
  else
    let r := s.rxCodeword p l rx
    let s := r.2
    match r.1 with
    | some bs =>
      if isAlign bs ∧ blockField bs 0 1 = 4 then
        let s := s.modPort p fun x => { (x.modLane l fun k => { k with cwLock := true, alignLost := 0 }) with lastRx := s.time }
        let x := s.port p
        match x.phase with
        | .align =>
          if (lanesOf x.rxUsable).all fun i => (x.lane i).cwLock then s.setPort p { x with phase := .negotiate, phaseAt := s.time } else s
        | .active =>
          let set := BitVec.ofNat 8 (blockField bs 0x31 1)
          if set ≠ x.rxLanes ∧ set = x.laneReq then
            (s.setPort p { x with
              rxLanes := set, retryEnd := s.time, retrySince := if x.nak then x.retrySince else none }).widthDone p
          else s
        | _ => s
      else s
    | none =>
      let x := s.port p
      if x.isUp then
        let n := (x.lane l).alignLost + 1
        let s := s.setPort p (x.modLane l fun k => { k with alignLost := n })
        if 2 ≤ n then s.laneFail p l false else s
      else s

/-! ## Capabilities (R337, R360, R361) -/

/-- The capabilities in a TRAIN block. -/
def capsOf (bs : List Byte) : Caps where
  version := BitVec.ofNat 8 (blockField bs 0x20 1)
  role := BitVec.ofNat 3 (blockField bs 0x21 1 % 8)
  peerOk := blockField bs 0x21 1 / 8 % 2 == 1
  rxUsable := BitVec.ofNat 8 (blockField bs 0x22 1)
  maxPlen := BitVec.ofNat 16 (blockField bs 0x24 2)
  identity := BitVec.ofNat 64 (blockField bs 0x28 8)
  credits := (List.range 5).map fun c => BitVec.ofNat 16 (blockField bs (0x30 + 2 * c) 2)
  retry := BitVec.ofNat 16 (blockField bs 0x3C 2)

/-- The complementary role of a module role (R367). -/
def complement (r : BitVec 4) : BitVec 4 := if r = 2 then 3 else if r = 3 then 2 else if r = 4 then 5 else if r = 5 then 4 else r

/-- Why a port does not accept a partner (R337). -/
def PortState.capsBad (c : Caps) (x : PortState) : Option (BitVec 16) :=
  if c.version ≠ 1 then some Code.versionMismatch
  else if x.role = 1 then (if c.role = 1 then none else some Code.roleMismatch)
  else if c.role = 2 ∧ c.identity.extractLsb' 15 4 = complement x.role then none
  else some Code.roleMismatch

/-- The module that the map names at the far end of a port (R367, R368). -/
def State.expected (p : Port) (s : State) : Option Nat :=
  match s.fab.map with
  | some m => if s.role p = 6 then some (m.entry s.fab.module.toNat).partner else m.neighbour s.fab.module.toNat (s.role p)
  | none => none

/-- Is the partner of an active port the one that the map names; else the port is left out of its trunk and says so once
(R368). -/
def State.checkNeighbour (p : Port) (s : State) : State :=
  let x := s.port p
  if !x.isUp ∨ x.role = 1 ∨ x.role = 0 then s.setPort p { x with neighbourOk := x.isUp && x.role == 1#4 }
  else if s.expected p = some (x.identity.toNat % 512) then s.setPort p { x with neighbourOk := true, neighbourEv := false }
  else
    let s := s.setPort p { x with neighbourOk := false, neighbourEv := true }
    if x.neighbourEv then s else s.log Code.neighbourMismatch clsPort (p.setWidth 16) 0 (x.identity.setWidth 32)

/-- ACTIVE begins once the partner has accepted this side and 8 TRAIN blocks have said the same of it (R337). -/
def State.tryActive (p : Port) (s : State) : State :=
  let x := s.port p
  match x.peerCaps with
  | some c =>
    if x.phase = .negotiate ∧ x.peerOk ∧ x.peerSaidOk ∧ 8 ≤ x.trainSent then
      let tx := activeLanes c.rxUsable
      let rx := activeLanes x.rxUsable
      if laneCount tx < 4 then s.toPhase p .detect
      else
        let x := { x with
          phase := .active, phaseAt := s.time, txLanes := tx, rxLanes := rx, laneReq := rx, lastRx := s.time, ackAdv := s.time
          timeSent := s.time, streamPos := 0, rxBase := s.fab.nextUid, freed := [], peerReq := tx
          credits := (List.range 5).foldl (fun t i => Table.set 0 i (c.credits.getD i 0).toNat t) [] }
        let x := (lanesOf (tx ||| rx)).foldl (fun x l => x.modLane l fun k => { k with txCount := 0 }) x.showLanes
        let s := (s.setPort p x).checkNeighbour p
        let s := s.rates p
        if x.recovery.isSome then (s.modPort p fun x => { x with recovery := none }).recoveryEnd p Code.recoveryDone 0 else s
    else s
  | none => s

/-- A TRAIN block (R337): three identical ones in a row are judged. -/
def State.trainIn (p : Port) (l : Nat) (rx : LaneData) (s : State) : State :=
  let x := s.port p
  if x.dead then s
  else
    let r := s.rxBlock p l 5 rx
    let s := r.2
    match r.1 with
    | none => s
    | some bs =>
      let x := s.port p
      if x.phase ≠ .negotiate then s
      else
        let c := capsOf bs
        let same := match x.peerCaps with | some o => { o with peerOk := c.peerOk } == c | none => false
        let run := if x.peerCaps = some c then x.peerRun + 1 else 1
        let x := { x with
          peerCaps := some c, peerRun := run, peerSaidOk := x.peerSaidOk || c.peerOk
          mismatch := x.mismatch && same, peerOk := x.peerOk && same }
        if run < 3 ∨ x.peerOk then (s.setPort p x).tryActive p
        else
          match x.capsBad c with
          | none => (s.setPort p { x with peerOk := true, identity := c.identity }).tryActive p
          | some code =>
            let s := s.setPort p { x with mismatch := true }
            if x.mismatch then s else s.log code clsPort (p.setWidth 16) 0 0

/-! ## Forming and sending blocks (R344 to R348, R355 to R357) -/

/-- Zero bytes. -/
def zeros (n : Nat) : List Byte := List.replicate n 0

/-- A block with its control unit and CRC from 608 bytes of units (R346). A TRAIN block names the lanes on which this side will receive, and the
usable lanes, on each of which it leaves. -/
def PortState.block (type first : Nat) (seq : BitVec 16) (units : List Byte) (x : PortState) : List Byte :=
  let train := type == 5
  let ack : BitVec 16 := if x.rxAny then x.rxExpect - 1 else 0xFFFF
  let ctl := leBytes 1 type ++ leBytes 1 first ++ leBytes 2 seq.toNat
    ++ leBytes 2 (if train then 0 else ack.toNat) ++ leBytes 2 (b2n x.nak)
    ++ ((List.range 5).flatMap fun c => leBytes 2 (if train then 0 else (Table.get (0 : BitVec 16) c x.freed).toNat))
    ++ zeros 2 ++ leBytes 1 (if train then activeLanes x.rxUsable else x.laneReq).toNat
    ++ leBytes 1 (if train then x.rxUsable else x.txLanes).toNat ++ zeros 6
  ctl ++ leBytes 4 (crc32c (ctl ++ units)).toNat ++ units

/-- The ALIGN block of a lane (R345). -/
def PortState.alignBlock (l : Nat) (x : PortState) : List Byte :=
  leBytes 1 4 ++ zeros 31 ++ alignMarker ++ leBytes 1 l ++ leBytes 1 (if x.isUp then x.txLanes.toNat else x.rxUsable.toNat)
    ++ zeros 2 ++ leBytes 4 ((x.lane l).txCount % 2 ^ 32) ++ zeros 584

/-- The PAM4 level of a Gray pair of bits, the first of them the more significant (R331). -/
def grayLevel (first second : Bool) : Level :=
  match first, second with
  | false, false => .m3
  | false, true => .m1
  | true, true => .p1
  | true, false => .p3

/-- The levels of the symbols of a codeword, UI by UI: each symbol from bit 0 upward in pairs (R331, R343). -/
def symbolLevels (l : List (BitVec 10)) : List Level :=
  l.flatMap fun y => (List.range 5).map fun q => grayLevel (y.getLsbD (2 * q)) (y.getLsbD (2 * q + 1))

/-- Send a block on a lane: an ALIGN block (al) as it is, every other scrambled; the codeword leaves (R342, R343). -/
def State.sendBlock (al : Bool) (p : Port) (l : Nat) (bs : List Byte) (s : State) : State :=
  let x := s.port p
  let k := x.lane l
  let r := if al then (bs, scrSeed l) else scramble bs k.txScr
  let s := s.setPort p (x.modLane l fun k => { k with txScr := r.2, txCount := k.txCount + 1 })
  s.output (.block p l (symbolLevels (rsEncode (blockSymbols r.1))))

/-- Send a block of the stream on the next active lane (R344). -/
def State.sendStream (p : Port) (bs : List Byte) (s : State) : State :=
  let x := s.port p
  let ls := lanesOf x.txLanes
  let s := s.setPort p { x with streamPos := x.streamPos + 1 }
  s.sendBlock false p (ls.getD (x.streamPos % max 1 ls.length) 0) bs

/-- The capabilities that this side sends (R337, R361). -/
def State.ownCaps (p : Port) (s : State) : List Byte :=
  let x := s.port p
  leBytes 4 (1 + 256 * (2 + 8 * b2n x.peerOk) + 65536 * x.rxUsable.toNat) ++ leBytes 4 128
    ++ leBytes 8 (s.fab.module.toNat + 512 * p.toNat + 32768 * x.role.toNat)
    ++ leBytes 2 6144 ++ leBytes 2 512 ++ leBytes 2 2048 ++ leBytes 2 4096 ++ leBytes 2 256 ++ zeros 2 ++ leBytes 2 2048 ++ zeros 2

/-- The units of a TIME block (R363). -/
def State.timeUnits (p : Port) (s : State) : List Byte :=
  let x := s.port p
  leBytes 8 s.time ++ leBytes 8 x.timeTxIn.toNat ++ leBytes 4 (if x.timeIn then 16 * (s.time - x.timeRxAt) % 2 ^ 32 else 0)
    ++ leBytes 4 (x.delay % 2 ^ 32)
    ++ leBytes 1 (b2n (s.margin.timeSt != .free) + 2 * b2n (s.margin.timeSt == .holdover) + 4) ++ zeros 7 ++ zeros 576

/-- One output bit of the PRBS13 generator, and its next state (R333). -/
def prbsBit (x : BitVec 13) : Bool × BitVec 13 :=
  let o := x.getLsbD 12 ^^ x.getLsbD 11 ^^ x.getLsbD 1 ^^ x.getLsbD 0
  (o, (x <<< 1) ||| (if o then 1 else 0))

/-- n UI of the PRBS13 pattern, two bits each, and the state after them (R333). -/
def prbsLevels : Nat → BitVec 13 → List Level × BitVec 13
  | 0, x => ([], x)
  | n + 1, x =>
    let a := prbsBit x
    let b := prbsBit a.2
    let r := prbsLevels n b.2
    (grayLevel a.1 b.1 :: r.1, r.2)

/-- The UI of a training word: bit 0 first, +3 for 1 and -3 for 0 (R333). -/
def wordLevels (w : Word) : List Level := (List.range 32).map fun i => if w.getLsbD i then .p3 else .m3

/-- The 4,096 UI of a training frame, and the generator after them (R333). -/
def trainingLevels (control status : Word) (x : BitVec 13) : List Level × BitVec 13 :=
  let r := prbsLevels 4016 x
  (List.replicate 8 .p3 ++ List.replicate 8 .m3 ++ wordLevels control ++ wordLevels status ++ r.1, r.2)

/-- Send a training frame on a lane; the own requests always hold (R333, R334). -/
def State.sendTraining (p : Port) (l : Nat) (s : State) : State :=
  let x := s.port p
  let k := x.lane l
  let eq := x.phase == .equalise || k.retrain
  let st : Word := k.stWord ||| (if eq && k.rxReady then 0xC0 else 0) ||| BitVec.ofNat 32 (256 * l)
  let r := trainingLevels 0 st (k.prbs ^^^ prbsStart l)
  (s.setPort p (x.modLane l fun k => { k with prbs := r.2 ^^^ prbsStart l })).output (.train p l r.1)

/-- The serialisation of a measured frame in ns, rounded up (R362). -/
def Meas.serial (m : Meas) : Nat :=
  let t := fun (r : Nat) => if r = 0 then 0 else (m.payload + r - 1) / r
  t m.txRate + t m.rxRate

/-- Does a latency exceed 600 ns plus the exact serialisation of the frame (R411). -/
def Meas.over (lat : Nat) (m : Meas) : Bool :=
  let a := max 1 m.txRate
  let b := max 1 m.rxRate
  decide (600 * a * b + m.payload * b + (if m.rxRate = 0 then 0 else m.payload * a) < lat * a * b)

/-- Record the C0 latencies whose last unit leaves with this block; a retry of its egress or its ingress within the hop takes a frame out
(R411). The maximum saturates (R414). -/
def State.noteLatency (p : Port) (us : List TxUnit) (s : State) : State :=
  us.foldl (fun s u =>
    let x := s.port p
    match u.meas with
    | none => s
    | some t =>
      if x.replayPos.isSome || (x.replayAt.any fun a => decide (t.born ≤ a)) || !s.ingressCalm t.born t.ingress then s else
      let lat := s.time - t.born - t.serial
      let e := { x.egress with c0Max := min 0xFFFFFFFF (max x.egress.c0Max lat) }
      if !t.over (s.time - t.born) then s.setPort p { x with egress := e }
      else
        let sec := s.time / 1000000000
        let s := s.setPort p { x with egress := { e with c0Over := sat32 e.c0Over 1, c0Event := some sec } }
        if e.c0Event = some sec then s else s.log Code.c0BoundExceeded clsPort (p.setWidth 16) 0 (BitVec.ofNat 32 lat)) s

/-- Form and send the next DATA block from the waiting units, with null units after the last frame (R348, R349). -/
def State.sendData (p : Port) (s : State) : State :=
  let x := s.port p
  let us := x.txUnits.take 19
  let pad := 19 - us.length
  let heads := us.map (·.head) ++ List.replicate pad true
  let first := match heads.findIdx? id with | some i => i | none => 0x1F
  let bs := x.block 1 first x.txSeq ((us.flatMap (·.bytes)) ++ zeros (32 * pad))
  let s := s.setPort p { x with
    txUnits := x.txUnits.drop 19, txSeq := x.txSeq + 1, retryBuf := x.retryBuf ++ [⟨x.txSeq, bs⟩]
    ackAdv := if x.retryBuf.isEmpty then s.time else x.ackAdv }
  (s.sendStream p bs).noteLatency p us

/-- The next block of an active link: ALIGN blocks that are due, a due TIME block, a replay, DATA, else IDLE. In the
middle of a frame that is cut through only full blocks leave. -/
def State.sendNext (p : Port) (s : State) : State :=
  let x := s.port p
  if x.alignDue ≠ 0 then
    let s := (lanesOf x.alignDue).foldl (fun s l => s.sendBlock true p l (x.alignBlock l)) (s.setPort p { x with alignDue := 0, widthDue := false })
    if x.widthDue then s.widthDone p else s
  else if x.timeDue ∧ x.timeSent + 1000 ≤ s.time then
    (s.setPort p { x with timeDue := false, timeSent := s.time }).sendStream p (x.block 3 0 0 (s.timeUnits p))
  else
    match x.replayPos with
    | some k =>
      match x.retryBuf[k]? with
      | some b => (s.setPort p { x with replayPos := if k + 1 < x.retryBuf.length then some (k + 1) else none }).sendStream p b.bytes
      | none => s.setPort p { x with replayPos := none }
    | none =>
      let mid := x.egress.sending.isSome
      if x.retryBuf.length < 2048 ∧ !x.txUnits.isEmpty ∧ (!mid ∨ 19 ≤ x.txUnits.length) then s.sendData p
      else s.sendStream p (x.block 2 0 0 (zeros 608))

/-- A transmitter sends what its phase sends (R336). A TRAIN block leaves on every usable lane (log entry 34). -/
def State.transmit (p : Port) (s : State) : State :=
  let x := s.port p
  if x.dead then s
  else
    match x.phase with
    | .detect => (List.range 8).foldl (fun s l => s.sendTraining p l) s
    | .equalise => (List.range 8).foldl (fun s l => s.sendTraining p l) s
    | .align => (lanesOf x.rxUsable).foldl (fun s l => s.sendBlock true p l (x.alignBlock l)) s
    | .negotiate =>
      let bs := x.block 5 0 0 (s.ownCaps p ++ zeros 576)
      let s := (lanesOf x.rxUsable).foldl (fun s l => s.sendBlock false p l bs) s
      (s.modPort p fun x => { x with trainSent := if x.peerOk then x.trainSent + 1 else 0 }).tryActive p
    | .active =>
      let s := ((List.range 8).filter fun l => (x.lane l).retrain).foldl (fun s l => s.sendTraining p l) s
      s.sendNext p
    | .disabled => s

end Sys2Proof.Machine
end

