-- ==== Sys2Proof/Machine/LinkRows.lean ====
section
/-! DEFINITION. The events of the links and of the egress queues (13, 14, 15). -/

namespace Sys2Proof.Machine

/-! ## Training -/

/-- TRAINING_FRAME (R332 to R336). -/
def execTrainingFrame (port : Port) (lane : BitVec 3) (t : TrainWords) (now : Nat) (s : State) : Host.Outcome State Fault Refusal :=
  s.onPort port now (fun s => s.trainingIn port lane.toNat t)

/-- EQUALISE_TIMEOUT (R336). -/
def execEqualiseTimeout (port : Port) (lane : BitVec 3) (now : Nat) (s : State) : Host.Outcome State Fault Refusal :=
  s.onPort port now (fun s => s.equaliseLate port lane.toNat)

/-- ALIGN_BLOCK (R345). -/
def execAlignBlock (port : Port) (lane : BitVec 3) (rx : LaneData) (now : Nat) (s : State) : Host.Outcome State Fault Refusal :=
  s.onPort port now (fun s => s.alignIn port lane.toNat rx)

/-- ALIGN_TIMEOUT (R336). -/
def execAlignTimeout (port : Port) (now : Nat) (s : State) : Host.Outcome State Fault Refusal :=
  s.onPort port now (fun s =>
    let x := s.port port
    if x.phase = .align ∧ x.phaseAt + 1000000 ≤ s.time then s.toPhase port .detect else s)

/-- TRAIN_BLOCK (R337). -/
def execTrainBlock (port : Port) (lane : BitVec 3) (rx : LaneData) (now : Nat) (s : State) : Host.Outcome State Fault Refusal :=
  s.onPort port now (fun s => s.trainIn port lane.toNat rx)

/-- NEGOTIATE_TIMEOUT (R336, R337): a port that has found a mismatch stays. -/
def execNegotiateTimeout (port : Port) (now : Nat) (s : State) : Host.Outcome State Fault Refusal :=
  s.onPort port now (fun s =>
    let x := s.port port
    if x.phase = .negotiate ∧ !x.mismatch ∧ x.phaseAt + 1000000 ≤ s.time then s.toPhase port .detect else s)

/-! ## Blocks -/

/-- DATA_BLOCK (R347, R354, R355). -/
def execDataBlock (port : Port) (lane : BitVec 3) (rx : LaneData) (now : Nat) (s : State) : Host.Outcome State Fault Refusal :=
  s.onPort port now (fun s => s.dataIn port lane.toNat rx)

/-- IDLE_BLOCK (R348). -/
def execIdleBlock (port : Port) (lane : BitVec 3) (rx : LaneData) (now : Nat) (s : State) : Host.Outcome State Fault Refusal :=
  s.onPort port now (fun s => s.idleIn port lane.toNat rx)

/-- TIME_BLOCK (R364, R365). -/
def execTimeBlock (port : Port) (lane : BitVec 3) (rx : LaneData) (now : Nat) (s : State) : Host.Outcome State Fault Refusal :=
  s.onPort port now (fun s => s.timeIn port lane.toNat rx)

/-- BLOCK_TRANSMIT (R336, R348). -/
def execBlockTransmit (port : Port) (now : Nat) (s : State) : Host.Outcome State Fault Refusal :=
  s.onPort port now (fun s => s.transmit port)

/-- TIME_BLOCK_DUE (R348). -/
def execTimeBlockDue (port : Port) (now : Nat) (s : State) : Host.Outcome State Fault Refusal :=
  s.onPort port now (fun s => s.modPort port fun x =>
    if x.isUp ∧ x.timeSent + 10000 ≤ s.time then { x with timeDue := true } else x)

/-- ALIGN_BLOCK_DUE (R345): every 16,384 codewords of its active lanes. -/
def execAlignBlockDue (port : Port) (now : Nat) (s : State) : Host.Outcome State Fault Refusal :=
  s.onPort port now (fun s => s.modPort port fun x =>
    if x.isUp ∧ ((lanesOf x.txLanes).all fun l => (x.lane l).txCount % 16384 == 0) then { x with alignDue := x.txLanes } else x)

/-! ## Degradation and recovery -/

/-- LANE_SER_WINDOW (R339): above 1 symbol in 10,000 the lane is failing. -/
def execLaneSerWindow (port : Port) (lane : BitVec 3) (errors symbols now : Nat) (s : State) : Host.Outcome State Fault Refusal :=
  s.onPort port now (fun s => if symbols < 10000 * errors then s.laneFail port lane.toNat false else s)

/-- A removed lane's retraining ends: once the lane is equalised, the full set is requested again; after 20 ms without that it stays out
(R336, R340, R514). -/
def State.retrainEnd (p : Port) (l : Nat) (ok : Bool) (s : State) : State :=
  let x := s.port p
  let fine := (x.lane l).rxReady && decide (16 ≤ (x.lane l).readyRun)
  if !x.isUp || !(x.lane l).retrain || ok != fine || (!ok && decide (s.time < (x.lane l).retrainAt + 20000000)) then s
  else if ok then
    let x := { x with rxUsable := x.rxUsable ||| laneMask [l] }.modLane l fun k => { k with retrain := false, laneState := 0 }
    let s := s.setPort p (x.askLanes s.time)
    let y := s.port p
    if y.laneReq = y.rxLanes ∧ !y.retraining ∧ s.pair.recUnits.contains p.toNat then s.recoveryEnd p Code.widthChanged y.maskDetail else s
  else
    let s := s.setPort p (x.modLane l fun k => { k with retrain := false, laneState := 3 })
    if (s.port p).retraining ∨ (s.port p).laneReq ≠ (s.port p).rxLanes then s.log Code.laneFailed clsPort (p.setWidth 16) 0 (BitVec.ofNat 32 l)
    else s.recoveryEnd p Code.laneFailed (BitVec.ofNat 32 l)

/-- LANE_RETRAIN_END (R340). -/
def execLaneRetrainEnd (port : Port) (lane : BitVec 3) (ok : Bool) (now : Nat) (s : State) : Host.Outcome State Fault Refusal :=
  s.onPort port now (fun s => s.retrainEnd port lane.toNat ok)

/-- ACK_TIMEOUT_REPLAY (R356). -/
def execAckTimeoutReplay (port : Port) (now : Nat) (s : State) : Host.Outcome State Fault Refusal :=
  s.onPort port now (fun s =>
    let x := s.port port
    if x.isUp ∧ !x.retryBuf.isEmpty ∧ x.ackAdv + 20000 ≤ s.time then s.startReplay port else s)

/-- LINK_SILENCE_TIMEOUT (R341). -/
def execLinkSilenceTimeout (port : Port) (now : Nat) (s : State) : Host.Outcome State Fault Refusal :=
  s.onPort port now (fun s =>
    let x := s.port port
    if x.isUp ∧ x.lastRx + 100000 ≤ s.time then s.linkDown port .detect false else s)

/-- A write of disable (R341, R366). A port of the role unused stays DISABLED (R367). -/
def State.disablePort (p : Port) (d : Bool) (s : State) : State :=
  let s := s.modPort p fun x => { x with disable := d }
  if d then s.linkDown p .disabled false
  else if (s.port p).phase = .disabled ∧ s.role p ≠ 0 then (s.toPhase p .detect).modPort p fun x => { x with down := false } else s

/-- FAB_WZ_CTRL_DISABLE (R366). The register of a port that a fuse disables holds what is written (R7, R15). -/
def execFabWzCtrlDisable (port : Port) (disable : Bool) (now : Nat) (s : State) : Host.Outcome State Fault Refusal :=
  s.happens now (fun s => if s.hasPort port then s.disablePort port disable else s.modPort port fun x => { x with disable := disable })

/-- A write of go (R366). -/
def State.retrainPort (p : Port) (s : State) : State :=
  if (s.port p).phase = .disabled then s else (s.linkDown p .detect false).modPort p fun x => { x with down := false }

/-- FAB_WZ_RETRAIN (R366). -/
def execFabWzRetrain (port : Port) (go : Bool) (now : Nat) (s : State) : Host.Outcome State Fault Refusal :=
  s.onPort port now (fun s => if go then s.retrainPort port else s)

/-! ## Forwarding -/

/-- ROUTE_LOOKUP_DONE (R381). -/
def execRouteLookupDone (port : Port) (now : Nat) (s : State) : Host.Outcome State Fault Refusal :=
  s.onPort port now (fun s => s.lookupsDone port)

/-- EGRESS_SELECT (R396). -/
def execEgressSelect (port : Port) (now : Nat) (s : State) : Host.Outcome State Fault Refusal :=
  s.onPort port now (fun s => s.selectFrame port)

/-- FRAME_STOMP (R358). -/
def execFrameStomp (port : Port) (now : Nat) (s : State) : Host.Outcome State Fault Refusal :=
  s.onPort port now (fun s => s.frameStomp port)

/-- STREAM frames of an impression that have waited 100 µs for a steering entry are discarded (R377). -/
def State.steeringLate (no : JobNo) (ident : Word) (s : State) : State :=
  let late := s.fab.heldStream.filter fun q => q.f.job == no && q.f.ident == ident && decide (q.born + 100000 ≤ s.time)
  late.foldl (fun s q => (s.modFab fun b => { b with noTarget := b.noTarget + 1 }).release q)
    (s.modFab fun b => { b with heldStream := b.heldStream.filter fun q => !late.contains q })

/-- STEERING_TIMEOUT (R377). -/
def execSteeringTimeout (job : JobNo) (ident : BitVec 32) (now : Nat) (s : State) : Host.Outcome State Fault Refusal :=
  s.happens now (fun s => s.steeringLate job ident)

/-! ## Congestion response (R387) -/

/-- ECN_ECHO (R387). -/
def execEcnEcho (job : JobNo) (rank : BitVec 12) (now : Nat) (s : State) : Host.Outcome State Fault Refusal :=
  s.happens now (fun s => s.echoFrom job rank)

/-- ECN_RATE_STEP (R387). -/
def execEcnRateStep (job : JobNo) (rank : BitVec 12) (now : Nat) (s : State) : Host.Outcome State Fault Refusal :=
  s.happens now (fun s => s.modEcn job rank fun r => (r.fill (s.lineTo job rank) s.time).raise (s.lineTo job rank) s.time)

/-! ## Sampling, policers, drains -/

/-- The sample of one class queue (R410): a frame in transmission is not in the queue. The maxima saturate (R414). -/
def Egress.sample (now c : Nat) (e : Egress) : QSample :=
  let q := Table.get ⟨0, 0, 0, 0, 0⟩ c e.qs
  let depth := queueUnits (e.queue c)
  let delay := match e.queue c with | x :: _ => now - x.born | [] => 0
  ⟨q.samples + 1, q.depthSum + depth, q.delaySum + delay, min 0xFFFFFFFF (max q.depthMax depth), min 0xFFFFFFFF (max q.delayMax delay)⟩

/-- QUEUE_SAMPLE (R410): at every multiple of the period, all five queues at once. -/
def execQueueSample (port : Port) (now : Nat) (s : State) : Host.Outcome State Fault Refusal :=
  s.onPort port now (fun s => s.modPort port fun x =>
    let e := x.egress
    if s.time % (256 * max 1 e.period.toNat) = 0 then
      { x with egress := { e with qs := (List.range 5).foldl (fun t c => Table.set ⟨0, 0, 0, 0, 0⟩ c (e.sample s.time c) t) e.qs } }
    else x)

/-- The index of a policed class (R414). -/
def PolicedClass.index : PolicedClass → Nat
  | .c2 => 0
  | .c3 => 1
  | .c4 => 2

/-- A policer after a write of one of its parameters: both buckets are full (R405). -/
def Policer.put (par : PolicerParam) (v : Word) (now : Nat) (p : Policer) : Policer :=
  let p := match par with
    | .cir => { p with cir := v }
    | .pir => { p with pir := v }
    | .cbs => { p with cbs := v }
    | .pbs => { p with pbs := v }
  { p with tc := 1000 * p.cbs.toNat, tp := 1000 * p.pbs.toNat, filled := now }

/-- Write a parameter of a policer; the effective rates follow (R405, R413). -/
def State.policerWrite (port : Port) (i : Nat) (par : PolicerParam) (v : Word) (s : State) : State :=
  let s := s.modPort port fun x =>
    let t := Table.set Policer.reset i ((Table.get Policer.reset i x.egress.policers).put par v s.time) x.egress.policers
    { x with egress := { x.egress with policers := t } }
  s.rates port

/-- POLICER_PARAM_WRITE (R405). The registers of a port that a fuse disables hold what is written (R15). -/
def execPolicerParamWrite (port : Port) (cls : PolicedClass) (par : PolicerParam) (value : BitVec 32) (now : Nat) (s : State) :
    Host.Outcome State Fault Refusal :=
  s.happens now (fun s => s.policerWrite port (PolicedClass.index cls) par value)

/-- Is every ring and mirror egress empty: its queues, its started frames, its retry buffer, and no frame is on its way to one (R390). -/
def State.drainedNow (s : State) : Bool :=
  let toward := fun (d : Dest) => match d with | .port q => decide (2 ≤ (s.role q).toNat) | _ => false
  allPorts.all fun p =>
    let x := s.port p
    !(x.lookups.any fun (l : Lookup) => !l.looked && (s.dests (some p) l.f).any toward) &&
    (x.role == 0#4 || x.role == 1#4 ||
      (((List.range 5).all fun c => (x.egress.queue c).isEmpty) && x.egress.sending.isNone && x.txUnits.isEmpty && x.retryBuf.isEmpty))

/-- DRAINED (R390). -/
def execDrained (now : Nat) (s : State) : Host.Outcome State Fault Refusal :=
  s.happens now (fun s => if s.fab.st = .draining ∧ s.drainedNow then s.modFab fun b => { b with st := .drained } else s)

/-- DRAIN_TIMEOUT (R390): raised once in a drain. -/
def execDrainTimeout (now : Nat) (s : State) : Host.Outcome State Fault Refusal :=
  s.happens now (fun s =>
    if s.fab.st = .draining ∧ !s.fab.drainTold ∧ s.fab.drainAt + 10000000 ≤ s.time then
      (s.modFab fun b => { b with drainTold := true }).log Code.drainTimeout clsModule 0 0 0
    else s)

end Sys2Proof.Machine
end

