-- ==== Sys2Proof/Machine/StreamRows.lean ====
section
/-! DEFINITION. The events of the stream engines: launches, activation, frames, additions, deliveries, deadlines and
completions (08). -/

namespace Sys2Proof.Machine

/-- Apply an effect to a context of an engine, where it is active. -/
def State.atCtx (p : Port) (id : Nat) (g : Ctx → State → State) (s : State) : State :=
  match s.ctx p id with
  | some c => g c s
  | none => s

/-- A frame reaches its engine, in the order of its source and unless its transfer waits for an entry (R18, R204, R282). -/
def State.engineFrame (p : Port) (f : Frame) (s : State) : State :=
  if s.behind (.engine p) f || s.pstHolds f then s else (s.unboxHeld (.engine p) f).ingress p f

/-! ## Launch and activation -/

/-- The oldest Pacor launch that waits for room in a launch queue enters it (R202). -/
def State.pacorLaunch (p : Port) (s : State) : State :=
  match (s.eng p).pacorWait with
  | q :: rest =>
    if s.queueFull p then s
    else (s.modEng p fun e => { e with pacorWait := rest }).enqueue p q.1.desc q.1.step q.1.entry
  | [] => s

/-- PACOR_LAUNCH (R202). -/
def execPacorLaunch (port : Port) (now : Nat) (s : State) : Host.Outcome State Fault Refusal :=
  s.onPort port now (fun s => s.pacorLaunch port)

/-- DESCRIPTOR_ACTIVATE (R203, R211). -/
def execDescriptorActivate (port : Port) (now : Nat) (s : State) : Host.Outcome State Fault Refusal :=
  s.onPort port now (fun s => s.activate port)

/-! ## REDUCE -/

/-- CONTRIB (R204, R219). -/
def execContrib (eng : Port) (f : Frame) (now : Nat) (s : State) : Host.Outcome State Fault Refusal :=
  s.onPort eng now (fun s => s.engineFrame eng f)

/-- REDUCE_ADD (R88, R220). -/
def execReduceAdd (eng : Port) (ctx now : Nat) (s : State) : Host.Outcome State Fault Refusal :=
  s.onPort eng now (fun s => s.atCtx eng ctx fun c s => s.reduceAdd eng c)

/-- Does a collecting context miss ranks after its deadline (R221, R232). -/
def Ctx.lateFor (now : Nat) (c : Ctx) : Bool :=
  (c.phase == .collecting || c.phase == .waitReads) && c.expired now && !c.missing.isEmpty

/-- The ranks that a context still misses. -/
def Ctx.missingRanks (c : Ctx) : List Nat := c.missing.map fun q => c.mask.getD q 0

/-- REDUCE_DEADLINE (R221). -/
def execReduceDeadline (eng : Port) (ctx now : Nat) (s : State) : Host.Outcome State Fault Refusal :=
  s.onPort eng now (fun s => s.atCtx eng ctx fun c s =>
    if c.desc.op = 1 ∧ c.lateFor s.time then s.missDeadline eng c c.missingRanks else s)

/-- REDUCE_DELIVERY (R222). -/
def execReduceDelivery (eng : Port) (ctx now : Nat) (s : State) : Host.Outcome State Fault Refusal :=
  s.onPort eng now (fun s => s.atCtx eng ctx fun c s =>
    if c.desc.op = 1 ∧ c.phase = .summed then s.deliver eng c else s)

/-- OVERFLOW_REPLAY (R126, R127). -/
def execOverflowReplay (eng : Port) (ctx now : Nat) (s : State) : Host.Outcome State Fault Refusal :=
  s.onPort eng now (fun s => s.atCtx eng ctx fun c s => s.replay eng c)

/-! ## GATHER -/

/-- GATHER_COLLECT_FRAME (R232). -/
def execGatherCollectFrame (eng : Port) (f : Frame) (now : Nat) (s : State) : Host.Outcome State Fault Refusal :=
  s.onPort eng now (fun s => s.engineFrame eng f)

/-- GATHER_REQ (R233). -/
def execGatherReq (eng : Port) (f : Frame) (now : Nat) (s : State) : Host.Outcome State Fault Refusal :=
  s.onPort eng now (fun s => s.engineFrame eng f)

/-- GATHER_SERVE_DEADLINE (R233). -/
def execGatherServeDeadline (eng : Port) (ctx now : Nat) (s : State) : Host.Outcome State Fault Refusal :=
  s.onPort eng now (fun s => s.atCtx eng ctx fun c s =>
    if c.desc.serve && c.expired s.time && !c.readsDone then s.serveDeadline eng c else s)

/-- GATHER_REPLY_SENT (R309). -/
def execGatherReplySent (eng : Port) (ctx now : Nat) (s : State) : Host.Outcome State Fault Refusal :=
  s.onPort eng now (fun s => s.atCtx eng ctx fun c s => if c.desc.serve then s.replySent eng c else s)

/-- GATHER_COLLECT_DEADLINE (R232). -/
def execGatherCollectDeadline (eng : Port) (ctx now : Nat) (s : State) : Host.Outcome State Fault Refusal :=
  s.onPort eng now (fun s => s.atCtx eng ctx fun c s =>
    if c.desc.op = 2 ∧ !c.desc.serve ∧ c.lateFor s.time then s.missDeadline eng c c.missingRanks else s)

/-! ## SHIFT and PERMUTE -/

/-- SHIFT_BLOCK (R234). -/
def execShiftBlock (eng : Port) (f : Frame) (now : Nat) (s : State) : Host.Outcome State Fault Refusal :=
  s.onPort eng now (fun s => s.engineFrame eng f)

/-- SHIFT_DEADLINE (R235). -/
def execShiftDeadline (eng : Port) (ctx now : Nat) (s : State) : Host.Outcome State Fault Refusal :=
  s.onPort eng now (fun s => s.atCtx eng ctx fun c s =>
    if c.desc.op = 3 ∧ c.expired s.time then s.missDeadline eng c c.shiftMissing else s)

/-- PERMUTE_BLOCK (R236, R237). -/
def execPermuteBlock (eng : Port) (f : Frame) (now : Nat) (s : State) : Host.Outcome State Fault Refusal :=
  s.onPort eng now (fun s => s.engineFrame eng f)

/-- An impression without ranks to name ends after its deadline, and what it has not begun to send is not sent (R557). -/
def State.streamLate (p : Port) (c : Ctx) (s : State) : State := (s.unsend c).endCtx p c Code.deadlineMissed []

/-- PERMUTE_READS_DONE (R238). -/
def execPermuteReadsDone (eng : Port) (ctx now : Nat) (s : State) : Host.Outcome State Fault Refusal :=
  s.onPort eng now (fun s => s.atCtx eng ctx fun c s =>
    if c.desc.op = 4 then (if c.expired s.time then s.streamLate eng c else s.readsDone eng c) else s)

/-! ## Completion and deadlines of the others -/

/-- STREAM_WORK_DONE (R214, R557). -/
def execStreamWorkDone (eng : Port) (ctx now : Nat) (s : State) : Host.Outcome State Fault Refusal :=
  s.onPort eng now (fun s => s.atCtx eng ctx fun c s =>
    if 4 ≤ c.desc.op ∧ c.expired s.time then s.streamLate eng c else s.workDone eng c)

/-- STREAM_DEADLINE (R557). -/
def execStreamDeadline (eng : Port) (ctx now : Nat) (s : State) : Host.Outcome State Fault Refusal :=
  s.onPort eng now (fun s => s.atCtx eng ctx fun c s =>
    if 4 ≤ c.desc.op ∧ c.expired s.time then s.streamLate eng c else s)

end Sys2Proof.Machine
end

