-- ==== Sys2Proof/Machine/SyncRows.lean ====
section
/-! DEFINITION. Signals, pending-signal entries, barrier frames and deadlines, and additions to advance counters (10
R278 to R292; 11 R307). -/

namespace Sys2Proof.Machine

/-! ## Pending signals (R280, R281) -/

/-- Take the entry of a transfer out of a die's table. -/
def State.pstDrop (d : Die) (e : PstEntry) (s : State) : State :=
  s.modDie d fun x => { x with pst := x.pst.filter fun y => !y.isFor e.job e.rank e.transfer }

/-- Discard an entry without its increment (R281): the count, and an event for the rank that names the transfer and,
above it, the counter where the tag has come (log entry 27). -/
def State.pstMismatch (d : Die) (e : PstEntry) (s : State) : State :=
  let s := s.pstDrop d e
  let s := s.modDie d fun x => { x with sigMismatch := sat32 x.sigMismatch 1 }
  let n : CounterName := match e.tag with | some t => t.counter | none => 0
  s.log Code.signalMismatch clsRank (e.rank.setWidth 16) e.job (e.transfer.setWidth 32 ||| (n.setWidth 32 <<< 16))

/-- Judge an entry after an update (R280, R281): a tag for another die or a tally above announced discards it, an equal
tally applies its increment and frees it. -/
def State.pstJudge (d : Die) (e : PstEntry) (s : State) : State :=
  match e.tag with
  | some t =>
    if t.counter.die ≠ d ∨ t.announced.toNat < e.tally then s.pstMismatch d e
    else if e.tally = t.announced.toNat then (s.pstDrop d e).signal t.counter e.job t.inc.toNat (srcRank e.rank.toNat)
    else s
  | none => s

/-- Does another die hold an entry of a transfer: its frames carry different dies (R281). -/
def State.pstElsewhere (d : Die) (no : JobNo) (r : Rank) (t : BitVec 16) (s : State) : Option (Die × PstEntry) :=
  allDies.findSome? fun x => if x = d then none else (s.pstEntry x no r t).map fun e => (x, e)

/-- Committed bytes of a transfer reach the die of its counter (R280). -/
def State.pstUpdate (d : Die) (no : JobNo) (r : Rank) (t : BitVec 16) (bytes : Nat) (tag : Option SigTag) (s : State) : State :=
  match s.pstElsewhere d no r t with
  | some x => s.pstMismatch x.1 x.2
  | none =>
    let old := (s.pstEntry d no r t).getD ⟨no, r, t, 0, none, 0⟩
    let e : PstEntry := { old with tally := old.tally + bytes, tag := tag.orElse fun _ => old.tag, updated := s.time }
    let s := s.modDie d fun x =>
      let pst := (x.pst.filter fun y => !y.isFor no r t) ++ [e]
      { x with pst := pst, pstPeak := max x.pstPeak pst.length }
    s.pstJudge d e

/-- The tag of a frame's tail (R278, R279). -/
def frameTag (f : Frame) : Option SigTag := if f.inc = 0 then none else some ⟨f.counter, f.inc, f.announced⟩

/-- The report of a committed frame. -/
def frameReport (f : Frame) : CommitRep := ⟨f.job, f.srcRank, f.transfer, f.payload.length, frameTag f⟩

/-- A frame of a signalled transfer commits on a die (R280). On the die of its counter it updates the entry; on another
die its report sets out for that die. While the table of that die has no entry for it, the frame stays where it waits (R282). A multicast
STREAM frame opens no entry (R284). -/
def State.frameCommits (d : Die) (f : Frame) (s : State) : State :=
  if !Frame.signals f then s
  else if s.behind (.die d) f || s.pstHolds f then s
  else if f.sigDie ≠ d then (s.unbox (.die d) f).modDie f.sigDie fun x => { x with reports := x.reports ++ [frameReport f] }
  else (s.unbox (.die d) f).pstUpdate d f.job f.srcRank f.transfer f.payload.length (frameTag f)

/-- SIGNALLED_FRAME_COMMIT (R280 to R282). -/
def execSignalledFrameCommit (die : Die) (f : Frame) (now : Nat) (s : State) : Host.Outcome State Fault Refusal :=
  s.happens now (fun s => s.frameCommits die f)

/-- The report that a command names, as a die holds it on its way. -/
def repOf (r : CommitReport) : CommitRep :=
  ⟨r.job, r.rank, r.transfer, r.bytes.toNat, r.tag.map fun t => ⟨t.1, t.2.1, t.2.2⟩⟩

/-- A report of a committed frame arrives from another die (R280). It is one that set out as its frame committed there; no other report
exists. DESIGN CHOICE (log entry 120): each committed frame has a report of its own, and its entry opens and counts when the report
arrives. -/
def State.commitReport (src : Die) (r : CommitReport) (s : State) : State :=
  if src = r.dst ∨ !(s.die r.dst).reports.contains (repOf r) then s
  else (s.modDie r.dst fun x => { x with reports := x.reports.erase (repOf r) }).pstUpdate r.dst r.job r.rank r.transfer r.bytes.toNat (repOf r).tag

/-- DIE_COMMIT_REPORT (R280). -/
def execDieCommitReport (src : Die) (r : CommitReport) (now : Nat) (s : State) : Host.Outcome State Fault Refusal :=
  s.happens now (fun s => s.commitReport src r)

/-- SIGNAL (R278, R283): a signal-only frame adds as it commits, unless it stands behind an earlier frame of its source (R18). -/
def execSignal (f : Frame) (now : Nat) (s : State) : Host.Outcome State Fault Refusal :=
  s.happens now (fun s =>
    let late := s.behind (.die f.counter.die) f
    let s := s.unbox (.die f.counter.die) f
    if f.stomp || late then s else s.signal f.counter f.job f.inc.toNat (srcRank f.srcRank.toNat))

/-- A pending entry that nothing has updated for 1 ms is discarded (R281). -/
def State.pstTimeout (d : Die) (no : JobNo) (r : Rank) (t : BitVec 16) (s : State) : State :=
  match s.pstEntry d no r t with
  | some e => if e.updated + 1000000 ≤ s.time then s.pstMismatch d e else s
  | none => s

/-- PENDING_SIGNAL_TIMEOUT (R281). -/
def execPendingSignalTimeout (die : Die) (job : JobNo) (rank : BitVec 12) (transfer : BitVec 16) (now : Nat) (s : State) :
    Host.Outcome State Fault Refusal :=
  s.happens now (fun s => s.pstTimeout die job rank transfer)

/-! ## Barriers (R287 to R290) -/

/-- Is a job live: starting, running, or done and not ended (R289, R459). -/
def State.live (no : JobNo) (s : State) : Bool :=
  (s.job no).st == .running || (s.job no).st == .starting || (s.job no).st == .done

/-- The slot of a barrier frame. -/
def barSlot (f : Frame) : Nat := f.ident.toNat % 64
/-- The vote of a barrier frame. -/
def barVote (f : Frame) : Bool := f.ident.getLsbD 6

/-- An arrival frame reaches the root (R287, R288). One that no barrier of a live job takes is discarded and counted. -/
def State.arrivalIn (f : Frame) (s : State) : State :=
  let late := s.behind (s.barUnit f) f
  let s := s.unbox (s.barUnit f) f
  if late then s else
  match s.barDef f.job (barSlot f) with
  | some b =>
    if s.live f.job && s.isRoot f.job b then s.barArrive f.job b (f.detail.setWidth 32) f.srcRank.toNat (barVote f)
    else s.modBar (barSlot f) fun k => { k with discarded := sat32 k.discarded 1 }
  | none => s.modBar (barSlot f) fun k => { k with discarded := sat32 k.discarded 1 }

/-- BARRIER_ARRIVAL_FRAME (R287, R288). -/
def execBarrierArrivalFrame (f : Frame) (now : Nat) (s : State) : Host.Outcome State Fault Refusal :=
  s.happens now (fun s => s.arrivalIn f)

/-- The deadline of the open generation of a slot has passed at the root (R288, R289). -/
def State.barLate (slot : Nat) (s : State) : State :=
  let k := s.bar slot
  match s.barDef k.job slot, k.opened with
  | some b, some t =>
    if s.live k.job && s.isRoot k.job b && b.deadline != 0 && decide (t + 256 * b.deadline < s.time) then
      (s.barEnd k.job b 1).barCheck k.job b
    else s
  | _, _ => s

/-- BARRIER_DEADLINE (R289). -/
def execBarrierDeadline (slot : BitVec 6) (now : Nat) (s : State) : Host.Outcome State Fault Refusal :=
  s.happens now (fun s => s.barLate slot.toNat)

/-- A completion frame reaches a participant (R289): its record and mask are copied unchanged, then done_counter, then
the contexts that wait. A generation that this module has left is not completed again. -/
def State.completionIn (f : Frame) (s : State) : State :=
  let late := s.behind (s.barUnit f) f
  let s := s.unbox (s.barUnit f) f
  if late then s else
  match s.barDef f.job (barSlot f) with
  | some b =>
    let gen : Word := f.detail.setWidth 32
    let status := f.ident.toNat / 256 % 256
    if s.live f.job && decide ((s.bar (barSlot f)).gen ≤ gen) then
      let mask := if f.payload.length = 544 then f.payload.drop 32 else List.replicate 512 0
      (s.barOutcome f.job b gen (BitVec.ofNat 8 status) (barVote f) (f.payload.take 32) mask).barDone f.job b status gen
    else s
  | none => s

/-- BARRIER_COMPLETION_FRAME (R289). -/
def execBarrierCompletionFrame (f : Frame) (now : Nat) (s : State) : Host.Outcome State Fault Refusal :=
  s.happens now (fun s => s.completionIn f)

/-! ## Shard states (R307) -/

/-- The source of an addition that a unit makes (R274). -/
def adderSrc : Adder → AddSrc
  | .cluster c => srcCluster c
  | .port p => srcPort p
  | .rank r => srcRank r.toNat

/-- SHARD_ADVANCE (R227, R274, R307): a signed addition by a unit to the advance counter of a shard. -/
def execShardAdvance (counter : CounterName) (add : Addition) (now : Nat) (s : State) : Host.Outcome State Fault Refusal :=
  s.happens now (fun s => if (s.advances counter).isSome then s.addCounter counter add.amount.toInt (adderSrc add.who) else s)

end Sys2Proof.Machine
end

