-- ==== Sys2Proof/Machine/Mem.lean ====
section
/-! DEFINITION. Memory-semantic access: the checks of a request, reads and their combining, writes, replies (16 R416 to
R434); and the refresh slots of the stacks with their scrub accesses (17 R439 to R445). -/

namespace Sys2Proof.Machine

/-! ## Fields and replies (R419) -/

/-- op of a request. -/
def memOp (f : Frame) : Nat := bitsOf f.detail.toNat 12 4
/-- The window that a request names. -/
def memWindow (f : Frame) : BitVec 12 := f.detail.setWidth 12

/-- The reply to a request with a status and the line of a served READ. -/
def State.memReplyFrame (f : Frame) (status : Nat) (line : List Byte) (e : RankEntry) (s : State) : Frame :=
  { Frame.blank with
    kind := 7, cls := 2, plen := BitVec.ofNat 8 (line.length / 32), job := f.job
    srcRank := BitVec.ofNat 12 ((s.ownRank f.job).getD 0), transfer := f.transfer, ident := f.ident, offset := f.offset
    detail := ((f.detail.setWidth 16).setWidth 64) ||| BitVec.ofNat 64 (65536 * status), payload := line }.toRank e

/-- Send the reply to a request, counted by its operation and status (R419, R434). -/
def State.memReply (d : Die) (f : Frame) (status : Nat) (line : List Byte) (s : State) : State :=
  let s := s.modDie d fun x => { x with
    memReads := if memOp f = 1 then x.memReads + 1 else x.memReads
    memWrites := if memOp f = 2 then x.memWrites + 1 else x.memWrites
    memRefused := if status = 0 then x.memRefused else x.memRefused + 1 }
  match s.rankEntry f.job f.srcRank.toNat with
  | some e => if (s.job f.job).proofRole = 2 then s else s.send (s.memReplyFrame f status line e)
  | none => s

/-! ## Checks (R420) -/

/-- Is a request malformed. -/
def memMalformed (f : Frame) : Bool :=
  !(memOp f == 1 || memOp f == 2) || f.plen.toNat != (if memOp f = 2 then 4 else 0) || f.offset.toNat % 128 != 0
    || f.fmt != 0#4 || (memOp f == 1 && f.inc != 0#16)

/-- The status of a request before it touches DRAM, 0 where it may be served. A WRITE to code of a loaded plate is refused (R159), with
DENIED (log entry 121: the spec names no status). -/
def State.memStatus (f : Frame) (s : State) : Nat :=
  if memMalformed f then 7
  else
    match s.window (memWindow f) with
    | none => 1
    | some w =>
      if w.job ≠ f.job then 2
      else if w.size < f.offset.toNat + 128 then 3
      else if (memOp f = 1 ∧ !w.rd) ∨ (memOp f = 2 ∧ !w.wr) then 4
      else if memOp f = 2 ∧ s.inCode (w.base.toNat + f.offset.toNat) 128 then 4
      else if memOp f = 2 ∧ ((s.job f.job).st = .stopped ∨ s.pair.st = .fenced) then 5
      else 0

/-! ## Reads (R423, R427, R428) -/

/-- The address of a line. -/
def memAddr (w : Window) (off : Word) : Nat := w.base.toNat + off.toNat

/-- Serve a READ of a line to its readers with one DRAM read: every reader receives the value, or DRAM_UNCORRECTABLE. -/
def State.serveReads (d : Die) (w : Window) (off : Word) (readers : List Frame) (s : State) : State :=
  let r := s.demand (memAddr w off) 128 0x1FE w.job
  readers.foldl (fun s f => match r.1.2 with
    | none => s.memReply d f 0 r.1.1
    | some _ => s.memReply d f 6 []) r.2

/-- The open combine entry that a READ of a window joins. -/
def DieState.combineOf (w : Window) (off : Word) (x : DieState) : Option Combine :=
  x.combines.find? fun (c : Combine) => c.job == w.job && c.window == w.number && c.offset == off

/-- A combine entry closes, and its single read issues. -/
def State.closeCombine (d : Die) (w : Window) (c : Combine) (s : State) : State :=
  (s.modDie d fun x => { x with combines := x.combines.erase c }).serveReads d w c.offset c.readers

/-- The window of a combine entry, by the plate of its job where the job has ended since (R422, R427). -/
def State.combineWindow (c : Combine) (s : State) : Option Window :=
  match s.windows.find? fun (w : Window) => w.number == c.window && w.job == c.job with
  | some w => some w
  | none => ((s.plate c.job).bind fun (p : Plate) => p.windows.find? fun (w : Window) => w.number == c.window).map fun (w : Window) => { w with job := c.job }

/-- A combine entry whose window has ended closes; without a plate of its job it has no reader to answer (R421, R427). -/
def State.combineOver (d : Die) (c : Combine) (s : State) : State :=
  match s.combineWindow c with
  | some w => s.closeCombine d w c
  | none => s.modDie d fun x => { x with combines := x.combines.erase c }

/-- Every combine entry of a die over a line closes, through whichever window it was opened (R423, R427). -/
def State.closeLine (d : Die) (a : Nat) (s : State) : State :=
  ((s.die d).combines.filter fun (c : Combine) => match s.combineWindow c with
    | some w => meets (memAddr w c.offset) 128 a 128
    | none => false).foldl (fun s c => s.combineOver d c) s

/-- Every combine entry of a die whose window has ended closes. -/
def State.combinesDue (d : Die) (s : State) : State :=
  ((s.die d).combines.filter fun (c : Combine) => decide (c.closes ≤ s.time)).foldl (fun s c => s.combineOver d c) s

/-- The length of a combine window in ns: 64 steps at the die's cap, to the first whole ns at which they are over (R427). -/
def State.combineNs (d : Die) (s : State) : Nat :=
  let cap := max 1 (s.margin.capApplied.getD d.toNat 85)
  (6400 + cap - 1) / cap

/-- A READ that may be served; it joins no entry whose window has ended (R427). -/
def State.readLine (d : Die) (w : Window) (f : Frame) (s : State) : State :=
  if !w.combine then s.serveReads d w f.offset [f]
  else
    let s := s.combinesDue d
    match (s.die d).combineOf w f.offset with
    | some c =>
      let c' := { c with readers := c.readers ++ [f] }
      let s := s.modDie d fun x => { x with memCombined := x.memCombined + 1, combines := x.combines.map fun y => if y = c then c' else y }
      if 64 ≤ c'.readers.length then s.closeCombine d w c' else s
    | none =>
      if 256 ≤ (s.die d).combines.length then
        (s.modDie d fun x => { x with combineFull := sat32 x.combineFull 1 }).serveReads d w f.offset [f]
      else s.modDie d fun x => { x with combines := x.combines ++ [⟨w.job, w.number, f.offset, [f], s.time + s.combineNs d⟩] }

/-! ## Writes (R423, R425, R429, R432) -/

/-- A WRITE that may be served: it closes the combine entries of its line, replaces the line, and is answered. The primary
forwards it to the twin as the copy that has come in. -/
def State.writeLine (d : Die) (w : Window) (q : Option Queued) (f : Frame) (s : State) : State :=
  let s := s.closeLine d (memAddr w f.offset)
  let s := s.store (memAddr w f.offset) f.payload
  let r := s.newCopy f none
  let s := match q with | some q => s.forwardTwin q f | none => r.2.forwardTwin r.1 f
  s.memReply d f 0 []

/-- A refused WRITE of a signalled transfer discards the pending entry of the transfer, with the reports on their way to it, and the
discard counts (R429). -/
def State.refuseSignal (f : Frame) (s : State) : State :=
  let x := s.die f.sigDie
  if memOp f = 2 ∧ f.sig ∧ (x.pst.any (PstEntry.isFor f.job f.srcRank f.transfer) ∨ x.reports.any (CommitRep.isFor f.job f.srcRank f.transfer)) then
    s.modDie f.sigDie fun x => { x with
      pst := x.pst.filter fun y => !y.isFor f.job f.srcRank f.transfer
      reports := x.reports.filter fun y => !y.isFor f.job f.srcRank f.transfer
      sigDiscarded := sat32 x.sigDiscarded 1 }
  else s

/-- Is there no rank list for the requests of a job: no loaded plate, or the job has ended (R421, R422). -/
def State.memNoRanks (no : JobNo) (s : State) : Bool :=
  (s.plate no).isNone || no == 0 || ((s.job no).st == .loaded && (s.job no).ended)

/-- The memory unit of a die takes a request. -/
def State.memTake (d : Die) (f : Frame) (s : State) : State :=
  let r := s.takeOut (.mem d) f
  let s := r.2
  let s := if s.memNoRanks f.job then
      (s.modDie d fun x => { x with memNoJob := sat32 x.memNoJob 1 }).modFab fun b => { b with noTarget := b.noTarget + 1 }
    else
      match s.memStatus f, s.window (memWindow f) with
      | 0, some w => if memOp f = 1 then s.readLine d w f else s.writeLine d w r.1 f
      | n, _ => (s.refuseSignal f).memReply d f n []
  match r.1 with
  | some q => s.release q
  | none => s

/-- A request reaches the memory unit of a die, unless it stands behind an earlier one of its source (R18) or its transfer waits
for an entry (R282). -/
def State.memRequest (d : Die) (f : Frame) (s : State) : State :=
  if s.behind (.mem d) f || s.pstHolds f then s else s.memTake d f

/-- MEM_REQ (R420). -/
def execMemReq (die : Die) (f : Frame) (now : Nat) (s : State) : Host.Outcome State Fault Refusal :=
  s.happens now (fun s => s.memRequest die f)

/-- A combine window ends (R427). -/
def State.combineEnd (d : Die) (n : BitVec 12) (off : Word) (s : State) : State :=
  match (s.die d).combines.find? fun (c : Combine) => c.window == n && c.offset == off && decide (c.closes ≤ s.time) with
  | some c => s.combineOver d c
  | none => s

/-- COMBINE_CLOSE (R427). -/
def execCombineClose (die : Die) (window : BitVec 12) (offset : BitVec 32) (now : Nat) (s : State) : Host.Outcome State Fault Refusal :=
  s.happens now (fun s => s.combineEnd die window offset)

/-! ## Refresh and scrubbing (R439, R443 to R445) -/

/-- The stack offset of byte a of a channel: the inverse of dram_map (R436). -/
def dramOffset (ch a : Nat) : Nat := (a / 256 * 16 + (ch ^^^ (a / 256 % 16))) * 256 + a % 256

/-- The number of 128-byte lines of a bank: its whole row segments, and its part of the last row (R435, R436). -/
def bankLines (bank : Nat) : Nat := 152587 * 16 + (min 2048 (29184 - bank * 2048) + 127) / 128

/-- What a scrub finds in one code word: a corrected word counts and is written back; the sixteenth of its row reports the
row; an uncorrectable word stays as it is, and fails every later scrub and demand read (R441 to R445). -/
def State.scrubWord (k o : Nat) (found : Syndrome) (s : State) : State :=
  match s.wordFinds (dramAddr k o) found with
  | .clean => s
  | .corrected =>
    ({ s with weakWords := s.weakWords.filter (· ≠ dramAddr k o) }).correctedWord k o true 0x1FF 0
  | .uncorrectable =>
    let a := dramAddr k o
    let s := if s.badWords.contains a then s else { s with badWords := s.badWords ++ [a] }
    s.memFault Code.dramUncorrectable k o true false 0x1FF 0

/-- The slot interval of a stack in ns: halved above 85 °C (R439). -/
def Stack.interval (t : Stack) : Nat := if t.hot then 1950 else 3900

/-- Has the slot timer of a stack come to a bank's slot: an interval after its last one, a sixteenth of the interval after the last one of
its channel, in whole ns (R439). The first slot comes at any instant: the timer is not aligned to network time. slotLast holds one more
than the instant of a slot. -/
def Stack.slotDue (key now : Nat) (t : Stack) : Bool :=
  let since := fun (k gap : Nat) => let l := Table.get 0 k t.slotLast; l == 0 || decide (l - 1 + gap ≤ now)
  since key t.interval && (List.range 16).all fun b => since (key / 16 * 16 + b) (t.interval / 16)

/-- A refresh slot of a bank: it blocks the bank for 120 ns and scrubs the bank's next line. -/
def State.refresh (k ch bank : Nat) (f : ScrubFinding) (s : State) : State :=
  let key := ch * 16 + bank
  let line := Table.get 0 key (s.stack k).scrubNext
  let o := dramOffset ch (line / 16 * 32768 + bank * 2048 + line % 16 * 128)
  let s := s.modStack k fun t =>
    let wrap := decide (bankLines bank ≤ line + 1)
    let passes := if wrap then Table.set 0 key (Table.get 0 key t.passes + 1) t.passes else t.passes
    { t with
      blocked := Table.set 0 key (s.time + 120) t.blocked
      slotLast := Table.set 0 key (s.time + 1) t.slotLast
      scrubNext := Table.set 0 key (if wrap then 0 else line + 1) t.scrubNext
      passes := passes
      scrubPasses := if passes.length < 256 then t.scrubPasses else min 0xFFFFFFFF ((passes.map (·.2)).foldl min (Table.get 0 key passes)) }
  (s.scrubWord k o f.lo).scrubWord k (o + 64) f.hi

/-- REFRESH_SLOT (R439, R443): a slot before the timer has come to it does not take place. -/
def execRefreshSlot (stack : BitVec 5) (channel bank : BitVec 4) (scrub : ScrubFinding) (now : Nat) (s : State) :
    Host.Outcome State Fault Refusal :=
  s.happens now (fun s =>
    if (s.stack stack.toNat).slotDue (channel.toNat * 16 + bank.toNat) s.time then s.refresh stack.toNat channel.toNat bank.toNat scrub else s)

end Sys2Proof.Machine
end

