-- ==== Sys2Proof/Machine/Pairs.lean ====
section
/-! DEFINITION. Proof mode and the pair: signatures and divergence (12 R323 to R330), mirrored updates at the partner, the
module states, the loss of the partner, takeover, resync and restore (21 R506 to R520). -/

namespace Sys2Proof.Machine

/-- The pair manager takes a pair frame, but not before an earlier frame of its source and class (R18). -/
def State.pairTakes (f : Frame) (g : State → State) (s : State) : State := if s.behind .pair f then s else g s

/-! ## Proof mode (R324 to R329) -/

/-- The partner's signature entries arrive at a die (R327, R328). -/
def State.batchIn (d : Die) (batch : List SigEntry) (s : State) : State :=
  let s := s.modDie d fun x => { x with sigPartner := x.sigPartner ++ batch.map fun e => ⟨e, 0, s.time, true, false⟩ }
  s.matchSigs

/-- SIGNATURE_BATCH (R328). -/
def execSignatureBatch (die : Die) (batch : List SigEntry) (now : Nat) (s : State) : Host.Outcome State Fault Refusal :=
  s.happens now (fun s => s.batchIn die batch)

/-- An own entry whose partner entry has not come within 10 ms (R328). -/
def State.sigMissing (d : Die) (k : SigKey) (s : State) : State :=
  match (s.die d).sigOwn.find? fun (y : SigHeld) => y.e.key == k with
  | some o =>
    if o.time + 10000000 ≤ s.time ∧ ((s.die d).partnerEntry k).isNone ∧ (s.job o.job).compares then
      (s.diverge o.job true false o.inj o.e 0 0).sendNotice o.job o.e
    else s
  | none => s

/-- SIGNATURE_MISSING (R328). -/
def execSignatureMissing (die : Die) (key : SigKey) (now : Nat) (s : State) : Host.Outcome State Fault Refusal :=
  s.happens now (fun s => s.sigMissing die key)

/-- A divergence that the partner has found (R328, R329): the report holds the own entry of the key where there is one. The partner found
a mismatch where this entry differs from its own, else it missed this entry (log entry 35). -/
def State.noticeIn (no : JobNo) (n : SigEntry) (s : State) : State :=
  let own := allDies.findSome? fun d => (s.die d).sigOwn.find? fun (y : SigHeld) => y.e.key == n.key && y.job == no
  if s.inProof no then
    match own with
    | some o => s.diverge no (sigAgrees o.e n) true o.inj o.e n.crc 0
    | none => s.diverge no true true false { n with crc := 0, state := 0xFFFFFFFF } 0 0
  else s

/-- DIVERGENCE_NOTICE (R328). -/
def execDivergenceNotice (job : JobNo) (n : SigEntry) (now : Nat) (s : State) : Host.Outcome State Fault Refusal :=
  s.happens now (fun s => s.noticeIn job n)

/-- The twin delivers a forwarded frame as though it had arrived on the port that it names (R324). -/
def State.forwardedIn (f : Frame) (s : State) : State :=
  let s := s.unbox .pair f
  if (s.job f.job).proofRole = 2 then
    let f := { f with dstModule := s.fab.module, dstPort := 0x3F }
    let q := (s.newCopy f none)
    q.2.settleDest q.1 (s.localDest f)
  else s

/-- PROOF_FORWARD_FRAME (R324). -/
def execProofForwardFrame (port : Port) (f : Frame) (now : Nat) (s : State) : Host.Outcome State Fault Refusal :=
  s.onPort port now (fun s => s.pairTakes f fun s => s.forwardedIn f)

/-! ## The partner's image here (R509, R510) -/

/-- shard and state number of a pair frame (R506). -/
def frameShard (f : Frame) : Word := f.detail.setWidth 32
/-- The state number of a pair frame. -/
def frameState (f : Frame) : Word := (f.detail >>> 32).setWidth 32

/-- The hold range of a shard of a job. -/
def State.hold (no : JobNo) (shard : Word) (s : State) : Option HoldRange :=
  s.pair.holds.find? fun (h : HoldRange) => h.job == no && h.shard == shard
/-- Change a hold range. -/
def State.modHold (no : JobNo) (shard : Word) (g : HoldRange → HoldRange) (s : State) : State :=
  s.modPair fun p => { p with holds := p.holds.map fun (h : HoldRange) => if h.job = no ∧ h.shard = shard then g h else h }

/-- Take n staging granules for a hold range, charged to the Pacor of its die; answers whether it has got them all. The Pacor has one request
of a job waiting at a time, in its turn among the others (R301, R509). -/
def State.takeStaging (no : JobNo) (shard : Word) (d : Die) : Nat → State → Bool × State
  | 0, s => (true, s)
  | n + 1, s =>
    let w : GranReq := ⟨320 + d.toNat, true, no, none⟩
    if s.waitsForGranule w then (false, s)
    else
      let r := s.request w
      match r.1 with
      | some a => State.takeStaging no shard d n (r.2.modHold no shard fun h => { h with grans := h.grans ++ [a] })
      | none => (false, r.2)

/-- MIRROR_DATA: the bytes are staged and acknowledged; the hold range does not change. Without a granule the frame waits
(R509). A fenced module discards it and acknowledges nothing (R518). -/
def State.mirrorDataIn (f : Frame) (s : State) : State :=
  if s.pair.st = .fenced then s.unbox .pair f
  else
    match s.hold f.job (frameShard f) with
    | some h =>
      let need := stagingNeed (stagedBytes h.staged + f.payload.length) - h.grans.length
      let r := s.takeStaging f.job h.shard (dramDie h.base) need
      if r.1 then
        ((r.2.unbox .pair f).modHold f.job h.shard fun h => { h with staged := h.staged ++ [(frameState f, f.offset.toNat, f.payload)] }).sendPair
          (pairFrame 2 1 f.job f.detail f.offset [])
      else r.2
    | none => s.unbox .pair f

/-- MIRROR_DATA (R509). -/
def execMirrorData (f : Frame) (now : Nat) (s : State) : Host.Outcome State Fault Refusal :=
  s.happens now (fun s => s.pairTakes f fun s => s.mirrorDataIn f)

/-- An acknowledgement reaches the outstanding move that sent the piece; its last one lets the increment apply (R509). A fenced
module discards it (R518). -/
def State.mirrorAckIn (f : Frame) (s : State) : State :=
  let s := s.unbox .pair f
  if s.pair.st = .fenced then s else
  let mine := fun (m : MoveOut) => m.mirrored && m.copied && m.impr.job == f.job && m.shard == frameShard f && m.acksDue.contains f.offset.toNat
  match s.clusters.findSome? fun (e : Nat × Cluster) => (e.2.moves.find? mine).map fun m => (BitVec.ofNat 8 e.1, m) with
  | some (c, m) =>
    let m' := { m with acksDue := m.acksDue.erase f.offset.toNat }
    let s := s.setMove c m m'
    if m'.acksDue.isEmpty then s.moveDone c m' else s
  | none => s

/-- MIRROR_ACK (R509). -/
def execMirrorAck (f : Frame) (now : Nat) (s : State) : Host.Outcome State Fault Refusal :=
  s.happens now (fun s => s.pairTakes f fun s => s.mirrorAckIn f)

/-- Give back the staging granules that a hold range no longer needs. -/
def State.freeStaging (no : JobNo) (shard : Word) (s : State) : State :=
  match s.hold no shard with
  | some h =>
    let n := stagingNeed (stagedBytes h.staged)
    (h.grans.drop n).foldl (fun s a => s.freeGranule a) (s.modHold no shard fun h => { h with grans := h.grans.take n })
  | none => s

/-- SEAL for a hold range: the staged bytes of the state become the image as one update, the range takes the number, the
staging is freed, and SEAL_ACK returns (R510). The SEAL of a resync reaches a module whose job has not started: the range holds the state
from then on (R516; log entry 42). A SEAL for a shard of the own module ends a restore: its record takes the number (R520). -/
def State.sealIn (f : Frame) (s : State) : State :=
  let s := s.unbox .pair f
  let st := frameState f
  let shard := frameShard f
  let ack := fun (s : State) => s.sendPair (pairFrame 4 1 f.job f.detail 0 [])
  if s.pair.st = .fenced then s
  else
    match s.hold f.job shard with
    | some h =>
      let s := (stagedOf st h.staged).foldl (fun s e => s.cpStore f.job (h.base.toNat + e.2.1) e.2.2) s
      let s := s.modHold f.job shard fun h => { h with st := st, staged := stagedBut st h.staged }
      ack (s.freeStaging f.job shard)
    | none =>
      match (s.plate f.job).bind (Plate.mirrorOf shard) with
      | some m =>
        if m.hold then ack (s.modPair fun p => { p with holds := p.holds ++ [⟨f.job, shard, m.base, m.length, st, [], []⟩] })
        else if s.shardState f.job shard ≠ 0xFFFFFFFF ∧ (s.job f.job).st = .stopped then ack (s.modShard f.job shard fun r => r.install st false)
        else s
      | none => s

/-- SEAL (R510, R520). -/
def execSeal (f : Frame) (now : Nat) (s : State) : Host.Outcome State Fault Refusal :=
  s.happens now (fun s => s.pairTakes f fun s => s.sealIn f)

/-! ## RESYNC and RESTORE (R516, R520) -/

/-- The frames of an image as RESTORE_DATA, then its SEAL. -/
def State.sendImage (no : JobNo) (shard st : Word) (bs : List Byte) (s : State) : State :=
  let s := (List.range ((bs.length + 4095) / 4096)).foldl (fun s i =>
    s.sendPair (pairFrame 7 3 no (pairDetail shard st) (BitVec.ofNat 32 (4096 * i)) ((bs.drop (4096 * i)).take 4096))) s
  s.sendPair (pairFrame 3 1 no (pairDetail shard st) 0 [])

/-- Send the bytes of some ranges as an image; none is sent where a word cannot be read (R313, R442). -/
def State.sendRanges (no : JobNo) (shard st : Word) (l : List (Nat × Nat)) (s : State) : State :=
  let r := s.cpReads no l
  match r.1 with
  | some bs => r.2.sendImage no shard st bs
  | none => r.2

/-- The ranges of a shadow's copy, granule by granule. -/
def Shadow.ranges (x : Shadow) : List (Nat × Nat) :=
  ((List.range x.copy.length).zip x.copy).map fun e => (e.2.toNat, min 1048576 (x.length - 1048576 * e.1))

/-- The bytes that a shadow has staged and not sealed are staged at the partner, which takes its place (R509, R516; log entry 115). -/
def State.sendStaged (x : Shadow) (s : State) : State :=
  x.staged.foldl (fun s e => s.sendPieces x.job x.shard e.1 x.base (imagePieces e.2.1 e.2.2.length)) s

/-- A shard whose image the partner has sealed leaves the list of those to come, unless its shadow has sealed a later state meanwhile: that
goes to the partner too (log entry 115). The last one ends the resync or the restore (R516, R520). -/
def State.resyncSealed (no : JobNo) (shard st : Word) (s : State) : State :=
  match if s.pair.st = .resync then s.pair.shadows.find? fun (x : Shadow) => x.job == no && x.shard == shard && x.st != st else none with
  | some x => s.sendRanges no shard x.st x.ranges
  | none =>
  if s.pair.resyncLeft.contains shard then
    let left := s.pair.resyncLeft.erase shard
    let s := s.modPair fun p => { p with resyncLeft := left }
    if !left.isEmpty then s
    else if s.pair.st = .resync then
      let s := s.pair.shadows.foldl (fun s x => s.sendStaged x) s
      let s := (s.pair.shadows.flatMap fun (x : Shadow) => x.copy).foldl (fun s a => s.freeGranule a) s
      let s := s.modPair fun p => { p with st := .paired, shadows := [] }
      s.append { s.event Code.resyncDone clsModule 0 0 0 with recEnd := true }
    else if s.pair.restoring then
      let s := s.modPair fun p => { p with restoring := false }
      s.append { s.event Code.restoreDone clsModule 0 0 0 with recEnd := true }
    else s
  else s

/-- SEAL_ACK: the owner adds 1 to sealed_counter, or an image that was copied is complete (R510, R516, R520). A fenced module takes
only those of the RESTORE_PARTNER that it serves (R518; log entry 61). -/
def State.sealAckIn (f : Frame) (s : State) : State :=
  let s := s.unbox .pair f
  let mine := s.pair.st != .fenced && s.pair.seals.any fun (x : SealOut) => x.job == f.job && x.shard == frameShard f && x.st == frameState f
  let s := if mine then s.sealed f.job (frameShard f) (frameState f) else s
  if mine then s else s.resyncSealed f.job (frameShard f) (frameState f)

/-- SEAL_ACK (R510). -/
def execSealAck (f : Frame) (now : Nat) (s : State) : Host.Outcome State Fault Refusal :=
  s.happens now (fun s => s.pairTakes f fun s => s.sealAckIn f)

/-- RESTORE_DATA: the bytes are written over the image of the shard that the mirror table names (R516, R520). -/
def State.restoreIn (f : Frame) (s : State) : State :=
  let s := s.unbox .pair f
  if s.pair.st = .fenced then s
  else
    match (s.plate f.job).bind (Plate.mirrorOf (frameShard f)) with
    | some m =>
      if f.offset.toNat + f.payload.length ≤ m.length ∧ (m.hold ∨ (s.job f.job).st = .stopped) then
        s.cpStore f.job (m.base.toNat + f.offset.toNat) f.payload
      else s
    | none => s

/-- RESTORE_DATA (R520). -/
def execRestoreData (f : Frame) (now : Nat) (s : State) : Host.Outcome State Fault Refusal :=
  s.happens now (fun s => s.pairTakes f fun s => s.restoreIn f)

/-! ## Hello, loss, takeover (R507, R511 to R515) -/

/-- Send the outstanding mirrored moves and SEALs to the partner again (R513). -/
def State.resendMirror (s : State) : State :=
  let s := s.clusters.foldl (fun s (e : Nat × Cluster) => (e.2.moves.filter fun (m : MoveOut) => m.mirrored && m.copied).foldl (fun s m =>
    match s.mirrorSource m.impr.job m.shard with
    | some x => s.sendMirror m x ((m.pieces x.base).filter fun p => m.acksDue.contains p.1)
    | none => s) s) s
  s.pair.seals.foldl (fun s (q : SealOut) => s.sendPair (pairFrame 3 1 q.job (pairDetail q.shard q.st) 0 [])) s

/-- PAIR_HELLO: it pairs the module, ends the loss of the partner, and tells the partner's state (R511, R513). -/
def State.helloIn (f : Frame) (s : State) : State :=
  let s := (s.unbox .pair f).modPair fun p => { p with lastPair := s.time, partnerSt := f.detail.setWidth 4, suspect := false }
  if s.pair.st = .unpaired ∧ s.margin.hbSt = .alive then s.modPair fun p => { p with st := .paired }
  else if s.pair.st = .partnerLost then
    let s := s.modPair fun p => { p with st := .paired, injNotice := false }
    s.resendMirror
  else s

/-- PAIR_HELLO (R511). -/
def execPairHello (f : Frame) (now : Nat) (s : State) : Host.Outcome State Fault Refusal :=
  s.happens now (fun s => s.pairTakes f fun s => s.helloIn f)

/-- PAIR_HELLO_DUE (R507): every 1 ms. -/
def execPairHelloDue (now : Nat) (s : State) : Host.Outcome State Fault Refusal :=
  s.happens now (fun s =>
    if s.pair.helloAt + 1000000 ≤ s.time then
      (s.modPair fun p => { p with helloAt := s.time }).sendPair (pairFrame 5 1 0 (s.pair.st.code.setWidth 64) 0 [])
    else s)

/-- INJECT_NOTICE: what it announces is reported as injected (R506, R521). A fenced module discards it (R518). -/
def execInjectNotice (f : Frame) (now : Nat) (s : State) : Host.Outcome State Fault Refusal :=
  s.happens now (fun s => s.pairTakes f fun s =>
    let s := (s.unbox .pair f).modPair fun p => { p with lastPair := s.time }
    if s.pair.st ≠ .fenced ∧ f.detail.setWidth 16 = Code.partnerLost then s.modPair fun p => { p with injNotice := true } else s)

/-- Is every mirror port silent: no accepted block and no pair frame for 10 ms (R512). -/
def State.mirrorSilent (s : State) : Bool :=
  decide (s.pair.lastPair + 10000000 ≤ s.time) &&
    allPorts.all fun p => s.role p != 6#4 || decide ((s.port p).lastRx + 10000000 ≤ s.time)

/-- Has the heartbeat been LOST for 10 ms (R512). -/
def State.heartGone (s : State) : Bool :=
  match s.pair.hbLostAt with | some t => s.margin.hbSt == .lost && decide (t + 10000000 ≤ s.time) | none => false

/-- The loss of the partner is declared: jobs in proof mode stop, mirror traffic waits, and a second fault fences (R330,
R512, R513, R517). -/
def State.declareLost (s : State) : State :=
  let inj := s.pair.injNotice
  let ev := fun (s : State) => { s.event Code.partnerLost clsModule (match s.partner with | some m => m.setWidth 16 | none => 0) 0 0 with injected := inj }
  if s.pair.recovering ∨ s.pair.lastTrig = some s.time then (s.append (ev s)).fence
  else
    let s := s.modPair fun p => { p with st := .partnerLost, lastTrig := some s.time }
    let s := s.append { ev s with recStart := true }
    s.jobs.foldl (fun s (e : Nat × Job) => if e.2.proofRole ≠ 0 then s.stopJob e.2.no Code.proofPartnerLost clsModule 0 0 else s) s

/-- Both conditions declare the partner lost; one alone makes it suspect, said once (R512). -/
def State.judgePartner (s : State) : State :=
  if s.pair.st ≠ .paired ∧ s.pair.st ≠ .recovering then s
  else if s.heartGone && s.mirrorSilent then s.declareLost
  else if (s.heartGone || s.mirrorSilent) && !s.pair.suspect then
    (s.modPair fun p => { p with suspect := true }).log Code.partnerSuspect clsModule 0 0 0
  else s

/-- PARTNER_LOST (R512). -/
def execPartnerLost (now : Nat) (s : State) : Host.Outcome State Fault Refusal :=
  s.happens now (fun s => s.judgePartner)

/-- A shadow asks for the granules that its copy still lacks, in its stack on the die d XOR 2; the Pacor has one such request of a job
waiting at a time (R301, R516). -/
def State.askShadow (no : JobNo) (shard : Word) (d : Die) (stack : Option (BitVec 5)) : Nat → State → State
  | 0, s => s
  | n + 1, s =>
    let w : GranReq := ⟨320 + d.toNat, true, no, stack⟩
    if s.waitsForGranule w then s
    else
      let r := s.request w
      match r.1 with
      | some a => State.askShadow no shard d stack n (r.2.modPair fun p => { p with shadows := p.shadows.map fun y =>
          if y.job = no ∧ y.shard = shard then { y with copy := y.copy ++ [a] } else y })
      | none => r.2

/-- The shadow of a range begins, without a copy, where there is none yet; it asks for its granules (R516). -/
def State.planShadow (m : MirrorEntry) (s : State) : State :=
  let s := if s.pair.shadows.any fun x => x.job == m.job && x.shard == m.shard then s
    else s.modPair fun p => { p with shadows := p.shadows ++ [⟨m.job, m.shard, m.base, m.length, [], 0, []⟩] }
  let got := match s.pair.shadows.find? fun x => x.job == m.job && x.shard == m.shard with | some x => x.copy.length | none => 0
  s.askShadow m.job m.shard (dramDie m.base ^^^ 2) (shadowStack m.base) (stagingNeed m.length - got)

/-- Has every shadow its granules. -/
def State.shadowsWhole (s : State) : Bool := s.pair.shadows.all fun x => decide (stagingNeed x.length ≤ x.copy.length)

/-- Copy a range once into its shadow, at the state that the range holds (R515, R516). -/
def State.copyShadow (x : Shadow) (s : State) : State :=
  let st := match s.hold x.job x.shard with | some h => h.st | none => s.shardState x.job x.shard
  let r := s.cpRead x.job x.base.toNat x.length
  match r.1 with
  | some bs => (State.writeShadow x.job x.copy (x.length / 1048576 + 2) 0 bs r.2).modPair fun p => { p with
      shadows := p.shadows.map fun y => if y.job = x.job ∧ y.shard = x.shard then { y with st := st } else y }
  | none => r.2

/-- Every mirrored move that waited on the lost partner applies its increment once its bytes stand in the own range
(R515). -/
def State.releaseMoves (s : State) : State :=
  s.clusters.foldl (fun s (e : Nat × Cluster) => (e.2.moves.filter fun (m : MoveOut) => m.mirrored && m.copied).foldl (fun s m =>
    s.moveDone (BitVec.ofNat 8 e.1) m) s) s

/-- The shadows of every range that this module keeps, its sources and the hold ranges that it has taken over, begin (R516). -/
def State.planShadows (s : State) : State :=
  s.jobs.foldl (fun s (e : Nat × Job) =>
    match e.2.plate with
    | some p => if e.2.st = .running ∨ e.2.st = .starting then
        p.mirror.foldl (fun s m => s.planShadow { m with job := e.2.no }) s
      else s
    | none => s) s

/-- FAILOVER, steps 1 to 3: TAKEOVER, the unsealed staging is discarded, and the shard records of the hold ranges are
installed with their areas filling (R515). -/
def State.takeover (s : State) : State :=
  let s := s.modPair fun p => { p with st := .takeover }
  let s := s.pair.holds.foldl (fun s (h : HoldRange) =>
    let s := h.grans.foldl (fun s a => s.freeGranule a) s
    s.modHold h.job h.shard fun x => { x with staged := [], grans := [] }) s
  s.pair.holds.foldl (fun s (h : HoldRange) =>
    match s.plate h.job with
    | some p => match p.shardRecs.find? fun (r : Shard) => r.shard == h.shard with
      | some r => if (s.job h.job).st = .running then s.install h.st true { r with job := h.job } else s
      | none => s
    | none => s) s

/-- The arrival of this module at the switch barrier of a job (R515, step 6; log entry 28). -/
def State.arriveSwitch (no : JobNo) (s : State) : State :=
  match s.plate no with
  | some p => match p.barriers.find? fun (b : BarDef) => b.kind == 0#2 with
    | some b => s.barBarr no b false
    | none => s
  | none => s

/-- The takeover completes once every shadow has its granules: the shadows are copied, the waiting moves apply, the waiting SEALs seal,
SOLO is entered, and the module arrives at the switch barrier (R515, steps 4 to 6; log entry 36). -/
def State.takeoverDone (s : State) : State :=
  if s.pair.st ≠ .takeover then s
  else
    let s := s.planShadows
    if !s.shadowsWhole then s
    else
      let s := s.pair.shadows.foldl (fun s x => s.copyShadow x) s
      let s := s.releaseMoves
      let s := s.modPair fun p => { p with st := .solo, solo := true }
      let s := s.sealShadows
      let s := s.append { s.event Code.failoverDone clsModule 0 0 0 with recEnd := true }
      s.jobs.foldl (fun s (e : Nat × Job) =>
        if e.2.st = .running ∧ (e.2.mapPend.any fun m => m.2 == s.pair.foMapping) then
          (s.modJob e.2.no fun j => { j with mapOn := some s.time }).arriveSwitch e.2.no
        else s) s

/-- TAKEOVER_COMPLETE (R515). -/
def execTakeoverComplete (now : Nat) (s : State) : Host.Outcome State Fault Refusal :=
  s.happens now (fun s => s.takeoverDone)

/-! ## Local recovery (R514) -/

/-- A local recovery that is not complete within 50 ms: the port stays down where its link is (R514). -/
def State.recoveryLate (p : Port) (s : State) : State :=
  if s.pair.recUnits.contains p.toNat ∧ s.pair.recoverAt + 50000000 ≤ s.time then
    let s := s.modPort p fun x => { x with recovery := none, down := !x.isUp }
    s.recoveryEnd p Code.recoveryFailed 0
  else s

/-- RECOVERY_TIMEOUT (R514). -/
def execRecoveryTimeout (port : Port) (now : Nat) (s : State) : Host.Outcome State Fault Refusal :=
  s.onPort port now (fun s => s.recoveryLate port)

/-! ## The end of an injected loss (R524) -/

/-- INJECTED_PARTNER_LOSS_END (R524): the heartbeat is driven again and the mirror ports leave DISABLED. -/
def execInjectedPartnerLossEnd (now : Nat) (s : State) : Host.Outcome State Fault Refusal :=
  s.happens now (fun s =>
    match s.pair.injectLoss with
    | some t =>
      if t ≤ s.time then
        allPorts.foldl (fun s p => if s.hasPort p ∧ s.role p = 6 ∧ !(s.port p).disable then s.disablePort p false else s)
          (s.modPair fun x => { x with injectLoss := none })
      else s
    | none => s)

end Sys2Proof.Machine
end

