-- ==== Sys2Proof/Machine/Margin.lean ====
section
/-! DEFINITION. The margin controller: samples, caps, trips, power sequences, the time unit's inputs, the partner's
heartbeat and the reset input (19 R474 to R492). -/

namespace Sys2Proof.Machine

/-! ## Loss of state (R476 to R479, R481) -/

/-- What a stack keeps without power: the rows reported under R445, which the next boot maps, and those mapped (R445, R533); and its
temperature, which the margin controller goes on reading (R475, R488). -/
def Stack.powerless (t : Stack) : Stack := { Stack.reset with rowCounts := t.rowCounts, spared := t.spared, temp := t.temp, hot := t.hot }

/-- The messages that a die's mailboxes and its control processor hold end with CMD_LOST (R456). -/
def State.loseMessages (d : Die) (s : State) : State :=
  let x := s.die d
  let s := x.going.foldl (fun (s : State) (g : Going) => s.answerMsg g.code 16 g.msg (Reply.fail Code.cmdLost)) s
  x.remote.foldl (fun (s : State) (g : RemoteOut) => s.answerMsg g.code 16 g.msg (Reply.fail Code.cmdLost)) s

/-- The rails of the quadrant dies go: what their mailboxes held ends (R456, R478). -/
def State.loseAllMessages (s : State) : State := allDies.foldl (fun s d => s.loseMessages d) s

/-- The reset of a die is asserted: its counters are orphaned, its mailboxes return to reset and their messages end with CMD_LOST, its
links go down (R291, R456, R487, R489). -/
def State.assertReset (d : Die) (s : State) : State :=
  let names := ((s.die d).counters.filter fun (e : Nat × Counter) => e.2.job != 0).map fun (e : Nat × Counter) => (BitVec.ofNat 16 (d.toNat * 16384 + e.1) : CounterName)
  let s := names.foldl (fun s n => s.orphan n) s
  let s := s.loseMessages d
  let s := s.modDie d fun x => { x with mbx := [], done := 0, busy := 0, going := [], remote := [], inReset := true, resetAt := s.time }
  let s := (allPorts.filter fun p => p.die == d && s.hasPort p).foldl (fun s p => s.linkDown p .disabled false) s
  s.modMargin fun x => { x with hbOut := false }

/-- The quadrant resets are asserted, and held until the power-up releases them (R477, R478). -/
def State.holdQuadrants (s : State) : State :=
  allDies.foldl (fun s d => (s.assertReset d).modDie d fun x => { x with held := true }) s

/-- What a die is without power: in reset until the power-up releases it (R477). -/
def DieState.powerless (x : DieState) : DieState :=
  { DieState.reset with
    queue := x.queue, inReset := true, held := true
    stk := x.stk.foldl (fun u (k : Nat × Stack) => Table.set Stack.reset k.1 k.2.powerless u) [] }

/-- The quadrant dies lose what they hold: clusters, engines, control processors, ports, and with their rails the stacks
(R478). The logs in the firmware reserve go with the stacks (R462), and the copies for the partner (R509). The messages that
wait for a mailbox stay in their queues, which the system processor keeps (R458; log entry 66). -/
def State.loseQuadrants (s : State) : State :=
  { s with
    clusters := s.clusters.foldl (fun t (e : Nat × Cluster) => Table.set Cluster.reset e.1 { Cluster.reset with temp := e.2.temp } t) []
    engines := []
    dies := allDies.foldl (fun t d => Table.set DieState.reset d.toNat (s.die d).powerless t) []
    bars := [], shards := [], windows := [], armed := []
    mem := [], staging := [], badWords := [], weakWords := []
    ports := s.ports.map fun (e : Nat × PortState) => (e.1, { PortState.reset with role := e.2.role })
    jobs := s.jobs.map fun (e : Nat × Job) => (e.1, { e.2 with ovLog := [], overruns := [], ledger := [] })
    pair := Pair.reset }

/-- The system processor leaves reset or loses its power: all that it keeps outside its non-volatile storage returns to
its reset value (R392, R459, R472, R511, R521). The module keeps its number (log entry 47). -/
def State.resetHub (s : State) : State :=
  let h := s.hub
  { s with
    jobs := [], hatchJobs := [], fab := { Fabric.reset with module := s.fab.module }, pair := Pair.reset
    dies := s.dies.foldl (fun t (e : Nat × DieState) => Table.set DieState.reset e.1 { e.2 with queue := [] } t) []
    ports := s.ports.map fun (e : Nat × PortState) => (e.1, { e.2 with role := 0 })
    hub := { Hub.reset with slots := h.slots, rollMin := h.rollMin, settings := h.settings, serial := h.serial, booted := h.booted, inUse := h.inUse, running := h.running }
    meter := { s.meter with waiting := none, toldAt := none } }

/-! ## Trips (R481, R490) -/

/-- A temperature in 1/8 °C. -/
def celsius (t : Int) : Int := 8 * t

/-- The temperature of a stack. -/
def State.stackTemp (k : Nat) (s : State) : Int := (s.stack k).temp.toInt

/-- The highest temperature of a die or a stack at the last sample. -/
def State.hottest (s : State) : Int :=
  (s.margin.dieTemp ++ (List.range 32).map fun k => s.stackTemp k).foldl max (-32768)

/-- The trip record of a trip now (R490). -/
def State.tripRec (code : BitVec 16) (unit : BitVec 4) (stack : BitVec 5) (s : State) : TripRec where
  code := code
  unit := unit
  stack := stack
  boot := s.margin.boots
  time := if s.margin.timeSt = .free then 0 else BitVec.ofNat 64 s.time
  vin := BitVec.ofNat 16 s.margin.vin
  pin := BitVec.ofNat 16 s.margin.pin
  temp := BitVec.ofInt 16 s.hottest

/-- Has a job entered neither DONE nor STOPPED since its plate came (R498). -/
def Job.unended (j : Job) : Bool :=
  j.st == .starting || j.st == .running || j.st == .loading || (j.st == .loaded && !j.ended)

/-- Every job of the module is STOPPED with the trip code as the reason, without the steps of a job stop; the parts of a plate that is
being loaded are dropped; the meter hears of the end of a job that had not ended (R459, R481, R498). -/
def State.tripJobs (code : BitVec 16) (s : State) : State :=
  s.jobs.foldl (fun s (e : Nat × Job) =>
    if e.2.st ≠ .none then
      let s := s.modJob e.2.no fun j => { j with
        st := .stopped, reason := code, parts := [], partsN := 0
        endTime := if j.st = .starting ∨ j.st = .running then s.time else j.endTime }
      let s := if e.2.unended then s.meterMarker false false e.2.no else s
      s.log code clsModule 0 e.2.no 0
    else s) s

/-- A trip: its record is written; outside TRIPPED the rails of the quadrant dies go, after TRIP_VIN_HIGH the hub's as
well, and the module enters TRIPPED; what a power-down was for is over (R481, R483). -/
def State.trip (code : BitVec 16) (unit : BitVec 4) (stack : BitVec 5) (s : State) : State :=
  let r := s.tripRec code unit stack
  let s := s.modMargin fun m => { m with trips := pushRing 16 r m.trips, tripLast := code }
  let s := s.log code clsModule 0 0 0
  if s.margin.power = .tripped then s
  else
    let s := if code = Code.tripVinHigh then s.modMargin fun m => { m with hubOn := false } else s
    let s := s.tripJobs code
    let s := if code = Code.tripVinHigh then s.loseQuadrants.resetHub else s.loseAllMessages.loseQuadrants
    s.modMargin fun m => { m with
      power := .tripped, tripOn := code, dramOn := false, coreOn := false, released := 0, seqStep := 0, ramps := [], hbOut := false, downCause := 0 }

/-! ## Samples (R475) -/

/-- One watt in units of 10 µW, the product of 10 mV and 1 mA. -/
def watt : Nat := 100000

/-- Is the filtered power above a value: the mean of the last power samples (R475). -/
def Margin.above (w : Nat) (m : Margin) : Bool := decide (w * watt * m.pins.length < m.pins.foldl (· + ·) 0)
/-- Is the filtered power below a value. -/
def Margin.below (w : Nat) (m : Margin) : Bool := decide (m.pins.foldl (· + ·) 0 < w * watt * m.pins.length)
/-- P_f in 1/8 W. -/
def Margin.filtered (m : Margin) : Nat := m.pins.foldl (· + ·) 0 * 8 / (watt * max 1 m.pins.length)

/-- The temperature of a die: the highest among its enabled clusters (R475). -/
def State.dieTempNow (d : Die) (s : State) : Int :=
  ((allClusters.filter fun c => c.die == d && s.hasCluster c).map fun c => (s.clu c).temp.toInt).foldl max (-32768)

/-- A run of samples goes on or starts again. -/
def runOf (b : Bool) (n : Nat) : Nat := if b then n + 1 else 0

/-- The units that R481 watches for heat, in order: dies, stacks, hub; too hot or not. -/
def State.tooHot (hub : Int) (s : State) : List Bool :=
  ((List.range 4).map fun d => decide (celsius 108 ≤ s.margin.dieTemp.getD d 0))
    ++ ((List.range 32).map fun k => decide (celsius 108 ≤ s.stackTemp k)) ++ [decide (celsius 110 ≤ hub)]

/-- Are the core rails on and out of their windows (R481). -/
def Margin.railOut (d : Nat) (m : Margin) : Bool :=
  m.power == .on && (decide (m.vcore.getD d 0 + 50 < m.vset.getD d 0) || decide (m.vset.getD d 0 + 50 < m.vcore.getD d 0))

/-- Take the measurements of a sample. -/
def State.measure (m : Sample) (s : State) : State :=
  let p := m.vin * m.iin
  let temps := allDies.map fun d => s.dieTempNow d
  let s := (List.range 32).foldl (fun s k =>
    let t := m.stackTemps.getD k 0
    s.modStack k fun x => { x with temp := BitVec.ofInt 16 t, hot := decide (celsius 85 < t) }) s
  let s := s.modMargin fun x => { x with
    vin := m.vin, pin := p * 8 / watt, pins := (x.pins ++ [p]).drop (x.pins.length - 9), dieTemp := temps, vcore := m.vcore
    checkedIn := if m.checkIn then s.time else x.checkedIn
    hbEdges := (x.hbEdges ++ [m.hbEdges]).drop (x.hbEdges.length - 108) }
  let hot := s.tooHot m.hubTemp
  s.modMargin fun x => { x with
    goodRun := runOf (decide (4800 ≤ m.vin)) x.goodRun
    lowRun := runOf (decide (m.vin < 4700) && (x.power == .powering || x.power == .on)) x.lowRun
    coolRun := runOf (x.below 592) x.coolRun
    pfRun := runOf (x.above 600 && x.capApplied.all (· == 85)) x.pfRun
    vcoreRun := (List.range 4).map fun d => runOf (x.railOut d) (x.vcoreRun.getD d 0)
    thermRun := (List.range 37).map fun i => runOf (hot.getD i false) (x.thermRun.getD i 0)
    coldRun := (List.range 4).map fun d => runOf (decide (x.dieTemp.getD d 0 ≤ celsius 97)) (x.coldRun.getD d 0)
    hotWait := x.hotWait.map (· + 1)
    capUpWait := x.capUpWait + 1 }

/-- The trip conditions that hold at this sample, in the order of R481, with their units. -/
def State.tripsNow (s : State) : List (BitVec 16 × BitVec 4 × BitVec 5) :=
  let m := s.margin
  let one := fun (b : Bool) (c : BitVec 16) => if b then [(c, 0xF#4, 0#5)] else []
  one (decide (800 * watt ≤ m.pins.getLast?.getD 0)) Code.tripOvercurrent
    ++ one (decide (6200 < m.vin)) Code.tripVinHigh
    ++ (match (List.range 4).find? fun d => decide (10 ≤ m.vcoreRun.getD d 0) with
        | some d => [(Code.tripVcore, BitVec.ofNat 4 d, 0)]
        | none => [])
    ++ (match (List.range 37).find? fun i => decide (3 ≤ m.thermRun.getD i 0) with
        | some i => [(Code.tripThermal, if i < 4 then BitVec.ofNat 4 i else if i < 36 then 4 else 8, if 4 ≤ i ∧ i < 36 then BitVec.ofNat 5 (i - 4) else 0)]
        | none => [])
    ++ one (decide (100 ≤ m.pfRun)) Code.tripPower

/-- The trip of a sample: the first condition that holds; in TRIPPED a condition counts when it begins (R481, R483; log
entry 37). -/
def State.sampleTrip (s : State) : State × Bool :=
  let now := s.tripsNow
  let was := s.margin.tripConds
  let due := if s.margin.power = .tripped then now.filter fun x => !was.contains x.1 else now
  let s := s.modMargin fun m => { m with tripConds := now.map (·.1) }
  match due.head? with
  | some x => (s.trip x.1 x.2.1 x.2.2, true)
  | none => (s, false)

/-! ## Power sequences (R477 to R479, R482) -/

/-- An orderly power-down begins: every job stops with the code, then the quadrant resets are asserted (R456, R478). -/
def State.powerDown (code : BitVec 16) (target : PowerSt) (s : State) : State :=
  let s := s.jobs.foldl (fun s (e : Nat × Job) => s.stopJob e.2.no code clsModule 0 0) s
  s.holdQuadrants.modMargin fun m => { m with power := .poweringDown, released := 0, seqStep := 0, ramps := [], hbOut := false, downTo := target, downCause := code }

/-- VIN_LOW at a sample (R482). -/
def State.sampleVin (s : State) : State :=
  if 10 ≤ s.margin.lowRun ∧ (s.margin.power = .powering ∨ s.margin.power = .on) then
    ((s.log Code.vinLow clsModule 0 0 0).powerDown Code.vinLow .hubUp).modMargin fun m => { m with lowRun := 0 }
  else s

/-! ## Caps (R480) -/

/-- The power cap after a sample. From the instant at which the power-up sets it to 85 until ON it stays (R477). -/
def Margin.nextPowerCap (m : Margin) : Nat :=
  if m.power = .powering ∧ m.coreOn then m.powerCap
  else if 700 * watt ≤ m.pins.getLast?.getD 0 then 85
  else if m.above 600 then max 85 (m.powerCap - 1)
  else if 100 ≤ m.coolRun ∧ 10 ≤ m.capUpWait then min 145 (m.powerCap + 1)
  else m.powerCap

/-- The thermal cap of a die after a sample. -/
def Margin.nextThermal (d : Nat) (m : Margin) : Nat :=
  let c := m.capThermal.getD d 145
  if m.hotWait.getD d 0 < 10 then c
  else if celsius 100 ≤ m.dieTemp.getD d 0 then max 85 (c - 1)
  else if 100 ≤ m.coldRun.getD d 0 then min 145 (c + 1)
  else c

/-- The caps applied: the lowest of three, 85 on a die whose core rail ramps (R480, R486). -/
def Margin.apply (m : Margin) : Margin :=
  { m with capApplied := (List.range 4).map fun d =>
      if m.ramps.any fun r => r.1 == d then 85 else min m.powerCap (min (m.capThermal.getD d 145) (m.capMax.getD d 145)) }

/-- The caps of a sample. -/
def Margin.moveCaps (m : Margin) : Margin :=
  let p := m.nextPowerCap
  let ts := (List.range 4).map fun d => m.nextThermal d
  { m with
    powerCap := p
    capUpWait := if m.powerCap < p then 0 else m.capUpWait
    capThermal := ts
    hotWait := (List.range 4).map fun d => if ts.getD d 0 = m.capThermal.getD d 145 then m.hotWait.getD d 0 else 0 }

/-- What the caps in force throttle: a cause throttles while its cap lies below the cap_max of some die (R480). -/
def Margin.throttles (m : Margin) : Margin :=
  { m with
    throttleP := (List.range 4).any fun d => decide (m.powerCap < m.capMax.getD d 145)
    throttleT := (List.range 4).any fun d => decide (m.capThermal.getD d 145 < m.capMax.getD d 145) }

/-- Caps or cap_max change: the caps applied follow, and a throttling that begins is written to the event log, once for its cause (R480;
log entry 38). -/
def State.changeCaps (f : Margin → Margin) (s : State) : State :=
  let was := s.margin
  let s := s.modMargin fun m => Margin.apply (f m).throttles
  let s := if !was.throttleP && s.margin.throttleP then s.log Code.throttlePower clsModule 0 0 0 else s
  if !was.throttleT && s.margin.throttleT then s.log Code.throttleThermal clsModule 0 0 0 else s

/-- The caps change at each sample (R480). -/
def State.sampleCaps (s : State) : State := s.changeCaps Margin.moveCaps

/-! ## The partner's heartbeat (R487) -/

/-- The edges of the ms that ends i samples before the last one. -/
def Margin.edges (i : Nat) (m : Margin) : Nat := ((m.hbEdges.reverse.drop i).take 10).foldl (· + ·) 0

/-- Did a ms that ends within the last 10 ms hold more than 20 edges. -/
def Margin.noisyIn (m : Margin) : Bool := (List.range 100).any fun i => decide (20 < m.edges i)

/-- The samples of the last 10 ms hold no edge. -/
def Margin.hbQuiet (m : Margin) : Bool := decide (100 ≤ m.hbEdges.length) && (m.hbEdges.reverse.take 100).all (· == 0)

/-- The class of the heartbeat input at a sample; none where no condition holds. -/
def Margin.hbClass (m : Margin) : Option HbSt :=
  if 20 < m.edges 0 then some .noisy
  else if m.hbEdges.length < 100 then none
  else if m.hbQuiet then some .lost
  else if !m.noisyIn && (List.range 10).all fun i => decide (0 < m.edges (10 * i)) then some .alive
  else none

/-- Enter a class, with its event and its count; a lost heartbeat is lost from now (R487, R512). -/
def State.enterHb (x : HbSt) (s : State) : State :=
  if s.margin.hbSt = x then s
  else
    let s := s.modMargin fun m => { m with hbSt := x }
    let s := s.modPair fun p => { p with hbLostAt := if x = .lost then some s.time else none }
    match x with
    | .alive => s.log Code.partnerSeen clsModule 0 0 0
    | .lost => (s.modMargin fun m => { m with hbLost := sat32 m.hbLost 1 }).log Code.partnerLost clsModule 0 0 0
    | .noisy => (s.modMargin fun m => { m with hbNoisy := sat32 m.hbNoisy 1 }).log Code.partnerHbNoisy clsModule 0 0 0
    | .unknown => s

/-- Classify the heartbeat input at a sample; both conditions of R512 are judged at the same instant. -/
def State.sampleHb (s : State) : State :=
  match s.margin.hbClass with
  | some x => (s.enterHb x).judgePartner
  | none => s.judgePartner

/-- The own heartbeat is driven in ON while the system processor checks in and no die is in reset, unless an injected
loss holds it low (R487, R524). -/
def State.driveHb (s : State) : State :=
  s.modMargin fun m => { m with
    hbOut := m.power == .on && decide (s.time ≤ m.checkedIn + 5000000) && allDies.all (fun d => !(s.die d).inReset) && s.pair.injectLoss.isNone }

/-- ALERT_N: low while the power state is TRIPPED or the module state is FENCED, and released without the standby rail (R547, R548). -/
def State.alertLow (s : State) : Bool := s.margin.running && (s.margin.power == .tripped || s.pair.st == .fenced)

/-- PARTNER_HB_OUT: its level, and none while it is high-impedance, without the standby rail (R487, R547, R548). -/
def State.hbPin (s : State) : Option Bool := if s.margin.running then some s.margin.hbOut else none

/-- Does step 2 of R477 begin: the hub rails in their window, boot complete, the operating stage loaded; after VIN_LOW the condition of
step 1 again (R482). -/
def Margin.step2 (m : Margin) : Bool :=
  m.power == .hubUp && m.seqStep != 1 && m.hubOn && !m.hubHeld && m.bootDone && m.opStage
    && (m.downCause != Code.vinLow || (decide (100 ≤ m.goodRun) && !m.rstLow && !m.rstVirtual && !m.latch))

/-- Step 2 of R477: POWERING, the DRAM rails of all stacks on. -/
def State.powerOn (s : State) : State :=
  s.modMargin fun m => { m with power := .powering, dramOn := true, coreOn := false, released := 0, seqStep := 2, railAt := s.time, downCause := 0 }

/-- After VIN_LOW power-up restarts by itself (R482). -/
def State.sampleRestart (s : State) : State := if s.margin.downCause = Code.vinLow ∧ s.margin.step2 then s.powerOn else s

/-- One sample: a trip, VIN_LOW, then the caps, in this order (R483). -/
def State.sample (m : Sample) (s : State) : State :=
  if !s.margin.running then s
  else
    let r := (s.measure m).sampleTrip
    let s := if r.2 then r.1 else r.1.sampleVin.sampleCaps
    s.sampleRestart.sampleHb.driveHb

/-- MARGIN_SAMPLE (R475, R480 to R483, R487). -/
def execMarginSample (m : Sample) (now : Nat) (s : State) : Host.Outcome State Fault Refusal := s.happens now (fun s => s.sample m)

/-- STANDBY_UP: the margin controller starts in its ROM stage; its storage keeps the trips (R474, R476, R490). One that runs has its
standby rail. -/
def execStandbyUp (now : Nat) (s : State) : Host.Outcome State Fault Refusal :=
  s.happens now (fun s =>
    if s.margin.running then s
    else s.modMargin fun m => { Margin.reset with power := .standby, hubOn := false, trips := m.trips, boots := m.boots + 1, rstLow := m.rstLow, startedAt := s.time })

/-- INPUT_LOSS: below 36 V the margin controller stops and every rail falls; the latch clears (R476, R479). -/
def execInputLoss (now : Nat) (s : State) : Host.Outcome State Fault Refusal :=
  s.happens now (fun s => s.loseQuadrants.resetHub.modMargin fun m => { Margin.reset with
    power := .standby, hubOn := false, running := false, trips := m.trips, boots := m.boots, rstLow := m.rstLow })

/-- Does step 1 of R477 begin: 10 ms of good input, RST_N high, the latch clear, and the module in STANDBY or its hub held
for a restart. -/
def Margin.step1 (m : Margin) : Bool :=
  m.running && decide (100 ≤ m.goodRun) && !m.rstLow && !m.rstVirtual && !m.latch && (m.power == .standby || (m.power == .hubUp && m.hubHeld))

/-- POWERUP_HUB: the hub rails come on and the system processor leaves reset (R477). A hub that had no power starts its
time unit FREE (R484). An operating stage that runs goes on until the boot loads the next one (R474). -/
def execPowerupHub (now : Nat) (s : State) : Host.Outcome State Fault Refusal :=
  s.happens now (fun s =>
    if s.margin.step1 then
      let s := s.resetHub
      s.modMargin fun m => { m with
        power := .hubUp, hubOn := true, hubHeld := false, bootDone := false, downCause := 0, seqStep := 1, railAt := s.time
        timeSt := if m.hubOn then m.timeSt else .free, lockedOnce := m.hubOn && m.lockedOnce }
    else s)

/-- BOOT_COMPLETE (R477). -/
def execBootComplete (now : Nat) (s : State) : Host.Outcome State Fault Refusal :=
  s.happens now (fun s => if s.margin.step2 then s.powerOn else s)

/-- The step of R477 that waits for a rail group. -/
def RailGroup.step (g : RailGroup) : Nat :=
  match g with
  | .hub => 1
  | .dram => 2
  | .core => 3

/-- A rail group that does not reach its window within 2 ms trips the module (R477, R481). -/
def State.sequenceTrip (group : RailGroup) (s : State) : State := s.trip Code.tripSequence (if group = .hub then 8 else 0xF) 0

/-- RAILS_IN_WINDOW: the sequence goes on: after the hub step 2 where its boot has been faster, after the stacks the core rails at their set
points and caps of 85, after the cores the quadrant resets; a group that comes later than 2 ms after its enable trips (R477). -/
def execRailsInWindow (group : RailGroup) (now : Nat) (s : State) : Host.Outcome State Fault Refusal :=
  s.happens now (fun s =>
    if s.margin.seqStep = RailGroup.step group then
      if s.margin.railAt + 2000000 < s.time then s.sequenceTrip group
      else
        match group with
        | .hub =>
          let s := s.modMargin fun m => { m with seqStep := 0 }
          if s.margin.step2 then s.powerOn else s
        | .dram => s.changeCaps fun m => { m with coreOn := true, powerCap := 85, seqStep := 3, railAt := s.time }
        | .core => s.modMargin fun m => { m with seqStep := 4, railAt := s.time }
    else s)

/-- RAIL_WINDOW_TIMEOUT (R477, R481). -/
def execRailWindowTimeout (group : RailGroup) (now : Nat) (s : State) : Host.Outcome State Fault Refusal :=
  s.happens now (fun s =>
    if s.margin.seqStep = RailGroup.step group ∧ s.margin.railAt + 2000000 ≤ s.time then
      s.sequenceTrip group
    else s)

/-- QUADRANT_RESET_RELEASE: Q0 to Q3 in order, 10 µs apart; the last one makes the module ON (R477). -/
def execQuadrantResetRelease (die : Die) (now : Nat) (s : State) : Host.Outcome State Fault Refusal :=
  s.happens now (fun s =>
    if s.margin.seqStep = 4 ∧ s.margin.released = die.toNat ∧ (die = 0 ∨ s.margin.railAt + 10000 ≤ s.time) then
      let s := (s.modDie die fun x => { x with inReset := false, held := false }).modMargin fun m => { m with released := m.released + 1, railAt := s.time }
      if s.margin.released = 4 then
        (s.modMargin fun m => { m with power := .on, seqStep := 0 }).log Code.sequenceDone clsModule 0 0 0
      else s
    else s)

/-- POWER_DOWN_DONE: core rails, DRAM rails and, towards STANDBY, hub rails are off (R478). -/
def execPowerDownDone (now : Nat) (s : State) : Host.Outcome State Fault Refusal :=
  s.happens now (fun s =>
    if s.margin.power = .poweringDown then
      let s := s.loseQuadrants
      let s := s.modMargin fun m => { m with power := m.downTo, dramOn := false, coreOn := false }
      if s.margin.power = .standby then s.resetHub.modMargin fun m => { m with hubOn := false, bootDone := false }
      else s.log Code.sequenceDone clsModule 0 0 0
    else s)

/-- VCORE_RAMP_DONE: the rail is in the window of its new set point, and the cap is restored (R486). -/
def execVcoreRampDone (die : Die) (now : Nat) (s : State) : Host.Outcome State Fault Refusal :=
  s.happens now (fun s =>
    match s.margin.ramps.find? fun r => r.1 == die.toNat with
    | some r => s.modMargin fun m => Margin.apply { m with
        vset := m.vset.set die.toNat r.2, ramps := m.ramps.filter fun (x : Nat × Nat) => x.1 != die.toNat }
    | none => s)

/-! ## Time unit (R484, R485) -/

/-- The state of the time unit that its inputs give (R484; log entry 39). -/
def Margin.timeNow (m : Margin) : TimeSt :=
  if m.ptpHere && m.ppsHere then .locked
  else if m.ptpHere then (if m.ppsGone || m.lockedOnce then .ptpOnly else .free)
  else if !m.lockedOnce then .free
  else if m.ppsHere then .ppsOnly
  else .holdover

/-- The time unit takes the state of its inputs; HOLDOVER is logged when it begins and when it ends (R484). -/
def State.timeInputs (s : State) : State :=
  let was := s.margin.timeSt
  let s := s.modMargin fun m => { m with timeSt := m.timeNow, lockedOnce := m.lockedOnce || m.timeNow == .locked }
  if was ≠ .holdover ∧ s.margin.timeSt = .holdover then s.log Code.holdoverEntered clsModule 0 0 0
  else if was = .holdover ∧ s.margin.timeSt ≠ .holdover then s.log Code.holdoverLeft clsModule 0 0 0
  else s

/-- A PPS rising edge (R485). -/
def State.ppsEdge (s : State) : State :=
  let ok := match s.margin.ppsLast with | some t => decide (t + 500000000 ≤ s.time) | none => true
  if ok then
    let near := match s.margin.ppsLast with | some t => decide (t + 999000000 ≤ s.time) && decide (s.time ≤ t + 1001000000) | none => false
    let s := s.modMargin fun m => { m with ppsAccept := sat32 m.ppsAccept 1, ppsLast := some s.time, ppsRun := runOf near m.ppsRun }
    let s := if 3 ≤ s.margin.ppsRun then s.modMargin fun m => { m with ppsHere := true, ppsGone := false } else s
    s.timeInputs
  else
    let told := match s.margin.ppsTold with | some t => decide (s.time < t + 1000000000) | none => false
    let s := s.modMargin fun m => { m with ppsReject := sat32 m.ppsReject 1 }
    if told then s else (s.modMargin fun m => { m with ppsTold := some s.time }).log Code.ppsRejected clsModule 0 0 0

/-- PPS_EDGE (R485). -/
def execPpsEdge (now : Nat) (s : State) : Host.Outcome State Fault Refusal := s.happens now (fun s => s.ppsEdge)

/-- PPS_LOST (R485): 1,500 ms without an accepted edge. -/
def execPpsLost (now : Nat) (s : State) : Host.Outcome State Fault Refusal :=
  s.happens now (fun s =>
    if !s.margin.ppsGone ∧ s.margin.ppsLast.getD s.margin.startedAt + 1500000000 ≤ s.time then
      ((s.modMargin fun m => { m with ppsHere := false, ppsGone := true, ppsRun := 0 }).log Code.ppsLost clsModule 0 0 0).timeInputs
    else s)

/-- PTP_SYNC (R484). -/
def execPtpSync (now : Nat) (s : State) : Host.Outcome State Fault Refusal :=
  s.happens now (fun s => (s.modMargin fun m => { m with ptpLast := some s.time, ptpHere := true }).timeInputs)

/-- PTP_LOST (R484): no Sync accepted for 3 s. -/
def execPtpLost (now : Nat) (s : State) : Host.Outcome State Fault Refusal :=
  s.happens now (fun s =>
    if s.margin.ptpHere ∧ s.margin.ptpLast.getD 0 + 3000000000 ≤ s.time then
      ((s.modMargin fun m => { m with ptpHere := false }).log Code.ptpLost clsModule 0 0 0).timeInputs
    else s)

/-- PARTNER_HB_LOST (R487): the samples of the last 10 ms hold no edge. -/
def execPartnerHbLost (now : Nat) (s : State) : Host.Outcome State Fault Refusal :=
  s.happens now (fun s =>
    if s.margin.hbQuiet then (s.enterHb .lost).judgePartner else s)

/-! ## Reset (R488, R489) -/

/-- May the trip in force not be cleared: TRIP_THERMAL stays while a die or a stack is at 85 °C or above (R488). -/
def State.tripStays (s : State) : Bool := s.margin.tripOn == Code.tripThermal && decide (celsius 85 ≤ s.hottest)

/-- A trip is cleared: HUB_UP where the hub has power, else STANDBY. -/
def State.clearTrip (s : State) : State :=
  s.modMargin fun m => { m with power := if m.hubOn then .hubUp else .standby }

/-- An accepted low of RST_N: RESET_REQUESTED, the latch clears, the hub is held, and an orderly power-down to HUB_UP
begins where quadrant rails are on (R479, R488). -/
def State.acceptLow (s : State) : State :=
  if s.margin.power = .tripped ∧ s.tripStays then s
  else
    let s := s.log Code.resetRequested clsModule 0 0 0
    let s := s.modMargin fun m => { m with latch := false, hubHeld := m.hubOn }
    match s.margin.power with
    | .tripped => s.clearTrip
    | .powering => s.powerDown Code.resetRequested .hubUp
    | .on => s.powerDown Code.resetRequested .hubUp
    | _ => s

/-- RST_N_LOW (R488). -/
def execRstNLow (now : Nat) (s : State) : Host.Outcome State Fault Refusal :=
  s.happens now (fun s => if s.margin.running then (s.modMargin fun m => { m with rstLow := true }).acceptLow else s)

/-- RST_N_RISE (R488): step 1 of R477 may begin. -/
def execRstNRise (now : Nat) (s : State) : Host.Outcome State Fault Refusal :=
  s.happens now (fun s => s.modMargin fun m => { m with rstLow := false })

/-- MODULE_RESET_RELEASE (R489): the low of 1 ms ends. -/
def execModuleResetRelease (now : Nat) (s : State) : Host.Outcome State Fault Refusal :=
  s.happens now (fun s => if s.margin.rstVirtual ∧ s.margin.virtualAt + 1000000 ≤ s.time then s.modMargin fun m => { m with rstVirtual := false } else s)

/-- RST_N_GLITCH (R488). -/
def execRstNGlitch (now : Nat) (s : State) : Host.Outcome State Fault Refusal :=
  s.happens now (fun s => s.modMargin fun m => { m with rstGlitch := sat32 m.rstGlitch 1 })

/-! ## Reset of a die (R456, R489) -/

/-- Does a job use a die: its clusters, its engines or its counters (R489). -/
def State.usesDie (no : JobNo) (d : Die) (s : State) : Bool :=
  (s.jobClusters no).any (fun c => c.die == d) || (s.jobEngines no).any (fun p => p.die == d) || (s.countersOf no).any (fun n => n.die == d)

/-- What a die keeps over its reset: its named counters, granules and stacks, its message queue, and the counters that start at 0 at
module reset (R293, R434, R489). -/
def DieState.dieReset (x : DieState) : DieState :=
  { DieState.reset with
    counters := x.counters, grans := x.grans, rings := x.rings, caches := x.caches, stk := x.stk, memFaults := x.memFaults, queue := x.queue
    pstPeak := x.pstPeak, sigMismatch := x.sigMismatch, sigDiscarded := x.sigDiscarded, sigCombined := x.sigCombined
    notOwner := x.notOwner, stateGone := x.stateGone, memReads := x.memReads, memWrites := x.memWrites
    memCombined := x.memCombined, memRefused := x.memRefused, memNoJob := x.memNoJob, combineFull := x.combineFull }

/-- A cluster keeps the counters of its status block, which only the module reset clears, its cap and its temperature (R160). -/
def Cluster.dieReset (k : Cluster) : Cluster :=
  { Cluster.reset with
    stepCount := k.stepCount, bundleCount := k.bundleCount, arrayStall := k.arrayStall, conflict := k.conflict
    fetchNs := k.fetchNs, syncNs := k.syncNs, gateNs := k.gateNs, bufferNs := k.bufferNs, activeNs := k.activeNs
    sramCorrected := k.sramCorrected, icacheRefetch := k.icacheRefetch, stepCap := k.stepCap, temp := k.temp }

/-- The class counters and the RED generators of a port, which start at module reset (R409, R414). -/
def Egress.dieReset (e : Egress) : Egress :=
  { Egress.reset with
    gen := e.gen, colours := e.colours, redDrop2 := e.redDrop2, redDrop3 := e.redDrop3, polDrop4 := e.polDrop4
    excess := e.excess, c0Max := e.c0Max, c0Over := e.c0Over, guardNs := e.guardNs, qs := e.qs }

/-- A port keeps its role and the counters that start at module reset; its other registers return to their reset values (R366; the
spec does not say what a die reset does to them: DESIGN CHOICE, log entry 111). -/
def PortState.dieReset (x : PortState) : PortState :=
  { PortState.reset with
    role := x.role, fecCorr := x.fecCorr, fecUncorr := x.fecUncorr, replays := x.replays, retryNs := x.retryNs
    stompRx := x.stompRx, stompTx := x.stompTx, frameCrc := x.frameCrc, badFrame := x.badFrame, widthChg := x.widthChg
    lanes := x.lanes.map fun e => (e.1, { Lane.reset with symErr := e.2.symErr })
    egress := x.egress.dieReset }

/-- The reset of a die is released: its control processor and its clusters start again from the hub's copy; its counters
stay orphaned until their jobs end, its DRAM keeps its contents, the messages that wait for a mailbox wait on, and its ports train anew (R292, R458, R489, R535). -/
def State.dieBack (d : Die) (s : State) : State :=
  let x := s.die d
  let s := s.setDie d x.dieReset
  let s := (allClusters.filter fun c => c.die == d).foldl (fun s c => s.setClu c (s.clu c).dieReset) s
  (allPorts.filter fun p => p.die == d).foldl (fun s p =>
    (s.setEng p Engine.reset).setPort p (s.port p).dieReset) s

/-- DIE_RESET_RELEASE (R489): 100 µs after the reset began, unless the quadrant reset of a power-down or of a trip holds it. -/
def execDieResetRelease (die : Die) (now : Nat) (s : State) : Host.Outcome State Fault Refusal :=
  s.happens now (fun s => if (s.die die).inReset ∧ !(s.die die).held ∧ (s.die die).resetAt + 100000 ≤ s.time then s.dieBack die else s)

end Sys2Proof.Machine
end

