-- ==== Sys2Proof/Machine/Regs.lean ====
section
/-! DEFINITION. The register space: what a read of each block returns and what a write does (00 R11, R15; 18 R452, R463; 10
R293; 11 R310; 13 R366; 14 R392; 15 R414, R415; 16 R434; 19 R492). -/

namespace Sys2Proof.Machine

/-! ## Words of registers -/

/-- A register word of a number. -/
def w32 (n : Nat) : Word := BitVec.ofNat 32 n
/-- The half of a 64-bit register at an offset: the low word first (R452). -/
def half (n off base : Nat) : Word := if off = base then w32 n else w32 (n / 2 ^ 32)
/-- Does an offset lie in a 64-bit register. -/
def in64 (off base : Nat) : Bool := off == base || off == base + 4

/-- A FUSE register (R11). -/
def State.fuseReg (off : Nat) (s : State) : Word :=
  let f := s.fuse
  let cl := (List.range 256).filter f.clusterOff.getLsbD
  let po := (List.range 64).filter f.portOff.getLsbD
  if off = 0 then f.grade.setWidth 32
  else if off = 4 then w32 (256 * f.revLetter.toNat + f.revDigit.toNat)
  else if off = 8 then f.portOff.setWidth 32
  else if off = 0xC then (f.portOff >>> 32).setWidth 32
  else if 0x10 ≤ off ∧ off < 0x30 then (f.clusterOff >>> (8 * (off - 0x10))).setWidth 32
  else if off = 0x30 then w32 (256 * cl.length + po.length)
  else 0

/-- The code of a route state (R389). -/
def RouteSt.code (r : RouteSt) : Nat :=
  match r with
  | .active => 0
  | .draining => 1
  | .drained => 2
  | .swapped => 3

/-- The index of a port within its trunk; none where it is not active (R392). -/
def State.memberOf (p : Port) (s : State) : Option Nat := (s.trunkOf p).findIdx? (· == p)

/-- A FAB register (R392). -/
def State.fabReg (off : Nat) (s : State) : Word :=
  let b := s.fab
  let me := match b.map with | some m => m.entry b.module.toNat | none => MapEntry.absent
  if off = 0 then w32 (RouteSt.code b.st + 16 * b2n b.staged.isSome)
  else if off = 4 then w32 (2 ^ 24 * me.y + 2 ^ 16 * me.x + (if b.map.isSome then b.module.toNat else 0))
  else if off = 8 then (match b.map with | some m => w32 (256 * m.ny + m.nx) | none => 0)
  else if off = 0xC then (match b.map with | some m => m.version | none => 0)
  else if off = 0x10 then b.ecnThresh
  else if off = 0x14 then b.ageC2.setWidth 32
  else if off = 0x18 then b.ageC3.setWidth 32
  else if off = 0x1C then b.ageC4.setWidth 32
  else if 0x20 ≤ off ∧ off < 0x78 then
    let l := [b.noRoute, b.noTarget, b.agedC2, b.agedC3, b.agedC4, b.ecnMarked, b.echoTx, b.echoRx, b.bubbleNs, b.storeFwd, b.mcCopies]
    half (l.getD ((off - 0x20) / 8) 0) off ((off - 0x20) / 8 * 8 + 0x20)
  else if 0x100 ≤ off ∧ off < 0x200 then
    let p := BitVec.ofNat 6 ((off - 0x100) / 4)
    w32 (256 * (match s.memberOf p with | some k => k | none => 0xFF) + (s.role p).toNat)
  else 0

/-- A HAT register (R415). -/
def State.hatReg (off : Nat) (s : State) : Word :=
  let no := BitVec.ofNat 16 (Table.get 0 (off / 32) s.hatchJobs)
  let o := off % 32
  if 256 ≤ off then 0
  else
    match if no = 0 then none else s.hatch no with
    | some h =>
      if o = 0 then w32 (65536 * h.entries.length + no.toNat)
      else if o = 4 then w32 h.cycle
      else if o = 8 then w32 h.phase
      else if o = 0xC then w32 ((h.current s.time).getD 0xFFF)
      else if in64 o 0x10 then half ((((List.range h.entries.length).map fun e => h.nextStart e (s.time + 1)).min?).getD 0) o 0x10
      else half h.gated.toNat o 0x18
    | none => if o = 0xC then 0xFFF else 0

/-- The code of a power state (R476). -/
def PowerSt.code (p : PowerSt) : Nat :=
  match p with
  | .standby => 1
  | .hubUp => 2
  | .powering => 3
  | .on => 4
  | .poweringDown => 5
  | .tripped => 6

/-- The code of a state of the time unit (R484). -/
def TimeSt.code (t : TimeSt) : Nat :=
  match t with
  | .free => 0
  | .locked => 1
  | .ptpOnly => 2
  | .ppsOnly => 3
  | .holdover => 4

/-- The code of a heartbeat class (R487). -/
def HbSt.code (h : HbSt) : Nat :=
  match h with
  | .alive => 0
  | .lost => 1
  | .noisy => 2
  | .unknown => 3

/-- An MGN register (R492). -/
def State.mgnReg (off : Nat) (s : State) : Word :=
  let m := s.margin
  if off = 0 then w32 (PowerSt.code m.power + 256 * TimeSt.code m.timeSt + 65536 * HbSt.code m.hbSt)
  else if off = 4 then w32 (m.vin % 65536)
  else if off = 8 then w32 (m.pin % 65536 * 65536 + m.filtered % 65536)
  else if off = 0xC then w32 m.powerCap
  else if 0x10 ≤ off ∧ off < 0x30 then
    let d := (off - 0x10) / 8
    if off % 8 = 0 then w32 (65536 * m.capMax.getD d 0 + 256 * m.capThermal.getD d 0 + m.capApplied.getD d 0)
    else w32 (65536 * (BitVec.ofInt 16 (m.dieTemp.getD d 0)).toNat + m.vcore.getD d 0 % 65536)
  else if off = 0x30 then w32 ((List.range 4).foldl (fun n d => n + 256 ^ d * ((m.vset.getD d 600 - 600) / 5)) 0)
  else if in64 off 0x38 then half m.throttleNs off 0x38
  else if off = 0x40 then w32 m.ppsAccept
  else if off = 0x44 then w32 m.ppsReject
  else if off = 0x48 then w32 m.hbLost
  else if off = 0x4C then w32 m.hbNoisy
  else if off = 0x50 then w32 m.rstGlitch
  else if in64 off 0x58 then half m.holdoverNs off 0x58
  else if off = 0x60 then m.tripLast.setWidth 32
  else 0

/-- A counter as its register shows it (R293). -/
def Counter.reg (c : Counter) : Nat :=
  c.value.toNat + 2 ^ 32 * b2n c.overflow + 2 ^ 33 * b2n c.underflow + 2 ^ 34 * b2n c.orphaned + 2 ^ 40 * c.cause.toNat + 2 ^ 48 * c.job.toNat

/-- A SYN register of a die (R293). -/
def State.synReg (d : Die) (off : Nat) (s : State) : Word :=
  let x := s.die d
  if off < 0x20000 then half (Counter.reg (Table.get Counter.reset (off / 8) x.counters)) off (off / 8 * 8)
  else if off = 0x20000 then w32 x.pst.length
  else if off = 0x20004 then w32 x.pstPeak
  else if off = 0x20008 then w32 x.sigMismatch
  else if off = 0x2000C then w32 x.sigDiscarded
  else if off = 0x20010 then w32 x.sigCombined
  else if 0x30000 ≤ off ∧ off < 0x30200 then
    let b := s.bar ((off - 0x30000) / 8)
    if off % 8 = 0 then w32 ((b.localAt b.gen.toNat).1 % 256 + 2 ^ 19 * b.masks.1.length) else b.gen
  else 0

/-- The free SRAM granules of a cluster (R310). -/
def State.sramFree (c : ClusterId) (s : State) : Nat :=
  if s.hasCluster c then
    ((List.range 512).filter fun g =>
      decide ((s.clu c).poolBase ≤ g * 16384) && (s.gran ⟨c.die, (c.toNat % 64) * 512 + g, false⟩).st == .free).length
  else 0

/-- A BPM register of a die (R310). -/
def State.bpmReg (d : Die) (off : Nat) (s : State) : Word :=
  let x := s.die d
  let sum := fun (t : Table (List DWord)) => t.foldl (fun n e => n + e.2.length) 0
  if in64 off 0 then half (dramAddr (8 * d.toNat) 79900000000) off 0
  else if off = 8 then w32 1048576
  else if off = 0xC then w32 (sum x.rings + sum x.caches)
  else if off = 0x10 then w32 (sum x.caches)
  else if off = 0x14 then w32 (65536 * (x.waiters.filter fun (w : GranReq) => w.dram).length + (x.waiters.filter fun (w : GranReq) => !w.dram).length)
  else if off = 0x18 then w32 x.notOwner
  else if off = 0x1C then w32 x.stateGone
  else if 0x100 ≤ off ∧ off < 0x200 then w32 (s.sramFree (BitVec.ofNat 8 (64 * d.toNat + (off - 0x100) / 4)))
  else 0

/-- A FAB_MEM register of a die (R434). -/
def State.memReg (d : Die) (off : Nat) (s : State) : Word :=
  let x := s.die d
  if off < 0x20 then half ([x.memReads, x.memWrites, x.memCombined, x.memRefused].getD (off / 8) 0) off (off / 8 * 8)
  else if off = 0x20 then w32 x.memNoJob
  else if off = 0x24 then w32 x.combines.length
  else if off = 0x28 then w32 x.combineFull
  else 0

/-- The code of a link phase (R366). -/
def LinkPhase.code (x : LinkPhase) : Nat :=
  match x with
  | .disabled => 0
  | .detect => 1
  | .equalise => 2
  | .align => 3
  | .negotiate => 4
  | .active => 5

/-- An FAB_WZ register of a port (R366). -/
def State.wzReg (p : Port) (off : Nat) (s : State) : Word :=
  let x := s.port p
  if off = 0 then
    w32 (65536 * x.txLanes.toNat + 256 * x.rxLanes.toNat + (if s.hasPort p then (if x.disable then 0 else LinkPhase.code x.phase) else 6))
  else if off = 4 then w32 (b2n x.disable)
  else if in64 off 0x10 then half x.identity.toNat off 0x10
  else if in64 off 0x18 then half x.fecCorr off 0x18
  else if off = 0x20 then w32 x.fecUncorr
  else if off = 0x24 then w32 x.replays
  else if in64 off 0x28 then half x.retryNs off 0x28
  else if off = 0x30 then w32 x.stompRx
  else if off = 0x34 then w32 x.stompTx
  else if off = 0x38 then w32 x.frameCrc
  else if off = 0x3C then w32 x.badFrame
  else if off = 0x40 then w32 x.delay
  else if off = 0x44 then BitVec.ofInt 32 x.offset
  else if off = 0x48 then w32 x.widthChg
  else if 0x80 ≤ off ∧ off < 0xC0 then
    let l := Table.get Lane.reset ((off - 0x80) / 8) x.lanes
    if off % 8 = 0 then w32 l.symErr else l.laneState.setWidth 32
  else 0

/-- A drop profile as its register shows it (R414). -/
def RedProf.reg (r : RedProf) : Nat := r.minTh.toNat + 2 ^ 16 * r.maxTh.toNat + 2 ^ 32 * r.maxP.toNat + 2 ^ 63 * b2n r.en

/-- An FAB_TC register of a port (R414). -/
def State.tcReg (p : Port) (off : Nat) (s : State) : Word :=
  let e := (s.port p).egress
  let h := s.portHatch (s.port p)
  if in64 off 0 then half e.weights.toNat off 0
  else if off = 8 then w32 (((h.bind fun h => h.current s.time).getD 0xFFF) + 2 ^ 12 * (e.gatesAt h s.time).toNat + 2 ^ 17 * b2n (e.gatedBy != 0))
  else if off = 0xC then w32 (c0Rate e.weights)
  else if off = 0x10 then w32 ((e.fillB0 s.time).b0 / 1000)
  else if off = 0x14 then e.period.setWidth 32
  else if 0x20 ≤ off ∧ off < 0x50 then
    let q := Table.get Policer.reset ((off - 0x20) / 16) e.policers
    [q.cir, q.pir, q.cbs, q.pbs].getD (off % 16 / 4) 0
  else if 0x50 ≤ off ∧ off < 0x5C then (Table.get Policer.reset ((off - 0x50) / 4) e.policers).eff
  else if 0x60 ≤ off ∧ off < 0x90 then
    half (RedProf.reg (Table.get RedProf.reset ((off - 0x60) / 8) e.red)) off ((off - 0x60) / 8 * 8 + 0x60)
  else if off = 0x90 then e.wexp.setWidth 32
  else if 0xA0 ≤ off ∧ off < 0xE8 then half (Table.get 0 ((off - 0xA0) / 8) e.colours) off ((off - 0xA0) / 8 * 8 + 0xA0)
  else if 0xE8 ≤ off ∧ off < 0x108 then
    half ([e.redDrop2, e.redDrop3, e.polDrop4, e.excess].getD ((off - 0xE8) / 8) 0) off ((off - 0xE8) / 8 * 8 + 0xE8)
  else if off = 0x108 then w32 e.c0Max
  else if off = 0x10C then w32 e.c0Over
  else if in64 off 0x110 then half e.guardNs off 0x110
  else if 0x140 ≤ off ∧ off < 0x1E0 then
    let q := Table.get (⟨0, 0, 0, 0, 0⟩ : QSample) ((off - 0x140) / 32) e.qs
    let o := (off - 0x140) % 32
    if o < 0x18 then half ([q.samples, q.depthSum, q.delaySum].getD (o / 8) 0) o (o / 8 * 8)
    else if o = 0x18 then w32 q.depthMax
    else w32 q.delayMax
  else 0

/-! ## The register space (R452) -/

/-- A block of the register space. -/
inductive Block where
  | fuse
  | fab
  | hat
  | mgn
  | mbx (d : Die) (k : Nat)
  | mbxSum (d : Die)
  | syn (d : Die)
  | bpm (d : Die)
  | mem (d : Die)
  | wz (p : Port)
  | tc (p : Port)
  deriving DecidableEq, Repr

/-- The block of an address and the offset in it (R452); none where no block lies. -/
def blockOf (a : Nat) : Option (Block × Nat) :=
  if a < 0x10000 then some (.fuse, a)
  else if a < 0x20000 then some (.fab, a - 0x10000)
  else if a < 0x30000 then some (.hat, a - 0x20000)
  else if a < 0x40000 then some (.mgn, a - 0x30000)
  else if a < 0x10000000 ∨ 0x50000000 ≤ a then none
  else
    let n := a / 0x10000000 - 1
    let d : Die := BitVec.ofNat 2 n
    let o := a % 0x10000000
    if o < 0x1000 then some (.mbx d (o / 256), o % 256)
    else if o < 0x1008 then some (.mbxSum d, o - 0x1000)
    else if o < 0x100000 then none
    else if o < 0x200000 then some (.syn d, o - 0x100000)
    else if o < 0x300000 then some (.bpm d, o - 0x200000)
    else if o < 0x300040 then some (.mem d, o - 0x300000)
    else if o < 0x400000 then none
    else if o < 0x401000 then some (.wz (BitVec.ofNat 6 (16 * n + (o - 0x400000) / 256)), o % 256)
    else if o < 0x500000 then none
    else if o < 0x502000 then some (.tc (BitVec.ofNat 6 (16 * n + (o - 0x500000) / 512)), o % 512)
    else none

/-- A mailbox register (R453). -/
def Mailbox.reg (off : Nat) (m : Mailbox) : Word :=
  if off = 0 then w32 (m.code.toNat + 65536 * m.seq.toNat)
  else if off = 4 then w32 (m.status.toNat + 65536 * m.doneSeq.toNat)
  else if off = 8 then m.job.setWidth 32
  else if off = 0xC then w32 (m.resLen.toNat + 2 ^ 24 * m.detail.toNat)
  else if off < 0x80 then Table.get 0 ((off - 0x10) / 4) m.args
  else Table.get 0 ((off - 0x80) / 4) m.res

/-- What a read of a register word returns (R15, R452). -/
def State.readReg (a : Nat) (s : State) : Word :=
  match blockOf a with
  | some (b, o) =>
    match b with
    | .fuse => s.fuseReg o
    | .fab => s.fabReg o
    | .hat => s.hatReg o
    | .mgn => s.mgnReg o
    | .mbx d k => Mailbox.reg o (Table.get Mailbox.reset k (s.die d).mbx)
    | .mbxSum d => if o = 0 then (s.die d).done.setWidth 32 else (s.die d).busy.setWidth 32
    | .syn d => s.synReg d o
    | .bpm d => s.bpmReg d o
    | .mem d => s.memReg d o
    | .wz p => s.wzReg p o
    | .tc p => s.tcReg p o
  | none => 0

/-! ## Writes (R15) -/

/-- Write a FAB register: the thresholds and age limits are RW, all else is RO (R392). -/
def State.writeFab (off : Nat) (v : Word) (s : State) : State :=
  s.modFab fun b =>
    if off = 0x10 then { b with ecnThresh := v }
    else if off = 0x14 then { b with ageC2 := v.setWidth 16 }
    else if off = 0x18 then { b with ageC3 := v.setWidth 16 }
    else if off = 0x1C then { b with ageC4 := v.setWidth 16 }
    else b

/-- Write an FAB_WZ register: disable, and the retrain that writing 1 starts (R366). The register of a port that a fuse disables holds what
is written; there is no link that it could act on (R7, R15). -/
def State.writeWz (p : Port) (off : Nat) (v : Word) (s : State) : State :=
  if !s.hasPort p then (if off = 4 then s.modPort p fun x => { x with disable := v.getLsbD 0 } else s)
  else if off = 4 then (if v.getLsbD 0 = (s.port p).disable then s else s.disablePort p (v.getLsbD 0))
  else if off = 8 then (if v.getLsbD 0 then s.retrainPort p else s)
  else s

/-- Change a half of a drop profile. -/
def RedProf.put (high : Bool) (v : Word) (r : RedProf) : RedProf :=
  if high then { r with en := v.getLsbD 31, maxP := v.setWidth 16 }
  else { r with minTh := v.setWidth 16, maxTh := (v >>> 16).setWidth 16 }

/-- Write an FAB_TC register (R414); the sample period lies in 1 to 65,535. -/
def State.writeTc (p : Port) (off : Nat) (v : Word) (s : State) : State :=
  if off = 0x14 then s.modPort p fun x => { x with egress := { x.egress with period := v.setWidth 16 } }
  else if 0x20 ≤ off ∧ off < 0x50 then
    s.policerWrite p ((off - 0x20) / 16) ([PolicerParam.cir, .pir, .cbs, .pbs].getD (off % 16 / 4) .cir) v
  else if 0x60 ≤ off ∧ off < 0x90 then
    let k := (off - 0x60) / 8
    s.modPort p fun x =>
      let t := Table.set RedProf.reset k ((Table.get RedProf.reset k x.egress.red).put (off % 8 == 4) v) x.egress.red
      { x with egress := { x.egress with red := t } }
  else if off = 0x90 then s.modPort p fun x => { x with egress := { x.egress with wexp := v.setWidth 8 } }
  else s

/-- MBX_DONE is W1C (R453). -/
def State.clearDoneBits (d : Die) (mask : BitVec 16) (s : State) : State :=
  s.modDie d fun x => { x with done := x.done &&& ~~~ mask }

/-- Write a register word outside the mailboxes (R15). -/
def State.writeReg (a : Nat) (v : Word) (s : State) : State :=
  match blockOf a with
  | some (b, o) =>
    match b with
    | .fab => s.writeFab o v
    | .wz p => s.writeWz p o v
    | .tc p => s.writeTc p o v
    | .mbxSum d => if o = 0 then s.clearDoneBits d (v.setWidth 16) else s
    | _ => s
  | none => s

/-- The target of messages that reaches a block; none for the mailbox blocks (R463). -/
def Block.target (b : Block) : Option Nat :=
  match b with
  | .fuse => some 0
  | .fab => some 0
  | .hat => some 0
  | .mgn => some 0
  | .mbx _ _ => none
  | .mbxSum _ => none
  | .syn d => some (4 + d.toNat)
  | .bpm d => some (4 + d.toNat)
  | .mem d => some (4 + d.toNat)
  | .wz p => some (4 + p.toNat / 16)
  | .tc p => some (4 + p.toNat / 16)

/-- May a message of a target reach n words from an address: the address is a multiple of 4 and every word lies in one
block of the target (R463). -/
def reachable (target a n : Nat) : Bool :=
  a % 4 == 0 && (match blockOf a with
    | some (b, _) => Block.target b == some target && (List.range n).all fun i => (blockOf (a + 4 * i)).map (·.1) == some b
    | none => false)

end Sys2Proof.Machine
end

