-- ==== Sys2Proof/Machine/Scan.lean ====
section
/-! DEFINITION. What the code and the tile descriptors of a plate name: the use codes of R67, the operand pairs of R76 and R100. A plate
that names one outside these rules is refused at its load. -/

namespace Sys2Proof.Machine

/-! ## Code (R67, R163, R164, R166) -/

/-- The slot words of the bundle whose header stands at the start of some bytes. -/
def bundleWords (bs : List Byte) : List SlotWord :=
  let h := leNat (bs.take 2)
  ((List.range 6).foldl (fun (acc : List SlotWord × List Byte) i =>
    if Nat.testBit h i then
      let wide := Nat.testBit h (6 + i)
      let w := BitVec.ofNat 32 (leNat (acc.2.take 4))
      let imm := if wide then BitVec.ofNat 32 (leNat ((acc.2.drop 4).take 4)) else 0
      (acc.1 ++ [⟨i, opcodeOf w, Fields.ofWord w imm wide⟩], acc.2.drop (if wide then 8 else 4))
    else acc) ([], bs.drop 2)).1

/-- The words of the bundles that follow one another from the start of some bytes, up to the first that is no bundle of legal words. -/
def walkCode : Nat → List Byte → List SlotWord
  | 0, _ => []
  | n + 1, bs =>
    let size := headerSize (leNat (bs.take 2))
    let ws := bundleWords bs
    if decide (bs.length < size) || ws.any (fun w => !w.legal) then [] else ws ++ walkCode n (bs.drop size)

/-- Does a word set a use code that R67 reserves: a SETCX, whose immediate holds it. -/
def SlotWord.badUse (w : SlotWord) : Bool := w.slot == 1 && w.op == 0x30 && !useCodeOk (w.f.imm.setWidth 8)

/-- Does the code from an entry offset name a reserved use code (R67; log entry 109). -/
def codeNamesBadUse (code : List Byte) (entry : Nat) : Bool := (walkCode (code.length / 2) (code.drop entry)).any SlotWord.badUse

end Sys2Proof.Machine
end

