-- ==== Sys2Proof/Machine/Plates.lean ====
section
/-! DEFINITION. Plates: the parts of the staging area, the sections, what each section says, the checks of the last part, and
what a load and an unload change (09 R245 to R266; 18 R464, R465). -/

namespace Sys2Proof.Machine

/-! ## Fields of bytes -/

/-- A little-endian number of n bytes at an offset. -/
def fieldAt (o n : Nat) (bs : List Byte) : Nat := leNat ((bs.drop o).take n)

/-- Are the n bytes at an offset 0. -/
def zeroAt (o n : Nat) (bs : List Byte) : Bool := fieldAt o n bs == 0

/-- Entry i of k bytes from a base offset. -/
def entryAt (base k i : Nat) (bs : List Byte) : List Byte := (bs.drop (base + k * i)).take k

/-! ## Parts and sections (R464) -/

/-- A section of a plate: its directory index across parts, its entry's fields, its bytes, and whether the entry lies in
its part and keeps its reserved fields 0. -/
structure Section where
  no    : Nat
  type  : Nat
  index : Nat
  dest  : DWord
  bytes : List Byte
  ok    : Bool
  deriving DecidableEq, Repr

/-- The types that a directory entry may have. -/
def sectionTypes : List Nat :=
  [0x01, 0x02, 0x03, 0x04, 0x05, 0x06, 0x07, 0x08, 0x09, 0x0A, 0x0B, 0x0C, 0x0D, 0x10, 0x11, 0x12, 0x13, 0x14]

/-- The sections of a part whose first directory entry has an index. -/
def partSections (base : Nat) (part : List Byte) : List Section :=
  (List.range (fieldAt 0xC 4 part)).map fun i =>
    let e := entryAt 0x80 32 i part
    let t := fieldAt 0 1 e
    let o := fieldAt 8 8 e
    let n := fieldAt 0x10 8 e
    { no := base + i, type := t, index := fieldAt 4 4 e, dest := BitVec.ofNat 64 (fieldAt 0x18 8 e), bytes := (part.drop o).take n
      ok := sectionTypes.contains t && zeroAt 1 3 e && decide (0x80 + 32 * (i + 1) ≤ part.length) && decide (o + n ≤ part.length)
        && ((0x10 ≤ t && t ≤ 0x13) || zeroAt 0x18 8 e) }

/-- The sections of all parts in directory order. -/
def allSections : Nat → List (List Byte) → List Section
  | _, [] => []
  | base, p :: ps => partSections base p ++ allSections (base + fieldAt 0xC 4 p) ps

/-- The bytes of the section of a type, none where the plate has no such section. -/
def secOf (t : Nat) (l : List Section) : Option (List Byte) := (l.find? fun x => x.type == t).map (·.bytes)
/-- The same, empty where there is none. -/
def secBytes (t : Nat) (l : List Section) : List Byte := (secOf t l).getD []
/-- The directory index of the section of a type; the number of entries where there is none (log entry 40). -/
def secNo (t : Nat) (l : List Section) : Nat := ((l.find? fun x => x.type == t).map (·.no)).getD l.length

/-! ## Sections (R247 to R253, R266, R270, R286, R299 to R306, R399, R417, R508; log entry 14) -/

/-- The ranks of a 512-byte mask at an offset. -/
def maskAt (o : Nat) (bs : List Byte) : List Nat := maskRanks ((bs.drop o).take 512)

/-- The rank list (R247). -/
def parseRanks (bs : List Byte) : List RankEntry :=
  (List.range (bs.length / 8)).map fun i =>
    let v := fieldAt 0 8 (entryAt 0 8 i bs)
    ⟨BitVec.ofNat 2 v, BitVec.ofNat 9 (bitsOf v 9 9), BitVec.ofNat 6 (bitsOf v 18 6)⟩

/-- A mapping (R251 to R253). -/
def parseMapping (bs : List Byte) : Mapping where
  shards := (List.range (fieldAt 0 4 bs)).map fun i =>
    let e := entryAt 0x40 16 i bs
    let v := fieldAt 4 4 e
    ⟨BitVec.ofNat 32 (fieldAt 0 4 e), bitsOf v 0 12, BitVec.ofNat 5 (bitsOf v 12 6), bitsOf v 18 1 == 1, bitsOf (fieldAt 8 4 e) 0 12, fieldAt 0xC 4 e⟩
  groups := (List.range (bitsOf (fieldAt 4 4 bs) 0 13)).map fun g => maskAt (fieldAt 0xC 4 bs + 512 * g) bs
  masks := (List.range (fieldAt 8 4 bs)).map fun m => maskAt (fieldAt 0x10 4 bs + 512 * m) bs

/-- The mappings of a plate by number. -/
def parseMappings (n : Nat) (l : List Section) : List Mapping :=
  (List.range n).map fun b => parseMapping (((l.find? fun x => x.type == 4 && x.index == b).map (·.bytes)).getD [])

/-- The hatch list as a module sees it (R399). -/
def parseHatch (module : Nat) (bs : List Byte) : Hatch :=
  let n := fieldAt 0 4 bs % 4096
  { phase := fieldAt 4 4 bs, cycle := fieldAt 8 4 bs
    entries := (List.range n).map fun e =>
      let v := fieldAt 0 8 (entryAt 0x40 8 e bs)
      ⟨bitsOf v 0 24, BitVec.ofNat 5 (bitsOf v 24 5), bitsOf v 32 32⟩
    gated := BitVec.ofNat 64 (fieldAt 0 8 (entryAt (0x40 + 8 * n) 8 module bs)) }

/-- The barrier definitions (R253, R286). -/
def parseBarriers (bs : List Byte) : List BarDef :=
  (List.range (fieldAt 0 4 bs)).map fun i =>
    let e := entryAt 0x40 32 i bs
    let v := fieldAt 0 4 e
    ⟨BitVec.ofNat 6 (bitsOf v 0 6), BitVec.ofNat 2 (bitsOf v 8 2), bitsOf v 16 8, bitsOf (fieldAt 4 2 e) 0 12, BitVec.ofNat 16 (fieldAt 6 2 e),
      maskAt (fieldAt 8 4 bs + 512 * fieldAt 8 4 e) bs, fieldAt 0xC 4 e, BitVec.ofNat 64 (fieldAt 0x10 8 e)⟩

/-- The port weights by port: the section holds one entry per enabled port, in port order (R266). -/
def parseWeights (off : DWord) (bs : List Byte) : List DWord :=
  (List.range 64).map fun p =>
    if off.getLsbD p ∨ bs.isEmpty then Egress.reset.weights
    else BitVec.ofNat 64 (fieldAt 0 8 (entryAt 0 8 ((List.range p).filter fun q => !off.getLsbD q).length bs))

/-- The schedule (R249). -/
def parseSched (bs : List Byte) : List SchedEntry :=
  (List.range (bs.length / 24)).map fun i =>
    let e := entryAt 0 24 i bs
    let v := fieldAt 0 4 e
    ⟨BitVec.ofNat 4 (bitsOf v 28 4), BitVec.ofNat 12 (bitsOf v 16 12), BitVec.ofNat 8 (bitsOf v 8 8), BitVec.ofNat 2 v,
      BitVec.ofNat 16 (fieldAt 4 2 e), fieldAt 8 4 e, fieldAt 0xC 4 e, BitVec.ofNat 64 (fieldAt 0x10 8 e)⟩

/-- The counter table (R270). -/
def parseCounters (bs : List Byte) : List CounterEntry :=
  (List.range (bs.length / 8)).map fun i =>
    let v := fieldAt 0 8 (entryAt 0 8 i bs)
    ⟨BitVec.ofNat 16 v, BitVec.ofNat 4 (bitsOf v 20 4), BitVec.ofNat 32 (bitsOf v 32 32)⟩

/-- The pools by stack (R300). -/
def parsePools (bs : List Byte) : List (Nat × Nat) :=
  (List.range 32).map fun k => (fieldAt 0 8 (entryAt 0 16 k bs), fieldAt 8 8 (entryAt 0 16 k bs))
/-- The quotas by owner (R299). -/
def parseQuotas (bs : List Byte) : List DWord := (List.range 324).map fun u => BitVec.ofNat 64 (fieldAt 0 8 (entryAt 0x200 8 u bs))

/-- The share list (R303). -/
def parseShares (bs : List Byte) : List ShareEntry :=
  (List.range (fieldAt 0 4 bs)).map fun i =>
    let e := entryAt 0x20 32 i bs
    let v := fieldAt 8 4 e
    ⟨BitVec.ofNat 64 (fieldAt 0 8 e), bitsOf v 0 1 == 1, (List.range (bitsOf v 1 3)).map fun k => bitsOf (fieldAt (0x10 + 2 * k) 2 e) 0 9⟩

/-- The windows with their sizes (R417). -/
def parseWindows (bs sizes : List Byte) : List Window :=
  (List.range (bs.length / 16)).map fun i =>
    let e := entryAt 0 16 i bs
    let v := fieldAt 4 4 e
    ⟨BitVec.ofNat 12 (fieldAt 0 2 e), BitVec.ofNat 16 (fieldAt 2 2 e), v % 2 == 1, bitsOf v 1 1 == 1, bitsOf v 2 1 == 1, BitVec.ofNat 64 (fieldAt 8 8 e),
      fieldAt 0 4 (entryAt 0 4 i sizes)⟩

/-- The mirror table (R508). -/
def parseMirror (bs : List Byte) : List MirrorEntry :=
  (List.range (bs.length / 32)).map fun i =>
    let e := entryAt 0 32 i bs
    ⟨bitsOf (fieldAt 0 4 e) 0 2 == 2, BitVec.ofNat 16 (fieldAt 2 2 e), BitVec.ofNat 32 (fieldAt 4 4 e), BitVec.ofNat 64 (fieldAt 8 8 e),
      fieldAt 0x10 4 e, BitVec.ofNat 16 (fieldAt 0x14 2 e)⟩

/-- The shard records (R306). -/
def parseShards (bs : List Byte) : List Shard :=
  (List.range (bs.length / 96)).map fun i =>
    let e := entryAt 0 96 i bs
    let v := fieldAt 0xA 2 e
    let u := fieldAt 8 4 e
    { shard := BitVec.ofNat 32 (fieldAt 0 4 e), st := BitVec.ofNat 32 (fieldAt 4 4 e), job := BitVec.ofNat 16 (fieldAt 8 2 e)
      hold := v % 8, relSlot := BitVec.ofNat 6 (bitsOf u 24 6), advance := BitVec.ofNat 16 (fieldAt 0xC 2 e)
      release := BitVec.ofNat 16 (fieldAt 0xE 2 e), wireBase := BitVec.ofNat 64 (fieldAt 0x10 8 e), areaSize := fieldAt 0x18 4 e
      areas := [], readers := [], relDue := [], advDue := 0 }

/-- Is a section a table of shard records: a descriptor area of index 1 (log entry 14). -/
def Section.isShards (x : Section) : Bool := x.type == 0x13 && x.index == 1

/-- The plate that the parts hold (R245; log entry 14). -/
def parsePlate (parts : List (List Byte)) (l : List Section) : Plate :=
  let jh := secBytes 1 l
  let mh := secBytes 2 l
  let off : DWord := BitVec.ofNat 64 (fieldAt 8 8 mh)
  { job := BitVec.ofNat 16 (fieldAt 0 2 jh), seed := BitVec.ofNat 64 (fieldAt 8 8 jh), firmware := BitVec.ofNat 64 (fieldAt 0x10 8 jh)
    mode := BitVec.ofNat 4 (fieldAt 2 1 jh), mappingsN := fieldAt 3 1 jh, digest := BitVec.ofNat 256 (fieldAt 0x20 32 jh)
    module := BitVec.ofNat 9 (fieldAt 0 2 mh), portOff := off, clusterOff := BitVec.ofNat 256 (fieldAt 0x10 32 mh)
    poolBases := (List.range 256).map fun i => fieldAt (0x30 + 4 * i) 4 mh
    ranks := parseRanks (secBytes 3 l), mappings := parseMappings (fieldAt 3 1 jh) l
    hatch := parseHatch (fieldAt 0 2 mh) (secBytes 5 l), barriers := parseBarriers (secBytes 6 l)
    weights := parseWeights off (secBytes 7 l), sched := parseSched (secBytes 8 l), counters := parseCounters (secBytes 9 l)
    pools := parsePools (secBytes 0xA l), quotas := parseQuotas (secBytes 0xA l), shares := parseShares (secBytes 0xB l)
    windows := parseWindows (secBytes 0xC l) (secBytes 0xD l), mirror := parseMirror (secBytes 0x14 l)
    shardRecs := (l.filter Section.isShards).flatMap fun x => parseShards x.bytes
    images := (l.filter fun x => 0x10 ≤ x.type ∧ x.type ≤ 0x13 ∧ !x.isShards).map fun x =>
      ⟨BitVec.ofNat 8 x.type, BitVec.ofNat 32 x.index, x.dest, x.bytes⟩
    bytes := parts.flatten }

/-! ## The checks of the last part (R465) -/

/-- Why a plate is refused: its status, the failing section, the failing entry, the failing port (R465). -/
structure Bad where
  status : BitVec 16
  sec    : Nat
  entry  : Nat
  port   : Nat
  deriving DecidableEq, Repr

/-- A refusal with PLATE_INVALID of a whole section. -/
def bad (sec : Nat) : Bad := ⟨Code.plateInvalid, sec, 0xFFFFFFFF, 0xFF⟩
/-- A check: the refusal where the condition fails. -/
def must (ok : Bool) (b : Bad) : Option Bad := if ok then none else some b
/-- The first entry of a list of n that fails a condition. -/
def mustAll (n : Nat) (ok : Nat → Bool) (b : Nat → Bad) : Option Bad := ((List.range n).find? fun i => !ok i).map b
/-- The first refusal of a list of checks. -/
def firstBad : List (Option Bad) → Option Bad
  | [] => none
  | some b :: _ => some b
  | none :: l => firstBad l

/-- The shape of the parts and directories (R464). -/
def checkShape (parts : List (List Byte)) (l : List Section) : Option Bad :=
  firstBad [
    must (parts.all fun p => fieldAt 0 4 p == 0x504C4E48 && fieldAt 4 1 p == 1) (bad 0),
    (l.find? fun x => !x.ok).map fun x => bad x.no,
    must ((secOf 1 l).isSome && (secOf 2 l).isSome && (secOf 3 l).isSome) (bad l.length)]

/-- The two headers: the map, the pool bases, the digest, the firmware (R10, R148, R245, R246). -/
def State.checkHeaders (p : Plate) (l : List Section) (s : State) : Option Bad :=
  let common := fun (t : Nat) => if t = 1 then (secBytes 1 l).take 0x20 else
    (l.filter fun x => x.type == t).flatMap fun x => x.bytes
  let digest := digest32 ([1, 3, 4, 5, 6].flatMap common)
  firstBad [
    must (1 ≤ p.mappingsN && p.mappingsN ≤ 4 && p.mode.toNat ≤ 3 && (secBytes 1 l).length == 64) (bad (secNo 1 l)),
    must ((secBytes 2 l).length == 1072) (bad (secNo 2 l)),
    must (p.portOff == s.fuse.portOff && p.clusterOff == s.fuse.clusterOff) ⟨Code.plateMapMismatch, secNo 2 l, 0xFFFFFFFF, 0xFF⟩,
    mustAll 256 (fun c => let b := p.poolBases.getD c 0
      b % 16384 == 0 && decide (b ≤ 0x800000) && (s.hasCluster (BitVec.ofNat 8 c) || b == 0x800000)) (fun _ => bad (secNo 2 l)),
    must (digest == p.digest) (bad (secNo 1 l)),
    must (p.firmware == s.hub.running) ⟨Code.plateFirmwareMismatch, secNo 1 l, 0xFFFFFFFF, 0xFF⟩]

/-- Is a rank used. -/
def Plate.usedRank (r : Nat) (p : Plate) : Bool := match p.ranks[r]? with | some e => e.kind == 1#2 || e.kind == 2#2 | none => false

/-- The rank list (R247, R248). A twin has no rank of its own (R323). -/
def State.checkRanks (p : Plate) (l : List Section) (s : State) : Option Bad :=
  let used := p.ranks.filter fun e => e.kind != 0#2
  let bs := secBytes 3 l
  firstBad [
    must (bs.length % 8 == 0 && decide (p.ranks.length ≤ 4096)) (bad (secNo 3 l)),
    mustAll p.ranks.length (fun i => match p.ranks[i]? with
      | some e => e.kind != 3#2 && (e.kind != 2#2 || e.port == 0#6) && zeroAt 3 5 (entryAt 0 8 i bs) && bitsOf (fieldAt 0 4 (entryAt 0 8 i bs)) 2 7 == 0
      | none => true) (fun i => { bad (secNo 3 l) with entry := i }),
    must (used.eraseDups.length == used.length) (bad (secNo 3 l)),
    must (used.any fun e => e.kind == 2#2 && e.module == p.module) (bad (secNo 3 l)),
    mustAll p.ranks.length (fun i => match p.ranks[i]? with
      | some e => !(e.kind == 1#2 && e.module == s.ownModule) || (s.hasPort e.port && s.role e.port == 1#4)
      | none => true) (fun i => { bad (secNo 3 l) with entry := i, port := match p.ranks[i]? with | some e => e.port.toNat | none => 0xFF })]

/-- One mapping section (R245, R253). -/
def checkMapping (p : Plate) (b : Nat) (l : List Section) : Option Bad :=
  match l.find? fun x => x.type == 4 && x.index == b with
  | none => some (bad l.length)
  | some x =>
    let m := parseMapping x.bytes
    let n := m.shards.length
    let g := m.groups.length
    let k := m.masks.length
    let go := fieldAt 0xC 4 x.bytes
    let mo := fieldAt 0x10 4 x.bytes
    let ids := m.shards.map fun e => e.shard.toNat
    firstBad [
      must (1 ≤ k && g ≤ 4096 && go % 128 == 0 && mo % 128 == 0 && zeroAt 0x14 0x2C x.bytes) (bad x.no),
      must (decide (0x40 + 16 * n ≤ go) && decide (0x40 + 16 * n ≤ mo) && decide (go + 512 * g ≤ x.bytes.length)
        && decide (mo + 512 * k ≤ x.bytes.length) && !meets go (512 * g) mo (512 * k)) (bad x.no),
      must (ids.eraseDups.length == n) (bad x.no),
      must ((List.range p.ranks.length).all fun r => decide ((m.shards.filter fun e => e.owner == r).length ≤ 65536)) (bad x.no),
      mustAll n (fun i => match m.shards[i]? with | some e => decide (e.group < g) && decide (e.dpMask < k) | none => true)
        (fun i => { bad x.no with entry := i }),
      must (m.masks.all fun r => !r.isEmpty) (bad x.no),
      must ((m.groups ++ m.masks).all fun r => r.all fun q => p.usedRank q) (bad x.no)]

/-- The mappings: each section, and at most 4,096 groups on the module (R252, R253). -/
def State.checkMappings (no : JobNo) (p : Plate) (l : List Section) (s : State) : Option Bad :=
  let held := ((s.jobs.filter fun e => e.2.no != no).filterMap fun e => e.2.plate).foldl (fun (n : Nat) (q : Plate) => n + q.mappings.foldl (fun (n : Nat) (m : Mapping) => n + m.groups.length) 0) 0
  let total := fun (b : Nat) => held + (p.mappings.take (b + 1)).foldl (fun (n : Nat) (m : Mapping) => n + m.groups.length) 0
  let numOf := fun (b : Nat) => ((l.find? fun x => x.type == 4 && x.index == b).map (·.no)).getD l.length
  firstBad ((List.range p.mappingsN).map (fun b => checkMapping p b l) ++
    [mustAll p.mappingsN (fun b => decide (total b ≤ 4096)) (fun b => bad (numOf b))])

/-- Port weights and the hatch list (R266, R398, R404). -/
def State.checkHatch (no : JobNo) (p : Plate) (l : List Section) (s : State) : Option Bad :=
  let bs := secBytes 5 l
  let ws := secBytes 7 l
  let h := p.hatch
  let n := h.entries.length
  let hw := secNo 7 l
  let hs := secNo 5 l
  let rej := fun (e q : Nat) => (⟨Code.hatchRejected, hs, e, q⟩ : Bad)
  let ports := (List.range 64).filter fun q => s.hasPort (BitVec.ofNat 6 q)
  let gatedHere := (List.range 64).filter h.gated.getLsbD
  let w := fun (q : Nat) => p.weights.getD q 0
  let others := (s.jobs.filter fun e => e.2.no != no).filterMap fun e => e.2.plate
  firstBad [
    must (ws.isEmpty || ws.length == 8 * ports.length) (bad hw),
    mustAll 64 (fun q => !s.hasPort (BitVec.ofNat 6 q) || (weightOf (w q) 0 != 0 && weightOf (w q) 1 != 0 && weightOf (w q) 4 != 0 && (w q).toNat / 2 ^ 40 == 0))
      (fun q => { bad hw with port := q }),
    mustAll 64 (fun q => !s.hasPort (BitVec.ofNat 6 q) || decide (2 * weightOf (w q) 0 ≤ weightSum (w q))) (fun q => ⟨Code.hatchRejected, hw, 0xFFFFFFFF, q⟩),
    must (others.all fun q => q.weights == p.weights) ⟨Code.hatchConflict, hw, 0xFFFFFFFF, 0xFF⟩,
    if n = 0 then must (zeroAt 0 4 bs && zeroAt 4 8 bs && zeroAt 0xC 0x34 bs) (rej 0xFFFFFFFF 0xFF)
    else firstBad [
      must (fieldAt 0 4 bs < 4096 && zeroAt 0xC 0x34 bs && decide (h.phase < h.cycle) && h.cycle == h.entries.foldl (fun a e => a + e.duration) 0
        && bs.length == 0x40 + 8 * n + 4096) (rej 0xFFFFFFFF 0xFF),
      mustAll n (fun i => match h.entries[i]? with
        | some e => decide (0 < e.duration) && bitsOf (fieldAt 0 8 (entryAt 0x40 8 i bs)) 29 3 == 0 && e.gates.getLsbD 1 && e.gates.getLsbD 4
            && (e.gates.getLsbD 0 || e.budget == 0)
        | none => true) (fun i => rej i 0xFF),
      (gatedHere.find? fun q => !s.hasPort (BitVec.ofNat 6 q) || s.role (BitVec.ofNat 6 q) == 0#4).map (fun q => rej 0xFFFFFFFF q),
      gatedHere.findSome? fun q => mustAll n (fun i => match h.entries[i]? with
        | some e => decide (e.budget * 128000 * weightSum (w q) ≤ 125000 * weightOf (w q) 0 * e.duration * 256 + 12288000 * weightSum (w q))
        | none => true) (fun i => rej i q),
      (gatedHere.find? fun q => others.any fun x => !x.hatch.entries.isEmpty && x.hatch.gated.getLsbD q).map (fun q => ⟨Code.hatchConflict, hs, 0xFFFFFFFF, q⟩),
      must ((others.filter fun x => !x.hatch.entries.isEmpty).length < 8) ⟨Code.hatchConflict, hs, 0xFFFFFFFF, 0xFF⟩]]

/-- May a range of n bytes be an outcome record: a multiple of 64 in SRAM of an enabled cluster, or in a stack below the
reserve, outside every code region (R286). -/
def State.outcomeOk (p : Plate) (a : DWord) (s : State) : Bool :=
  a.toNat % 64 == 0 && inSpace a 544 && !s.absentAt a && !inReserve a 544 && !s.inCode a.toNat 544
    && !(p.codeRegions.any fun r => meets a.toNat 544 r.1 r.2)

/-- The module ranks of a mask. -/
def Plate.moduleRanks (mask : List Nat) (p : Plate) : List Nat := mask.filter fun r => match p.ranks[r]? with | some e => e.kind == 2#2 | none => false

/-- Is a rank that of the module which the plate is for. -/
def Plate.isOwn (r : Nat) (p : Plate) : Bool := match p.ranks[r]? with | some e => e.kind == 2#2 && e.module == p.module | none => false

/-- The barrier definitions (R253, R271, R286). done_counter is asked of the loading module where it is a participant; the counter tables of
other modules are not here to be seen. -/
def State.checkBarriers (no : JobNo) (p : Plate) (l : List Section) (s : State) : Option Bad :=
  let bs := secBytes 6 l
  let n := p.barriers.length
  let b := secNo 6 l
  let masks := fieldAt 4 4 bs
  let mo := fieldAt 8 4 bs
  let slots := p.barriers.map fun x => x.slot
  let others := (s.jobs.filter fun e => e.2.no != no).filterMap fun e => e.2.plate
  if (secOf 6 l).isNone then none
  else firstBad [
    must (decide (n ≤ 64) && mo % 128 == 0 && decide (0x40 + 32 * n ≤ mo) && decide (mo + 512 * masks ≤ bs.length) && slots.eraseDups.length == n) (bad b),
    mustAll n (fun i => match p.barriers[i]? with
      | some x =>
        let e := entryAt 0x40 32 i bs
        let v := fieldAt 0 4 e
        bitsOf v 6 2 == 0 && bitsOf v 10 6 == 0 && bitsOf v 24 8 == 0 && x.kind != 3#2 && decide (0 < x.local_) && bitsOf (fieldAt 4 2 e) 12 4 == 0
          && decide (fieldAt 8 4 e < masks) && (x.kind == 0#2 || decide (0 < x.deadline)) && zeroAt 0x18 8 e
          && (p.moduleRanks x.mask).head? == some x.root && (x.mask.all fun r => p.usedRank r)
          && s.outcomeOk p x.outcome && (!(x.mask.any fun r => p.isOwn r) || p.counters.any fun c => c.name == x.done)
      | none => true) (fun i => { bad b with entry := i }),
    mustAll n (fun i => match p.barriers[i]? with
      | some x => others.all fun q => q.barriers.all fun y => y.slot != x.slot
      | none => true) (fun i => ⟨Code.plateBarrierConflict, b, i, 0xFF⟩)]

/-- The start gate of the descriptor that a stream entry names, where the plate holds it (R403). -/
def Plate.descGate (a : DWord) (p : Plate) : Option Nat :=
  (p.images.find? fun i => inside a.toNat 128 i.dest.toNat i.bytes.length).map fun i =>
    Desc.startGate (Desc.ofBytes ((i.bytes.drop (a.toNat - i.dest.toNat)).take 128))

/-- The descriptors of a descriptor area: what stands every 128 bytes in it with an operation code and the plate's job (R403; log entry
109). -/
def areaDescs (no : JobNo) (bs : List Byte) : List Desc :=
  ((List.range (bs.length / 128)).map fun i => Desc.ofBytes ((bs.drop (128 * i)).take 128)).filter fun d => decide (1 ≤ d.op ∧ d.op ≤ 7) && d.job == no

/-- The schedule (R249, R403). -/
def State.checkSched (p : Plate) (l : List Section) (s : State) : Option Bad :=
  let bs := secBytes 8 l
  let gate := fun (g : Nat) => g == 0xFFF || decide (g < p.hatch.entries.length)
  firstBad [
    must (bs.length % 24 == 0 && decide (p.sched.length ≤ 65536)) (bad (secNo 8 l)),
    mustAll p.sched.length (fun i => match p.sched[i]? with
      | some e =>
        let v := fieldAt 0 4 (entryAt 0 24 i bs)
        (e.kind == 1#2 || e.kind == 2#2) && bitsOf v 2 6 == 0 && zeroAt 6 2 (entryAt 0 24 i bs) && decide (e.mapping.toNat < 4)
          && (if e.kind = 1 then s.hasCluster e.target else decide (e.target.toNat < 64) && s.hasPort (e.target.setWidth 6))
          && gate e.startGate.toNat && (e.kind != 2#2 || gate ((p.descGate e.address).getD 0xFFF))
      | none => true) (fun i => { bad (secNo 8 l) with entry := i }),
    (l.find? fun x => x.type == 0x13 && !x.isShards && (areaDescs p.job x.bytes).any fun d => !gate d.startGate).map fun x => bad x.no]

/-- The counter table (R270, R271). -/
def State.checkCounters (no : JobNo) (p : Plate) (l : List Section) (s : State) : Option Bad :=
  let bs := secBytes 9 l
  let names := p.counters.map fun c => c.name
  let others := (s.jobs.filter fun e => e.2.no != no).filterMap fun e => e.2.plate
  firstBad [
    must (bs.length % 8 == 0) (bad (secNo 9 l)),
    mustAll names.length (fun i => match p.counters[i]? with
      | some c => c.cause.toNat ≤ 7 && bitsOf (fieldAt 0 8 (entryAt 0 8 i bs)) 24 8 == 0 && bitsOf (fieldAt 0 8 (entryAt 0 8 i bs)) 16 4 == 0
          && !(names.take i).contains c.name
      | none => true) (fun i => { bad (secNo 9 l) with entry := i }),
    mustAll names.length (fun i => others.all fun q => q.counters.all fun y => some y.name != names[i]?) (fun i => ⟨Code.plateCounterConflict, secNo 9 l, i, 0xFF⟩)]

/-- The DRAM pool of a stack as a range of module addresses. -/
def poolRange (k : Nat) (p : Plate) : Nat × Nat := let r := p.pools.getD k (0, 0); (dramAddr k r.1, r.2 - r.1)

/-- The pools and quotas (R299, R300). -/
def State.checkPools (no : JobNo) (p : Plate) (l : List Section) (s : State) : Option Bad :=
  let b := secNo 0xA l
  let others := (s.jobs.filter fun e => e.2.no != no).filterMap fun e => e.2.plate
  let apart := fun (r : Nat × Nat) =>
    !((p :: others).any fun q => (q.codeRegions ++ (q.windows.map fun w => (w.base.toNat, w.size)) ++ (q.mirror.map fun m => (m.base.toNat, m.length))).any
        fun x => meets r.1 r.2 x.1 x.2)
      && !s.inCode r.1 r.2
  let quota := fun (u : Nat) => (p.quotas.getD u 0).toNat
  if (secOf 0xA l).isNone then none
  else firstBad [
    must ((secBytes 0xA l).length == 3104) (bad b),
    mustAll 32 (fun k => let r := p.pools.getD k (0, 0)
      r.1 % 1048576 == 0 && decide (r.1 ≤ r.2) && (r.2 - r.1) % 1048576 == 0 && decide (r.2 ≤ reserveBase)
        && (r.1 == r.2 || (apart (poolRange k p) && others.all fun q => !meets (poolRange k p).1 (poolRange k p).2 (poolRange k q).1 (poolRange k q).2)))
      (fun k => { bad b with entry := k }),
    mustAll 324 (fun u => bitsOf (quota u) 10 2 == 0 && quota u < 2 ^ 32 && (s.hasOwner u || quota u == 0) && decide (bitsOf (quota u) 0 10 ≤ 512)
        && (256 ≤ u || decide (bitsOf (quota u) 0 10 ≤ (0x800000 - p.poolBases.getD u 0x800000) / 16384))) (fun u => { bad b with entry := u }),
    mustAll 4 (fun d =>
      let have_ := (List.range 8).foldl (fun n i => n + (poolRange (8 * d + i) p).2 / 1048576) 0
      let want := ((List.range 324).filter fun u => (ownerDie u).toNat == d).foldl (fun n u => n + bitsOf (quota u) 12 20) 0
      decide (want ≤ have_)) (fun _ => bad b)]

/-- The share list (R303). -/
def State.checkShares (p : Plate) (l : List Section) (s : State) : Option Bad :=
  let b := secNo 0xB l
  let n := p.shares.length
  let rel := fun (e : ShareEntry) => e.owners.getLast?.getD 0
  let quota := fun (u : Nat) (d : Bool) => bitsOf (p.quotas.getD u 0).toNat (if d then 12 else 0) (if d then 20 else 10)
  if (secOf 0xB l).isNone then none
  else mustAll n (fun i => match p.shares[i]? with
    | some e =>
      (match granuleAt e.address, DWord.loc e.address with
        | some g, .sram c o => !e.dram && decide (p.poolBases.getD c.toNat 0x800000 ≤ o) && e.owners.contains c.toNat && g.dram == e.dram
        | some g, .dram k _ => e.dram && g.dram && inside e.address.toNat 1048576 (poolRange k.toNat p).1 (poolRange k.toNat p).2
            && (ownerDie (rel e)).toNat == k.toNat / 8
        | _, _ => false)
      && decide (2 ≤ e.owners.length) && decide (e.owners.length ≤ 4) && e.owners.eraseDups.length == e.owners.length && e.owners.all (fun u => s.hasOwner u)
      && !((p.shares.take i).any fun y => y.address == e.address)
      && decide ((p.shares.filter fun y => rel y == rel e && y.dram == e.dram).length ≤ quota (rel e) e.dram)
    | none => true) (fun i => { bad b with entry := i })

/-- The windows (R417, R418). -/
def State.checkWindows (no : JobNo) (p : Plate) (l : List Section) (s : State) : Option Bad :=
  let b := secNo 0xC l
  let n := p.windows.length
  let bs := secBytes 0xC l
  let others := (s.jobs.filter fun e => e.2.no != no).filterMap fun e => e.2.plate
  firstBad [
    must (bs.length % 16 == 0 && (secBytes 0xD l).length == 4 * n) (bad b),
    mustAll n (fun i => match p.windows[i]? with
      | some w => w.job == no && bitsOf (fieldAt 0 2 (entryAt 0 16 i bs)) 12 4 == 0 && fieldAt 4 4 (entryAt 0 16 i bs) < 8 && w.base.toNat % 128 == 0
          && w.size % 128 == 0 && decide (128 ≤ w.size) && (match DWord.loc w.base with | .dram _ _ => true | _ => false) && inSpace w.base w.size
          && !inReserve w.base w.size && !s.inCode w.base.toNat w.size && !(p.codeRegions.any fun r => meets w.base.toNat w.size r.1 r.2)
          && !((p.windows.take i).any fun y => y.number == w.number)
      | none => true) (fun i => { bad b with entry := i }),
    mustAll n (fun i => match p.windows[i]? with
      | some w => others.all fun q => q.windows.all fun y => y.number != w.number
      | none => true) (fun i => ⟨Code.plateWindowConflict, b, i, 0xFF⟩)]

/-- The stacks of the owner regions in which this module holds a shard: region k has stack k (R4, R23, R447). -/
def Plate.shardStacks (shard : Word) (p : Plate) : List Nat :=
  p.mappings.flatMap fun m => (m.shards.filter fun (e : ShardEntry) => e.shard == shard && p.isOwn e.owner).map fun (e : ShardEntry) => e.region.toNat

/-- Does a shard's data lie in the stack of its owner region, under every mapping by which this module owns it (R447). -/
def Plate.inOwnStack (shard : Word) (a : DWord) (p : Plate) : Bool :=
  match DWord.loc a with
  | .dram k _ => (p.shardStacks shard).all fun r => r == k.toNat
  | _ => false

/-- The mirror table (R447, R508). -/
def checkMirror (p : Plate) (l : List Section) : Option Bad :=
  let b := secNo 0x14 l
  let bs := secBytes 0x14 l
  firstBad [
    must (bs.length % 32 == 0) (bad b),
    mustAll p.mirror.length (fun i => match p.mirror[i]? with
      | some m =>
        let e := entryAt 0 32 i bs
        (bitsOf (fieldAt 0 4 e) 0 2 == 1 || bitsOf (fieldAt 0 4 e) 0 2 == 2) && bitsOf (fieldAt 0 4 e) 2 14 == 0 && zeroAt 0x16 2 e && zeroAt 0x18 8 e
          && m.base.toNat % 128 == 0 && m.length % 128 == 0 && (match DWord.loc m.base with | .dram _ _ => true | _ => false)
          && inSpace m.base m.length && !inReserve m.base m.length && (m.hold || p.inOwnStack m.shard m.base)
          && !((p.mirror.take i).any fun y => meets m.base.toNat m.length y.base.toNat y.length)
          && !(p.windows.any fun w => meets m.base.toNat m.length w.base.toNat w.size)
          && (p.counters.any fun c => c.name == m.sealed)
      | none => true) (fun i => { bad b with entry := i })]

/-- Do the areas of a shard record keep the table: reserved bits 0, and none in use but that of the current state, which is valid where the
shard is installed at job start, and free or filling where it comes with a mapping switch (R306). -/
def areasOk (start : Bool) (r : Shard) (e : List Byte) : Bool :=
  zeroAt 0x1C 4 e && bitsOf (fieldAt 8 4 e) 19 5 == 0 && bitsOf (fieldAt 8 4 e) 30 2 == 0 &&
    (List.range 4).all fun a =>
      let flags := fieldAt (0x24 + 16 * a) 4 e
      zeroAt (0x2C + 16 * a) 4 e &&
        if a = r.st.toNat % max 1 r.hold then
          (flags == 1 || (!start && (flags == 0 || flags == 4))) && (flags == 0 || fieldAt (0x20 + 16 * a) 4 e == r.st.toNat)
        else flags == 0

/-- Is a shard installed at job start: the plate's module owns it under mapping 0 (R306). -/
def Plate.startShard (shard : Word) (p : Plate) : Bool :=
  match p.mappings.head? with
  | some m => m.shards.any fun (e : ShardEntry) => e.shard == shard && p.isOwn e.owner
  | none => false

/-- The shard records (R306, R447). -/
def checkShards (p : Plate) (l : List Section) : Option Bad :=
  let b := ((l.find? Section.isShards).map (·.no)).getD l.length
  let bs := (l.filter Section.isShards).flatMap fun x => x.bytes
  mustAll p.shardRecs.length (fun i => match p.shardRecs[i]? with
    | some r =>
      (p.barriers.any fun x => x.slot == r.relSlot && x.kind == 2#2) && (p.counters.any fun c => c.name == r.advance)
        && (p.counters.any fun c => c.name == r.release && c.initial.toNat + 1 == r.hold) && decide (2 ≤ r.hold) && decide (r.hold ≤ 4)
        && decide (0 < r.areaSize) && r.areaSize % 1048576 == 0 && (match DWord.loc r.wireBase with | .dram _ _ => true | _ => false)
        && inSpace r.wireBase (r.hold * r.areaSize) && !inReserve r.wireBase (r.hold * r.areaSize) && r.job == p.job
        && areasOk (p.startShard r.shard) r (entryAt 0 96 i bs) && p.inOwnStack r.shard r.wireBase
    | none => true) (fun i => { bad b with entry := i })

/-- The placed sections: code in a stack of its cluster's die, at most 64 MiB; SRAM images in SRAM; DRAM images in DRAM; none
in absent SRAM or in the reserve (R8, R156, R446, R464). -/
def State.checkImages (l : List Section) (s : State) : Option Bad :=
  ((l.filter fun x => 0x10 ≤ x.type ∧ x.type ≤ 0x13 ∧ !x.isShards).find? fun x =>
    let n := x.bytes.length
    !(inSpace x.dest n && !s.absentAt x.dest && !inReserve x.dest n && (match DWord.loc x.dest with
      | .sram _ _ => x.type == 0x11 || x.type == 0x13
      | .dram k _ => x.type != 0x11 && (x.type != 0x10 || (decide (x.index < 256) && s.hasCluster (BitVec.ofNat 8 x.index)
          && decide (k.toNat / 8 = x.index / 64) && decide (n ≤ 67108864)))
      | .bad => false))).map fun x => bad x.no

/-- The code of a cluster: its sections together hold at most 64 MiB, and what it names is in use (R67, R245). -/
def checkCodeSections (p : Plate) (l : List Section) : Option Bad :=
  let code := l.filter fun x => x.type == 0x10
  firstBad [
    (code.find? fun x => decide (67108864 < (code.filter fun y => y.index == x.index).foldl (fun n y => n + y.bytes.length) 0)).map fun x => bad x.no,
    (code.find? fun x => p.sched.any fun e => e.kind == 1#2 && e.target.toNat == x.index && codeNamesBadUse x.bytes e.address.toNat).map fun x => bad x.no]

/-- The format of the stipple descriptor that a plate places at an address of a cluster's SRAM. -/
def Plate.stippleFmt (c : ClusterId) (a : Nat) (p : Plate) : Option Nat :=
  (p.images.find? fun i => inside (sramAddr c a) 32 i.dest.toNat i.bytes.length).map fun i =>
    (StippleDesc.ofBytes ((i.bytes.drop (sramAddr c a - i.dest.toNat)).take 32)).fmt

/-- Does a tile descriptor read as one in every respect but its pair of formats: reserved bits 0, formats that exist, rows long enough for
its groups, a C tile in its place (R183, R187; log entry 109). -/
def TileDesc.reads (d : TileDesc) : Bool :=
  !d.reserved && (d.stipple || (Fmt.ofCode d.a.fmt).isSome) && (Fmt.ofCode d.b.fmt).isSome && d.cAddr % 64 == 0
    && (d.stipple || decide (d.groups ≤ d.a.rowblk)) && decide (d.groups ≤ d.b.rowblk)

/-- The tile descriptors of a plate name accepted pairs: those that its SRAM images and its descriptor areas hold at multiples of 64 (R76,
R100; log entry 109). -/
def checkTiles (p : Plate) (l : List Section) : Option Bad :=
  (l.find? fun x => (x.type == 0x11 || (x.type == 0x13 && !x.isShards)) &&
    let skip := (64 - x.dest.toNat % 64) % 64
    let fmt := fun (a : Nat) => match DWord.loc x.dest with | .sram c _ => p.stippleFmt c a | _ => none
    (List.range ((x.bytes.length - skip) / 64)).any fun i =>
      let d := TileDesc.ofBytes ((x.bytes.drop (skip + 64 * i)).take 64)
      d.reads && !d.accepted fmt).map fun x => bad x.no

/-- All checks of the last part (R465; log entry 40). -/
def State.checkPlate (no : JobNo) (p : Plate) (parts : List (List Byte)) (l : List Section) (s : State) : Option Bad :=
  firstBad [
    checkShape parts l, must (p.job == no) (bad (secNo 1 l)), must (parts.all fun q => fieldAt 0xA 2 q == p.module.toNat) (bad (secNo 2 l)), s.checkHeaders p l,
    s.checkRanks p l, s.checkMappings no p l, s.checkHatch no p l, s.checkImages l, checkCodeSections p l, checkTiles p l,
    s.checkBarriers no p l, s.checkSched p l, s.checkCounters no p l, s.checkPools no p l, s.checkShares p l, s.checkWindows no p l, checkMirror p l, checkShards p l]

/-! ## What a load and an unload change -/

/-- The gates and the entry that a port applies now (R401). -/
def Hatch.applyNow (no : JobNo) (now : Nat) (h : Hatch) (e : Egress) : Egress :=
  match h.current now with
  | some i => { e with gates := (match h.entries[i]? with | some x => x.gates | none => 0x1F), entry := BitVec.ofNat 12 i, gatedBy := no }
  | none => { e with gates := 0x1F, entry := 0xFFF, gatedBy := no }

/-- The ports take the weights of the loaded plates, the default ones where none is loaded (R398). -/
def State.weighPorts (s : State) : State :=
  let s := allPorts.foldl (fun s n =>
    if s.hasPort n then
      let w := match s.plates.head? with | some p => p.weights.getD n.toNat Egress.reset.weights | none => Egress.reset.weights
      if (s.port n).egress.weights = w then s
      else (s.modPort n fun x => { x with egress := { x.egress.fillB0 s.time with weights := w, b0Rem := 0 } }).rates n
    else s) s
  s

/-- The lowest hatch slot that holds no list. -/
def State.freeHatch (s : State) : Nat := ((List.range 8).find? fun k => Table.get 0 k s.hatchJobs == 0).getD 0

/-- Write the code, the DRAM images and the descriptor areas of a plate into memory (R464); answers the first word that holds a part of an
image and cannot be read (R438). -/
def State.placeImages (no : JobNo) (p : Plate) (s : State) : Option ReadFail × State :=
  (p.images.filter fun i => i.type != 0x11).foldl (fun acc (i : Image) =>
    let r := acc.2.storeBy (cpReq i.dest.toNat) no i.dest.toNat i.bytes
    (acc.1.orElse fun _ => r.1, r.2)) (none, s)

/-- A plate whose images stand in memory is loaded: the weights and gates act on the ports; caches are invalidated (R159, R404, R464). -/
def State.placePlate (no : JobNo) (p : Plate) (s : State) : State :=
  let s : State := { s with clusters := s.clusters.map fun (e : Nat × Cluster) => (e.1, e.2.forgetCode) }
  let s := s.modJob no fun j => { j with
    st := .loaded, plate := some p, parts := [], partsN := 0, mode := p.mode, mapping := 0, modePend := [], mapPend := none, mapNext := none, mapOn := none, mapAt := none, ended := false, cmdLog := [], logFrom := 0 }
  let s := if p.hatch.entries.isEmpty then s else { s with hatchJobs := Table.set 0 s.freeHatch no.toNat s.hatchJobs }
  let s := if p.hatch.entries.isEmpty then s else
    allPorts.foldl (fun s n => if p.hatch.gated.getLsbD n.toNat then s.modPort n fun x => { x with egress := p.hatch.applyNow no s.time x.egress } else s) s
  s.weighPorts

/-- Discard a plate: its list leaves the ports, its slot becomes empty, the job returns to NONE (R404, R459). -/
def State.discardPlate (no : JobNo) (s : State) : State :=
  let s : State := { s with hatchJobs := s.hatchJobs.filter fun (e : Nat × Nat) => e.2 != no.toNat }
  let s := allPorts.foldl (fun s n => if (s.port n).egress.gatedBy = no then
    s.modPort n fun x => { x with egress := { x.egress with gates := 0x1F, entry := 0xFFF, gatedBy := 0 } } else s) s
  let s := match s.jobSlot no with
    | some k => { s with jobs := Table.set Job.reset k Job.reset s.jobs }
    | none => s
  s.weighPorts

/-- The lowest of the 8 job slots that is empty. -/
def State.freeJobSlot (s : State) : Option Nat := (List.range 8).find? fun k => (Table.get Job.reset k s.jobs).no == 0

/-- A part of the staging area: the bytes that its header counts (R464). -/
def State.stagedPart (s : State) : List Byte :=
  Memory.readN 0 (min 4000000000 (leNat (Memory.readN 0x10 8 s.staging))) s.staging

/-- A refusal of a plate (R465). -/
def Bad.reply (b : Bad) : Reply := ⟨b.status, 0, [w32 b.sec, w32 b.entry, w32 b.port]⟩

/-- PLATE_LOAD (R465): the part is copied; the last part is checked and placed. Any refusal discards the plate. -/
def State.plateLoad (m : Msg) (s : State) : Effect :=
  let no := m.job
  let part := Msg.argN 0 m % 256
  let parts := Msg.argN 0 m / 256 % 256
  let j := s.job no
  if j.st ≠ .none ∧ j.st ≠ .loading then s.replies j.wrong
  else if part = 0 ∧ j.st = .none ∧ (s.freeJobSlot.isNone ∨ (1 < parts ∧ s.jobs.any fun e => e.2.st == .loading)) then s.replies j.wrong
  else
    let bs := s.stagedPart
    let module := BitVec.ofNat 9 (fieldAt 0xA 2 bs)
    let inOrder := part == j.parts.length && decide (part < parts) && (part == 0 || j.partsN == parts) && fieldAt 5 1 bs == part && fieldAt 6 1 bs == parts
      && fieldAt 8 2 bs == no.toNat && (module == s.ownModule || some module == s.partner)
    let s := match j.st, s.freeJobSlot with
      | .none, some k => { s with jobs := Table.set Job.reset k { Job.reset with no := no, st := .loading, partsN := parts } s.jobs }
      | _, _ => s
    if !inOrder then (s.discardPlate no).replies (Reply.fail Code.platePartOrder)
    else
      let s := s.modJob no fun j => { j with parts := j.parts ++ [bs] }
      if part + 1 < parts then s.replies Reply.ok
      else
        let all := (s.job no).parts
        let l := allSections 0 all
        let p := parsePlate all l
        match s.checkPlate no p all l with
        | some b => (s.discardPlate no).replies b.reply
        | none =>
          let r := s.placeImages no p
          match r.1 with
          | some f => (r.2.discardPlate no).replies (Reply.failD f.code ((dramDie (BitVec.ofNat 64 f.word)).setWidth 8))
          | none => (r.2.placePlate no p).replies Reply.ok

/-- PLATE_UNLOAD (R459). -/
def State.plateUnload (m : Msg) (s : State) : Effect := (s.discardPlate m.job).replies Reply.ok

/-- STAGE_WRITE (R464). -/
def State.stageWrite (m : Msg) (s : State) : Effect :=
  let o := (Msg.arg64 0 m).toNat
  if o % 128 ≠ 0 ∨ 4000000000 < o + m.data.length then s.replies badArg
  else { s with staging := Memory.writeN o m.data s.staging }.replies Reply.ok

end Sys2Proof.Machine
end

