-- ==== Sys2Proof/Machine/Jobs.lean ====
section
/-! DEFINITION. Jobs: the digests of a start, the start itself, the steps and impressions of the schedule, the ledger, the end of
a job, and the commands that steer a job (05 R118, R124; 09 R245 to R265; 10 R272; 12 R314 to R323; 15 R400 to R403; 18
R459, R466, R467; 21 R508, R524). -/

namespace Sys2Proof.Machine

/-! ## The start of a job (R149, R246, R272, R306, R323, R466) -/

/-- The modules whose digests a start awaits: those of the other module ranks, and in proof mode the partner; a twin awaits its
partner alone (R246, R323; log entry 41). -/
def State.startPeers (no : JobNo) (s : State) : List Nat :=
  let j := s.job no
  let own := s.ownModule.toNat
  let mods := match j.plate with
    | some p => ((p.ranks.filter fun (e : RankEntry) => e.kind == 2#2).map fun (e : RankEntry) => e.module.toNat).filter (· != own)
    | none => []
  let pair := match s.partner with | some m => [m.toNat] | none => []
  if j.proofRole = 2 then pair
  else if j.proofRole = 1 then mods ++ pair.filter fun m => !mods.contains m
  else mods

/-- The digest that the two modules of a pair compare before a start in proof mode: that of the whole plate, which is byte-identical on
both (R323; log entry 41). -/
def Plate.pairDigest (p : Plate) : BitVec 256 := digest32 p.bytes

/-- The digest that a job awaits from a module: that of the whole plate from the partner in proof mode, else the common digest (R246,
R323). -/
def State.wantDigest (no : JobNo) (p : Plate) (m : Nat) (s : State) : BitVec 256 :=
  if (s.job no).proofRole ≠ 0 ∧ s.partner = some (BitVec.ofNat 9 m) then p.pairDigest else p.digest

/-- The C1 frame that carries a digest (R246; log entry 41). -/
def digestFrame (no : JobNo) (digest : BitVec 256) (m : Nat) : Frame :=
  { Frame.blank with
    kind := 8, cls := 1, plen := 1, job := no, ident := 10, payload := leBytes 32 digest.toNat
    dstModule := BitVec.ofNat 9 m, dstPort := 0x3F }

/-- Send a digest to the partner in proof mode (R323; log entry 41). -/
def State.tellPartner (no : JobNo) (d : BitVec 256) (s : State) : State :=
  match s.partner with
  | some m => if (s.job no).proofRole = 0 then s else s.send (digestFrame no d m.toNat)
  | none => s

/-- Once in a start, this module of a pair in proof mode says that it is ready (R323; log entry 41). The entry of its own number among the
digests keeps that it has. -/
def State.commitStart (no : JobNo) (p : Plate) (s : State) : State :=
  let own := s.ownModule.toNat
  if (s.job no).digests.any fun e => e.1 == own then s
  else (s.tellPartner no p.pairDigest).modJob no fun j => { j with digests := (own, p.pairDigest) :: j.digests }

/-- The job leaves STARTING for LOADED, and its JOB_START is answered; in proof mode the partner does not start either: it receives a
digest that does not match (R323, R459, R466). -/
def State.refuseStart (no : JobNo) (code : BitVec 16) (s : State) : State :=
  match (s.job no).startMsg with
  | some m =>
    let s := match s.plate no with | some p => s.tellPartner no (~~~ p.pairDigest) | none => s
    (s.modJob no fun j => { j with st := .loaded, startMsg := none, cleared := false, digests := [] }).answerMsg 0x0030 16 m (Reply.fail code)
  | none => s

/-- The state number at which a hold range begins: that of the plate's own record of the shard; the spec gives no other
source (R508; log entry 42). A range that a resync has sealed here keeps the number of its SEAL (R516). -/
def State.holdStart (no : JobNo) (p : Plate) (m : MirrorEntry) (s : State) : Word × State :=
  match s.pair.holds.find? fun (h : HoldRange) => h.job == no && h.shard == m.shard, p.shardRecs.find? fun (r : Shard) => r.shard == m.shard with
  | some h, _ => (h.st, s)
  | none, some r => (r.st, s)
  | none, none => ((s.free).1.setWidth 32, (s.free).2)

/-- The barrier slots of a job begin anew when its start is accepted: arrivals of ranks that start earlier are kept (R288). -/
def State.resetBars (no : JobNo) (p : Plate) (s : State) : State :=
  p.barriers.foldl (fun (s : State) (b : BarDef) => s.modBar b.slot.toNat fun _ => { Bar.reset with job := no }) s

/-- Everything that a start installs from the plate: counters, shard records of mapping 0, pools, windows, hold ranges, pool bases; the
instruction caches are invalid (R148, R159, R272, R300, R303, R306, R417, R508). -/
def State.installJob (no : JobNo) (p : Plate) (s : State) : State :=
  let s := p.counters.foldl (fun (s : State) (c : CounterEntry) =>
    s.modCounter c.name fun _ => { Counter.reset with job := no, cause := c.cause, value := c.initial }) s
  let mine := s.ownedIn no 0
  let s := (s.jobClusters no).foldl (fun s c => s.modClu c fun k => { k.forgetCode with poolBase := p.poolBases.getD c.toNat 0x800000 }) s
  let s := s.fillRings no
  let s := (p.shardRecs.filter fun (r : Shard) => mine.contains r.shard).foldl (fun (s : State) (r : Shard) => s.install r.st false { r with job := no }) s
  let s : State := { s with windows := s.windows ++ p.windows.map fun (w : Window) => { w with job := no } }
  (p.mirror.filter fun (m : MirrorEntry) => m.hold).foldl (fun (s : State) (m : MirrorEntry) =>
    let r := s.holdStart no p m
    r.2.modPair fun x => { x with holds := (x.holds.filter fun (h : HoldRange) => !(h.job == no && h.shard == m.shard)) ++ [⟨no, m.shard, m.base, m.length, r.1, [], []⟩] }) s

/-- Nothing of an earlier run of a job is left in the engines and signature lists. -/
def State.forgetRun (no : JobNo) (s : State) : State :=
  { s with
    engines := s.engines.map fun (e : Nat × Engine) => (e.1, { e.2 with
      heldSets := e.2.heldSets.filter fun h => h.job != no
      staged := e.2.staged.filter fun h => h.job != no
      statsW := Table.set 0 no.toNat 0 e.2.statsW })
    dies := s.dies.map fun (e : Nat × DieState) => (e.1, { e.2 with
      sigOwn := e.2.sigOwn.filter fun h => h.job != no
      sigPartner := e.2.sigPartner.filter fun (h : SigHeld) => !(e.2.sigOwn.any fun (o : SigHeld) => o.job == no && o.e.key == h.e.key)
      pst := e.2.pst.filter fun h => h.job != no
      reports := e.2.reports.filter fun h => h.job != no
      statRings := (e.2.statRings.map fun (r : Nat × List (Nat × Nat)) => (r.1, r.2.filter fun (x : Nat × Nat) => x.1 != no.toNat)).filter fun (r : Nat × List (Nat × Nat)) => !r.2.isEmpty })
    armed := s.armed.filter fun i => i.job != no }

/-- The run record, the logs and the schedule of a run begin anew; commands that were accepted since the last run belong to it
(R269, R314, R315, R317, R321, R322, R466). -/
def Job.freshRun (now units : Nat) (mode : BitVec 4) (j : Job) : Job :=
  { Job.reset with
    no := j.no, st := .running, plate := j.plate, mode := mode, modePend := j.modePend
    mapPend := j.plate.bind fun p => p.nextSwitch 0 0, cmdLog := j.cmdLog.drop j.logFrom
    mapSince := now, mapStep := (j.plate.bind fun p => ((p.sched.filter fun (e : SchedEntry) => e.mapping == 0#4).map fun (e : SchedEntry) => e.first).min?).getD 0
    startTime := now, startAt := j.startAt, startBegan := j.startBegan, cleared := true, digests := j.digests
    proofRole := j.proofRole, ranRole := j.proofRole, unitsN := units }

/-- Job start: the module is set up, the meter hears of it, and JOB_START returns the network time (R466, R498). -/
def State.beginJob (no : JobNo) (s : State) : State :=
  match s.plate no, (s.job no).startMsg with
  | some p, some m =>
    let s := s.forgetRun no
    let s := s.modJob no fun j => Job.freshRun s.time ((s.jobClusters no).length + (s.jobEngines no).length) p.mode j
    let s := s.installJob no p
    let s := s.meterMarker true false no
    let s := s.barsOpen no
    s.answerMsg 0x0030 16 m ⟨Code.ok, 0, words64 (BitVec.ofNat 64 s.time)⟩
  | _, _ => s

/-- The checks of a starting job go on: a digest that differs refuses the start; with every digest here and the clearing done
the job starts, waits for start_at, or is refused because start_at has passed (R246, R466). In proof mode the twin says when it is ready,
and the primary says so once everything else is met, so that neither starts without the other: a twin that has said so does not refuse
because start_at has passed (R323; log entry 41). A job that uses a die in reset is refused for that die (R458; log entry 112). -/
def State.startCheck (no : JobNo) (s : State) : State :=
  let j := s.job no
  let peers := s.startPeers no
  match j.plate with
  | some p =>
    if j.st ≠ .starting then s
    else if j.digests.any fun e => peers.contains e.1 && e.2 != s.wantDigest no p e.1 then s.refuseStart no Code.plateCommonMismatch
    else if !j.cleared then s
    else
      let ready := j.digests.any fun e => e.1 == s.ownModule.toNat
      let late := decide (j.startAt ≠ 0 ∧ j.startAt < s.time) && !(ready && j.proofRole == 2#2)
      let here := peers.all fun m => j.digests.any fun e => e.1 == m
      if late && (here || j.proofRole == 2#2) then s.refuseStart no Code.stepPassed
      else
        let s := if j.proofRole = 2 then s.commitStart no p else s
        if !here then s
        else
          let s := s.commitStart no p
          if j.startAt ≤ s.time then s.beginJob no else s
  | none => s

/-- JOB_START (R246, R323, R466, R484, R508, R518). A plate for another module starts as a twin alone (log entry 41). Whether the
partner's mirror table matches is open here: a free value decides (log entry 63). -/
def State.jobStart (m : Msg) (s : State) : Effect :=
  let no := m.job
  let role := BitVec.ofNat 2 (Msg.argN 0 m)
  match s.plate no with
  | none => s.replies (s.job no).wrong
  | some p =>
    s.unless (firstReply [
      need (s.margin.timeSt != .free) (Reply.fail Code.timeInvalid),
      need (s.pair.st != .fenced) (Reply.fail Code.fenced),
      need (Msg.argN 0 m < 3 && (role == 2#2) == (p.module != s.ownModule)) badArg,
      need (p.mirror.isEmpty || s.pair.st == .paired) (Reply.fail Code.pairNotReady),
      need (role == 0#2 || s.partner.isSome) (Reply.fail Code.pairNotReady),
      (allDies.find? fun d => (s.die d).inReset && s.usesDie no d).map fun d => Reply.failD Code.cmdLost (d.setWidth 8)]) fun s =>
      let f : DWord × State := if p.mirror.isEmpty then (0, s) else s.free
      if f.1.getLsbD 0 then f.2.replies (Reply.fail Code.pairTableMismatch)
      else
        let s := f.2.modJob no fun j => { j with
          st := .starting, startMsg := some m, startAt := (Msg.arg64 1 m).toNat, startBegan := f.2.time, proofRole := role
          cleared := (f.2.jobClusters no).isEmpty }
        let s := s.resetBars no p
        let s := ((s.startPeers no).filter fun d => role == 0#2 || s.partner != some (BitVec.ofNat 9 d)).foldl (fun s d => s.send (digestFrame no p.digest d)) s
        (none, s.startCheck no)

/-- A digest from another module (R246): it is kept for the start of the job. The digest by which the partner refuses a start takes back
an earlier one; a job that has begun meanwhile stops (R323; log entry 41). -/
def State.digestIn (no : JobNo) (module : BitVec 9) (digest : BitVec 256) (s : State) : State :=
  let s := match s.fab.inbox.find? fun x => x.1 == LocalUnit.pair && x.2.f.kind == 8#4 && x.2.f.ident == 10#32 && x.2.f.job == no
      && x.2.f.payload == leBytes 32 digest.toNat with
    | some x => s.unbox .pair x.2.f
    | none => s
  let j := s.job no
  let refused : Bool := match j.plate with
    | some p => s.partner == some module && digest == ~~~ p.pairDigest
    | none => false
  let put := fun (l : List (Nat × BitVec 256)) => l ++ j.digests.filter fun e => e.1 != module.toNat
  if j.st = .starting then (s.modJob no fun j => { j with digests := put [(module.toNat, digest)] }).startCheck no
  else if j.st = .running ∧ j.proofRole ≠ 0 ∧ refused then s.stopJob no Code.startTimeout clsModule 0 0
  else if j.st = .loaded then
    s.modJob no fun j => { j with digests := put (if refused then [] else [(module.toNat, digest)]) }
  else s

/-- start_at has come (R466). -/
def State.startAtDue (no : JobNo) (s : State) : State :=
  let j := s.job no
  let peers := s.startPeers no
  if j.st = .starting ∧ j.cleared ∧ (peers.all fun m => j.digests.any fun e => e.1 == m) ∧ j.startAt ≠ 0 ∧ j.startAt ≤ s.time then s.beginJob no else s

/-- A digest has not arrived within 10 s (R466). -/
def State.startLate (no : JobNo) (s : State) : State :=
  let j := s.job no
  if j.st = .starting ∧ j.startBegan + 10000000000 ≤ s.time ∧ !((s.startPeers no).all fun m => j.digests.any fun e => e.1 == m) then
    s.refuseStart no Code.startTimeout
  else s

/-! ## The effective step of a command (R118, R124, R467, R524) -/

/-- RESET_SCALES at its step: valid is cleared in the absmax tables of the tensor, o stays (R118, R209, R467). -/
def State.clearScales (no : JobNo) (id : Word) (s : State) : State :=
  ((s.jobTensors no).filter fun (t : Tensor) => id == 0xFFFFFFFF || t.id == id).foldl (fun s t => s.clearValid no t) s

/-- The fault of an INJECT_FAULT at its step (R524). -/
def State.inject (i : Inject) (s : State) : State :=
  let p : Port := BitVec.ofNat 6 i.number.toNat
  if i.code = Code.laneFailed then s.laneFail p (i.detail.toNat % 8) true
  else if i.code = Code.linkDown then s.linkDown p .detect true
  else if i.code = Code.frameCrc then s.modPort p fun x => { x with crcInject := i.detail.toNat }
  else if i.code = Code.partnerLost then
    let s := s.sendPair (pairFrame 6 1 0 (Code.partnerLost.setWidth 64) 0 [])
    let s := s.modPair fun x => { x with injectLoss := some (s.time + 1000000 * i.detail.toNat) }
    let s := s.modMargin fun m => { m with hbOut := false }
    allPorts.foldl (fun s p => if s.hasPort p ∧ s.role p = 6 ∧ !(s.port p).disable then s.linkDown p .disabled true else s) s
  else { s with armed := s.armed ++ [i] }

/-- A step of a job begins on this module: commands whose effective step has come apply (R124, R467). -/
def State.stepBegin (no : JobNo) (step : Word) (s : State) : State :=
  let now := match (s.job no).begun with | some b => if b < step then step else b | none => step
  let s := s.modJob no fun j => { j with begun := some now }
  let j := s.job no
  let due := fun (e : Word) => decide (e ≤ now)
  let s := s.modJob no fun j => { j with
    scalePend := j.scalePend.filter fun x => !due x.1
    injPend := j.injPend.filter fun x => !due x.step }
  let s := (j.scalePend.filter fun x => due x.1).foldl (fun s x => s.clearScales no x.2) s
  (j.injPend.filter fun x => due x.step).foldl (fun s x => s.inject x) s

/-- EFFECTIVE_STEP_BEGIN for a running job. -/
def State.effectiveStep (no : JobNo) (step : Word) (s : State) : State :=
  if (s.job no).st = .running then s.stepBegin no step else s

/-! ## Impressions (R249, R250, R321, R403) -/

/-- The progress of a schedule entry. -/
def Job.entryProg (e : Nat) (j : Job) : EntryProg := Table.get EntryProg.reset e j.prog

/-- Change the progress of a schedule entry. -/
def State.modProg (no : JobNo) (e : Nat) (g : EntryProg → EntryProg) (s : State) : State :=
  s.modJob no fun j => { j with prog := Table.set EntryProg.reset e (g (j.entryProg e)) j.prog }

/-- Is a schedule entry past its last step. -/
def Job.entryOver (x : SchedEntry) (e : Nat) (j : Job) : Bool :=
  x.last != 0xFFFFFFFF && decide (x.last < x.first + (j.entryProg e).next)

/-- The impression id of an entry in a step (R250). -/
def imprId (x : SchedEntry) (step : Nat) : Word := BitVec.ofNat 32 (65536 * x.collective.toNat + step % 65536)

/-- When the next impression of a gated entry is due, and when it starts: the first one as many cycles after the first start of its gate
under the mapping in force as its step lies after the first step of that mapping, each later one a cycle after the one before it, shifted by
its overruns (R318, R321). An impression that is due while its unit still runs the previous one of the
same entry is an overrun and starts at the first start of the gate after that; one whose unit another entry held starts at the first start of
the gate after that entry, without a shift (R250, R403; log entry 43). -/
def State.gatePlan (no : JobNo) (e : Nat) (x : SchedEntry) (h : Hatch) (s : State) : Nat × Nat × Bool :=
  let j := s.job no
  let g := j.entryProg e
  let sched := match j.plate with | some p => p.sched | none => []
  let next := h.nextStart x.startGate.toNat
  let due := if g.due = 0 then next j.mapSince + 256 * h.cycle * (x.first + g.next - j.mapStep) else g.due
  let busy := (List.range sched.length).foldl (fun n i => match sched[i]? with
    | some y => if i ≠ e ∧ y.kind = x.kind ∧ y.target = x.target ∧ x.kind = 1 then max n (j.entryProg i).ended else n
    | none => n) 0
  if due < g.ended then (due, next g.ended, true)
  else if due < busy then (due, next busy, false)
  else (due, due, false)

/-- A delay as an overrun record holds it: in units of 16 ns, saturating (R321). -/
def sat16ns (ns : Nat) : Nat := min 65535 (ns / 16)

/-- The start of an entry's next impression: at once, or by its gate, whose due time moves on; an overrun has its record (R249, R318,
R321). -/
def State.gateDue (no : JobNo) (e : Nat) (x : SchedEntry) (step : Nat) (s : State) : State :=
  let begin_ := fun (start due shift : Nat) (s : State) =>
    s.modProg no e fun g => { g with start := start, due := due, shift := shift, refresh := 0, retry := 0 }
  let g := (s.job no).entryProg e
  match s.hatch no with
  | some h =>
    if x.startGate = 0xFFF ∨ h.cycle = 0 then begin_ s.time 0 0 s
    else
      let w := s.gatePlan no e x h
      let shift := if w.2.2 then g.shift + (w.2.1 - w.1) / (256 * h.cycle) else g.shift
      let s := begin_ w.2.1 ((if w.2.2 then w.2.1 else w.1) + 256 * h.cycle) shift s
      if w.2.2 then
        let o : Overrun := ⟨BitVec.ofNat 32 step, x.collective, x.target, x.kind, w.1, w.2.1, sat16ns g.refresh, sat16ns g.retry, shift⟩
        s.modJob no fun j => { j with overruns := pushRing 4096 o j.overruns, overrunsN := sat32 j.overrunsN 1 }
      else s
  | none => begin_ s.time 0 0 s

/-- The code region of a cluster in a plate (R156). -/
def Plate.codeOf (c : ClusterId) (p : Plate) : DWord × Nat :=
  match p.images.find? fun (i : Image) => i.type == 0x10 && i.index == c.setWidth 32 with
  | some i => (i.dest, i.bytes.length)
  | none => (0, 0)

/-- A program impression is assigned to its idle cluster: it runs, or it holds till the start that its gate has planned (R139, R149, R162,
R250). Nothing of an earlier impression stands in the array or waits to be fetched. -/
def State.startProgram (no : JobNo) (e : Nat) (x : SchedEntry) (p : Plate) (step : Nat) (s : State) : State :=
  let c : ClusterId := x.target
  let code := p.codeOf c
  let start := ((s.job no).entryProg e).start
  let waits := decide (s.time < start)
  let s := s.modClu c fun k => { k with
    gstate := if waits then .held else .running
    holdCause := if waits then .gate else .none
    startGate := if waits then some x.startGate.toNat else none
    job := no, impr := some ⟨no, imprId x step, BitVec.ofNat 32 step, e, start⟩
    pc := x.address.setWidth 32, loops := [], forming := [], fetchQ := [], waitDone := none, gateDone := false, grant := none, waitDeadline := none
    flags := NFlags.none, signSeq := 0, nextIssue := k.stepCount, issuedAt := none, lastStepEnd := 1000 * s.time, dueFault := none
    lastTile := none, imprStall := 0, ending := none, fetchBad := [], iwait := []
    icache := if k.codeBase = code.1 then k.icache else [], codeBase := code.1, codeLen := code.2 }
  s.snapshot c

/-- The Pacor control processor's fields in its copy of a descriptor (R250). -/
def Desc.forStep (id : Word) (step : Nat) (d : Desc) : Desc :=
  let low := fun (w : DWord) => (w >>> 32 <<< 32) ||| BitVec.ofNat 64 (step % 2 ^ 32)
  let w0 := ((d.w.getD 0 0).setWidth 32).setWidth 64 ||| (id.setWidth 64 <<< 32)
  let w := d.w.set 0 w0
  if d.op = 1 then ⟨w.set 8 (low (d.w.getD 8 0))⟩ else if d.op = 7 then ⟨w.set 9 (low (d.w.getD 9 0))⟩ else ⟨w⟩

/-- A stream impression: the descriptor is copied and enters the launch queue, or waits for room; a copy that meets an
uncorrectable word stops the job (R202, R250; log entry 22). -/
def State.startStream (no : JobNo) (e : Nat) (x : SchedEntry) (step : Nat) (s : State) : State :=
  let p : Port := x.target.setWidth 6
  let a := x.address
  let told := fun (code : BitVec 16) (inj : Bool) (s : State) =>
    (s.append { s.event code clsPort (p.setWidth 16) no (a.setWidth 32) with injected := inj }).stopJob no code clsPort (p.setWidth 16) (a.setWidth 32)
  if !inSpace a 128 || a.toNat % 128 != 0 || s.absentAt a then told Code.accessFault false s
  else
    let r := s.demand a.toNat 128 (BitVec.ofNat 16 (320 + p.die.toNat)) no
    match r.1.2 with
    | some f => told f.code f.inj r.2
    | none =>
      let s := r.2
      let d := (Desc.ofBytes r.1.1).forStep (imprId x step) step
      if s.queueFull p ∨ !(s.eng p).pacorWait.isEmpty then
        s.modEng p fun g => { g with pacorWait := g.pacorWait ++ [(⟨d, s.time, BitVec.ofNat 32 step, some e⟩, a)] }
      else s.enqueue p d (BitVec.ofNat 32 step) (some e)

/-- A schedule entry's next impression starts: once per step, under its own mapping, on a unit that is free, and past the step of a mapping
switch only where that may start (R249, R250, R265). -/
def State.imprStart (no : JobNo) (e : Nat) (s : State) : State :=
  let j := s.job no
  match j.plate with
  | some p =>
    match p.sched[e]? with
    | some x =>
      let g := j.entryProg e
      let step := x.first + g.next
      let free := x.kind != 1#2 || (s.clu x.target).gstate == .idle
      let die : Die := if x.kind = 1 then ClusterId.die x.target else Port.die (x.target.setWidth 6)
      if j.st = .running ∧ x.mapping.toNat = j.mapping ∧ !g.running ∧ !j.entryOver x e ∧ step < 2 ^ 32 ∧ free ∧ s.pair.st ≠ .fenced ∧ !(s.die die).inReset
          ∧ !s.stepHeld no x step then
        let s := s.stepBegin no (BitVec.ofNat 32 step)
        let s := s.gateDue no e x step
        let s := s.modProg no e fun g => { g with next := g.next + 1, running := true }
        if x.kind = 1 then s.startProgram no e x p step else s.startStream no e x step
      else s
    | none => s
  | none => s

/-- An entry of a hatch list starts: its gates reach the gated ports, held impressions and waits on it go on (R139, R172,
R400, R401, R403). -/
def State.hatchEntry (slot : Nat) (s : State) : State :=
  let no : JobNo := BitVec.ofNat 16 (Table.get 0 slot s.hatchJobs)
  match if no = 0 then none else s.hatch no with
  | some h =>
    let s := allPorts.foldl (fun s n => if s.hasPort n ∧ h.gated.getLsbD n.toNat then
      s.modPort n fun x => { x with egress := h.applyNow no s.time x.egress } else s) s
    let s := s.clusters.foldl (fun (s : State) (k : Nat × Cluster) =>
      match k.2.startGate with
      | some g => if k.2.job = no ∧ h.startsAt g s.time then
          s.modClu (BitVec.ofNat 8 k.1) fun c => { c with
            gstate := .running, holdCause := .none, startGate := none, nextIssue := c.stepCount, lastStepEnd := 1000 * s.time
            impr := c.impr.map fun i => { i with start := s.time } }
        else s
      | none => s) s
    s.clusters.foldl (fun (s : State) (k : Nat × Cluster) =>
      if k.2.job = no ∧ k.2.gstate = .held ∧ k.2.startGate.isNone then s.tryIssue (BitVec.ofNat 8 k.1) else s) s
  | none => s

/-! ## The ledger and the end of a run (R317, R459, R498) -/

/-- The 16 bytes of a ledger entry (R317). -/
def LedgerEntry.bytes (e : LedgerEntry) : List Byte := leBytes 4 e.step.toNat ++ leBytes 4 e.count ++ leBytes 8 e.digest.toNat

/-- The step that closes next: the one after the last closed step; the first step of the schedule at the beginning. -/
def Job.nextClose (p : Plate) (j : Job) : Option Nat :=
  if j.closedStep = 0xFFFFFFFF then ((p.sched.map fun (e : SchedEntry) => e.first).min?)
  else some (j.closedStep.toNat + 1)

/-- Does a unit still work for a step of a job: an entry that has not started it, which one of a stopped job no longer does, a program of it
that may launch, a queued or an active stream impression (R317; log entry 44). -/
def State.stepOpen (no : JobNo) (p : Plate) (n : Nat) (s : State) : Bool :=
  let j := s.job no
  (j.st != .stopped && (List.range p.sched.length).any fun i => match p.sched[i]? with
    | some x => x.mapping.toNat == j.mapping && decide (x.first + (j.entryProg i).next ≤ n) && !j.entryOver x i
    | none => false)
    || (s.clusters.any fun k => match k.2.impr with | some i => i.job == no && i.step.toNat == n && k.2.gstate != .halted | none => false)
    || (s.engines.any fun e => (e.2.queue.any fun q => q.desc.job == no && q.step.toNat == n) || (e.2.pacorWait.any fun q => q.1.desc.job == no && q.1.step.toNat == n)
        || (e.2.ctxs.any fun c => c.desc.job == no && c.step.toNat == n))

/-- LEDGER_STEP_CLOSE: the step's entry is written and the chain goes on (R317). -/
def State.ledgerClose (no : JobNo) (s : State) : State :=
  let j := s.job no
  match j.plate with
  | some p =>
    match j.nextClose p with
    | some n =>
      if (j.st = .running ∨ j.st = .done ∨ j.st = .stopped) ∧ (j.begun.any fun b => decide (n ≤ b.toNat)) ∧ !s.stepOpen no p n then
        let l := (j.ledgerOpen.find? fun (l : StepLedger) => l.step.toNat == n).getD ⟨BitVec.ofNat 32 n, 0, 0, 0⟩
        let e : LedgerEntry := ⟨l.step, l.ended, l.digest⟩
        s.modJob no fun j => { j with
          ledger := pushRing 65536 e j.ledger, chain := shake256 32 (j.chain ++ e.bytes), closedStep := l.step
          ledgerOpen := j.ledgerOpen.filter fun (x : StepLedger) => x.step != l.step }
      else s
    | none => s
  | none => s

/-- Do impressions of a job still run or wait. -/
def State.imprsLeft (no : JobNo) (s : State) : Bool :=
  (s.clusters.any fun k => k.2.job == no && (k.2.gstate == .running || k.2.gstate == .held))
    || (s.engines.any fun e => (e.2.queue.any fun q => q.desc.job == no) || (e.2.pacorWait.any fun q => q.1.desc.job == no) || (e.2.ctxs.any fun c => c.desc.job == no))

/-- The step that the entries of the mapping in force have reached: the next one to start. -/
def Job.reached (p : Plate) (j : Job) : Nat :=
  ((List.range p.sched.length).filterMap fun i => match p.sched[i]? with
    | some x => if x.mapping.toNat = j.mapping then some (x.first + (j.entryProg i).next) else none
    | none => none).foldl max 0

/-- Is a schedule entry past its last step: one of the mapping in force has started it, one of another mapping lies before the step that the
job has reached (R249, R263, R459; log entry 44). -/
def Job.entryPast (p : Plate) (x : SchedEntry) (e : Nat) (j : Job) : Bool :=
  if x.mapping.toNat = j.mapping then j.entryOver x e
  else decide (x.last < j.reached p)

/-- JOB_DONE: every entry is past its last step and every impression has ended (R459). -/
def State.jobDone (no : JobNo) (s : State) : State :=
  let j := s.job no
  match j.plate with
  | some p =>
    let past := (List.range p.sched.length).all fun i => match p.sched[i]? with
      | some x => j.entryPast p x i
      | none => true
    if j.st = .running ∧ past ∧ !s.imprsLeft no then
      (s.modJob no fun j => { j with st := .done, endTime := s.time }).meterMarker false false no
    else s
  | none => s

/-! ## The commands of a job (R124, R263, R459, R466, R467) -/

/-- Does a job of this module hold mirrored state and run. -/
def State.mirrorsRun (s : State) : Bool :=
  s.jobs.any fun e => (e.2.st == .running || e.2.st == .starting || e.2.st == .done) && (match e.2.plate with | some p => !p.mirror.isEmpty | none => false)

/-- JOB_STOP: the job stops; its reason is in the event log, under a code that the spec does not give (R466; log entry 45). In
PARTNER_LOST the stop of the last mirrored job ends that state (R513; log entry 46). -/
def State.jobStop (m : Msg) (s : State) : Effect :=
  let f := s.free
  let s := f.2.stopJob m.job (f.1.setWidth 16) clsModule 0 (BitVec.ofNat 32 (Msg.argN 0 m % 2))
  let s := s.modJob m.job fun j => { j with preempted := (Msg.arg 0 m).getLsbD 0 }
  let s := if s.pair.st = .partnerLost ∧ !s.mirrorsRun then s.modPair fun p => { p with st := .unpaired } else s
  s.replies Reply.ok

/-- JOB_END: granules, counters, windows, shard records, barrier slots, hold ranges and shadows of the job go; the job is LOADED
again with its plate, NONE where a trip ended the load of its plate (R272, R305, R466, R518). -/
def State.jobEnd (m : Msg) (s : State) : Effect :=
  let no := m.job
  let s := s.freeJob no
  let s := (s.countersOf no).foldl (fun s n => s.modCounter n fun _ => Counter.reset) s
  let s := s.forgetRun no
  let s : State := { s with
    windows := s.windows.filter fun (w : Window) => w.job != no
    shards := s.shards.filter fun (r : Shard) => r.job != no
    bars := s.bars.filter fun (b : Nat × Bar) => b.2.job != no }
  let s := s.modPair fun p => { p with
    holds := p.holds.filter fun (h : HoldRange) => h.job != no
    shadows := p.shadows.filter fun (x : Shadow) => x.job != no
    seals := p.seals.filter fun (x : SealOut) => x.job != no }
  let s := s.modJob no fun j => { j with
    st := if j.plate.isSome then .loaded else .none, ended := true, logFrom := j.cmdLog.length, modePend := [], begun := none, scalePend := [], injPend := []
    mapPend := none, mapNext := none, mapReady := false, mapOn := none, mapAt := none, mapHere := false, mapBad := false, headers := []
    digests := [], cleared := false }
  s.replies Reply.ok

/-- The common acceptance of a command that changes a result: its step has not begun, and the command log has room (R124,
R315, R467). -/
def Job.accepts (step : Word) (j : Job) : Option Reply :=
  firstReply [
    need (!(j.begun.any fun b => decide (step ≤ b))) (Reply.fail Code.stepPassed),
    need (j.cmdLog.length < 1024 + j.logFrom) (Reply.fail Code.runRecordFull)]

/-- Enter an accepted command into the command log (R315). -/
def State.logCommand (code : BitVec 16) (m : Msg) (step : Word) (s : State) : State :=
  s.modJob m.job fun j => { j with cmdLog := j.cmdLog ++ [⟨code, step, (List.range 4).map fun i => Msg.arg i m, s.time⟩] }

/-- SET_NUMERIC_MODE: a later command takes the place of one whose step has not begun (R123, R124). -/
def State.setNumericMode (m : Msg) (s : State) : Effect :=
  let step := Msg.arg 1 m
  s.unless (firstReply [need (Msg.argN 0 m ≤ 3) badArg, (s.job m.job).accepts step]) fun s =>
    let s := s.modJob m.job fun j => { j with
      modePend := (j.modePend.filter fun e => j.begun.any fun b => decide (e.1 ≤ b)) ++ [(step, (Msg.arg 0 m).setWidth 4)] }
    (s.logCommand 0x0033 m step).replies Reply.ok

/-- A SET_MAPPING takes the place of a switch whose step has not begun; one whose step has, and in SOLO the switch to the failover mapping,
runs first, and the command waits for its end (R124, R265, R515). -/
def Job.orderMapping (fo : Option Nat) (e : Word × Nat) (j : Job) : Job :=
  match j.mapPend with
  | some x =>
    if x = e then { j with mapNext := none }
    else if j.mapOn.isSome || (j.begun.any fun b => decide (x.1 ≤ b)) || (fo == some x.2 && fo != some e.2) then { j with mapNext := some e }
    else { j with mapPend := some e }
  | none => { j with mapPend := some e }

/-- SET_MAPPING: during a pair failover the failover mapping alone (R263, R265, R515). -/
def State.setMapping (m : Msg) (s : State) : Effect :=
  let step := Msg.arg 1 m
  let n := match s.plate m.job with | some p => p.mappingsN | none => 0
  s.unless (firstReply [
    need (Msg.argN 0 m < min 4 n) badArg,
    (s.job m.job).accepts step,
    need (s.pair.st != .takeover || Msg.argN 0 m == s.pair.foMapping) (Reply.fail Code.mappingAborted)]) fun s =>
    let s := s.modJob m.job fun j => j.orderMapping (if s.pair.solo then some s.pair.foMapping else none) (step, Msg.argN 0 m)
    (s.logCommand 0x0034 m step).replies Reply.ok

/-- RESET_SCALES (R118, R467). -/
def State.resetScales (m : Msg) (s : State) : Effect :=
  let step := Msg.arg 1 m
  s.unless ((s.job m.job).accepts step) fun s =>
    let s := s.modJob m.job fun j => { j with scalePend := j.scalePend ++ [(step, Msg.arg 0 m)] }
    (s.logCommand 0x0035 m step).replies Reply.ok

/-- May a fault be injected: its code, class, number and detail (R524). -/
def State.injectOk (code : BitVec 16) (cls number detail : Nat) (s : State) : Bool :=
  let port := cls == 9 && decide (number < 64) && s.hasPort (BitVec.ofNat 6 number)
  if code = Code.laneFailed then port && decide (detail < 8)
  else if code = Code.linkDown then port && detail == 0
  else if code = Code.frameCrc then port && decide (1 ≤ detail) && decide (detail ≤ 65535)
  else if code = Code.sramUncorrectable then
    cls == 8 && decide (number < 256) && s.hasCluster (BitVec.ofNat 8 number) && decide (detail < 0x800000) && detail % 8 == 0
  else if code = Code.dramUncorrectable then cls == 0xA && decide (number < 32) && decide (detail < stackBytes / 128)
  else if code = Code.partnerLost then cls == 0xB && number == 0 && decide (10 ≤ detail) && decide (detail ≤ 10000)
  else if code = Code.injOverflow then cls == 0xC && decide (1 ≤ number) && decide (number < 16)
  else if code = Code.injDropRank then cls == 0xD && decide (number < 4096)
  else false

/-- INJECT_FAULT (R467, R524). -/
def State.injectFault (m : Msg) (s : State) : Effect :=
  let step := Msg.arg 2 m
  let code := (Msg.arg 0 m).setWidth 16
  let number := Msg.argN 1 m % 65536
  let cls := Msg.argN 1 m / 65536 % 16
  s.unless (firstReply [need (s.injectOk code cls number (Msg.argN 3 m)) badArg, (s.job m.job).accepts step]) fun s =>
    let i : Inject := ⟨code, BitVec.ofNat 4 cls, BitVec.ofNat 16 number, Msg.arg 3 m, step, m.job⟩
    let s := s.modJob m.job fun j => { j with injPend := j.injPend ++ [i] }
    (s.logCommand 0x0036 m step).replies Reply.ok

end Sys2Proof.Machine
end

