-- ==== Sys2Proof/Machine/MarginCmds.lean ====
section
/-! DEFINITION. The commands of the margin controller (19 R486 to R490; 18 R456). -/

namespace Sys2Proof.Machine

/-- A word with a listed field in its low n bits and nothing above it. Bits that a table of commands does not list count as
arguments that are not listed (log entry 50). -/
def fits (n : Nat) (w : Word) : Bool := decide (w.toNat < 2 ^ n)

/-- SET_CAP_MAX: one die or all; the caps applied follow (R480). -/
def State.setCapMax (m : Msg) (s : State) : Effect :=
  let d := Msg.argN 0 m
  let c := Msg.argN 1 m
  if Msg.onlyArgs [0, 1] m ∧ d ≤ 4 ∧ 85 ≤ c ∧ c ≤ 145 then
    (s.changeCaps fun x => { x with capMax := if d = 4 then [c, c, c, c] else x.capMax.set d c }).replies Reply.ok
  else s.replies badArg

/-- SET_VCORE: the cap of the die falls to 85 and the rail ramps until VCORE_RAMP_DONE; a rail that is off takes the new set point
at once (R477, R486; log entry 51). -/
def State.setVcore (m : Msg) (s : State) : Effect :=
  let d := Msg.argN 0 m
  let v := Msg.argN 1 m
  if Msg.onlyArgs [0, 1] m ∧ d ≤ 3 ∧ 700 ≤ v ∧ v ≤ 800 ∧ v % 5 = 0 then
    (s.modMargin fun x =>
      if x.coreOn then Margin.apply { x with ramps := (x.ramps.filter fun (r : Nat × Nat) => r.1 != d) ++ [(d, v)] }
      else { x with vset := x.vset.set d v }).replies Reply.ok
  else s.replies badArg

/-- A command that the power state does not allow. -/
def State.powerWrong (s : State) : Reply := Reply.failD Code.wrongState (BitVec.ofNat 8 (PowerSt.code s.margin.power))

/-- MODULE_POWER: off sets the latch and starts an orderly power-down to STANDBY; on continues the power-up from HUB_UP (R476 to
R479, R489). In TRIPPED, whose rails are off already, off only sets the latch (log entry 52). -/
def State.modulePower (m : Msg) (s : State) : Effect :=
  if !Msg.onlyArgs [0] m ∨ !fits 1 (Msg.arg 0 m) then s.replies badArg
  else if Msg.argN 0 m = 1 then
    if s.margin.power ≠ .hubUp then s.replies s.powerWrong
    else if s.margin.step2 then s.powerOn.replies Reply.ok
    else s.replies Reply.ok
  else ((if s.margin.power = .tripped then s else s.powerDown 0 .standby).modMargin fun x => { x with latch := true }).replies Reply.ok

/-- MODULE_RESET: an accepted low of RST_N of 1 ms (R488, R489). -/
def State.moduleReset (m : Msg) (s : State) : Effect :=
  if Msg.onlyArgs [] m then
    ((s.modMargin fun x => { x with rstVirtual := true, virtualAt := s.time }).acceptLow).replies Reply.ok
  else s.replies badArg

/-- A die is reset: the jobs that use it stop, and its reset is asserted (R489). -/
def State.dieDown (d : Die) (s : State) : State :=
  let s := s.jobs.foldl (fun (s : State) (e : Nat × Job) =>
    if s.usesDie e.2.no d then
      let f := s.free
      f.2.stopJob e.2.no (f.1.setWidth 16) clsModule (d.setWidth 16) 0
    else s) s
  s.assertReset d

/-- DIE_RESET (R489). -/
def State.dieReset (m : Msg) (s : State) : Effect :=
  if Msg.onlyArgs [0] m ∧ Msg.argN 0 m ≤ 3 then (s.dieDown (BitVec.ofNat 2 (Msg.argN 0 m))).replies Reply.ok
  else s.replies badArg

/-- CLEAR_TRIP (R488, R489). -/
def State.clearTripCmd (m : Msg) (s : State) : Effect :=
  if !Msg.onlyArgs [] m then s.replies badArg
  else if s.margin.power ≠ .tripped then s.replies s.powerWrong
  else if s.tripStays then s.replies (Reply.failD Code.wrongState 0x06)
  else
    let s := s.clearTrip
    (if s.margin.step2 then s.powerOn else s).replies Reply.ok

/-- The 32 bytes of a trip record (R490). -/
def TripRec.bytes (t : TripRec) : List Byte :=
  leBytes 4 (t.code.toNat + 2 ^ 16 * t.unit.toNat + 2 ^ 24 * t.stack.toNat) ++ leBytes 4 t.boot.toNat ++ leBytes 8 t.time.toNat
    ++ leBytes 4 (t.vin.toNat + 65536 * t.pin.toNat) ++ leBytes 4 t.temp.toNat ++ leBytes 8 0

/-- READ_TRIP_LOG (R489, R490). -/
def State.readTripLog (m : Msg) (s : State) : Effect :=
  if Msg.onlyArgs [0] m then s.replies (paged 32 (Msg.argN 0 m) (s.margin.trips.map TripRec.bytes)) else s.replies badArg

end Sys2Proof.Machine
end

