-- ==== Sys2Proof/Machine/ReadCmds.lean ====
section
/-! DEFINITION. The commands that read: module information, registers, the logs and accounts of a job, the event log, cluster, fault
and stack status; and CLEAR_HALT (18 R460 to R463; the records of R136, R160, R200, R269, R314, R315, R317, R321, R322, R444,
R450, R521). -/

namespace Sys2Proof.Machine

/-! ## Records -/

/-- The 32 bytes of a module event (R521). -/
def Event.bytes (e : Event) : List Byte :=
  leBytes 4 (e.code.toNat + 2 ^ 16 * e.cls.toNat + 2 ^ 20 * b2n e.injected + 2 ^ 21 * b2n e.fenced + 2 ^ 22 * b2n e.recStart + 2 ^ 23 * b2n e.recEnd
      + 2 ^ 24 * e.stAfter.toNat)
    ++ leBytes 4 (e.unit.toNat + 65536 * e.job.toNat) ++ leBytes 4 e.seq.toNat ++ leBytes 4 e.detail.toNat ++ leBytes 8 e.time ++ leBytes 8 0

/-- The 32 bytes of an overflow event (R136). -/
def OvEvent.bytes (e : OvEvent) : List Byte :=
  leBytes 4 e.step.toNat ++ leBytes 4 e.tensor.toNat ++ leBytes 4 (e.job.toNat + 2 ^ 16 * e.kind.toNat + 2 ^ 20 * e.mode.toNat)
    ++ leBytes 4 (e.stages.toNat + 2 ^ 4 * e.fromFmt.toNat + 2 ^ 8 * e.toFmt.toNat + 2 ^ 12 * e.action.toNat + 2 ^ 16 * e.offset.toNat
      + 2 ^ 24 * b2n e.limit + 2 ^ 25 * b2n e.injected)
    ++ leBytes 8 e.time ++ leBytes 4 e.firstRow ++ leBytes 4 e.elements

/-- The 32 bytes of an overrun record (R321). -/
def Overrun.bytes (o : Overrun) : List Byte :=
  leBytes 4 o.step.toNat ++ leBytes 4 (o.collective.toNat + 2 ^ 16 * o.target.toNat + 2 ^ 24 * o.kind.toNat) ++ leBytes 8 o.due ++ leBytes 8 o.start
    ++ leBytes 4 (o.refresh % 65536 + 65536 * (o.retry % 65536)) ++ leBytes 4 o.shift

/-- The 32 bytes of a command log entry (R315). -/
def LogEntry.bytes (e : LogEntry) : List Byte :=
  leBytes 4 e.code.toNat ++ leBytes 4 e.step.toNat ++ ((List.range 4).flatMap fun i => leBytes 4 (e.args.getD i 0).toNat) ++ leBytes 8 e.time

/-- The command log of the run that the run record describes: after JOB_END the entries of the run that has ended (R315, R466). -/
def Job.runLog (j : Job) : List LogEntry := if j.st = .loaded then j.cmdLog.take j.logFrom else j.cmdLog

/-- The 192 bytes of the run record (R314). -/
def State.runRecord (no : JobNo) (s : State) : List Byte :=
  let j := s.job no
  let p := j.plate
  let seed := match p with | some p => p.seed.toNat | none => 0
  let digest := match p with | some p => p.digest.toNat | none => 0
  let whole := match p with | some p => p.bytes | none => []
  leBytes 4 (no.toNat + 2 ^ 16 + 2 ^ 24 * j.ranRole.toNat) ++ leBytes 4 s.ownModule.toNat
    ++ leBytes 8 seed ++ leBytes 8 s.hub.running.toNat ++ leBytes 8 j.startTime
    ++ leBytes 32 digest ++ shake256 32 whole ++ leBytes 8 s.fuse.portOff.toNat ++ leBytes 32 s.fuse.clusterOff.toNat
    ++ leBytes 4 (s.fuseReg 4).toNat ++ leBytes 4 (s.fuseReg 0).toNat
    ++ leBytes 4 j.closedStep.toNat ++ leBytes 4 j.runLog.length ++ leBytes 4 j.overrunsN ++ leBytes 4 j.ovN ++ (j.chain ++ List.replicate 32 0).take 32

/-- The 32 bytes of a memory fault record (R444). -/
def MemFault.bytes (f : MemFault) : List Byte :=
  leBytes 4 (f.code.toNat + 2 ^ 16 * f.stack.toNat + 2 ^ 21 * f.channel.toNat + 2 ^ 25 * f.bank.toNat + 2 ^ 29 * b2n f.scrub + 2 ^ 30 * b2n f.injected)
    ++ leBytes 4 (f.row.toNat + 2 ^ 18 * f.col.toNat) ++ leBytes 8 f.address.toNat ++ leBytes 4 (f.requester.toNat + 65536 * f.job.toNat) ++ leBytes 4 0
    ++ leBytes 8 f.time.toNat

/-- The 64 bytes of a stack status block (R450); every stack answers. -/
def Stack.bytes (t : Stack) : List Byte :=
  leBytes 4 (t.temp.toNat + 2 ^ 16 + 2 ^ 17 * b2n t.hot) ++ leBytes 4 t.degradedRows ++ leBytes 8 t.bytesRead ++ leBytes 8 t.bytesWritten ++ leBytes 8 t.corrected
    ++ leBytes 4 t.uncorrectable ++ leBytes 4 t.scrubPasses ++ leBytes 8 t.refreshNs ++ leBytes 8 t.merges ++ leBytes 8 0

/-! ## Information and registers (R460, R462, R463) -/

/-- NOP. -/
def State.nop (_ : Msg) (s : State) : Effect := s.replies Reply.ok

/-- GET_INFO (R462). -/
def State.getInfo (_ : Msg) (s : State) : Effect :=
  let slots := (List.range 8).map fun k =>
    let j := Table.get Job.reset k s.jobs
    if j.st = .none then (0 : Word) else w32 (j.no.toNat + 65536 * j.st.code)
  s.replies ⟨Code.ok, 0, [s.ownModule.setWidth 32, s.fuseReg 0, s.fuseReg 4] ++ words64 s.hub.running
    ++ [w32 (RouteSt.code s.fab.st + 256 * s.pair.st.code.toNat)] ++ slots⟩

/-- READ_REG (R463). -/
def State.readRegs (m : Msg) (s : State) : Effect :=
  let a := Msg.argN 0 m
  let n := Msg.argN 1 m
  if 1 ≤ n ∧ n ≤ 32 ∧ reachable m.target.toNat a n then
    s.replies ⟨Code.ok, 0, (List.range n).map fun i => s.readReg (a + 4 * i)⟩
  else s.replies badArg

/-- WRITE_REG (R463). -/
def State.writeMasked (m : Msg) (s : State) : Effect :=
  let a := Msg.argN 0 m
  if reachable m.target.toNat a 1 then
    (s.writeReg a ((s.readReg a &&& ~~~ Msg.arg 2 m) ||| (Msg.arg 1 m &&& Msg.arg 2 m))).replies Reply.ok
  else s.replies badArg

/-! ## Logs and accounts of a job (R461, R462) -/

/-- READ_RUN_RECORD (R314, R315). -/
def State.readRunRecord (m : Msg) (s : State) : Effect :=
  let r := s.runRecord m.job
  s.replies (paged 32 (Msg.argN 0 m) (((List.range 6).map fun i => (r.drop (32 * i)).take 32) ++ (s.job m.job).runLog.map LogEntry.bytes))

/-- READ_OVERFLOW_LOG (R136). -/
def State.readOverflowLog (m : Msg) (s : State) : Effect := s.replies (paged 32 (Msg.argN 0 m) ((s.job m.job).ovLog.map OvEvent.bytes))

/-- READ_OVERRUN_LOG (R321). -/
def State.readOverrunLog (m : Msg) (s : State) : Effect := s.replies (paged 32 (Msg.argN 0 m) ((s.job m.job).overruns.map Overrun.bytes))

/-- READ_IDLE_ACCOUNT (R269). -/
def State.readIdleAccount (m : Msg) (s : State) : Effect :=
  let j := s.job m.job
  s.replies (Reply.bytes (leBytes 4 m.job.toNat ++ leBytes 4 j.unitsN ++ ((List.range 7).flatMap fun i => leBytes 8 (j.idle.getD i 0))))

/-- READ_RANK_WAIT (R322). -/
def State.readRankWait (m : Msg) (s : State) : Effect :=
  s.replies (paged 8 (Msg.argN 0 m) ((List.range 4096).map fun r => leBytes 8 (Table.get 0 r (s.job m.job).rankWait)))

/-- READ_LEDGER (R317). -/
def State.readLedger (m : Msg) (s : State) : Effect := s.replies (paged 16 (Msg.argN 0 m) ((s.job m.job).ledger.map LedgerEntry.bytes))

/-- READ_EVENT_LOG (R521). -/
def State.readEventLog (m : Msg) (s : State) : Effect := s.replies (paged 32 (Msg.argN 0 m) (s.hub.events.map Event.bytes))

/-! ## Commands of a die (R460) -/

/-- The cluster that a0 names, where it lies on the die of the message. -/
def Msg.cluster (m : Msg) : Option ClusterId :=
  let c : ClusterId := BitVec.ofNat 8 (Msg.argN 0 m)
  if c.die = Msg.die m then some c else none

/-- READ_CLUSTER_STATUS (R160). -/
def State.readClusterStatus (m : Msg) (s : State) : Effect :=
  match Msg.cluster m with
  | some c => s.replies (Reply.bytes (s.statusBlock c))
  | none => s.replies badArg

/-- READ_FAULT_RECORD: the record of the last fault until CLEAR_HALT; zeros where there is none (R200; log entry 49). -/
def State.readFaultRecord (m : Msg) (s : State) : Effect :=
  match Msg.cluster m with
  | some c => s.replies (Reply.bytes (match (s.clu c).faultRec with | some r => r.bytes | none => List.replicate 32 0))
  | none => s.replies badArg

/-- CLEAR_HALT: a halted cluster is IDLE again and its record is gone (R154, R460). -/
def State.clearHalt (m : Msg) (s : State) : Effect :=
  match Msg.cluster m with
  | some c =>
    let k := s.clu c
    if s.hasCluster c ∧ k.gstate = .halted then
      (s.setClu c { k with gstate := .idle, holdCause := .none, faultRec := none, impr := none, job := 0, fetchBad := [], ending := none }).replies Reply.ok
    else s.replies (Reply.failD Code.wrongState (BitVec.ofNat 8 (if s.hasCluster c then k.gstate.code else 0)))
  | none => s.replies badArg

/-- READ_STATS: the ring at an address on the die's stacks, its records oldest first (R137, R222). -/
def State.readStats (m : Msg) (s : State) : Effect :=
  let a := Msg.arg64 0 m
  let n := Msg.argN 2 m
  let mine := match DWord.loc a with
    | .dram k _ => decide (k.toNat / 8 = (Msg.die m).toNat) && inSpace a (32 * n)
    | _ => false
  if !mine then s.replies badArg
  else
    let held := (Table.get [] a.toNat (s.die (Msg.die m)).statRings).filter fun (x : Nat × Nat) => x.1 == m.job.toNat && decide (x.2 < n)
    let r := s.cpReads m.job (held.map fun (x : Nat × Nat) => (a.toNat + 32 * x.2, 32))
    match r.1 with
    | some bs => r.2.replies (paged 32 (Msg.argN 3 m) ((List.range held.length).map fun i => (bs.drop (32 * i)).take 32))
    | none => r.2.replies (Reply.fail Code.dramUncorrectable)

/-- READ_MEM_FAULTS (R444). -/
def State.readMemFaults (m : Msg) (s : State) : Effect := s.replies (paged 32 (Msg.argN 0 m) ((s.die (Msg.die m)).memFaults.map MemFault.bytes))

/-- READ_STACK_STATUS (R450). -/
def State.readStackStatus (m : Msg) (s : State) : Effect :=
  s.replies (Reply.bytes (s.stack (8 * (Msg.die m).toNat + Msg.argN 0 m % 8)).bytes)

/-! ## Remote lines (R419, R432, R460) -/

/-- The MEM_REQ of a remote line access; its transfer id is the next one for its module (R278, R419). -/
def State.remoteReq (m : Msg) (op : Nat) (tag : Word) (line : List Byte) (s : State) : Frame :=
  { Frame.blank with
    kind := 6, cls := 2, plen := BitVec.ofNat 8 (line.length / 32), job := m.job, srcRank := BitVec.ofNat 12 ((s.ownRank m.job).getD 0)
    ident := tag, transfer := Table.get 0 ((Msg.arg 0 m).setWidth 9 : BitVec 9).toNat s.fab.transfers, offset := Msg.arg 2 m, detail := BitVec.ofNat 64 (Msg.argN 1 m % 4096 + 4096 * op), payload := line
    dstModule := (Msg.arg 0 m).setWidth 9, dstPort := 0x3F }

/-- Send a remote request and wait for its reply; the twin sends none (R324, R432). k is the mailbox of the command, 16 for
none. -/
def State.sendRemote (code : BitVec 16) (op k : Nat) (m : Msg) (line : List Byte) (s : State) : Effect :=
  let d := Msg.die m
  let tag : Word := BitVec.ofNat 32 (2 ^ 30 * d.toNat + (s.die d).remoteSeq % 2 ^ 30)
  let f := s.remoteReq m op tag line
  let s := s.modDie d fun x => { x with remoteSeq := x.remoteSeq + 1, remote := x.remote ++ [⟨tag, op == 2, k, m, code, s.time⟩] }
  let s := s.modFab fun b => { b with transfers := Table.set 0 f.dstModule.toNat (f.transfer + 1) b.transfers }
  (none, s.sendJob m.job f)

/-- MEM_READ_REMOTE. -/
def State.memReadRemote (k : Nat) (m : Msg) (s : State) : Effect := s.sendRemote 0x0066 1 k m []

/-- MEM_WRITE_REMOTE: the line comes from this die's stacks. -/
def State.memWriteRemote (k : Nat) (m : Msg) (s : State) : Effect :=
  let a := Msg.arg64 3 m
  let mine := match DWord.loc a with
    | .dram t _ => decide (t.toNat / 8 = (Msg.die m).toNat) && inSpace a 128
    | _ => false
  if !mine then s.replies badArg
  else
    let r := s.demand a.toNat 128 (BitVec.ofNat 16 (320 + (Msg.die m).toNat)) m.job
    match r.1.2 with
    | some f => r.2.replies (Reply.fail f.code)
    | none => r.2.sendRemote 0x0067 2 k m r.1.1

end Sys2Proof.Machine
end

