-- ==== Sys2Proof/Machine/Firmware.lean ====
section
/-! DEFINITION. The firmware store, the boot ROM, settings, keys, certificates and attestation (22 R526 to R543). -/

namespace Sys2Proof.Machine

/-! ## Slots and settings (R526, R527, R536) -/

/-- A slot of the firmware store: 0 is A, 1 is B. -/
def State.slot (k : Nat) (s : State) : FwSlot := s.hub.slots.getD k FwSlot.reset

/-- Change a slot. -/
def State.modSlot (k : Nat) (g : FwSlot → FwSlot) (s : State) : State := s.modHub fun h => { h with slots := h.slots.set k (g (h.slots.getD k FwSlot.reset)) }

/-- The settings in use. -/
def State.settings (s : State) : Settings := s.hub.settings.getD s.hub.inUse Settings.reset

/-- Change the settings in use: while a trial lasts these are the trial copy (R536). -/
def State.modSettings (g : Settings → Settings) (s : State) : State :=
  s.modHub fun h => { h with settings := h.settings.set h.inUse (g (h.settings.getD h.inUse Settings.reset)) }

/-- The code of a slot state (R527). -/
def SlotSt.code (x : SlotSt) : Nat :=
  match x with
  | .empty => 0
  | .writing => 1
  | .staged => 2
  | .trial => 3
  | .confirmed => 4
  | .failed => 5

/-- The stored image of a slot. -/
def FwSlot.bytes (x : FwSlot) : List Byte := Memory.readN 0 x.length x.image

/-- Bytes brought to a length. -/
def padTo (n : Nat) (bs : List Byte) : List Byte := (bs ++ List.replicate n 0).take n

/-- The 32-byte digest of a slot: SHAKE256 over the stored image; a slot without an image has none, and what stands for it is left
open (R531, R532; log entry 16). -/
def State.slotDigest (k : Nat) (s : State) : List Byte × State :=
  let x := s.slot k
  if x.factory then (padTo 32 Config.factoryDigest, s)
  else if x.st = .empty then
    let a := s.free
    let b := a.2.free
    let c := b.2.free
    let d := c.2.free
    (leBytes 8 a.1.toNat ++ leBytes 8 b.1.toNat ++ leBytes 8 c.1.toNat ++ leBytes 8 d.1.toNat, d.2)
  else (shake256 32 x.bytes, s)

/-- The version of a slot; where no header has come yet it is left open (R532). -/
def State.slotVersion (k : Nat) (s : State) : DWord × State :=
  let x := s.slot k
  if x.st = .empty ∨ x.st = .writing then s.free else (x.version, s)

/-- The index of the first slot in a state. -/
def State.slotIn (x : SlotSt) (s : State) : Option Nat := (List.range 2).find? fun k => (s.slot k).st == x

/-! ## Delivery (R528, R530 to R532) -/

/-- FW_STATUS (R532). -/
def State.fwStatus (m : Msg) (s : State) : Effect :=
  if Msg.onlyArgs [] m then
    let va := s.slotVersion 0
    let vb := va.2.slotVersion 1
    let da := vb.2.slotDigest 0
    let db := da.2.slotDigest 1
    let a := s.slot 0
    let b := s.slot 1
    let r0 := w32 (a.st.code + 2 ^ 4 * b.st.code + 2 ^ 8 * (s.hub.booted % 2) + 2 ^ 9 * b2n s.hub.recovery + 2 ^ 16 * s.hub.rollMin)
    let other := s.hub.settings.getD (1 - s.hub.inUse) Settings.reset
    db.2.replies ⟨Code.ok, 0, [r0] ++ words64 va.1 ++ words64 vb.1 ++ [w32 (a.failure.toNat + 65536 * b.failure.toNat)]
      ++ wordsOf 8 da.1 ++ wordsOf 8 db.1 ++ [w32 (s.settings.fmt.toNat + 65536 * other.fmt.toNat)]⟩
  else s.replies badArg

/-- A firmware command in a state that does not allow it; no state code is named for its detail (R531). -/
def fwWrong : Reply := Reply.fail Code.wrongState

/-- The bytes of a slot (R526). -/
def slotBytes : Nat := 268435456

/-- FW_BEGIN: the slot that did not boot becomes WRITING, bound to the agent. An image that no slot holds is refused (R526, R531;
log entry 53). -/
def State.fwBegin (m : Msg) (s : State) : Effect :=
  let n := (Msg.arg64 0 m).toNat
  let k := 1 - s.hub.booted % 2
  s.unless (firstReply [
    need (Path.isService m.path) (Reply.fail Code.servicePortOnly),
    need (Msg.onlyArgs [0, 1] m && decide (1 ≤ n) && decide (n ≤ slotBytes)) badArg,
    need ((s.slot s.hub.booted).st != .trial) fwWrong]) fun s =>
    (s.modSlot k fun x => { FwSlot.reset with st := .writing, failure := x.failure, length := n, agent := (Path.agent m.path).getD 0 }).replies ⟨Code.ok, 0, [w32 k]⟩

/-- The slot that an agent writes. -/
def State.writingSlot (m : Msg) (s : State) : Option Nat :=
  (List.range 2).find? fun k => (s.slot k).st == .writing && some (s.slot k).agent == Path.agent m.path

/-- The 128-byte units of an image that a write covers wholly, up to the image's length (R532). -/
def unitsCovered (o n len : Nat) : List Nat :=
  (List.range ((n + 127) / 128)).filterMap fun i => if min len (o + 128 * (i + 1)) ≤ o + n then some (o / 128 + i) else none

/-- FW_WRITE (R531). -/
def State.fwWrite (m : Msg) (s : State) : Effect :=
  let o := (Msg.arg64 0 m).toNat
  s.unless (firstReply [
    need (Path.isService m.path) (Reply.fail Code.servicePortOnly),
    need (Msg.onlyArgs [0, 1] m && decide (o % 128 = 0)) badArg]) fun s =>
    match s.writingSlot m with
    | none => s.replies fwWrong
    | some k =>
      let x := s.slot k
      if x.length < o + m.data.length then s.replies badArg
      else
        let new := (unitsCovered o m.data.length x.length).filter fun u => !x.written.contains u
        (s.modSlot k fun x => { x with image := Memory.writeN o m.data x.image, written := x.written ++ new }).replies Reply.ok

/-- The checks of FW_FINISH in their order (R532); none where all pass. -/
def FwSlot.finishFault (rollMin : Nat) (x : FwSlot) : Option (BitVec 16) :=
  let h := Memory.readN 0 512 x.image
  let body := fieldAt 0x10 8 h
  if !((List.range ((x.length + 127) / 128)).all fun u => x.written.contains u) then some Code.fwMalformed
  else if fieldAt 0 4 h ≠ 0x4D494E48 ∨ fieldAt 4 1 h ≠ 1 then some Code.fwMalformed
  else if x.length ≠ 512 + body + 114 ∨ body % 16 ≠ 0 ∨ body < 16 ∨ 268434816 < body then some Code.fwMalformed
  else if fieldAt 5 1 h < rollMin then some Code.fwRollback
  else none

/-- The header fields of a stored image (R528). -/
def FwSlot.readHeader (x : FwSlot) : FwSlot :=
  let h := Memory.readN 0 512 x.image
  { x with version := BitVec.ofNat 64 (fieldAt 8 8 h), rollback := BitVec.ofNat 8 (fieldAt 5 1 h), setFmt := BitVec.ofNat 16 (fieldAt 6 2 h) }

/-- FW_FINISH: the slot is STAGED or FAILED; in recovery mode success resets the module after the reply (R531, R532, R534). -/
def State.fwFinish (m : Msg) (s : State) : Effect :=
  s.unless (firstReply [
    need (Path.isService m.path) (Reply.fail Code.servicePortOnly),
    need (Msg.onlyArgs [] m) badArg]) fun s =>
    match s.writingSlot m with
    | none => s.replies fwWrong
    | some k =>
      match (s.slot k).finishFault s.hub.rollMin with
      | some c => (s.modSlot k fun x => { x.readHeader with st := .failed, failure := c }).replies (Reply.fail c)
      | none =>
        let s := s.modSlot k fun x => { x.readHeader with st := .staged }
        let d := s.slotDigest k
        let s := d.2
        let s := if s.hub.recovery then (s.modMargin fun x => { x with rstVirtual := true, virtualAt := s.time }).acceptLow else s
        s.replies (Reply.bytes d.1)

/-- FW_DISCARD (R531). -/
def State.fwDiscard (m : Msg) (s : State) : Effect :=
  s.unless (firstReply [
    need (Path.isService m.path) (Reply.fail Code.servicePortOnly),
    need (Msg.onlyArgs [] m) badArg]) fun s =>
    match (List.range 2).find? fun k => (s.slot k).st == .writing || (s.slot k).st == .staged with
    | some k => (s.modSlot k fun x => { FwSlot.reset with failure := x.failure }).replies Reply.ok
    | none => s.replies fwWrong

/-- FW_CONFIRM: one update of slots, settings and the 64 rollback fuses (R526, R537). -/
def State.fwConfirm (m : Msg) (s : State) : Effect :=
  let k := s.hub.booted % 2
  s.unless (firstReply [
    need (Msg.onlyArgs [] m) badArg,
    need ((s.slot k).st == .trial && !s.hub.recovery) fwWrong]) fun s =>
    let s := s.modSlot k fun x => { x with st := .confirmed }
    let s := s.modSlot (1 - k) fun x => { FwSlot.reset with failure := x.failure }
    let s := s.modHub fun h => { h with
      settings := h.settings.set (1 - h.inUse) Settings.reset
      rollMin := max h.rollMin (min 64 (h.slots.getD k FwSlot.reset).rollback.toNat) }
    (s.log Code.fwConfirmed clsModule 0 0 0).replies Reply.ok

/-! ## Boot (R533 to R538, R540) -/

/-- Is a 224-byte certificate of a kind good: its layout, its issuer and the root key's signature (R540). -/
def certGood (kind : Nat) (c : List Byte) : Bool :=
  fieldAt 0 4 c == 0x54434E48 && fieldAt 4 1 c == 1 && fieldAt 5 1 c == kind && fieldAt 6 2 c == 0
    && (c.drop 0x10).take 8 == (shake256 32 (Config.publicKey "root")).take 8
    && (c.drop 0x51).take 27 == List.replicate 27 0 && (c.drop 0xDE).take 2 == List.replicate 2 0
    && Config.ed448Verify (Config.publicKey "root") (textBytes "HNL-CERT") (c.take 0x6C) ((c.drop 0x6C).take 114)

/-- The directory of a plaintext names every component once, within the plaintext (R529; log entry 55 for the count's width). -/
def directoryGood (bs : List Byte) : Bool :=
  let n := fieldAt 0 4 bs
  let es := (List.range (min n 1024)).map fun i => entryAt 4 32 i bs
  [1, 2, 3, 4].all (fun t => (es.filter fun e => fieldAt 0 1 e == t).length == 1)
    && es.all fun e => decide (fieldAt 8 8 e + fieldAt 16 8 e ≤ bs.length)

/-- Steps 2 to 5 of R533 on a slot: its plaintext, or the code of the failure. The image of manufacture passes (log entry 16). -/
def FwSlot.verify (rollMin : Nat) (x : FwSlot) : Except (BitVec 16) (List Byte) :=
  if x.factory then .ok []
  else
    let bs := x.bytes
    let h := bs.take 512
    let cipher := (bs.drop 512).take (bs.length - 626)
    let cert := (h.drop 0x40).take 224
    if !certGood 1 cert || !Config.ed448Verify ((cert.drop 0x18).take 57) (textBytes "HNL-FW") (h ++ cipher) (bs.drop (bs.length - 114)) then
      .error Code.fwSignatureBad
    else if x.rollback.toNat < rollMin then .error Code.fwRollback
    else
      let aad := h.take 0x30 ++ List.replicate 16 0 ++ h.drop 0x40
      match Config.aesOpen "image" ((h.drop 0x18).take 12) aad cipher ((h.drop 0x30).take 16) with
      | none => .error Code.fwTagBad
      | some plain => if directoryGood plain then .ok plain else .error Code.fwMalformed

/-- Step 1 of R533: the slot to boot. -/
def State.chooseSlot (s : State) : Option Nat :=
  match s.slotIn .staged with
  | some k => some k
  | none => match s.slotIn .confirmed with
    | some k => some k
    | none => s.slotIn .trial

/-- A TRIAL slot of an earlier boot was never confirmed: it is FAILED, and the trial copy of the settings is discarded. Without a
CONFIRMED slot it stays, and step 1 of R533 chooses it (R533, R538). -/
def State.fallback (s : State) : State :=
  match s.slotIn .trial, s.slotIn .confirmed with
  | some k, some _ =>
    let s := s.modSlot k fun x => { x with st := .failed, failure := Code.fwFallback }
    if k = s.hub.booted then s.modHub fun h => { h with settings := h.settings.set h.inUse Settings.reset, inUse := 1 - h.inUse } else s
  | _, _ => s

/-- Step 7 of R533: the settings copy of the booted slot (R536). -/
def State.selectSettings (k : Nat) (s : State) : State :=
  let fmt := (s.slot k).setFmt
  if (s.slot k).st = .trial then
    s.modHub fun h => { h with
      settings := h.settings.set (1 - h.inUse) { h.settings.getD h.inUse Settings.reset with fmt := fmt }
      inUse := 1 - h.inUse }
  else if s.settings.fmt = fmt then s
  else if (s.hub.settings.getD (1 - s.hub.inUse) Settings.reset).fmt = fmt then s.modHub fun h => { h with inUse := 1 - h.inUse }
  else s

/-- Step 6 of R533: every reported row is mapped to a spare row; the counts of corrected reads begin anew (R445). -/
def State.mapRows (s : State) : State :=
  (List.range 32).foldl (fun s k =>
    let rows := ((s.stack k).rowCounts.filter fun (e : Nat × Nat) => 16 ≤ e.2).map fun (e : Nat × Nat) => e.1
    s.modStack k fun t => { t with rowCounts := [], spared := t.spared ++ rows.filter fun r => !t.spared.contains r }) s

/-- The close markers that were not sent before the hub lost its power (R498). -/
def State.deferredMarkers (s : State) : State := s.meter.openJobs.foldl (fun s no => s.meterMarker false true no) s

/-- The attempts of the boot ROM: each slot once at most (R533). -/
def State.bootTry : Nat → State → State
  | 0, s => s.modHub fun h => { h with recovery := true }
  | n + 1, s =>
    match s.chooseSlot with
    | none => s.modHub fun h => { h with recovery := true }
    | some k =>
      let new := (s.slot k).st == .staged
      let s := if new then s.modSlot k fun x => { x with st := .trial } else s
      match (s.slot k).verify s.hub.rollMin with
      | .error c => (s.modSlot k fun x => { x with st := .failed, failure := c }).bootTry n
      | .ok plain =>
        let s := s.mapRows.selectSettings k
        let s := s.modHub fun h => { h with booted := k, recovery := false, running := (h.slots.getD k FwSlot.reset).version, plain := plain }
        let s := s.modMargin fun x => { x with bootDone := true, opStage := true }
        s.deferredMarkers

/-- BOOT_ROM_RUN: the boot ROM runs when the system processor has left reset (R477, R533). -/
def State.bootRom (s : State) : State :=
  if s.margin.power = .hubUp ∧ s.margin.hubOn ∧ !s.margin.hubHeld ∧ !s.margin.bootDone ∧ !s.hub.recovery then s.fallback.bootTry 2 else s

/-! ## Keys (R531, R541) -/

/-- The bytes of the words of a list. -/
def bytesOf (ws : List Word) : List Byte := ws.flatMap fun w => leBytes 4 w.toNat

/-- The words a<lo> to a<lo + n - 1> of a message. -/
def Msg.argList (lo n : Nat) (m : Msg) : List Word := (List.range n).map fun i => Msg.arg (lo + i) m

/-- KEY_ENROL: an enrolled id is replaced (R541). -/
def State.keyEnrol (m : Msg) (s : State) : Effect :=
  let id := Msg.arg64 0 m
  let key := bytesOf (Msg.argList 3 15 m)
  let known := s.settings.agents.any fun (a : Agent) => a.id == id
  s.unless (firstReply [
    need (Msg.onlyArgs (List.range 18) m && id != 0 && decide (1 ≤ Msg.argN 2 m) && decide (Msg.argN 2 m ≤ 3) && key.drop 57 == [0, 0, 0]) badArg,
    need (known || decide (s.settings.agents.length < 64)) (Reply.fail Code.keyStoreFull)]) fun s =>
    let a : Agent := ⟨id, (Msg.arg 2 m).setWidth 2, key.take 57⟩
    (s.modSettings fun x => { x with
      agents := if known then x.agents.map fun (b : Agent) => if b.id = id then a else b else x.agents ++ [a] }).replies Reply.ok

/-- KEY_REMOVE (R541). -/
def State.keyRemove (m : Msg) (s : State) : Effect :=
  let id := Msg.arg64 0 m
  let rest := s.settings.agents.filter fun (a : Agent) => a.id != id
  s.unless (firstReply [
    need (Msg.onlyArgs [0, 1] m) badArg,
    need (s.settings.agents.any fun (a : Agent) => a.id == id) (Reply.fail Code.keyUnknown),
    need (rest.any (fun (a : Agent) => a.right == 3#2) || !(s.settings.agents.any fun (a : Agent) => a.right == 3#2)) badArg]) fun s =>
    (s.modSettings fun x => { x with agents := rest }).replies Reply.ok

/-- The 16 bytes of KEY_LIST for an agent: id, right, digest of the key (R531; log entry 54). -/
def Agent.bytes (a : Agent) : List Byte := leBytes 8 a.id.toNat ++ leBytes 4 a.right.toNat ++ (shake256 32 a.key).take 4

/-- KEY_LIST. -/
def State.keyList (m : Msg) (s : State) : Effect :=
  if Msg.onlyArgs [0] m then s.replies (paged 16 (Msg.argN 0 m) (s.settings.agents.map Agent.bytes)) else s.replies badArg

/-! ## Attestation (R540, R542) -/

/-- The 120-byte body of an attestation (R542). -/
def State.attestBody (kind job : Nat) (nonce digest : List Byte) (s : State) : List Byte :=
  leBytes 4 0x54414E48 ++ leBytes 4 (1 + 256 * kind + 65536 * job) ++ leBytes 8 s.hub.serial.toNat ++ nonce ++ leBytes 8 s.hub.running.toNat
    ++ leBytes 4 (s.hub.rollMin + 2 ^ 8 * (s.hub.booted % 2) + 2 ^ 9 * b2n ((s.slot s.hub.booted).st == .trial))
    ++ leBytes 4 (s.fuse.grade.toNat + 2 ^ 8 * ((s.fuseReg 4).toNat % 65536))
    ++ leBytes 8 s.fuse.portOff.toNat ++ leBytes 32 s.fuse.clusterOff.toNat ++ padTo 16 digest

/-- The half of an attestation that a message asks for. -/
def attestHalf (m : Msg) (body : List Byte) : Reply :=
  if Msg.argN 0 m = 0 then Reply.bytes body
  else Reply.bytes (padTo 120 ((Config.ed448Sign "identity" (textBytes "HNL-ATTEST") body).take 114))

/-- ATTEST (R542). -/
def State.attest (m : Msg) (s : State) : Effect :=
  if Msg.onlyArgs (List.range 9) m ∧ fits 1 (Msg.arg 0 m) then
    let d := s.slotDigest s.hub.booted
    d.2.replies (attestHalf m (s.attestBody 1 0 (bytesOf (Msg.argList 1 8 m)) d.1))
  else s.replies badArg

/-- ATTEST_RUN: over the run record and the command log of a started job (R314, R542). -/
def State.attestRun (m : Msg) (s : State) : Effect :=
  if Msg.onlyArgs (List.range 9) m ∧ fits 1 (Msg.arg 0 m) then
    let record := s.runRecord m.job ++ (s.job m.job).runLog.flatMap LogEntry.bytes
    s.replies (attestHalf m (s.attestBody 2 m.job.toNat (bytesOf (Msg.argList 1 8 m)) (shake256 32 record)))
  else s.replies badArg

/-- A certificate as records of 120 bytes, the last padded (R461). -/
def certRecords (name : String) : List (List Byte) :=
  let c := Config.certificate name
  (List.range 2).map fun i => padTo 120 (c.drop (120 * i))

/-- IDENTITY_CERT. -/
def State.identityCert (m : Msg) (s : State) : Effect :=
  if Msg.onlyArgs [0] m then s.replies (paged 120 (Msg.argN 0 m) (certRecords "identity")) else s.replies badArg

end Sys2Proof.Machine
end

