-- ==== Sys2Proof/Machine/PairCmds.lean ====
section
/-! DEFINITION. The commands of the pair and the pushes to the fault manager (21 R515 to R523). -/

namespace Sys2Proof.Machine

/-- A pair command in a module state that does not allow it (R523). -/
def State.pairWrong (s : State) : Reply := Reply.failD Code.wrongState (s.pair.st.code.setWidth 8)

/-- The words of PAIR_STATUS (R523). -/
def State.pairWords (s : State) : List Word :=
  let moves := (s.clusters.flatMap fun (e : Nat × Cluster) => (e.2.moves.filter fun (m : MoveOut) => m.mirrored && !m.acksDue.isEmpty).map fun (m : MoveOut) => (m.impr.job, m.shard))
  let seals := s.pair.seals.map fun (q : SealOut) => (q.job, q.shard)
  [s.pair.st.code.setWidth 32, (match s.partner with | some m => m.setWidth 32 | none => 0x1FF), w32 (HbSt.code s.margin.hbSt),
    w32 (s.trunk 6).length, w32 (moves ++ seals).eraseDups.length, w32 (s.pair.recUnits.head?.getD 0xFFFF), s.hub.eventSeq]

/-- PAIR_STATUS. -/
def State.pairStatus (m : Msg) (s : State) : Effect :=
  if Msg.onlyArgs [] m then s.replies ⟨Code.ok, 0, s.pairWords⟩ else s.replies badArg

/-- FM_REGISTER: the address is a setting (R522, R526). -/
def State.fmRegister (m : Msg) (s : State) : Effect :=
  if Msg.onlyArgs [0, 1, 2, 3, 4] m ∧ fits 17 (Msg.arg 0 m) then
    (s.modSettings fun x => { x with fmAddr := some (Msg.argList 0 5 m) }).replies Reply.ok
  else s.replies badArg

/-- Does a job have a mirror table and run. -/
def Job.mirrored (j : Job) : Bool := j.st == .running && (match j.plate with | some p => !p.mirror.isEmpty | none => false)

/-- FAILOVER: takeover begins; the mirrored jobs that run will switch to the failover mapping (R515). -/
def State.failover (m : Msg) (s : State) : Effect :=
  let b := Msg.argN 1 m
  let step := Msg.arg 2 m
  s.unless (firstReply [
    need (Msg.onlyArgs [1, 2] m && decide (b ≤ 3)) badArg,
    need (s.pair.st == .partnerLost) s.pairWrong,
    need (s.jobs.all fun (e : Nat × Job) => !e.2.mirrored || (match e.2.plate with | some p => decide (b < p.mappingsN) | none => true)) badArg]) fun s =>
    let s := s.modPair fun p => { p with foMapping := b }
    let s := s.jobs.foldl (fun (s : State) (e : Nat × Job) =>
      if e.2.mirrored then s.modJob e.2.no fun j => { j with
        mapPend := some (step, b), mapNext := none, mapReady := false, mapOn := none, mapAt := none, mapBad := j.mapHere } else s) s
    s.takeover.replies Reply.ok

/-- RESYNC: every range goes to the partner, which is to be UNPAIRED (R516; log entry 56). -/
def State.resync (m : Msg) (s : State) : Effect :=
  s.unless (firstReply [
    need (Msg.onlyArgs [] m) badArg,
    need (s.pair.st == .solo) s.pairWrong,
    need (s.pair.partnerSt == 0#4) (Reply.fail Code.pairNotReady)]) fun s =>
    if s.pair.shadows.isEmpty then
      let s := s.modPair fun p => { p with st := .paired }
      (s.append { s.event Code.resyncDone clsModule 0 0 0 with recEnd := true }).replies Reply.ok
    else
      let s := s.modPair fun p => { p with st := .resync, resyncLeft := p.shadows.map fun (x : Shadow) => x.shard }
      (s.pair.shadows.foldl (fun (s : State) (x : Shadow) => s.sendRanges x.job x.shard x.st x.ranges) s).replies Reply.ok

/-- RESTORE_PARTNER: the sealed hold ranges of a STOPPED job go back to the partner (R520). -/
def State.restorePartner (m : Msg) (s : State) : Effect :=
  let want := Msg.arg 1 m
  let holds := s.pair.holds.filter fun (h : HoldRange) => h.job == m.job && (want == 0xFFFFFFFF || h.shard == want)
  s.unless (firstReply [
    need (Msg.onlyArgs [1] m) badArg,
    need (s.pair.st == .paired || s.pair.st == .fenced) s.pairWrong,
    s.jobCheck m.job (fun j => j.st == .stopped),
    need (want == 0xFFFFFFFF || !holds.isEmpty) badArg]) fun s =>
    let s := s.modPair fun p => { p with restoring := !holds.isEmpty, resyncLeft := holds.map fun (h : HoldRange) => h.shard }
    (holds.foldl (fun (s : State) (h : HoldRange) => s.sendRanges h.job h.shard h.st [(h.base.toNat, h.length)]) s).replies Reply.ok

/-- PAIR_UNFENCE: only with every job NONE or LOADED (R518). -/
def State.pairUnfence (m : Msg) (s : State) : Effect :=
  s.unless (firstReply [
    need (Msg.onlyArgs [] m) badArg,
    need (s.pair.st == .fenced && s.jobs.all fun (e : Nat × Job) => e.2.st == .none || e.2.st == .loaded) s.pairWrong]) fun s =>
    (s.modPair fun p => { p with st := .unpaired, restoring := false, resyncLeft := [], solo := false }).replies Reply.ok

/-- DECLARE_LOST (R512). -/
def State.declareLostCmd (m : Msg) (s : State) : Effect :=
  s.unless (firstReply [
    need (Msg.onlyArgs [] m) badArg,
    need (s.pair.st == .paired || s.pair.st == .recovering) s.pairWrong]) fun s => s.declareLost.replies Reply.ok

/-! ## Pushes (R522) -/

/-- The address of FM_REGISTER as bytes and port (log entry 57). -/
def fmTarget (ws : List Word) : List Byte × BitVec 16 :=
  let a := ws.getD 0 0
  (if a.getLsbD 16 then bytesOf (ws.drop 1) else bytesOf ((ws.drop 1).take 1), a.setWidth 16)

/-- The bytes of an EVENT_PUSH with the events that it carries (R470, R522; log entry 57). -/
def State.pushBytes (es : List Event) (s : State) : List Byte :=
  let m : Msg := ⟨0, 0, 0, [], [], .internal⟩
  s.replyDatagram 0x0097 false 0 m ⟨Code.ok, 0, s.pairWords ++ [0] ++ es.flatMap fun e => wordsOf 8 e.bytes⟩

/-- EVENT_PUSH: events that have not been pushed go, up to 3; without one a heartbeat goes after 100 ms. -/
def State.pushEvents (s : State) : State :=
  match s.settings.fmAddr with
  | some ws =>
    let es := (s.hub.events.filter fun (e : Event) => s.pair.pushedSeq < e.seq).take 3
    if s.margin.hubOn ∧ !s.margin.hubHeld ∧ !s.hub.recovery ∧ (!es.isEmpty ∨ s.pair.lastPush + 100000000 ≤ s.time) then
      let t := fmTarget ws
      (s.output (.datagram false t.1 t.2 (s.pushBytes es))).modPair fun p => { p with
        lastPush := s.time, pushedSeq := match es.getLast? with | some e => e.seq | none => p.pushedSeq }
    else s
  | none => s

/-- EVENT_PUSH (R522). -/
def execEventPush (now : Nat) (s : State) : Host.Outcome State Fault Refusal := s.happens now (fun s => s.pushEvents)

end Sys2Proof.Machine
end

