-- ==== Sys2Proof/Machine/Meter.lean ====
section
/-! DEFINITION. The sealed energy meter: its records, its seal, its labels, and what the hub reads of it (20 R493 to R505). -/

namespace Sys2Proof.Machine

/-- The label that a record carries at an instant of the meter clock: none where none arrived within the last 2 s (R497). -/
def Meter.labelAt (ms : Nat) (m : Meter) : Option DWord :=
  match m.label with
  | some (t, at_) => if ms ≤ at_ + 2000 then some t else none
  | none => none

/-- What the meter measures: its clock and its energy register never go back, and one instant has one energy (R493, R499). -/
def Meter.reads (x : MeterSample) (m : Meter) : MeterSample :=
  { x with ms := max m.ms x.ms, energy := if x.ms ≤ m.ms ∨ x.energy.toNat < m.energy.toNat then m.energy else x.energy }

/-- Did a sample lie outside the class 0.5 range of 40.0 to 62.0 V and 0.25 to 20 A: as reported, or as the extremes say (R493, R496). -/
def outsideRange (x : MeterSample) : Bool :=
  x.range || decide (x.vmin.toNat < 4000) || decide (6200 < x.vmax.toNat) || decide (20000 < x.imax.toNat) || decide (x.imax.toNat < 250)

/-- The next record (R496). -/
def Meter.record (kind : Byte) (deferred : Bool) (job : JobNo) (x : MeterSample) (m : Meter) : MeterRec where
  kind := kind
  broken := m.broken
  absent := (m.labelAt x.ms).isNone
  range := outsideRange x
  deferred := deferred
  seq := BitVec.ofNat 64 m.nextSeq
  meterS := BitVec.ofNat 64 (x.ms / 1000)
  netTime := (m.labelAt x.ms).getD 0
  total := x.energy
  span := x.energy - m.lastTotal
  job := job
  module := m.module
  spanMs := BitVec.ofNat 32 (x.ms - m.lastMs)
  vmin := x.vmin
  vmax := x.vmax
  pmax := x.pmax
  imax := x.imax

/-- Write a record: the number rises, the latest 8,192 stay (R495, R500). -/
def Meter.write (kind : Byte) (deferred : Bool) (job : JobNo) (x : MeterSample) (m : Meter) : Meter :=
  let x := m.reads x
  { m with
    records := pushRing 8192 (m.record kind deferred job x) m.records, nextSeq := m.nextSeq + 1
    energy := x.energy, ms := x.ms, lastMs := x.ms, lastTotal := x.energy }

/-- The meter's seconds have reached a multiple of 60, which has its one INTERVAL record (R495). -/
def Meter.minute (m : MeterSample) (x : Meter) : Meter :=
  let t := (x.reads m).ms / 1000
  if x.up ∧ t % 60 = 0 ∧ x.lastMin ≠ some t then Meter.write 1 false 0 m { x with lastMin := some t } else x

/-- METER_INTERVAL (R495). -/
def execMeterInterval (m : MeterSample) (s : State) : Host.Outcome State Fault Refusal :=
  s.acts (fun s => s.modMeter fun x => x.minute m)

/-- METER_JOB_MARKER: a marker of the hub comes with the network time and the module number (R495, R497, R498). It absorbs no interval: an
INTERVAL record that is due has its place before it (R499). -/
def execMeterJobMarker (open_ deferred : Bool) (job : JobNo) (module : BitVec 16) (m : MeterSample) (s : State) : Host.Outcome State Fault Refusal :=
  s.acts (fun s => s.modMeter fun x =>
    let x := x.minute m
    if x.up then Meter.write (if open_ then 2 else 3) (deferred && !open_) job m { x with label := some (BitVec.ofNat 64 s.time, (x.reads m).ms), module := module }
    else x)

/-- METER_SEAL_BREAK: latched for ever, with one record (R501). -/
def execMeterSealBreak (m : MeterSample) (s : State) : Host.Outcome State Fault Refusal :=
  s.acts (fun s => s.modMeter fun x => if x.up ∧ !x.broken then Meter.write 4 false 0 m { x with broken := true } else x)

/-- METER_POWER_UP (R494, R495): no label has arrived since. -/
def execMeterPowerUp (m : MeterSample) (s : State) : Host.Outcome State Fault Refusal :=
  s.acts (fun s => s.modMeter fun x => if x.up then x else Meter.write 5 false 0 m { x with up := true, label := none })

/-- METER_POWER_LOSS (R495). -/
def execMeterPowerLoss (m : MeterSample) (s : State) : Host.Outcome State Fault Refusal :=
  s.acts (fun s => s.modMeter fun x => if x.up then { x.write 6 false 0 m with up := false } else x)

/-- Is the network time due at the meter: a second after the hub last sent it (R497). -/
def State.labelDue (s : State) : Bool :=
  s.margin.hubOn && match s.meter.toldAt with | some t => decide (t + 1000000000 ≤ s.time) | none => true

/-- The hub sends the current network time, and a meter that runs takes it as its label (R497). -/
def State.tellMeter (m : MeterSample) (s : State) : State :=
  let now : DWord := BitVec.ofNat 64 s.time
  (s.output (.label now)).modMeter fun x =>
    let y := x.reads m
    if x.up then { x with toldAt := some s.time, label := some (now, y.ms), ms := y.ms, energy := y.energy } else { x with toldAt := some s.time }

/-- METER_TIME_LABEL (R497): once per second beside the markers. -/
def execMeterTimeLabel (m : MeterSample) (now : Nat) (s : State) : Host.Outcome State Fault Refusal :=
  s.happens now (fun s => if s.labelDue then s.tellMeter m else s)

/-- The meter does not answer: METER_LOST once, until it answers again (R29, R500). -/
def State.loseMeter (s : State) : State :=
  if s.meter.lost then s else (s.modMeter fun x => { x with lost := true }).log Code.meterLost clsModule 0 0 0

/-- METER_LOST. -/
def execMeterLost (now : Nat) (s : State) : Host.Outcome State Fault Refusal := s.happens now (fun s => s.loseMeter)

/-! ## What the hub reads (R496, R500, R504, R505) -/

/-- The 120-byte body of a record (R496). -/
def Meter.body (r : MeterRec) (m : Meter) : List Byte :=
  leBytes 4 0x544D4E48
    ++ leBytes 4 (1 + 2 ^ 8 * r.kind.toNat + 2 ^ 16 * b2n r.broken + 2 ^ 17 * b2n r.absent + 2 ^ 18 * b2n r.range + 2 ^ 19 * b2n r.deferred)
    ++ leBytes 8 m.serial.toNat ++ leBytes 8 r.seq.toNat ++ leBytes 8 r.meterS.toNat ++ leBytes 8 r.netTime.toNat ++ leBytes 8 r.total.toNat
    ++ leBytes 8 r.span.toNat ++ leBytes 4 (r.job.toNat + 65536 * r.module.toNat) ++ leBytes 4 r.spanMs.toNat
    ++ leBytes 4 (r.vmin.toNat + 65536 * r.vmax.toNat) ++ leBytes 4 (r.pmax.toNat + 65536 * r.imax.toNat) ++ leBytes 8 m.firmware.toNat
    ++ List.replicate 40 0

/-- The oldest sequence number held; with no record it is left open. -/
def State.oldestRec (s : State) : DWord × State := match s.meter.records.head? with | some r => (r.seq, s) | none => s.free
/-- The latest sequence number; with no record it is left open. -/
def State.latestRec (s : State) : DWord × State := match s.meter.records.getLast? with | some r => (r.seq, s) | none => s.free

/-- METER_INFO answered by the meter (R504). -/
def State.meterInfoReply (s : State) : Reply × State :=
  let a := s.latestRec
  let b := a.2.oldestRec
  (⟨Code.ok, 0, words64 s.meter.serial ++ words64 s.meter.firmware ++ [w32 (b2n s.meter.broken)] ++ words64 a.1 ++ words64 b.1⟩, b.2)

/-- METER_READ answered by the meter (R504). -/
def State.meterReadReply (m : Msg) (s : State) : Reply × State :=
  let seq := Msg.arg64 0 m
  match s.meter.records.find? fun (r : MeterRec) => r.seq == seq with
  | some r =>
    let body := Meter.body r s.meter
    (Reply.bytes (if Msg.argN 2 m = 0 then body else padTo 120 ((Config.ed448Sign "meter" (textBytes "HNL-METER") body).take 114)), s)
  | none =>
    if s.meter.nextSeq ≤ seq.toNat then (badArg, s)
    else
      let a := s.oldestRec
      (⟨Code.meterGone, 0, words64 a.1⟩, a.2)

/-- METER_PUBKEY answered by the meter (R504). -/
def meterKeyReply : Reply := ⟨Code.ok, 0, wordsOf 32 (padTo 128 ((Config.publicKey "meter").take 57))⟩

/-- The answer of the meter to a command. -/
def State.meterAnswer (code : BitVec 16) (m : Msg) (s : State) : Reply × State :=
  if code = 0x00A0 then s.meterInfoReply
  else if code = 0x00A1 then s.meterReadReply m
  else if code = 0x00A2 then (meterKeyReply, s)
  else (paged 120 (Msg.argN 0 m) (certRecords "meter"), s)

/-- A meter command goes to the meter and is in progress until the answer or the timeout (R504). -/
def State.askMeter (code : BitVec 16) (args : List Nat) (m : Msg) (s : State) : Effect :=
  if Msg.onlyArgs args m then (none, s.modMeter fun x => { x with waiting := some (code, m, s.time) }) else s.replies badArg

/-- METER_INFO. -/
def State.meterInfo (m : Msg) (s : State) : Effect := s.askMeter 0x00A0 [] m
/-- METER_READ. -/
def State.meterRead (m : Msg) (s : State) : Effect := if fits 1 (Msg.arg 2 m) then s.askMeter 0x00A1 [0, 1, 2] m else s.replies badArg
/-- METER_PUBKEY. -/
def State.meterPubkey (m : Msg) (s : State) : Effect := s.askMeter 0x00A2 [] m
/-- METER_CERT. -/
def State.meterCert (m : Msg) (s : State) : Effect := s.askMeter 0x00A3 [0] m

/-- What arrives from the meter: the answer of the command in progress, or a record that the hub copies; a SEAL record is written to
the event log (R500, R504, R505). -/
def State.meterArrives (a : MeterAnswer) (s : State) : State :=
  let s := s.modMeter fun x => { x with lost := false }
  match a with
  | .command =>
    match s.meter.waiting with
    | some (code, m, _) =>
      let r := (s.modMeter fun x => { x with waiting := none }).meterAnswer code m
      r.2.answerMsg code 16 m r.1
    | none => s
  | .record seq =>
    match s.meter.records.find? fun (r : MeterRec) => r.seq == seq with
    | some r =>
      let s := s.modMeter fun x => { x with copies := x.copies ++ [r], readUpTo := max x.readUpTo (seq.toNat + 1) }
      if r.kind = 4 then s.log Code.sealBroken clsModule 0 0 0 else s
    | none => s

/-- The command in progress has had no answer for 100 ms (R504). -/
def State.meterLate (s : State) : State :=
  match s.meter.waiting with
  | some (code, m, t) =>
    if t + 100000000 ≤ s.time then
      ((s.modMeter fun x => { x with waiting := none }).loseMeter).answerMsg code 16 m (Reply.fail Code.meterAbsent)
    else s
  | none => s

end Sys2Proof.Machine
end

