-- ==== Sys2Proof/Machine/RouteCmds.lean ====
section
/-! DEFINITION. The route commands: staging a fabric map and a role table with the checks of R370, drain, swap, resume, cancel (14
R367 to R370, R389 to R391; 18 R468). -/

namespace Sys2Proof.Machine

/-- The fabric map and the role bytes in 4,224 bytes (R369, R468). -/
def parseMap (bs : List Byte) : FabricMap where
  version := BitVec.ofNat 32 (fieldAt 0 4 bs)
  nx := fieldAt 4 1 bs
  ny := fieldAt 5 1 bs
  entries := (List.range 512).foldl (fun t i =>
    let v := fieldAt (64 + 8 * i) 8 bs
    Table.set MapEntry.absent i ⟨v % 2 == 1, bitsOf v 8 8, bitsOf v 16 8, bitsOf v 24 9, bitsOf v 36 1 == 1, bitsOf v 37 1 == 1, bitsOf v 38 1 == 1, bitsOf v 39 1 == 1⟩ t) []
  roles := (List.range 64).map fun p => BitVec.ofNat 4 (fieldAt (4160 + p) 1 bs)

/-- Is the down bit of a link the same at both ends. -/
def FabricMap.linkAgrees (isX : Bool) (e : MapEntry) (m : FabricMap) : Bool :=
  match if isX then m.find ((e.x + 1) % max 1 m.nx) e.y else m.find e.x ((e.y + 1) % max 1 m.ny) with
  | some n => if isX then e.downXp == n.2.downXm else e.downYp == n.2.downYm
  | none => false

/-- The map passes R370: sizes, coordinates, partners, links, digest, the own entry. -/
def FabricMap.good (own : Nat) (bs : List Byte) (m : FabricMap) : Bool :=
  let valid := m.entries.filter fun (e : Nat × MapEntry) => e.2.valid
  let places := valid.map fun (e : Nat × MapEntry) => (e.2.x, e.2.y)
  m.nx != 0 && m.ny != 0 && decide (m.nx * m.ny ≤ 512)
    && valid.all (fun (e : Nat × MapEntry) => decide (e.2.x < m.nx) && decide (e.2.y < m.ny))
    && places.eraseDups.length == places.length && places.length == m.nx * m.ny
    && valid.all (fun (e : Nat × MapEntry) => (m.entry e.2.partner).valid && (m.entry e.2.partner).partner == e.1)
    && valid.all (fun (e : Nat × MapEntry) => m.linkAgrees true e.2 && m.linkAgrees false e.2)
    && digest32 ((bs.drop 64).take 4096) == BitVec.ofNat 256 (fieldAt 0x20 32 bs)
    && (m.entry own).valid

/-- The role table passes R370: no reserved role, trunks of at most 16 ports, 4 mirror ports, no role on a disabled port. -/
def State.rolesGood (bs : List Byte) (s : State) : Bool :=
  let role := fun (p : Nat) => fieldAt (4160 + p) 1 bs
  let count := fun (r : Nat) => ((List.range 64).filter fun p => role p == r).length
  (List.range 64).all (fun p => decide (role p ≤ 6) && (s.hasPort (BitVec.ofNat 6 p) || role p == 0))
    && [2, 3, 4, 5].all (fun r => decide (count r ≤ 16)) && count 6 == 4

/-- Does a loaded job name a port of this module as an endpoint port that the new roles do not make one (R370). -/
def State.routeInUse (m : FabricMap) (s : State) : Bool :=
  s.plates.any fun p => p.ranks.any fun (e : RankEntry) =>
    e.kind == 1#2 && e.module == s.ownModule && m.roles.getD e.port.toNat 0 != 1#4

/-- ROUTE_LOAD (R370, R468). -/
def State.routeLoad (m : Msg) (s : State) : Effect :=
  let o := (Msg.arg64 0 m).toNat
  if 4000000000 < o + 4224 then s.replies badArg
  else
    let bs := Memory.readN o 4224 s.staging
    let x := parseMap bs
    s.unless (firstReply [
      need (x.good s.fab.module.toNat bs && s.rolesGood bs) (Reply.fail Code.routeInvalid),
      need (!s.routeInUse x) (Reply.fail Code.routeInUse)]) fun s =>
      (s.modFab fun b => { b with staged := some x }).replies Reply.ok

/-- A route command in a route state that does not allow it (R468). -/
def State.routeWrong (s : State) : Reply := Reply.failD Code.wrongState (BitVec.ofNat 8 (RouteSt.code s.fab.st))

/-- ROUTE_DRAIN: admission stops in ACTIVE; a module that has stopped it already stays as it is (R389, R390, R468). -/
def State.routeDrain (_ : Msg) (s : State) : Effect :=
  (if s.fab.st = .active then s.modFab fun b => { b with st := .draining, drainAt := s.time, drainTold := false } else s).replies Reply.ok

/-- A port takes its role of the active table: an unused port is DISABLED, a used one leaves DISABLED (R367, R368). -/
def State.takeRole (p : Port) (r : BitVec 4) (s : State) : State :=
  let s := s.modPort p fun x => { x with role := r, neighbourOk := false, neighbourEv := false }
  let s := if r = 0 ∧ (s.port p).phase ≠ .disabled then s.linkDown p .disabled false
    else if r ≠ 0 ∧ (s.port p).phase = .disabled ∧ !(s.port p).disable then s.toPhase p .detect else s
  s.checkNeighbour p

/-- ROUTE_SWAP: map and roles become active in one change; admission stays stopped (R389). Where nothing is staged the tables
stay (log entry 48). -/
def State.routeSwap (_ : Msg) (s : State) : Effect :=
  if s.fab.st ≠ .drained then s.replies s.routeWrong
  else
    let s := match s.fab.staged with
      | some m =>
        let s := s.modFab fun b => { b with map := some m, staged := none, lost := [] }
        allPorts.foldl (fun (s : State) p => if s.hasPort p then s.takeRole p (m.roles.getD p.toNat 0) else s) s
      | none => s
    (s.modFab fun b => { b with st := .swapped }).replies Reply.ok

/-- ROUTE_RESUME: normal forwarding in SWAPPED; in ACTIVE nothing changes, in the states of a drain it is refused (R389; log entry
48). -/
def State.routeResume (_ : Msg) (s : State) : Effect :=
  match s.fab.st with
  | .swapped => (s.modFab fun b => { b with st := .active }).admitWaiting.replies Reply.ok
  | .active => s.replies Reply.ok
  | _ => s.replies s.routeWrong

/-- ROUTE_CANCEL: from DRAINING or DRAINED back to ACTIVE with the old tables (R389). -/
def State.routeCancel (_ : Msg) (s : State) : Effect :=
  if s.fab.st = .draining ∨ s.fab.st = .drained then (s.modFab fun b => { b with st := .active }).admitWaiting.replies Reply.ok
  else s.replies s.routeWrong

end Sys2Proof.Machine
end

