-- ==== Sys2Proof/Machine/Commands.lean ====
section
/-! DEFINITION. The command table: where a command runs, with which right and in which states of its job, what it does, and how the
hub and the control processors run commands one at a time (18 R454 to R460, R471; 22 R534). -/

namespace Sys2Proof.Machine

/-! ## The table (R460, R489, R504, R523, R531) -/

/-- The target that a command takes. -/
inductive CmdAt where
  | any
  | hub
  | die
  deriving DecidableEq, Repr

/-- The job states that a command takes (R460). -/
inductive JobNeed where
  | any
  | fresh
  | loaded
  | stoppable
  | ending
  | moded
  | running
  | lines
  | started
  deriving DecidableEq, Repr

/-- Is a job in the states that a command takes. -/
def JobNeed.ok (n : JobNeed) (j : Job) : Bool :=
  match n with
  | .any => true
  | .fresh => j.st == .none || j.st == .loading
  | .loaded => j.st == .loaded
  | .stoppable => j.st == .starting || j.st == .running || j.st == .done
  | .ending => j.st == .done || j.st == .stopped
  | .moded => j.st == .loaded || j.st == .starting || j.st == .running
  | .running => j.st == .running
  | .lines => j.st == .running || j.st == .stopped
  | .started => j.started

/-- A row of the command table: target, least right (1 read, 2 operate, 3 admin), job states. -/
structure CmdRow where
  place : CmdAt
  right : Nat
  need  : JobNeed
  deriving DecidableEq, Repr

/-- The command table. -/
def cmdTable : List (BitVec 16 × CmdRow) :=
  [(0x0001, ⟨.any, 1, .any⟩), (0x0002, ⟨.hub, 1, .any⟩), (0x0010, ⟨.any, 1, .any⟩), (0x0011, ⟨.any, 3, .any⟩),
   (0x0020, ⟨.hub, 2, .any⟩), (0x0021, ⟨.hub, 2, .fresh⟩), (0x0022, ⟨.hub, 2, .loaded⟩),
   (0x0030, ⟨.hub, 2, .loaded⟩), (0x0031, ⟨.hub, 2, .stoppable⟩), (0x0032, ⟨.hub, 2, .ending⟩), (0x0033, ⟨.hub, 2, .moded⟩),
   (0x0034, ⟨.hub, 2, .running⟩), (0x0035, ⟨.hub, 2, .running⟩), (0x0036, ⟨.hub, 3, .running⟩)]
  ++ [(0x0040, ⟨.hub, 3, .any⟩), (0x0041, ⟨.hub, 3, .any⟩), (0x0042, ⟨.hub, 3, .any⟩), (0x0043, ⟨.hub, 3, .any⟩), (0x0044, ⟨.hub, 3, .any⟩),
   (0x0050, ⟨.hub, 1, .started⟩), (0x0051, ⟨.hub, 1, .started⟩), (0x0052, ⟨.hub, 1, .started⟩), (0x0053, ⟨.hub, 1, .started⟩),
   (0x0054, ⟨.hub, 1, .started⟩), (0x0055, ⟨.hub, 1, .started⟩), (0x0056, ⟨.hub, 1, .any⟩)]
  ++ [(0x0060, ⟨.die, 1, .any⟩), (0x0061, ⟨.die, 1, .any⟩), (0x0062, ⟨.die, 2, .any⟩), (0x0063, ⟨.die, 1, .started⟩), (0x0064, ⟨.die, 1, .any⟩),
   (0x0065, ⟨.die, 1, .any⟩), (0x0066, ⟨.die, 2, .lines⟩), (0x0067, ⟨.die, 2, .running⟩)]
  ++ [(0x0070, ⟨.hub, 1, .any⟩), (0x0071, ⟨.hub, 3, .any⟩), (0x0072, ⟨.hub, 3, .any⟩), (0x0073, ⟨.hub, 3, .any⟩), (0x0074, ⟨.hub, 3, .any⟩),
   (0x0075, ⟨.hub, 3, .any⟩), (0x0076, ⟨.hub, 3, .any⟩), (0x0077, ⟨.hub, 3, .any⟩), (0x0078, ⟨.hub, 1, .any⟩), (0x0079, ⟨.hub, 1, .any⟩),
   (0x007A, ⟨.hub, 1, .started⟩), (0x007B, ⟨.hub, 1, .any⟩)]
  ++ [(0x0080, ⟨.hub, 3, .any⟩), (0x0081, ⟨.hub, 3, .any⟩), (0x0082, ⟨.hub, 3, .any⟩), (0x0083, ⟨.hub, 3, .any⟩), (0x0084, ⟨.hub, 3, .any⟩),
   (0x0085, ⟨.hub, 3, .any⟩), (0x0086, ⟨.hub, 1, .any⟩)]
  ++ [(0x0090, ⟨.hub, 1, .any⟩), (0x0091, ⟨.hub, 3, .any⟩), (0x0092, ⟨.hub, 3, .any⟩), (0x0093, ⟨.hub, 3, .any⟩), (0x0094, ⟨.hub, 3, .any⟩),
   (0x0095, ⟨.hub, 3, .any⟩), (0x0096, ⟨.hub, 3, .any⟩)]
  ++ [(0x00A0, ⟨.hub, 1, .any⟩), (0x00A1, ⟨.hub, 1, .any⟩), (0x00A2, ⟨.hub, 1, .any⟩), (0x00A3, ⟨.hub, 1, .any⟩)]

/-- The row of a code. -/
def cmdRow (code : BitVec 16) : Option CmdRow := (cmdTable.find? fun (e : BitVec 16 × CmdRow) => e.1 == code).map (·.2)

/-- The commands that recovery mode serves (R534). -/
def recoveryCodes : List (BitVec 16) := [0x0070, 0x0071, 0x0072, 0x0073, 0x0074, 0x0078]

/-- Does a target serve a command. -/
def CmdAt.serves (target : BitVec 4) (p : CmdAt) : Bool :=
  match p with
  | .any => true
  | .hub => target == 0#4
  | .die => target != 0#4

/-- The checks that stand before every command: its code and its target, recovery mode, the agent's right, the state of its job
(R459, R460, R471, R534). -/
def State.precheck (code : BitVec 16) (m : Msg) (s : State) : Option Reply :=
  match cmdRow code with
  | none => some (Reply.fail Code.badCommand)
  | some r => firstReply [
      need (r.place.serves m.target) (Reply.fail Code.badCommand),
      need (!s.hub.recovery || recoveryCodes.contains code) (Reply.fail Code.wrongState),
      need (decide (r.right ≤ Path.right m.path)) (Reply.fail Code.notAuthorised),
      if r.need = .any then none else s.jobCheck m.job r.need.ok]

/-! ## What each command does -/

/-- The effect of a command; k is the mailbox that holds it, 16 for none. -/
def State.runCmd (code : BitVec 16) (k : Nat) (m : Msg) (s : State) : Effect :=
  match code.toNat with
  | 0x0001 => s.nop m
  | 0x0002 => s.getInfo m
  | 0x0010 => s.readRegs m
  | 0x0011 => s.writeMasked m
  | 0x0020 => s.stageWrite m
  | 0x0021 => s.plateLoad m
  | 0x0022 => s.plateUnload m
  | 0x0030 => s.jobStart m
  | 0x0031 => s.jobStop m
  | 0x0032 => s.jobEnd m
  | 0x0033 => s.setNumericMode m
  | 0x0034 => s.setMapping m
  | 0x0035 => s.resetScales m
  | 0x0036 => s.injectFault m
  | 0x0040 => s.routeLoad m
  | 0x0041 => s.routeDrain m
  | 0x0042 => s.routeSwap m
  | 0x0043 => s.routeResume m
  | 0x0044 => s.routeCancel m
  | 0x0050 => s.readRunRecord m
  | 0x0051 => s.readOverflowLog m
  | 0x0052 => s.readOverrunLog m
  | 0x0053 => s.readIdleAccount m
  | 0x0054 => s.readRankWait m
  | 0x0055 => s.readLedger m
  | 0x0056 => s.readEventLog m
  | 0x0060 => s.readClusterStatus m
  | 0x0061 => s.readFaultRecord m
  | 0x0062 => s.clearHalt m
  | 0x0063 => s.readStats m
  | 0x0064 => s.readMemFaults m
  | 0x0065 => s.readStackStatus m
  | 0x0066 => s.memReadRemote k m
  | 0x0067 => s.memWriteRemote k m
  | 0x0070 => s.fwStatus m
  | 0x0071 => s.fwBegin m
  | 0x0072 => s.fwWrite m
  | 0x0073 => s.fwFinish m
  | 0x0074 => s.fwDiscard m
  | 0x0075 => s.fwConfirm m
  | 0x0076 => s.keyEnrol m
  | 0x0077 => s.keyRemove m
  | 0x0078 => s.keyList m
  | 0x0079 => s.attest m
  | 0x007A => s.attestRun m
  | 0x007B => s.identityCert m
  | 0x0080 => s.setCapMax m
  | 0x0081 => s.setVcore m
  | 0x0082 => s.modulePower m
  | 0x0083 => s.moduleReset m
  | 0x0084 => s.dieReset m
  | 0x0085 => s.clearTripCmd m
  | 0x0086 => s.readTripLog m
  | 0x0090 => s.pairStatus m
  | 0x0091 => s.fmRegister m
  | 0x0092 => s.failover m
  | 0x0093 => s.resync m
  | 0x0094 => s.restorePartner m
  | 0x0095 => s.pairUnfence m
  | 0x0096 => s.declareLostCmd m
  | 0x00A0 => s.meterInfo m
  | 0x00A1 => s.meterRead m
  | 0x00A2 => s.meterPubkey m
  | 0x00A3 => s.meterCert m
  | _ => s.replies (Reply.fail Code.badCommand)

/-- A command is checked and runs, and its reply goes back. -/
def State.perform (code : BitVec 16) (k : Nat) (m : Msg) (s : State) : State :=
  State.concludes code k m (s.unless (s.precheck code m) fun s => s.runCmd code k m)

/-! ## The hub (R458) -/

/-- Is a hub command in progress: a JOB_START that has not started its job, or a command that the meter has to answer. -/
def State.hubBusy (s : State) : Bool := s.meter.waiting.isSome || s.jobs.any fun (e : Nat × Job) => e.2.startMsg.isSome

/-- Does the system processor run. -/
def State.hubRuns (s : State) : Bool := s.margin.hubOn && !s.margin.hubHeld

/-- The hub commands that wait go on in their order. -/
def State.hubNext : Nat → State → State
  | 0, s => s
  | n + 1, s =>
    match s.hub.waiting with
    | [] => s
    | (code, m) :: rest => if s.hubBusy then s else ((s.modHub fun h => { h with waiting := rest }).perform code 16 m).hubNext n

/-- Run what waits. -/
def State.hubGo (s : State) : State := s.hubNext s.hub.waiting.length

/-- A hub command is accepted: JOB_STOP takes effect at once and ends a command in progress that names its job, any other one runs in
its order (R458). A hub that does not run takes none. -/
def State.submitHub (code : BitVec 16) (m : Msg) (s : State) : State :=
  if !s.hubRuns then s
  else if code = 0x0031 then (s.perform code 16 m).answerStopped.hubGo
  else (s.modHub fun h => { h with waiting := h.waiting ++ [(code, m)] }).hubGo

/-! ## The control processors (R454 to R456) -/

/-- A go that a control processor has accepted runs, unless a command is in progress there; in reset it is lost (R455, R456). -/
def State.submitDie (d : Die) (k : Nat) (code : BitVec 16) (m : Msg) (s : State) : State :=
  if (s.die d).inReset then State.concludes code k m (s.replies (Reply.fail Code.cmdLost))
  else if (s.die d).remote.isEmpty then s.perform code k m
  else s.modDie d fun x => { x with going := x.going ++ [⟨k, code, m⟩] }

/-- The commands that wait at a control processor go on in their order (R455). -/
def State.dieNext (d : Die) : Nat → State → State
  | 0, s => s
  | n + 1, s =>
    match (s.die d).going with
    | [] => s
    | g :: rest => if (s.die d).remote.isEmpty then State.dieNext d n ((s.modDie d fun x => { x with going := rest }).perform g.code g.mbx g.msg) else s

/-- Run what waits at a control processor. -/
def State.dieGo (d : Die) (s : State) : State := State.dieNext d (s.die d).going.length s

/-- The target of a message: the hub, a die, or neither (R457; log entry 58). -/
def targetDie (t : BitVec 4) : Option Die := if 4 ≤ t.toNat ∧ t.toNat < 8 then some (BitVec.ofNat 2 t.toNat) else none

/-! ## Mailboxes (R453, R454, R458) -/

/-- A mailbox's go: the command is copied, the mailbox is BUSY, and the control processor runs it. -/
def State.go (d : Die) (k : Nat) (path : Path) (s : State) : State :=
  let x := Table.get Mailbox.reset k (s.die d).mbx
  let m : Msg := ⟨x.seq, x.job, 4#4 + d.setWidth 4, (List.range 28).map fun i => Table.get 0 i x.args, [], path⟩
  let s := s.modDie d fun y => { y with
    mbx := Table.set Mailbox.reset k { x with status := Code.busy, doneSeq := x.seq, detail := 0, resLen := 0, res := [] } y.mbx
    busy := y.busy ||| (1#16 <<< k) }
  s.submitDie d k x.code m

/-- A write of a mailbox register: ignored while the mailbox is BUSY, and where the register is read-only (R15, R453, R454). -/
def State.writeMailbox (d : Die) (k off : Nat) (v : Word) (s : State) : State :=
  let x := Table.get Mailbox.reset k (s.die d).mbx
  let put := fun (y : Mailbox) => s.modDie d fun z => { z with mbx := Table.set Mailbox.reset k y z.mbx }
  if x.status = Code.busy ∨ (s.die d).inReset then s
  else if off = 0 then put { x with seq := (v >>> 16).setWidth 16, code := v.setWidth 16 }
  else if off = 8 then
    let s := put { x with job := v.setWidth 16 }
    if v.getLsbD 16 then s.go d k (.mailbox d (BitVec.ofNat 4 k)) else s
  else if 0x10 ≤ off ∧ off < 0x80 then put { x with args := Table.set 0 ((off - 0x10) / 4) v x.args }
  else s

/-- REGISTER_WRITE: a write of a control register by the system processor (R15, R452, R454). -/
def State.registerWrite (a : Nat) (v : Word) (s : State) : State :=
  if a % 4 ≠ 0 then s
  else
    match blockOf a with
    | some (.mbx d k, off) => s.writeMailbox d k off v
    | _ => s.writeReg a v

/-- The lowest mailbox of a die that holds no message (R455). -/
def State.freeMailbox (d : Die) (s : State) : Option Nat :=
  (List.range 16).find? fun k => !(s.die d).busy.getLsbD k && !(Table.get Mailbox.reset k (s.die d).mbx).owned

/-- A message leaves the queue of a die for a free mailbox and runs there (R458). -/
def State.dispatchMailbox (d : Die) (s : State) : State :=
  match (s.die d).queue, s.freeMailbox d with
  | (code, m) :: rest, some k =>
    if (s.die d).inReset then s
    else
      let s := s.modDie d fun x => { x with
        queue := rest
        mbx := Table.set Mailbox.reset k { Table.get Mailbox.reset k x.mbx with
          seq := m.seq, code := code, job := m.job, args := putWords (Msg.argList 0 28 m), owned := true } x.mbx }
      s.go d k m.path
  | _, _ => s

/-- A message enters the queue of a die; a full queue answers at once (R458). -/
def State.enqueueMessage (d : Die) (code : BitVec 16) (m : Msg) (s : State) : State :=
  if 256 ≤ (s.die d).queue.length then State.concludes code 16 m (s.replies (Reply.fail Code.queueFull))
  else s.modDie d fun x => { x with queue := x.queue ++ [(code, m)] }

/-- A message at its processor. One that stands in a mailbox is that die's; any other one is the system processor's, which runs it itself or
puts it into the queue of its die and from there into the next free mailbox (R458; log entry 72). -/
def State.submit (code : BitVec 16) (m : Msg) (s : State) : State :=
  match m.path with
  | .mailbox d k => s.submitDie d k.toNat code { m with target := 4#4 + d.setWidth 4 }
  | _ =>
    if m.target = 0 then s.submitHub code m
    else if !s.hubRuns then s
    else
      match targetDie m.target with
      | some d => (s.enqueueMessage d code m).dispatchMailbox d
      | none => State.concludes code 16 m (s.replies badArg)

end Sys2Proof.Machine
end

