-- ==== Sys2Proof/Machine/Clusters.lean ====
section
/-! DEFINITION. The events of clusters and their SRAM: steps that end, results and tiles that land, cache fills, external
accesses, scrubbing, clearing, sensors, waits, grants and moves (06; 07 R168, R186, R192; 10 R276; 11 R301). -/

namespace Sys2Proof.Machine

/-! ## Steps (R139, R141, R144, R145, R168) -/

/-- The instant, in ps, before which the step in progress may not end: each of its stall steps and the step itself take at least one
period of the cap (R110, R141). -/
def Cluster.paceEnd (k : Cluster) : Nat := k.stallEnd + k.stepPs

/-- May the step of a cluster end now. -/
def Cluster.mayEnd (now : Nat) (k : Cluster) : Bool := k.gstate == .running && decide (k.paceEnd < 1000 * (now + 1))

/-- The counts of a step that ends, and the cap that holds from this boundary on. A step held for array stall and for a bank conflict
counts under the first alone (R112, R140, R141, R145, R160). DESIGN CHOICE (log entry 122): a cap that changes while a cluster idles holds
from the end of its first step on, for the spec names the next step boundary alone. -/
def Cluster.endStep (now cap : Nat) (k : Cluster) : Cluster :=
  let t := k.stepCount
  let stall := k.stallsAt t
  { k with
    conflict := k.conflict + (if stall = 0 ∧ bankClash (k.accessesAt t) then 1 else 0)
    arrayStall := k.arrayStall + stall
    imprStall := k.imprStall + stall
    tiles := k.tiles.map fun (x : Tile) => { x with stalls := x.stalls.filter fun e => x.issue + e.1 != t }
    stepCount := t + 1
    stepCap := BitVec.ofNat 16 cap
    lastStepEnd := max k.paceEnd (1000 * now)
    accesses := [] }

/-- The fault of a store whose merge met an uncorrectable word (R150). -/
def mergeFault (k : Cluster) (x : Nat × Nat) : DueFault :=
  ⟨Code.sramUncorrectable, k.pc, BitVec.ofNat 3 x.2, 6, BitVec.ofNat 32 (x.1 % 2 ^ 23), false⟩

/-- The step of a cluster ends: what is due lands, a fault that is due halts the cluster, an impression that ends has ended once all has
landed, else the next bundle issues (R139, R144, R150, R155, R168, R199). -/
def State.stepEnd (c : ClusterId) (s : State) : State :=
  let k := s.clu c
  if k.mayEnd s.time then
    let r := (s.setClu c (k.endStep s.time (s.margin.capApplied.getD c.die.toNat 85))).landDue c k.stepCount
    let s := match (r.1.clu c).dueFault, r.2 with
      | some f, _ => r.1.takeFault c f
      | none, some x => r.1.takeFault c (mergeFault (r.1.clu c) x)
      | none, none => r.1
    ((s.snapshot c).endIfLanded c).tryIssue c
  else s

/-- CLUSTER_STEP_END (R21, R139, R141). -/
def execClusterStepEnd (cl : ClusterId) (now : Nat) (s : State) : Host.Outcome State Fault Refusal :=
  s.onCluster cl now (fun s => s.stepEnd cl)

/-- The results that have landed or land at the end of this step, once the bundle of this step has read, if it has one: earlier ones
before a result of this step, the array before the others (R144). -/
def Cluster.landable (k : Cluster) : Nat :=
  if k.issuedAt = some k.stepCount ∨ k.stepCount < k.nextIssue ∨ k.ending.isSome then k.stepCount else k.stepCount - 1

/-- Does the end of a step before or at n write a tile. -/
def Cluster.tileDue (n : Nat) (k : Cluster) : Option Tile := k.tiles.find? fun t => decide (t.land ≤ n)

/-- A landing whose merge failed ends the impression at the step boundary (R150). -/
def failLate (c : ClusterId) (q : State × Option (Nat × Nat)) : State :=
  match q.2 with
  | some x => q.1.endAtBoundary c (mergeFault (q.1.clu c) x)
  | none => q.1

/-- RESULT_LANDING (R168): the next result whose step has come lands. A write that merges into an uncorrectable word
ends the impression at the step boundary (R150). -/
def State.resultLanding (c : ClusterId) (s : State) : State :=
  let k := s.clu c
  let n := k.landable
  match k.tileDue n, dueBefore n k.inflight with
  | none, r :: _ =>
    failLate c ((s.setClu c { k with
      inflight := k.inflight.erase r, accesses := k.accesses ++ [r.targets.filterMap Target.range] }).landOne c r)
  | _, _ => s

/-- RESULT_LANDING (R168). -/
def execResultLanding (cl : ClusterId) (s : State) : Host.Outcome State Fault Refusal :=
  s.onCluster cl s.time (fun s => s.resultLanding cl)

/-- MMA_TILE_COMPLETE (R192): the C rows of a tile are written after its issue length and the pipeline latency. -/
def State.tileComplete (c : ClusterId) (s : State) : State :=
  let k := s.clu c
  match k.tileDue k.landable with
  | some t =>
    failLate c ((s.setClu c { k with
      tiles := k.tiles.erase t, accesses := k.accesses ++ [cRows t.cAddr t.rows t.cols] }).landTile c t)
  | none => s

/-- MMA_TILE_COMPLETE (R192). -/
def execMmaTileComplete (cl : ClusterId) (s : State) : Host.Outcome State Fault Refusal :=
  s.onCluster cl s.time (fun s => s.tileComplete cl)

/-! ## Instruction cache (R156 to R158, R442) -/

/-- A line that an uncorrectable word keeps from the core (R158). -/
def State.lineBad (c : ClusterId) (line : Nat) (inj : Bool) (s : State) : State :=
  s.modClu c fun k => { k with iwait := k.iwait.erase line, fetchBad := k.fetchBad ++ [(line, inj)] }

/-- The read that fills a line of the cache: it corrects what it can, and the hold on the line ends (R157, R441). -/
def State.lineRead (c : ClusterId) (line : Nat) (s : State) : State :=
  let k := s.clu c
  let r := s.demand (k.codeBase.toNat + 128 * line) 128 (c.setWidth 16) k.job
  match r.1.2 with
  | some f => (r.2.lineBad c line f.inj).tryIssue c
  | none => (r.2.modClu c fun k => { k.touch line with iwait := k.iwait.erase line }).tryIssue c

/-- A line of the cache that has been requested arrives; a parity error is met in the line that arrives, which is fetched again, or in a
line that the cache holds, which is discarded and fetched again (R158). -/
def State.lineFill (c : ClusterId) (line : Nat) (how : FillKind) (s : State) : State :=
  let k := s.clu c
  if how = .parity ∧ k.cached line then
    s.setClu c { k with
      icache := Table.set [] (line % 128) ((Table.get [] (line % 128) k.icache).erase line) k.icache
      iwait := if k.iwait.contains line then k.iwait else k.iwait ++ [line], icacheRefetch := sat32 k.icacheRefetch 1 }
  else if !k.iwait.contains line then s
  else
    let a := k.codeBase.toNat + 128 * line
    match how with
    | .parity => s.setClu c { k with icacheRefetch := sat32 k.icacheRefetch 1 }
    | .good => s.lineRead c line
    | .corrected => ({ s with weakWords := if s.weakWords.contains a then s.weakWords else s.weakWords ++ [a] }).lineRead c line
    | .uncorrectable =>
      let s := s.noteRead a 128
      match DWord.loc (BitVec.ofNat 64 a) with
      | .dram n o =>
        let s := { s with badWords := if s.badWords.contains a then s.badWords else s.badWords ++ [a] }
        (State.lineBad c line false (s.memFault Code.dramUncorrectable n.toNat o false false (c.setWidth 16) k.job)).tryIssue c
      | _ => (s.lineBad c line false).tryIssue c

/-- ICACHE_LINE_FILL (R157, R158): a good line releases the hold, a line with a parity error is fetched again, an
uncorrectable one halts the core at the bundle that needs it. -/
def execIcacheLineFill (cl : ClusterId) (line : BitVec 32) (how : FillKind) (now : Nat) (s : State) :
    Host.Outcome State Fault Refusal :=
  s.onCluster cl now (fun s => s.lineFill cl line.toNat how)

/-! ## External accesses, scrubbing, clearing (R146 to R150) -/

/-- What an access to a protected SRAM word finds, with the words beside it that it corrects (R150): each correction counts, and a
stored word keeps its single-bit error for whatever reads it next; an uncorrectable word stays as stored and fails each later read. -/
def State.foundSram (c : ClusterId) (a : Nat) (found : Syndrome) (beside : List Nat) (s : State) : State :=
  let w := wordStart a
  match s.wordFinds w found with
  | .clean => s.corrects c beside
  | .corrected =>
    { s.corrects c (w :: beside) with weakWords := if s.weakWords.contains w then s.weakWords else s.weakWords ++ [w] }
  | .uncorrectable => { s.corrects c beside with badWords := if s.badWords.contains w then s.badWords else s.badWords ++ [w] }

/-- The words after its first that a read of n bytes corrects, as they are known to be (R150; log entry 129). -/
def State.weakBeside (a n : Nat) (s : State) : List Nat :=
  (s.weakIn a n).filter fun w => w != wordStart a && !s.badWords.contains w

/-- SRAM_EXTERNAL_ACCESS (R146, R150): a write replaces the words it covers; a read finds its first word as the command says and the
others as they are known to be. Either ends with the SRAM (log entry 129). The outcome of a failed read is that of its requester's own command. -/
def State.external (c : ClusterId) (a : ExtAccess) (s : State) : State :=
  match a with
  | .read o n found =>
    let a := sramAddr c o.toNat
    s.foundSram c a found (s.weakBeside a (min n (2 ^ 23 - o.toNat)))
  | .write o bs => s.write (sramAddr c o.toNat) (bs.take (2 ^ 23 - o.toNat))

/-- SRAM_EXTERNAL_ACCESS (R146). The SRAM of a disabled cluster is not addressable (R8). -/
def execSramExternalAccess (cl : ClusterId) (a : ExtAccess) (s : State) : Host.Outcome State Fault Refusal :=
  if s.hasCluster cl then s.onCluster cl s.time (fun s => s.external cl a) else .fault .absentEngine

/-- The scrub of an SRAM word (R150): a correctable word is rewritten, an uncorrectable one is recorded in the event log
and stays as stored. -/
def State.scrubSram (c : ClusterId) (word : Nat) (found : Syndrome) (s : State) : State :=
  let a := sramAddr c (8 * word)
  let found := s.wordFinds a found
  let s := s.foundSram c a found []
  let s := if found = .corrected then { s with weakWords := s.weakWords.erase a } else s
  if found = .uncorrectable then
    (s.log Code.sramUncorrectable clsCluster (c.setWidth 16) 0 (BitVec.ofNat 32 (8 * word))).trigger
  else s

/-- SRAM_SCRUB (R150). -/
def execSramScrub (cl : ClusterId) (word : BitVec 20) (found : Syndrome) (s : State) : Host.Outcome State Fault Refusal :=
  s.onCluster cl s.time (fun s => s.scrubSram cl word.toNat found)

/-- Clear one cluster for a job: its SRAM to 0x00 and every engine register to zero (R149). -/
def State.clearCluster (c : ClusterId) (s : State) : State :=
  let mine := fun (a : Nat) => decide (sramAddr c 0 ≤ a) && decide (a < sramAddr c 0 + 2 ^ 23)
  let s : State := { s with
    mem := s.mem.filter fun e => !mine e.1
    badWords := s.badWords.filter fun w => !mine w
    weakWords := s.weakWords.filter fun w => !mine w }
  s.modClu c fun k => { k with x := [], f := [], v := [], m := [], cx := ⟨0, 0, 0, 0⟩, lastTile := none }

/-- The clearing of a job ends: SRAM and registers are zero, then the initial SRAM images are written (R149). It takes
place once, between the start of the job and its first impression, when no impression is left on its clusters. The 2,048 steps of the
clearing count in no counter of the status block (log entry 97). -/
def State.clearDone (no : JobNo) (s : State) : State :=
  let j := s.job no
  let cs := s.jobClusters no
  if (j.st = .starting ∨ j.st = .running) ∧ !j.cleared ∧ (cs.all fun c => (s.clu c).gstate == .idle || (s.clu c).gstate == .halted) then
    let s := cs.foldl (fun s c => s.clearCluster c) s
    let s := match j.plate with
      | some p => (p.images.filter fun (i : Image) => i.type == 0x11).foldl (fun (s : State) (i : Image) => s.store i.dest.toNat i.bytes) s
      | none => s
    s.modJob no fun j => { j with cleared := true }
  else s

/-- TEMP_SENSOR_READ (R555): the snapshot holds the latest reading. -/
def execTempSensorRead (cl : ClusterId) (temp : BitVec 16) (s : State) : Host.Outcome State Fault Refusal :=
  s.onCluster cl s.time (fun s => s.modClu cl fun k => { k with temp := temp })

/-! ## Waits and grants (R172, R276, R301) -/

/-- WAIT_MET (R276): a WAITC whose condition has been met issues with its bundle at the step boundary. -/
def execWaitMet (cl : ClusterId) (now : Nat) (s : State) : Host.Outcome State Fault Refusal :=
  s.onCluster cl now (fun s => if (s.clu cl).gstate = .held then s.tryIssue cl else s)

/-- The timeout of a held WAITC: its wait ends with TIMEOUT where nothing has ended it before (R172, R174). -/
def State.waitTimeout (c : ClusterId) (s : State) : State :=
  let k := s.clu c
  match k.waitDeadline with
  | some d =>
    if k.gstate = .held ∧ k.waitDone = none ∧ d ≤ s.time then (s.setClu c { k with waitDone := some 0x02 }).tryIssue c else s
  | none => s

/-- WAITC_TIMEOUT (R172, R174). -/
def execWaitcTimeout (cl : ClusterId) (now : Nat) (s : State) : Host.Outcome State Fault Refusal :=
  s.onCluster cl now (fun s => s.waitTimeout cl)

/-- A granule that the Pacor of a die waited for goes to a shadow of the job that is being built there, else to a hold range whose
MIRROR_DATA waits for it (R301, R509, R516). -/
def State.givePacor (w : GranReq) (a : DWord) (s : State) : State :=
  let d := ownerDie w.owner
  let waits := fun (h : HoldRange) => s.fab.inbox.any fun (e : LocalUnit × Queued) =>
    e.1 == .pair && e.2.f.kind == 8#4 && e.2.f.ident == 1#32 && e.2.f.job == h.job && e.2.f.detail.setWidth 32 == h.shard
  match s.pair.shadows.find? fun x => x.job == w.job && shadowStack x.base == w.stack && decide (x.copy.length < stagingNeed x.length) with
  | some x => s.modPair fun p => { p with shadows := p.shadows.map fun y => if y = x then { y with copy := y.copy ++ [a] } else y }
  | none =>
    match s.pair.holds.find? fun h => h.job == w.job && dramDie h.base == d && waits h with
    | some h => s.modPair fun p => { p with holds := p.holds.map fun y => if y = h then { y with grans := y.grans ++ [a] } else y }
    | none => s.freeGranule a

/-- A granule that was waited for goes to its requester: a held BALLOC issues, a PERMUTE takes it for its waiting blocks, a Pacor keeps
it for its mirror copies (R186, R238, R301). -/
def State.giveGranule (w : GranReq) (a : DWord) (s : State) : State :=
  if w.owner < 256 then
    let c : ClusterId := BitVec.ofNat 8 w.owner
    (s.modClu c fun k => { k with grant := some a }).tryIssue c
  else if w.owner < 320 then
    let p : Port := BitVec.ofNat 6 (w.owner - 256)
    match (s.eng p).ctxs.find? fun c => c.desc.op == 4 && c.desc.job == w.job && !c.held.isEmpty with
    | some c => s.setCtx p { c with granules := c.granules ++ [a] }
    | none => s.freeGranule a
  else s.givePacor w a

/-- The oldest waiting request of a die and kind that can be met is granted (R301). -/
def State.grantOldest (d : Die) (dram : Bool) (s : State) : State :=
  match (s.die d).waiters.find? fun w => w.dram == dram && s.grantable w with
  | some w =>
    match s.grantNow w with
    | some (a, s) => (s.modDie d fun x => { x with waiters := x.waiters.erase w }).giveGranule w a
    | none => s
  | none => s

/-- BALLOC_GRANT (R301). -/
def execBallocGrant (die : Die) (dram : Bool) (now : Nat) (s : State) : Host.Outcome State Fault Refusal :=
  s.happens now (fun s => s.grantOldest die dram)

/-! ## Moves -/

/-- MOVE_COMPLETE (R186, R188): the bytes of the outstanding move at a place of the list have all been transferred. -/
def execMoveComplete (cl : ClusterId) (idx : Nat) (now : Nat) (s : State) : Host.Outcome State Fault Refusal :=
  s.onCluster cl now (fun s => match (s.clu cl).moves[idx]? with | some m => s.moveComplete cl m | none => s)

end Sys2Proof.Machine
end

