-- ==== Sys2Proof/Machine/CmdRows.lean ====
section
/-! DEFINITION. The commands of jobs, plates, routes, registers and reads, each as a message at its processor (18 R457, R460). -/

namespace Sys2Proof.Machine

/-- NOP (R460): the message reaches its processor. -/
def execNop (m : Msg) (s : State) : Host.Outcome State Fault Refusal := s.acts (fun s => s.submit 0x0001 m)

/-- GET_INFO (R462): the message reaches its processor. -/
def execGetInfo (m : Msg) (s : State) : Host.Outcome State Fault Refusal := s.acts (fun s => s.submit 0x0002 m)

/-- READ_REG (R463): the message reaches its processor. -/
def execReadReg (m : Msg) (s : State) : Host.Outcome State Fault Refusal := s.acts (fun s => s.submit 0x0010 m)

/-- WRITE_REG (R15, R463): the message reaches its processor. -/
def execWriteReg (m : Msg) (s : State) : Host.Outcome State Fault Refusal := s.acts (fun s => s.submit 0x0011 m)

/-- STAGE_WRITE (R464): the message reaches its processor. -/
def execStageWrite (m : Msg) (s : State) : Host.Outcome State Fault Refusal := s.acts (fun s => s.submit 0x0020 m)

/-- PLATE_LOAD (R464, R465): the message reaches its processor. -/
def execPlateLoad (m : Msg) (s : State) : Host.Outcome State Fault Refusal := s.acts (fun s => s.submit 0x0021 m)

/-- PLATE_UNLOAD (R465): the message reaches its processor. -/
def execPlateUnload (m : Msg) (s : State) : Host.Outcome State Fault Refusal := s.acts (fun s => s.submit 0x0022 m)

/-- JOB_START (R466): the message reaches its processor. -/
def execJobStart (m : Msg) (s : State) : Host.Outcome State Fault Refusal := s.acts (fun s => s.submit 0x0030 m)

/-- JOB_STOP (R458, R466): the message reaches its processor. -/
def execJobStop (m : Msg) (s : State) : Host.Outcome State Fault Refusal := s.acts (fun s => s.submit 0x0031 m)

/-- JOB_END (R272, R466): the message reaches its processor. -/
def execJobEnd (m : Msg) (s : State) : Host.Outcome State Fault Refusal := s.acts (fun s => s.submit 0x0032 m)

/-- SET_NUMERIC_MODE (R123, R124): the message reaches its processor. -/
def execSetNumericMode (m : Msg) (s : State) : Host.Outcome State Fault Refusal := s.acts (fun s => s.submit 0x0033 m)

/-- SET_MAPPING (R263): the message reaches its processor. -/
def execSetMapping (m : Msg) (s : State) : Host.Outcome State Fault Refusal := s.acts (fun s => s.submit 0x0034 m)

/-- RESET_SCALES (R118): the message reaches its processor. -/
def execResetScales (m : Msg) (s : State) : Host.Outcome State Fault Refusal := s.acts (fun s => s.submit 0x0035 m)

/-- INJECT_FAULT (R524): the message reaches its processor. -/
def execInjectFault (m : Msg) (s : State) : Host.Outcome State Fault Refusal := s.acts (fun s => s.submit 0x0036 m)

/-- ROUTE_LOAD (R389, R468): the message reaches its processor. -/
def execRouteLoad (m : Msg) (s : State) : Host.Outcome State Fault Refusal := s.acts (fun s => s.submit 0x0040 m)

/-- ROUTE_DRAIN (R389, R468): the message reaches its processor. -/
def execRouteDrain (m : Msg) (s : State) : Host.Outcome State Fault Refusal := s.acts (fun s => s.submit 0x0041 m)

/-- ROUTE_SWAP (R389, R468): the message reaches its processor. -/
def execRouteSwap (m : Msg) (s : State) : Host.Outcome State Fault Refusal := s.acts (fun s => s.submit 0x0042 m)

/-- ROUTE_RESUME (R389, R468): the message reaches its processor. -/
def execRouteResume (m : Msg) (s : State) : Host.Outcome State Fault Refusal := s.acts (fun s => s.submit 0x0043 m)

/-- ROUTE_CANCEL (R389, R468): the message reaches its processor. -/
def execRouteCancel (m : Msg) (s : State) : Host.Outcome State Fault Refusal := s.acts (fun s => s.submit 0x0044 m)

/-- READ_RUN_RECORD (R460 to R462): the message reaches its processor. -/
def execReadRunRecord (m : Msg) (s : State) : Host.Outcome State Fault Refusal := s.acts (fun s => s.submit 0x0050 m)

/-- READ_OVERFLOW_LOG (R460 to R462): the message reaches its processor. -/
def execReadOverflowLog (m : Msg) (s : State) : Host.Outcome State Fault Refusal := s.acts (fun s => s.submit 0x0051 m)

/-- READ_OVERRUN_LOG (R460 to R462): the message reaches its processor. -/
def execReadOverrunLog (m : Msg) (s : State) : Host.Outcome State Fault Refusal := s.acts (fun s => s.submit 0x0052 m)

/-- READ_IDLE_ACCOUNT (R460 to R462): the message reaches its processor. -/
def execReadIdleAccount (m : Msg) (s : State) : Host.Outcome State Fault Refusal := s.acts (fun s => s.submit 0x0053 m)

/-- READ_RANK_WAIT (R460 to R462): the message reaches its processor. -/
def execReadRankWait (m : Msg) (s : State) : Host.Outcome State Fault Refusal := s.acts (fun s => s.submit 0x0054 m)

/-- READ_LEDGER (R460 to R462): the message reaches its processor. -/
def execReadLedger (m : Msg) (s : State) : Host.Outcome State Fault Refusal := s.acts (fun s => s.submit 0x0055 m)

/-- READ_EVENT_LOG (R460 to R462): the message reaches its processor. -/
def execReadEventLog (m : Msg) (s : State) : Host.Outcome State Fault Refusal := s.acts (fun s => s.submit 0x0056 m)

/-- READ_CLUSTER_STATUS (R460): the message reaches its processor. -/
def execReadClusterStatus (m : Msg) (s : State) : Host.Outcome State Fault Refusal := s.acts (fun s => s.submit 0x0060 m)

/-- READ_FAULT_RECORD (R460): the message reaches its processor. -/
def execReadFaultRecord (m : Msg) (s : State) : Host.Outcome State Fault Refusal := s.acts (fun s => s.submit 0x0061 m)

/-- CLEAR_HALT (R460): the message reaches its processor. -/
def execClearHalt (m : Msg) (s : State) : Host.Outcome State Fault Refusal := s.acts (fun s => s.submit 0x0062 m)

/-- READ_STATS (R460): the message reaches its processor. -/
def execReadStats (m : Msg) (s : State) : Host.Outcome State Fault Refusal := s.acts (fun s => s.submit 0x0063 m)

/-- READ_MEM_FAULTS (R460): the message reaches its processor. -/
def execReadMemFaults (m : Msg) (s : State) : Host.Outcome State Fault Refusal := s.acts (fun s => s.submit 0x0064 m)

/-- READ_STACK_STATUS (R460): the message reaches its processor. -/
def execReadStackStatus (m : Msg) (s : State) : Host.Outcome State Fault Refusal := s.acts (fun s => s.submit 0x0065 m)

/-- MEM_READ_REMOTE (R460): the message reaches its processor. -/
def execMemReadRemote (m : Msg) (s : State) : Host.Outcome State Fault Refusal := s.acts (fun s => s.submit 0x0066 m)

/-- MEM_WRITE_REMOTE (R460): the message reaches its processor. -/
def execMemWriteRemote (m : Msg) (s : State) : Host.Outcome State Fault Refusal := s.acts (fun s => s.submit 0x0067 m)

end Sys2Proof.Machine
end

