-- ==== Sys2Proof/Machine/Datagrams.lean ====
section
/-! DEFINITION. Datagrams of remote agents on the management port and the service port, and the relay over C4 (18 R470 to R473; 22
R530, R534, R541). -/

namespace Sys2Proof.Machine

/-! ## Parts of a datagram (R457, R470) -/

/-- A datagram taken apart: the code and the message, with the path that its agent will have. -/
structure Parsed where
  relayed : Bool
  dataLen : Nat
  agent   : DWord
  module  : Nat
  code    : BitVec 16
  msg     : Msg
  deriving DecidableEq, Repr

/-- The code of a datagram's message. -/
def dgCode (bs : List Byte) : BitVec 16 := BitVec.ofNat 16 (fieldAt 32 2 bs)

/-- The message of a datagram. -/
def dgMsg (bs : List Byte) : Msg where
  seq := BitVec.ofNat 16 (fieldAt 34 2 bs)
  job := BitVec.ofNat 16 (fieldAt 40 2 bs)
  target := BitVec.ofNat 4 (fieldAt 42 1 bs % 16)
  args := (List.range 28).map fun i => BitVec.ofNat 32 (fieldAt (48 + 4 * i) 4 bs)
  data := (bs.drop 288).take (fieldAt 6 2 bs)
  path := .internal

/-- Take a datagram apart. -/
def parseDg (bs : List Byte) : Parsed where
  relayed := bitsOf (fieldAt 5 1 bs) 1 1 == 1
  dataLen := fieldAt 6 2 bs
  agent := BitVec.ofNat 64 (fieldAt 8 8 bs)
  module := fieldAt 0x10 2 bs % 512
  code := dgCode bs
  msg := dgMsg bs

/-- Are envelope and length of a request in order (R470): magic, version, no reply, reserved bits 0, time 0, the length that data_len
gives, data only where the command may carry it. -/
def wellFormedDg (relayed : Bool) (dataCodes : List (BitVec 16)) (bs : List Byte) : Bool :=
  let n := fieldAt 6 2 bs
  decide (402 ≤ bs.length) && fieldAt 0 4 bs == 0x4D4C4E48 && fieldAt 4 1 bs == 1 && fieldAt 5 1 bs == 2 * b2n relayed
    && fieldAt 0x10 4 bs < 512 && fieldAt 0x14 4 bs == 0 && fieldAt 0x18 8 bs == 0
    && decide (n ≤ 8192) && bs.length == 402 + n && (n == 0 || dataCodes.contains (dgCode bs))

/-- Does a key accept the signature at the end of a datagram (R470). -/
def dgSigned (key bs : List Byte) : Bool :=
  Config.ed448Verify key (textBytes "HNL-MGMT") (bs.take (bs.length - 114)) (bs.drop (bs.length - 114))

/-- A datagram with the relayed bit set or cleared (R470, R473). -/
def withRelayed (b : Bool) (bs : List Byte) : List Byte := bs.set 5 (BitVec.ofNat 8 (fieldAt 5 1 bs / 4 * 4 + fieldAt 5 1 bs % 2 + 2 * b2n b))

/-! ## Acceptance (R471, R472, R541) -/

/-- The enrolled agent whose key signed a datagram (R471). -/
def State.signer (bs : List Byte) (s : State) : Option Agent :=
  match s.settings.agents.find? fun (a : Agent) => a.id == (parseDg bs).agent with
  | some a => if dgSigned a.key bs then some a else none
  | none => none

/-- A datagram of the bootstrap rule: no admin is enrolled, the agent is unknown, and a KEY_ENROL with right admin is signed with the
key that it enrols (R541). -/
def State.bootstraps (bs : List Byte) (s : State) : Bool :=
  let p := parseDg bs
  !(s.settings.agents.any fun (a : Agent) => a.right == 3#2 || a.id == p.agent)
    && p.code == 0x0076#16 && p.msg.target == 0#4 && Msg.argN 2 p.msg == 3 && dgSigned ((bytesOf (Msg.argList 3 15 p.msg)).take 57) bs

/-- A datagram is discarded without a reply and counted in the event log, under a code that the spec does not give (R471, R521). -/
def State.refuseDg (s : State) : State :=
  let s := s.modHub fun h => { h with refusedDg := h.refusedDg + 1 }
  let f := s.free
  f.2.log (f.1.setWidth 16) clsModule 0 0 (w32 s.hub.refusedDg)

/-- Where the reply to a request goes, and from which of the module's addresses (R470, R473, R530). -/
structure Back where
  via  : Option (BitVec 9)
  svc  : Bool
  addr : List Byte
  port : BitVec 16
  deriving DecidableEq, Repr

/-- Send bytes back. -/
def State.sendBack (b : Back) (bytes : List Byte) (s : State) : State :=
  match b.via with
  | some v => s.send (relayFrame 2 v v bytes)
  | none => s.output (.datagram b.svc b.addr b.port bytes)

/-- Answer a request that does not run. -/
def State.answerBack (b : Back) (p : Parsed) (r : Reply) (s : State) : State :=
  s.sendBack b (s.replyDatagram p.code b.via.isSome p.agent p.msg r)

/-- A message for this module is accepted: it goes to the hub or enters the queue of a die (R458). -/
def State.acceptMsg (b : Back) (p : Parsed) (path : Path) (s : State) : State :=
  let m : Msg := { p.msg with path := path }
  let entry : AgentSeq := ⟨p.agent, m.seq, [], b.addr, b.port, b.via⟩
  let s := s.modHub fun h => { h with agentSeqs := (h.agentSeqs.filter fun (x : AgentSeq) => x.agent != p.agent) ++ [entry] }
  if m.target = 0 then s.submitHub p.code m
  else
    match targetDie m.target with
    | some d => s.enqueueMessage d p.code m
    | none => State.concludes p.code 16 m (s.replies badArg)

/-- The sequence rule: a new message is accepted, the last one repeated gets its reply again, any other is stale; the first message
after a reset is accepted (R472). -/
def State.sequence (b : Back) (p : Parsed) (path : Path) (s : State) : State :=
  match s.hub.agentSeqs.find? fun (x : AgentSeq) => x.agent == p.agent with
  | none => s.acceptMsg b p path
  | some x =>
    let delta := (p.msg.seq - x.seq).toNat
    if delta = 0 then (if x.reply.isEmpty then s else s.sendBack b x.reply)
    else if delta ≤ 32767 then s.acceptMsg b p path
    else s.answerBack b p (Reply.fail Code.staleSequence)

/-! ## The ports -/

/-- Relay a message over C4 (R473): it carries no data and its target is in the active map. -/
def State.relayOut (d : Datagram) (p : Parsed) (s : State) : State :=
  let b : Back := ⟨none, false, d.srcAddr, d.srcPort⟩
  let known := match s.fab.map with | some m => (m.entry p.module).valid | none => false
  if p.dataLen ≠ 0 then s.answerBack b p (Reply.fail Code.notRelayable)
  else if !known then s.answerBack b p (Reply.fail Code.relayUnreachable)
  else
    let target := BitVec.ofNat 9 p.module
    let s := s.modHub fun h => { h with relays := h.relays ++ [⟨target, p.agent, d.srcAddr, d.srcPort, p.msg.seq, d.bytes, s.time⟩] }
    s.send (relayFrame 1 s.ownModule target (withRelayed true d.bytes))

/-- A datagram on the management port, at the UDP port of the settings: one to another port is none of this module's messages (R470). In
recovery mode the ROM does not serve it (R534). -/
def State.mgmtIn (d : Datagram) (s : State) : State :=
  let p := parseDg d.bytes
  let b : Back := ⟨none, false, d.srcAddr, d.srcPort⟩
  if !s.hubRuns || s.hub.recovery || d.dstPort != s.settings.mgmtPort then s
  else if !wellFormedDg false [0x0020] d.bytes then s.refuseDg
  else
    match s.signer d.bytes with
    | some a => if p.module = s.ownModule.toNat then s.sequence b p (.mgmt a.id a.right) else s.relayOut d p
    | none =>
      if s.bootstraps d.bytes ∧ p.module = s.ownModule.toNat then s.answerBack b p (Reply.fail Code.servicePortOnly)
      else s.refuseDg

/-- MGMT_DATAGRAM (R470 to R473). -/
def execMgmtDatagram (d : Datagram) (now : Nat) (s : State) : Host.Outcome State Fault Refusal := s.happens now (fun s => s.mgmtIn d)

/-- A datagram on the service port, at the UDP port of the settings (R530); one for another module is not relayed from here (log entry
59). -/
def State.serviceIn (d : Datagram) (s : State) : State :=
  let p := parseDg d.bytes
  let b : Back := ⟨none, true, d.srcAddr, d.srcPort⟩
  if !s.hubRuns || d.dstPort != s.settings.svcPort then s
  else if !wellFormedDg false [0x0020, 0x0072] d.bytes then s.refuseDg
  else
    match s.signer d.bytes with
    | some a =>
      if p.module = s.ownModule.toNat then s.sequence b p (.service a.id a.right) else s.answerBack b p (Reply.fail Code.notRelayable)
    | none => if s.bootstraps d.bytes ∧ p.module = s.ownModule.toNat then s.sequence b p (.service p.agent 3) else s.refuseDg

/-- SERVICE_DATAGRAM (R530). -/
def execServiceDatagram (d : Datagram) (now : Nat) (s : State) : Host.Outcome State Fault Refusal := s.happens now (fun s => s.serviceIn d)

/-! ## The relay (R473) -/

/-- A relayed request reaches its target: the agent's signature is checked over the datagram as the agent signed it, without the
relayed bit (R471, R473; log entry 60). -/
def State.relayIn (f : Frame) (s : State) : State :=
  let late := s.behind .hub f
  let s := s.unbox .hub f
  let bs := f.payload.take 402
  let own := withRelayed false bs
  let p := parseDg own
  let b : Back := ⟨some (f.detail.setWidth 9), false, [], 0⟩
  if late || !s.hubRuns || s.hub.recovery then s
  else if !wellFormedDg true [] bs || p.module != s.ownModule.toNat then s.refuseDg
  else
    match s.signer own with
    | some a => s.sequence b p (.relay a.id a.right)
    | none => if s.bootstraps own then s.answerBack b p (Reply.fail Code.servicePortOnly) else s.refuseDg

/-- RELAY_REQUEST. -/
def execRelayRequest (f : Frame) (now : Nat) (s : State) : Host.Outcome State Fault Refusal := s.happens now (fun s => s.relayIn f)

/-- A relayed reply goes on to the agent whose message it answers. -/
def State.relayBack (f : Frame) (s : State) : State :=
  let late := s.behind .hub f
  let s := s.unbox .hub f
  let bs := f.payload.take 402
  let p := parseDg bs
  if late then s else
  match s.hub.relays.find? fun (x : RelayOut) => x.target.toNat == p.module && x.agent == p.agent && x.seq == p.msg.seq with
  | some x => (s.modHub fun h => { h with relays := h.relays.erase x }).output (.datagram false x.srcAddr x.srcPort bs)
  | none => s

/-- RELAY_REPLY. -/
def execRelayReply (f : Frame) (now : Nat) (s : State) : Host.Outcome State Fault Refusal := s.happens now (fun s => s.relayBack f)

/-- No reply from a module within 2 s: RELAY_TIMEOUT to each agent that waits for it (R473). -/
def State.relayLate (target : BitVec 9) (s : State) : State :=
  let late := s.hub.relays.filter fun (x : RelayOut) => x.target == target && decide (x.sent + 2000000000 ≤ s.time)
  let s := s.modHub fun h => { h with relays := h.relays.filter fun (x : RelayOut) => !late.contains x }
  late.foldl (fun (s : State) (x : RelayOut) => s.answerBack ⟨none, false, x.srcAddr, x.srcPort⟩ (parseDg x.msg) (Reply.fail Code.relayTimeout)) s

/-- RELAY_TIMEOUT. -/
def execRelayTimeout (target : BitVec 9) (now : Nat) (s : State) : Host.Outcome State Fault Refusal := s.happens now (fun s => s.relayLate target)

end Sys2Proof.Machine
end

