-- ==== Sys2Proof/Machine/HubRows.lean ====
section
/-! DEFINITION. The firmware, key, attestation, margin controller, pair and meter commands, each as a message at the hub (19 R489; 20
R504; 21 R523; 22 R531). -/

namespace Sys2Proof.Machine

/-- FW_STATUS (R531): the message reaches its processor. -/
def execFwStatus (m : Msg) (s : State) : Host.Outcome State Fault Refusal := s.acts (fun s => s.submit 0x0070 m)

/-- FW_BEGIN (R531): the message reaches its processor. -/
def execFwBegin (m : Msg) (s : State) : Host.Outcome State Fault Refusal := s.acts (fun s => s.submit 0x0071 m)

/-- FW_WRITE (R531): the message reaches its processor. -/
def execFwWrite (m : Msg) (s : State) : Host.Outcome State Fault Refusal := s.acts (fun s => s.submit 0x0072 m)

/-- FW_FINISH (R531): the message reaches its processor. -/
def execFwFinish (m : Msg) (s : State) : Host.Outcome State Fault Refusal := s.acts (fun s => s.submit 0x0073 m)

/-- FW_DISCARD (R531): the message reaches its processor. -/
def execFwDiscard (m : Msg) (s : State) : Host.Outcome State Fault Refusal := s.acts (fun s => s.submit 0x0074 m)

/-- FW_CONFIRM (R531): the message reaches its processor. -/
def execFwConfirm (m : Msg) (s : State) : Host.Outcome State Fault Refusal := s.acts (fun s => s.submit 0x0075 m)

/-- KEY_ENROL (R531): the message reaches its processor. -/
def execKeyEnrol (m : Msg) (s : State) : Host.Outcome State Fault Refusal := s.acts (fun s => s.submit 0x0076 m)

/-- KEY_REMOVE (R531): the message reaches its processor. -/
def execKeyRemove (m : Msg) (s : State) : Host.Outcome State Fault Refusal := s.acts (fun s => s.submit 0x0077 m)

/-- KEY_LIST (R531): the message reaches its processor. -/
def execKeyList (m : Msg) (s : State) : Host.Outcome State Fault Refusal := s.acts (fun s => s.submit 0x0078 m)

/-- ATTEST (R531): the message reaches its processor. -/
def execAttest (m : Msg) (s : State) : Host.Outcome State Fault Refusal := s.acts (fun s => s.submit 0x0079 m)

/-- ATTEST_RUN (R531): the message reaches its processor. -/
def execAttestRun (m : Msg) (s : State) : Host.Outcome State Fault Refusal := s.acts (fun s => s.submit 0x007A m)

/-- IDENTITY_CERT (R531): the message reaches its processor. -/
def execIdentityCert (m : Msg) (s : State) : Host.Outcome State Fault Refusal := s.acts (fun s => s.submit 0x007B m)

/-- SET_CAP_MAX (R489): the message reaches its processor. -/
def execSetCapMax (m : Msg) (s : State) : Host.Outcome State Fault Refusal := s.acts (fun s => s.submit 0x0080 m)

/-- SET_VCORE (R489): the message reaches its processor. -/
def execSetVcore (m : Msg) (s : State) : Host.Outcome State Fault Refusal := s.acts (fun s => s.submit 0x0081 m)

/-- MODULE_POWER (R489): the message reaches its processor. -/
def execModulePower (m : Msg) (s : State) : Host.Outcome State Fault Refusal := s.acts (fun s => s.submit 0x0082 m)

/-- MODULE_RESET (R489): the message reaches its processor. -/
def execModuleReset (m : Msg) (s : State) : Host.Outcome State Fault Refusal := s.acts (fun s => s.submit 0x0083 m)

/-- DIE_RESET (R489): the message reaches its processor. -/
def execDieReset (m : Msg) (s : State) : Host.Outcome State Fault Refusal := s.acts (fun s => s.submit 0x0084 m)

/-- CLEAR_TRIP (R489): the message reaches its processor. -/
def execClearTrip (m : Msg) (s : State) : Host.Outcome State Fault Refusal := s.acts (fun s => s.submit 0x0085 m)

/-- READ_TRIP_LOG (R489): the message reaches its processor. -/
def execReadTripLog (m : Msg) (s : State) : Host.Outcome State Fault Refusal := s.acts (fun s => s.submit 0x0086 m)

/-- PAIR_STATUS (R523): the message reaches its processor. -/
def execPairStatus (m : Msg) (s : State) : Host.Outcome State Fault Refusal := s.acts (fun s => s.submit 0x0090 m)

/-- FM_REGISTER (R523): the message reaches its processor. -/
def execFmRegister (m : Msg) (s : State) : Host.Outcome State Fault Refusal := s.acts (fun s => s.submit 0x0091 m)

/-- FAILOVER (R523): the message reaches its processor. -/
def execFailover (m : Msg) (s : State) : Host.Outcome State Fault Refusal := s.acts (fun s => s.submit 0x0092 m)

/-- RESYNC (R523): the message reaches its processor. -/
def execResync (m : Msg) (s : State) : Host.Outcome State Fault Refusal := s.acts (fun s => s.submit 0x0093 m)

/-- RESTORE_PARTNER (R523): the message reaches its processor. -/
def execRestorePartner (m : Msg) (s : State) : Host.Outcome State Fault Refusal := s.acts (fun s => s.submit 0x0094 m)

/-- PAIR_UNFENCE (R523): the message reaches its processor. -/
def execPairUnfence (m : Msg) (s : State) : Host.Outcome State Fault Refusal := s.acts (fun s => s.submit 0x0095 m)

/-- DECLARE_LOST (R523): the message reaches its processor. -/
def execDeclareLost (m : Msg) (s : State) : Host.Outcome State Fault Refusal := s.acts (fun s => s.submit 0x0096 m)

/-- METER_INFO (R504): the message reaches its processor. -/
def execMeterInfo (m : Msg) (s : State) : Host.Outcome State Fault Refusal := s.acts (fun s => s.submit 0x00A0 m)

/-- METER_READ (R504): the message reaches its processor. -/
def execMeterRead (m : Msg) (s : State) : Host.Outcome State Fault Refusal := s.acts (fun s => s.submit 0x00A1 m)

/-- METER_PUBKEY (R504): the message reaches its processor. -/
def execMeterPubkey (m : Msg) (s : State) : Host.Outcome State Fault Refusal := s.acts (fun s => s.submit 0x00A2 m)

/-- METER_CERT (R504): the message reaches its processor. -/
def execMeterCert (m : Msg) (s : State) : Host.Outcome State Fault Refusal := s.acts (fun s => s.submit 0x00A3 m)

end Sys2Proof.Machine
end

