-- ==== Sys2Proof/Machine/JobRows.lean ====
section
/-! DEFINITION. The events of jobs, control processors, meter replies and boot: each can end a hub command or a die command in
progress, after which the next one runs (09 R246 to R250; 12 R317; 18 R454 to R459, R466; 20 R504; 22 R533). -/

namespace Sys2Proof.Machine

/-! ## Jobs -/

/-- SRAM_CLEAR_DONE (R149, R466): the clearing is done, and the start goes on. -/
def execSramClearDone (job : JobNo) (now : Nat) (s : State) : Host.Outcome State Fault Refusal :=
  s.happens now (fun s => ((s.clearDone job).startCheck job).hubGo)

/-- JOB_DIGEST_FRAME (R246). -/
def execJobDigestFrame (job : JobNo) (module : BitVec 9) (digest : BitVec 256) (now : Nat) (s : State) : Host.Outcome State Fault Refusal :=
  s.happens now (fun s => (s.digestIn job module digest).hubGo)

/-- JOB_START_AT (R466). -/
def execJobStartAt (job : JobNo) (now : Nat) (s : State) : Host.Outcome State Fault Refusal :=
  s.happens now (fun s => (s.startAtDue job).hubGo)

/-- JOB_START_TIMEOUT (R466). -/
def execJobStartTimeout (job : JobNo) (now : Nat) (s : State) : Host.Outcome State Fault Refusal :=
  s.happens now (fun s => (s.startLate job).hubGo)

/-- HATCH_ENTRY_START (R400, R401, R403). -/
def execHatchEntryStart (slot : BitVec 3) (now : Nat) (s : State) : Host.Outcome State Fault Refusal :=
  s.happens now (fun s => s.hatchEntry slot.toNat)

/-- IMPRESSION_START (R249, R250). -/
def execImpressionStart (job : JobNo) (entry now : Nat) (s : State) : Host.Outcome State Fault Refusal :=
  s.happens now (fun s => s.imprStart job entry)

/-- LEDGER_STEP_CLOSE (R317). -/
def execLedgerStepClose (job : JobNo) (now : Nat) (s : State) : Host.Outcome State Fault Refusal :=
  s.happens now (fun s => s.ledgerClose job)

/-- JOB_DONE (R459). -/
def execJobDone (job : JobNo) (now : Nat) (s : State) : Host.Outcome State Fault Refusal :=
  s.happens now (fun s => s.jobDone job)

/-- EFFECTIVE_STEP_BEGIN (R124, R467). -/
def execEffectiveStepBegin (job : JobNo) (step : BitVec 32) (now : Nat) (s : State) : Host.Outcome State Fault Refusal :=
  s.happens now (fun s => s.effectiveStep job step)

/-! ## Registers and mailboxes -/

/-- REGISTER_WRITE (R15, R452, R454). -/
def execRegisterWrite (addr : BitVec 32) (value : BitVec 32) (s : State) : Host.Outcome State Fault Refusal :=
  s.acts (fun s => s.registerWrite addr.toNat value)

/-- MBX_DONE_CLEAR (R453). -/
def execMbxDoneClear (die : Die) (mask : BitVec 16) (s : State) : Host.Outcome State Fault Refusal :=
  s.acts (fun s => s.clearDoneBits die mask)

/-- MAILBOX_DISPATCH (R458). -/
def execMailboxDispatch (die : Die) (s : State) : Host.Outcome State Fault Refusal :=
  s.acts (fun s => s.dispatchMailbox die)

/-- A remote line access ends with a reply; the control processor goes on. -/
def State.remoteDone (d : Die) (x : RemoteOut) (r : Reply) (s : State) : State :=
  ((s.modDie d fun y => { y with remote := y.remote.erase x }).answerMsg x.code x.mbx x.msg r).dieGo d

/-- The result of a remote line access: the status of R420 as the detail, and the line of a READ. -/
def remoteReply (f : Frame) : Reply :=
  let st := f.detail.toNat / 65536 % 256
  ⟨Code.ok, BitVec.ofNat 8 st, if st = 0 then wordsOf (f.payload.length / 4) f.payload else []⟩

/-- A MEM_REPLY reaches a control processor (R419, R432); one that no command awaits is dropped. -/
def State.remoteIn (d : Die) (f : Frame) (s : State) : State :=
  let late := s.behind (.die d) f
  let s := s.unbox (.die d) f
  if late then s else
  match (s.die d).remote.find? fun (x : RemoteOut) => x.tag == f.ident with
  | some x => s.remoteDone d x (remoteReply f)
  | none => s

/-- MEM_REPLY. -/
def execMemReply (die : Die) (f : Frame) (now : Nat) (s : State) : Host.Outcome State Fault Refusal :=
  s.happens now (fun s => s.remoteIn die f)

/-- No reply for 1 ms (R432). -/
def State.remoteLate (d : Die) (tag : Word) (s : State) : State :=
  match (s.die d).remote.find? fun (x : RemoteOut) => x.tag == tag with
  | some x => if x.sent + 1000000 ≤ s.time then s.remoteDone d x (Reply.fail Code.memTimeout) else s
  | none => s

/-- MEM_TIMEOUT. -/
def execMemTimeout (die : Die) (tag : BitVec 32) (now : Nat) (s : State) : Host.Outcome State Fault Refusal :=
  s.happens now (fun s => s.remoteLate die tag)

/-! ## Meter and boot -/

/-- METER_REPLY (R500, R504, R505). -/
def execMeterReply (a : MeterAnswer) (now : Nat) (s : State) : Host.Outcome State Fault Refusal :=
  s.happens now (fun s => (s.meterArrives a).hubGo)

/-- METER_COMMAND_TIMEOUT (R504). -/
def execMeterCommandTimeout (now : Nat) (s : State) : Host.Outcome State Fault Refusal :=
  s.happens now (fun s => s.meterLate.hubGo)

/-- BOOT_ROM_RUN (R533 to R538). -/
def execBootRomRun (now : Nat) (s : State) : Host.Outcome State Fault Refusal := s.happens now (fun s => s.bootRom)

end Sys2Proof.Machine
end

