-- ==== Sys2Proof/Machine/Slots.lean ====
section
/-! DEFINITION. The rows of the slot words (07 R163 to R191): each brings its word to its slot of the bundle that forms;
the last word closes the bundle, which issues when its step comes. The plan of each opcode is in Plans. -/

namespace Sys2Proof.Machine

/-- A slot word reaches a cluster (R163, R166). -/
def State.slotWord (p : Place) (slot : Nat) (op : Byte) (w : Fields) (s : State) : Host.Outcome State Fault Refusal :=
  s.onCluster p.cl s.time (fun s => s.place p slot op w)

/-- EMPTY_BUNDLE (R164, R165): a header that names no slot is a bundle of its own; it occupies one step and its
idle_after steps. A wide bit of an absent slot is 1 only in an illegal header. -/
def execEmptyBundle (cl : ClusterId) (hdr : BitVec 16) (s : State) : Host.Outcome State Fault Refusal :=
  s.onCluster cl s.time (fun s =>
    let k := s.clu cl
    if (k.gstate = .running ∨ k.gstate = .held) ∧ k.ending = none then
      (s.setClu cl { k with fetchQ := k.fetchQ ++ [⟨[], hdr.extractLsb' 12 4, hdr.extractLsb' 6 6⟩] }).tryIssue cl
    else s)

/-- BR (R172): opcode 0x01 of the control slot. Unconditional branch to a byte offset. -/
def execBr (p : Place) (w : Fields) (s : State) : Host.Outcome State Fault Refusal :=
  s.slotWord p 0 0x01 w

/-- BRZ (R172): opcode 0x02 of the control slot. Branch when an integer register is zero. -/
def execBrz (p : Place) (w : Fields) (s : State) : Host.Outcome State Fault Refusal :=
  s.slotWord p 0 0x02 w

/-- BRNZ (R172): opcode 0x03 of the control slot. Branch when an integer register is non-zero. -/
def execBrnz (p : Place) (w : Fields) (s : State) : Host.Outcome State Fault Refusal :=
  s.slotWord p 0 0x03 w

/-- LOOP (R173): opcode 0x04 of the control slot. Push a loop stack entry, or skip the body for a count of 0. -/
def execLoop (p : Place) (w : Fields) (s : State) : Host.Outcome State Fault Refusal :=
  s.slotWord p 0 0x04 w

/-- WAITC (R172): opcode 0x05 of the control slot. Wait until a counter reaches an operand and write the wait status. -/
def execWaitc (p : Place) (w : Fields) (s : State) : Host.Outcome State Fault Refusal :=
  s.slotWord p 0 0x05 w

/-- WAITG (R172): opcode 0x06 of the control slot. Hold until the start of a hatch-list entry. -/
def execWaitg (p : Place) (w : Fields) (s : State) : Host.Outcome State Fault Refusal :=
  s.slotWord p 0 0x06 w

/-- HALT (R155): opcode 0x07 of the control slot. End the program impression with a halt code. -/
def execHalt (p : Place) (w : Fields) (s : State) : Host.Outcome State Fault Refusal :=
  s.slotWord p 0 0x07 w

/-- PREF (R157): opcode 0x08 of the control slot. Request an instruction-cache line. -/
def execPref (p : Place) (w : Fields) (s : State) : Host.Outcome State Fault Refusal :=
  s.slotWord p 0 0x08 w

/-- RDFLG (R175): opcode 0x09 of the control slot. Read the cluster's sticky numeric flags. -/
def execRdflg (p : Place) (w : Fields) (s : State) : Host.Outcome State Fault Refusal :=
  s.slotWord p 0 0x09 w

/-- STAT (R176): opcode 0x0A of the control slot. Read one field of the cluster status snapshot. -/
def execStat (p : Place) (w : Fields) (s : State) : Host.Outcome State Fault Refusal :=
  s.slotWord p 0 0x0A w

/-- ADD (R177): opcode 0x01 of the scalar slot. Scalar 64-bit integer addition. -/
def execAdd (p : Place) (w : Fields) (s : State) : Host.Outcome State Fault Refusal :=
  s.slotWord p 1 0x01 w

/-- SUB (R177): opcode 0x02 of the scalar slot. Scalar 64-bit integer subtraction. -/
def execSub (p : Place) (w : Fields) (s : State) : Host.Outcome State Fault Refusal :=
  s.slotWord p 1 0x02 w

/-- MUL (R177): opcode 0x03 of the scalar slot. Scalar 64-bit integer multiplication, low half. -/
def execMul (p : Place) (w : Fields) (s : State) : Host.Outcome State Fault Refusal :=
  s.slotWord p 1 0x03 w

/-- AND (R177): opcode 0x04 of the scalar slot. Scalar bitwise AND. -/
def execAnd (p : Place) (w : Fields) (s : State) : Host.Outcome State Fault Refusal :=
  s.slotWord p 1 0x04 w

/-- OR (R177): opcode 0x05 of the scalar slot. Scalar bitwise OR. -/
def execOr (p : Place) (w : Fields) (s : State) : Host.Outcome State Fault Refusal :=
  s.slotWord p 1 0x05 w

/-- XOR (R177): opcode 0x06 of the scalar slot. Scalar bitwise XOR. -/
def execXor (p : Place) (w : Fields) (s : State) : Host.Outcome State Fault Refusal :=
  s.slotWord p 1 0x06 w

/-- SHL (R177): opcode 0x07 of the scalar slot. Scalar shift left. -/
def execShl (p : Place) (w : Fields) (s : State) : Host.Outcome State Fault Refusal :=
  s.slotWord p 1 0x07 w

/-- SHR (R177): opcode 0x08 of the scalar slot. Scalar logical shift right. -/
def execShr (p : Place) (w : Fields) (s : State) : Host.Outcome State Fault Refusal :=
  s.slotWord p 1 0x08 w

/-- SRA (R177): opcode 0x09 of the scalar slot. Scalar arithmetic shift right. -/
def execSra (p : Place) (w : Fields) (s : State) : Host.Outcome State Fault Refusal :=
  s.slotWord p 1 0x09 w

/-- SLT (R177): opcode 0x0A of the scalar slot. Scalar signed less-than compare. -/
def execSlt (p : Place) (w : Fields) (s : State) : Host.Outcome State Fault Refusal :=
  s.slotWord p 1 0x0A w

/-- SLTU (R177): opcode 0x0B of the scalar slot. Scalar unsigned less-than compare. -/
def execSltu (p : Place) (w : Fields) (s : State) : Host.Outcome State Fault Refusal :=
  s.slotWord p 1 0x0B w

/-- SEQ (R177): opcode 0x0C of the scalar slot. Scalar equality compare. -/
def execSeq (p : Place) (w : Fields) (s : State) : Host.Outcome State Fault Refusal :=
  s.slotWord p 1 0x0C w

/-- MIN (R177): opcode 0x0D of the scalar slot. Scalar signed minimum. -/
def execMin (p : Place) (w : Fields) (s : State) : Host.Outcome State Fault Refusal :=
  s.slotWord p 1 0x0D w

/-- MAX (R177): opcode 0x0E of the scalar slot. Scalar signed maximum. -/
def execMax (p : Place) (w : Fields) (s : State) : Host.Outcome State Fault Refusal :=
  s.slotWord p 1 0x0E w

/-- ADDI (R177): opcode 0x10 of the scalar slot. Add a sign-extended immediate. -/
def execAddi (p : Place) (w : Fields) (s : State) : Host.Outcome State Fault Refusal :=
  s.slotWord p 1 0x10 w

/-- LIH (R177): opcode 0x11 of the scalar slot. Load an immediate into the upper 32 bits. -/
def execLih (p : Place) (w : Fields) (s : State) : Host.Outcome State Fault Refusal :=
  s.slotWord p 1 0x11 w

/-- LD (R177): opcode 0x18 of the scalar slot. Load 8 bytes from SRAM into an integer register. -/
def execLd (p : Place) (w : Fields) (s : State) : Host.Outcome State Fault Refusal :=
  s.slotWord p 1 0x18 w

/-- ST (R177): opcode 0x19 of the scalar slot. Store 8 bytes of an integer register to SRAM. -/
def execSt (p : Place) (w : Fields) (s : State) : Host.Outcome State Fault Refusal :=
  s.slotWord p 1 0x19 w

/-- FLD (R177): opcode 0x1A of the scalar slot. Load 4 bytes from SRAM into a binary32 register. -/
def execFld (p : Place) (w : Fields) (s : State) : Host.Outcome State Fault Refusal :=
  s.slotWord p 1 0x1A w

/-- FST (R177): opcode 0x1B of the scalar slot. Store a binary32 register to SRAM. -/
def execFst (p : Place) (w : Fields) (s : State) : Host.Outcome State Fault Refusal :=
  s.slotWord p 1 0x1B w

/-- FADD (R177): opcode 0x20 of the scalar slot. Scalar binary32 addition. -/
def execFadd (p : Place) (w : Fields) (s : State) : Host.Outcome State Fault Refusal :=
  s.slotWord p 1 0x20 w

/-- FSUB (R177): opcode 0x21 of the scalar slot. Scalar binary32 subtraction. -/
def execFsub (p : Place) (w : Fields) (s : State) : Host.Outcome State Fault Refusal :=
  s.slotWord p 1 0x21 w

/-- FMUL (R177): opcode 0x22 of the scalar slot. Scalar binary32 multiplication. -/
def execFmul (p : Place) (w : Fields) (s : State) : Host.Outcome State Fault Refusal :=
  s.slotWord p 1 0x22 w

/-- FFMA (R177): opcode 0x23 of the scalar slot. Scalar binary32 fused multiply-add. -/
def execFfma (p : Place) (w : Fields) (s : State) : Host.Outcome State Fault Refusal :=
  s.slotWord p 1 0x23 w

/-- FDIV (R177): opcode 0x24 of the scalar slot. Scalar binary32 division. -/
def execFdiv (p : Place) (w : Fields) (s : State) : Host.Outcome State Fault Refusal :=
  s.slotWord p 1 0x24 w

/-- FSQRT (R177): opcode 0x25 of the scalar slot. Scalar binary32 square root. -/
def execFsqrt (p : Place) (w : Fields) (s : State) : Host.Outcome State Fault Refusal :=
  s.slotWord p 1 0x25 w

/-- FRSQRT (R177): opcode 0x26 of the scalar slot. Scalar binary32 reciprocal square root. -/
def execFrsqrt (p : Place) (w : Fields) (s : State) : Host.Outcome State Fault Refusal :=
  s.slotWord p 1 0x26 w

/-- FMAX (R177): opcode 0x27 of the scalar slot. Scalar binary32 maximum. -/
def execFmax (p : Place) (w : Fields) (s : State) : Host.Outcome State Fault Refusal :=
  s.slotWord p 1 0x27 w

/-- FMIN (R177): opcode 0x28 of the scalar slot. Scalar binary32 minimum. -/
def execFmin (p : Place) (w : Fields) (s : State) : Host.Outcome State Fault Refusal :=
  s.slotWord p 1 0x28 w

/-- FABS (R177): opcode 0x29 of the scalar slot. Scalar binary32 absolute value. -/
def execFabs (p : Place) (w : Fields) (s : State) : Host.Outcome State Fault Refusal :=
  s.slotWord p 1 0x29 w

/-- FNEG (R177): opcode 0x2A of the scalar slot. Scalar binary32 negation. -/
def execFneg (p : Place) (w : Fields) (s : State) : Host.Outcome State Fault Refusal :=
  s.slotWord p 1 0x2A w

/-- FCMP (R178): opcode 0x2B of the scalar slot. Scalar binary32 compare under a predicate code. -/
def execFcmp (p : Place) (w : Fields) (s : State) : Host.Outcome State Fault Refusal :=
  s.slotWord p 1 0x2B w

/-- FMVXF (R177): opcode 0x2C of the scalar slot. Move binary32 bits to an integer register. -/
def execFmvxf (p : Place) (w : Fields) (s : State) : Host.Outcome State Fault Refusal :=
  s.slotWord p 1 0x2C w

/-- FMVFX (R177): opcode 0x2D of the scalar slot. Move integer bits to a binary32 register. -/
def execFmvfx (p : Place) (w : Fields) (s : State) : Host.Outcome State Fault Refusal :=
  s.slotWord p 1 0x2D w

/-- ICVTF (R177): opcode 0x2E of the scalar slot. Convert a signed integer to binary32. -/
def execIcvtf (p : Place) (w : Fields) (s : State) : Host.Outcome State Fault Refusal :=
  s.slotWord p 1 0x2E w

/-- FCVTI (R179): opcode 0x2F of the scalar slot. Truncate binary32 to a saturating signed integer. -/
def execFcvti (p : Place) (w : Fields) (s : State) : Host.Outcome State Fault Refusal :=
  s.slotWord p 1 0x2F w

/-- SETCX (R177): opcode 0x30 of the scalar slot. Set the conversion context for VCVT. -/
def execSetcx (p : Place) (w : Fields) (s : State) : Host.Outcome State Fault Refusal :=
  s.slotWord p 1 0x30 w

/-- VADD (R180): opcode 0x01 of the vector slot. Vector binary32 addition. -/
def execVadd (p : Place) (w : Fields) (s : State) : Host.Outcome State Fault Refusal :=
  s.slotWord p 2 0x01 w

/-- VSUB (R180): opcode 0x02 of the vector slot. Vector binary32 subtraction. -/
def execVsub (p : Place) (w : Fields) (s : State) : Host.Outcome State Fault Refusal :=
  s.slotWord p 2 0x02 w

/-- VMUL (R180): opcode 0x03 of the vector slot. Vector binary32 multiplication. -/
def execVmul (p : Place) (w : Fields) (s : State) : Host.Outcome State Fault Refusal :=
  s.slotWord p 2 0x03 w

/-- VFMA (R180): opcode 0x04 of the vector slot. Vector binary32 fused multiply-add. -/
def execVfma (p : Place) (w : Fields) (s : State) : Host.Outcome State Fault Refusal :=
  s.slotWord p 2 0x04 w

/-- VDIV (R180): opcode 0x05 of the vector slot. Vector binary32 division. -/
def execVdiv (p : Place) (w : Fields) (s : State) : Host.Outcome State Fault Refusal :=
  s.slotWord p 2 0x05 w

/-- VSQRT (R180): opcode 0x06 of the vector slot. Vector binary32 square root. -/
def execVsqrt (p : Place) (w : Fields) (s : State) : Host.Outcome State Fault Refusal :=
  s.slotWord p 2 0x06 w

/-- VRSQRT (R180): opcode 0x07 of the vector slot. Vector binary32 reciprocal square root. -/
def execVrsqrt (p : Place) (w : Fields) (s : State) : Host.Outcome State Fault Refusal :=
  s.slotWord p 2 0x07 w

/-- VMAX (R180): opcode 0x08 of the vector slot. Vector maximum. -/
def execVmax (p : Place) (w : Fields) (s : State) : Host.Outcome State Fault Refusal :=
  s.slotWord p 2 0x08 w

/-- VMIN (R180): opcode 0x09 of the vector slot. Vector minimum. -/
def execVmin (p : Place) (w : Fields) (s : State) : Host.Outcome State Fault Refusal :=
  s.slotWord p 2 0x09 w

/-- VABS (R180): opcode 0x0A of the vector slot. Vector absolute value. -/
def execVabs (p : Place) (w : Fields) (s : State) : Host.Outcome State Fault Refusal :=
  s.slotWord p 2 0x0A w

/-- VNEG (R180): opcode 0x0B of the vector slot. Vector negation. -/
def execVneg (p : Place) (w : Fields) (s : State) : Host.Outcome State Fault Refusal :=
  s.slotWord p 2 0x0B w

/-- VCMP (R180): opcode 0x0C of the vector slot. Vector compare into a mask register. -/
def execVcmp (p : Place) (w : Fields) (s : State) : Host.Outcome State Fault Refusal :=
  s.slotWord p 2 0x0C w

/-- VSEL (R180): opcode 0x0D of the vector slot. Vector select under a mask. -/
def execVsel (p : Place) (w : Fields) (s : State) : Host.Outcome State Fault Refusal :=
  s.slotWord p 2 0x0D w

/-- VBCAST (R180): opcode 0x0E of the vector slot. Broadcast a binary32 register to every lane. -/
def execVbcast (p : Place) (w : Fields) (s : State) : Host.Outcome State Fault Refusal :=
  s.slotWord p 2 0x0E w

/-- VLD (R181): opcode 0x10 of the vector slot. Load 512 codes from SRAM into a vector register. -/
def execVld (p : Place) (w : Fields) (s : State) : Host.Outcome State Fault Refusal :=
  s.slotWord p 2 0x10 w

/-- VST (R181): opcode 0x11 of the vector slot. Store the codes of a vector register to SRAM, merging disabled lanes. -/
def execVst (p : Place) (w : Fields) (s : State) : Host.Outcome State Fault Refusal :=
  s.slotWord p 2 0x11 w

/-- VCVT (R182): opcode 0x12 of the vector slot. Convert vector lanes into a short format with scales and rounding. -/
def execVcvt (p : Place) (w : Fields) (s : State) : Host.Outcome State Fault Refusal :=
  s.slotWord p 2 0x12 w

/-- VDEC (R182): opcode 0x13 of the vector slot. Decode short-format vector lanes to binary32. -/
def execVdec (p : Place) (w : Fields) (s : State) : Host.Outcome State Fault Refusal :=
  s.slotWord p 2 0x13 w

/-- VSPLIT3 (R99): opcode 0x14 of the vector slot. Split binary32 lanes into three HX16 parts. -/
def execVsplit3 (p : Place) (w : Fields) (s : State) : Host.Outcome State Fault Refusal :=
  s.slotWord p 2 0x14 w

/-- VRED (R96): opcode 0x15 of the vector slot. Reduce 512 lanes in a fixed tree into a binary32 register. -/
def execVred (p : Place) (w : Fields) (s : State) : Host.Outcome State Fault Refusal :=
  s.slotWord p 2 0x15 w

/-- MAND (R180): opcode 0x18 of the vector slot. Mask AND. -/
def execMand (p : Place) (w : Fields) (s : State) : Host.Outcome State Fault Refusal :=
  s.slotWord p 2 0x18 w

/-- MOR (R180): opcode 0x19 of the vector slot. Mask OR. -/
def execMor (p : Place) (w : Fields) (s : State) : Host.Outcome State Fault Refusal :=
  s.slotWord p 2 0x19 w

/-- MXOR (R180): opcode 0x1A of the vector slot. Mask XOR. -/
def execMxor (p : Place) (w : Fields) (s : State) : Host.Outcome State Fault Refusal :=
  s.slotWord p 2 0x1A w

/-- MNOT (R180): opcode 0x1B of the vector slot. Mask NOT. -/
def execMnot (p : Place) (w : Fields) (s : State) : Host.Outcome State Fault Refusal :=
  s.slotWord p 2 0x1B w

/-- MMA (R183): opcode 0x01 of the array slot. Start one array tile operation from a tile descriptor. -/
def execMma (p : Place) (w : Fields) (s : State) : Host.Outcome State Fault Refusal :=
  s.slotWord p 3 0x01 w

/-- MOVE (R188): opcode 0x01 of the move slot. Start a copy between module addresses with a completion counter increment. -/
def execMove (p : Place) (w : Fields) (s : State) : Host.Outcome State Fault Refusal :=
  s.slotWord p 4 0x01 w

/-- BALLOC (R186): opcode 0x02 of the move slot. Request an SRAM or DRAM granule from the buffer pool. -/
def execBalloc (p : Place) (w : Fields) (s : State) : Host.Outcome State Fault Refusal :=
  s.slotWord p 4 0x02 w

/-- BFREE (R304): opcode 0x03 of the move slot. Release a granule, refused unless by its releaser. -/
def execBfree (p : Place) (w : Fields) (s : State) : Host.Outcome State Fault Refusal :=
  s.slotWord p 4 0x03 w

/-- SLAUNCH (R202): opcode 0x01 of the stream/sync slot. Pass a stream descriptor to a region stream engine's launch queue. -/
def execSlaunch (p : Place) (w : Fields) (s : State) : Host.Outcome State Fault Refusal :=
  s.slotWord p 5 0x01 w

/-- CADD (R190): opcode 0x02 of the stream/sync slot. Add an immediate to a counter. -/
def execCadd (p : Place) (w : Fields) (s : State) : Host.Outcome State Fault Refusal :=
  s.slotWord p 5 0x02 w

/-- CADDR (R190): opcode 0x03 of the stream/sync slot. Add a register value to a counter. -/
def execCaddr (p : Place) (w : Fields) (s : State) : Host.Outcome State Fault Refusal :=
  s.slotWord p 5 0x03 w

/-- BARR (R287): opcode 0x04 of the stream/sync slot. Arrive locally at a barrier slot. -/
def execBarr (p : Place) (w : Fields) (s : State) : Host.Outcome State Fault Refusal :=
  s.slotWord p 5 0x04 w

end Sys2Proof.Machine
end

