-- ==== Sys2Proof/Machine/Dispatch.lean ====
section
/-! DEFINITION. One arm per command, in the order of the opcode table. -/

namespace Sys2Proof.Machine

def exec (i : Instr) (s : State) : Host.Outcome State Fault Refusal :=
  match i with
  | .emptyBundle cl hdr => Sys2Proof.Machine.execEmptyBundle cl hdr s
  | .br p w => Sys2Proof.Machine.execBr p w s
  | .brz p w => Sys2Proof.Machine.execBrz p w s
  | .brnz p w => Sys2Proof.Machine.execBrnz p w s
  | .loop p w => Sys2Proof.Machine.execLoop p w s
  | .waitc p w => Sys2Proof.Machine.execWaitc p w s
  | .waitg p w => Sys2Proof.Machine.execWaitg p w s
  | .halt p w => Sys2Proof.Machine.execHalt p w s
  | .pref p w => Sys2Proof.Machine.execPref p w s
  | .rdflg p w => Sys2Proof.Machine.execRdflg p w s
  | .stat p w => Sys2Proof.Machine.execStat p w s
  | .add p w => Sys2Proof.Machine.execAdd p w s
  | .sub p w => Sys2Proof.Machine.execSub p w s
  | .mul p w => Sys2Proof.Machine.execMul p w s
  | .and p w => Sys2Proof.Machine.execAnd p w s
  | .or p w => Sys2Proof.Machine.execOr p w s
  | .xor p w => Sys2Proof.Machine.execXor p w s
  | .shl p w => Sys2Proof.Machine.execShl p w s
  | .shr p w => Sys2Proof.Machine.execShr p w s
  | .sra p w => Sys2Proof.Machine.execSra p w s
  | .slt p w => Sys2Proof.Machine.execSlt p w s
  | .sltu p w => Sys2Proof.Machine.execSltu p w s
  | .seq p w => Sys2Proof.Machine.execSeq p w s
  | .min p w => Sys2Proof.Machine.execMin p w s
  | .max p w => Sys2Proof.Machine.execMax p w s
  | .addi p w => Sys2Proof.Machine.execAddi p w s
  | .lih p w => Sys2Proof.Machine.execLih p w s
  | .ld p w => Sys2Proof.Machine.execLd p w s
  | .st p w => Sys2Proof.Machine.execSt p w s
  | .fld p w => Sys2Proof.Machine.execFld p w s
  | .fst p w => Sys2Proof.Machine.execFst p w s
  | .fadd p w => Sys2Proof.Machine.execFadd p w s
  | .fsub p w => Sys2Proof.Machine.execFsub p w s
  | .fmul p w => Sys2Proof.Machine.execFmul p w s
  | .ffma p w => Sys2Proof.Machine.execFfma p w s
  | .fdiv p w => Sys2Proof.Machine.execFdiv p w s
  | .fsqrt p w => Sys2Proof.Machine.execFsqrt p w s
  | .frsqrt p w => Sys2Proof.Machine.execFrsqrt p w s
  | .fmax p w => Sys2Proof.Machine.execFmax p w s
  | .fmin p w => Sys2Proof.Machine.execFmin p w s
  | .fabs p w => Sys2Proof.Machine.execFabs p w s
  | .fneg p w => Sys2Proof.Machine.execFneg p w s
  | .fcmp p w => Sys2Proof.Machine.execFcmp p w s
  | .fmvxf p w => Sys2Proof.Machine.execFmvxf p w s
  | .fmvfx p w => Sys2Proof.Machine.execFmvfx p w s
  | .icvtf p w => Sys2Proof.Machine.execIcvtf p w s
  | .fcvti p w => Sys2Proof.Machine.execFcvti p w s
  | .setcx p w => Sys2Proof.Machine.execSetcx p w s
  | .vadd p w => Sys2Proof.Machine.execVadd p w s
  | .vsub p w => Sys2Proof.Machine.execVsub p w s
  | .vmul p w => Sys2Proof.Machine.execVmul p w s
  | .vfma p w => Sys2Proof.Machine.execVfma p w s
  | .vdiv p w => Sys2Proof.Machine.execVdiv p w s
  | .vsqrt p w => Sys2Proof.Machine.execVsqrt p w s
  | .vrsqrt p w => Sys2Proof.Machine.execVrsqrt p w s
  | .vmax p w => Sys2Proof.Machine.execVmax p w s
  | .vmin p w => Sys2Proof.Machine.execVmin p w s
  | .vabs p w => Sys2Proof.Machine.execVabs p w s
  | .vneg p w => Sys2Proof.Machine.execVneg p w s
  | .vcmp p w => Sys2Proof.Machine.execVcmp p w s
  | .vsel p w => Sys2Proof.Machine.execVsel p w s
  | .vbcast p w => Sys2Proof.Machine.execVbcast p w s
  | .vld p w => Sys2Proof.Machine.execVld p w s
  | .vst p w => Sys2Proof.Machine.execVst p w s
  | .vcvt p w => Sys2Proof.Machine.execVcvt p w s
  | .vdec p w => Sys2Proof.Machine.execVdec p w s
  | .vsplit3 p w => Sys2Proof.Machine.execVsplit3 p w s
  | .vred p w => Sys2Proof.Machine.execVred p w s
  | .mand p w => Sys2Proof.Machine.execMand p w s
  | .mor p w => Sys2Proof.Machine.execMor p w s
  | .mxor p w => Sys2Proof.Machine.execMxor p w s
  | .mnot p w => Sys2Proof.Machine.execMnot p w s
  | .mma p w => Sys2Proof.Machine.execMma p w s
  | .move p w => Sys2Proof.Machine.execMove p w s
  | .balloc p w => Sys2Proof.Machine.execBalloc p w s
  | .bfree p w => Sys2Proof.Machine.execBfree p w s
  | .slaunch p w => Sys2Proof.Machine.execSlaunch p w s
  | .cadd p w => Sys2Proof.Machine.execCadd p w s
  | .caddr p w => Sys2Proof.Machine.execCaddr p w s
  | .barr p w => Sys2Proof.Machine.execBarr p w s
  | .resultLanding cl => Sys2Proof.Machine.execResultLanding cl s
  | .clusterStepEnd cl now => Sys2Proof.Machine.execClusterStepEnd cl now s
  | .mmaTileComplete cl => Sys2Proof.Machine.execMmaTileComplete cl s
  | .icacheLineFill cl line how now => Sys2Proof.Machine.execIcacheLineFill cl line how now s
  | .sramExternalAccess cl a => Sys2Proof.Machine.execSramExternalAccess cl a s
  | .sramScrub cl word found => Sys2Proof.Machine.execSramScrub cl word found s
  | .sramClearDone job now => Sys2Proof.Machine.execSramClearDone job now s
  | .tempSensorRead cl temp => Sys2Proof.Machine.execTempSensorRead cl temp s
  | .waitMet cl now => Sys2Proof.Machine.execWaitMet cl now s
  | .waitcTimeout cl now => Sys2Proof.Machine.execWaitcTimeout cl now s
  | .ballocGrant die dram now => Sys2Proof.Machine.execBallocGrant die dram now s
  | .moveComplete cl idx now => Sys2Proof.Machine.execMoveComplete cl idx now s
  | .pacorLaunch port now => Sys2Proof.Machine.execPacorLaunch port now s
  | .descriptorActivate port now => Sys2Proof.Machine.execDescriptorActivate port now s
  | .contrib eng f now => Sys2Proof.Machine.execContrib eng f now s
  | .reduceAdd eng ctx now => Sys2Proof.Machine.execReduceAdd eng ctx now s
  | .reduceDeadline eng ctx now => Sys2Proof.Machine.execReduceDeadline eng ctx now s
  | .reduceDelivery eng ctx now => Sys2Proof.Machine.execReduceDelivery eng ctx now s
  | .overflowReplay eng ctx now => Sys2Proof.Machine.execOverflowReplay eng ctx now s
  | .gatherCollectFrame eng f now => Sys2Proof.Machine.execGatherCollectFrame eng f now s
  | .gatherReq eng f now => Sys2Proof.Machine.execGatherReq eng f now s
  | .gatherServeDeadline eng ctx now => Sys2Proof.Machine.execGatherServeDeadline eng ctx now s
  | .gatherReplySent eng ctx now => Sys2Proof.Machine.execGatherReplySent eng ctx now s
  | .shiftBlock eng f now => Sys2Proof.Machine.execShiftBlock eng f now s
  | .permuteBlock eng f now => Sys2Proof.Machine.execPermuteBlock eng f now s
  | .permuteReadsDone eng ctx now => Sys2Proof.Machine.execPermuteReadsDone eng ctx now s
  | .streamWorkDone eng ctx now => Sys2Proof.Machine.execStreamWorkDone eng ctx now s
  | .streamDeadline eng ctx now => Sys2Proof.Machine.execStreamDeadline eng ctx now s
  | .signalledFrameCommit die f now => Sys2Proof.Machine.execSignalledFrameCommit die f now s
  | .dieCommitReport src r now => Sys2Proof.Machine.execDieCommitReport src r now s
  | .signal f now => Sys2Proof.Machine.execSignal f now s
  | .pendingSignalTimeout die job rank transfer now => Sys2Proof.Machine.execPendingSignalTimeout die job rank transfer now s
  | .barrierArrivalFrame f now => Sys2Proof.Machine.execBarrierArrivalFrame f now s
  | .barrierDeadline slot now => Sys2Proof.Machine.execBarrierDeadline slot now s
  | .barrierCompletionFrame f now => Sys2Proof.Machine.execBarrierCompletionFrame f now s
  | .shardAdvance counter add now => Sys2Proof.Machine.execShardAdvance counter add now s
  | .jobDigestFrame job module digest now => Sys2Proof.Machine.execJobDigestFrame job module digest now s
  | .jobStartAt job now => Sys2Proof.Machine.execJobStartAt job now s
  | .jobStartTimeout job now => Sys2Proof.Machine.execJobStartTimeout job now s
  | .hatchEntryStart slot now => Sys2Proof.Machine.execHatchEntryStart slot now s
  | .impressionStart job entry now => Sys2Proof.Machine.execImpressionStart job entry now s
  | .ledgerStepClose job now => Sys2Proof.Machine.execLedgerStepClose job now s
  | .jobDone job now => Sys2Proof.Machine.execJobDone job now s
  | .effectiveStepBegin job step now => Sys2Proof.Machine.execEffectiveStepBegin job step now s
  | .trainingFrame port lane t now => Sys2Proof.Machine.execTrainingFrame port lane t now s
  | .equaliseTimeout port lane now => Sys2Proof.Machine.execEqualiseTimeout port lane now s
  | .alignBlock port lane rx now => Sys2Proof.Machine.execAlignBlock port lane rx now s
  | .alignTimeout port now => Sys2Proof.Machine.execAlignTimeout port now s
  | .trainBlock port lane rx now => Sys2Proof.Machine.execTrainBlock port lane rx now s
  | .negotiateTimeout port now => Sys2Proof.Machine.execNegotiateTimeout port now s
  | .dataBlock port lane rx now => Sys2Proof.Machine.execDataBlock port lane rx now s
  | .idleBlock port lane rx now => Sys2Proof.Machine.execIdleBlock port lane rx now s
  | .timeBlock port lane rx now => Sys2Proof.Machine.execTimeBlock port lane rx now s
  | .blockTransmit port now => Sys2Proof.Machine.execBlockTransmit port now s
  | .timeBlockDue port now => Sys2Proof.Machine.execTimeBlockDue port now s
  | .alignBlockDue port now => Sys2Proof.Machine.execAlignBlockDue port now s
  | .laneSerWindow port lane errors symbols now => Sys2Proof.Machine.execLaneSerWindow port lane errors symbols now s
  | .laneRetrainEnd port lane ok now => Sys2Proof.Machine.execLaneRetrainEnd port lane ok now s
  | .ackTimeoutReplay port now => Sys2Proof.Machine.execAckTimeoutReplay port now s
  | .linkSilenceTimeout port now => Sys2Proof.Machine.execLinkSilenceTimeout port now s
  | .fabWzCtrlDisable port disable now => Sys2Proof.Machine.execFabWzCtrlDisable port disable now s
  | .fabWzRetrain port go now => Sys2Proof.Machine.execFabWzRetrain port go now s
  | .routeLookupDone port now => Sys2Proof.Machine.execRouteLookupDone port now s
  | .egressSelect port now => Sys2Proof.Machine.execEgressSelect port now s
  | .frameStomp port now => Sys2Proof.Machine.execFrameStomp port now s
  | .steeringTimeout job ident now => Sys2Proof.Machine.execSteeringTimeout job ident now s
  | .ecnEcho job rank now => Sys2Proof.Machine.execEcnEcho job rank now s
  | .ecnRateStep job rank now => Sys2Proof.Machine.execEcnRateStep job rank now s
  | .queueSample port now => Sys2Proof.Machine.execQueueSample port now s
  | .policerParamWrite port cls par value now => Sys2Proof.Machine.execPolicerParamWrite port cls par value now s
  | .registerWrite addr value => Sys2Proof.Machine.execRegisterWrite addr value s
  | .mbxDoneClear die mask => Sys2Proof.Machine.execMbxDoneClear die mask s
  | .drained now => Sys2Proof.Machine.execDrained now s
  | .drainTimeout now => Sys2Proof.Machine.execDrainTimeout now s
  | .memReq die f now => Sys2Proof.Machine.execMemReq die f now s
  | .combineClose die window offset now => Sys2Proof.Machine.execCombineClose die window offset now s
  | .memReply die f now => Sys2Proof.Machine.execMemReply die f now s
  | .memTimeout die tag now => Sys2Proof.Machine.execMemTimeout die tag now s
  | .refreshSlot stack channel bank scrub now => Sys2Proof.Machine.execRefreshSlot stack channel bank scrub now s
  | .signatureBatch die batch now => Sys2Proof.Machine.execSignatureBatch die batch now s
  | .signatureMissing die key now => Sys2Proof.Machine.execSignatureMissing die key now s
  | .divergenceNotice job n now => Sys2Proof.Machine.execDivergenceNotice job n now s
  | .proofForwardFrame port f now => Sys2Proof.Machine.execProofForwardFrame port f now s
  | .mirrorData f now => Sys2Proof.Machine.execMirrorData f now s
  | .mirrorAck f now => Sys2Proof.Machine.execMirrorAck f now s
  | .seal f now => Sys2Proof.Machine.execSeal f now s
  | .sealAck f now => Sys2Proof.Machine.execSealAck f now s
  | .pairHello f now => Sys2Proof.Machine.execPairHello f now s
  | .pairHelloDue now => Sys2Proof.Machine.execPairHelloDue now s
  | .injectNotice f now => Sys2Proof.Machine.execInjectNotice f now s
  | .restoreData f now => Sys2Proof.Machine.execRestoreData f now s
  | .partnerLost now => Sys2Proof.Machine.execPartnerLost now s
  | .takeoverComplete now => Sys2Proof.Machine.execTakeoverComplete now s
  | .recoveryTimeout port now => Sys2Proof.Machine.execRecoveryTimeout port now s
  | .eventPush now => Sys2Proof.Machine.execEventPush now s
  | .marginSample m now => Sys2Proof.Machine.execMarginSample m now s
  | .standbyUp now => Sys2Proof.Machine.execStandbyUp now s
  | .inputLoss now => Sys2Proof.Machine.execInputLoss now s
  | .powerupHub now => Sys2Proof.Machine.execPowerupHub now s
  | .bootComplete now => Sys2Proof.Machine.execBootComplete now s
  | .railsInWindow group now => Sys2Proof.Machine.execRailsInWindow group now s
  | .railWindowTimeout group now => Sys2Proof.Machine.execRailWindowTimeout group now s
  | .quadrantResetRelease die now => Sys2Proof.Machine.execQuadrantResetRelease die now s
  | .powerDownDone now => Sys2Proof.Machine.execPowerDownDone now s
  | .vcoreRampDone die now => Sys2Proof.Machine.execVcoreRampDone die now s
  | .ppsEdge now => Sys2Proof.Machine.execPpsEdge now s
  | .ppsLost now => Sys2Proof.Machine.execPpsLost now s
  | .ptpSync now => Sys2Proof.Machine.execPtpSync now s
  | .ptpLost now => Sys2Proof.Machine.execPtpLost now s
  | .partnerHbLost now => Sys2Proof.Machine.execPartnerHbLost now s
  | .rstNLow now => Sys2Proof.Machine.execRstNLow now s
  | .rstNRise now => Sys2Proof.Machine.execRstNRise now s
  | .meterInterval m => Sys2Proof.Machine.execMeterInterval m s
  | .meterJobMarker open_ deferred job module m => Sys2Proof.Machine.execMeterJobMarker open_ deferred job module m s
  | .meterSealBreak m => Sys2Proof.Machine.execMeterSealBreak m s
  | .meterPowerUp m => Sys2Proof.Machine.execMeterPowerUp m s
  | .meterPowerLoss m => Sys2Proof.Machine.execMeterPowerLoss m s
  | .meterTimeLabel m now => Sys2Proof.Machine.execMeterTimeLabel m now s
  | .meterLost now => Sys2Proof.Machine.execMeterLost now s
  | .bootRomRun now => Sys2Proof.Machine.execBootRomRun now s
  | .mgmtDatagram d now => Sys2Proof.Machine.execMgmtDatagram d now s
  | .serviceDatagram d now => Sys2Proof.Machine.execServiceDatagram d now s
  | .relayRequest f now => Sys2Proof.Machine.execRelayRequest f now s
  | .relayReply f now => Sys2Proof.Machine.execRelayReply f now s
  | .relayTimeout target now => Sys2Proof.Machine.execRelayTimeout target now s
  | .mailboxDispatch die => Sys2Proof.Machine.execMailboxDispatch die s
  | .nop m => Sys2Proof.Machine.execNop m s
  | .getInfo m => Sys2Proof.Machine.execGetInfo m s
  | .readReg m => Sys2Proof.Machine.execReadReg m s
  | .writeReg m => Sys2Proof.Machine.execWriteReg m s
  | .stageWrite m => Sys2Proof.Machine.execStageWrite m s
  | .plateLoad m => Sys2Proof.Machine.execPlateLoad m s
  | .plateUnload m => Sys2Proof.Machine.execPlateUnload m s
  | .jobStart m => Sys2Proof.Machine.execJobStart m s
  | .jobStop m => Sys2Proof.Machine.execJobStop m s
  | .jobEnd m => Sys2Proof.Machine.execJobEnd m s
  | .setNumericMode m => Sys2Proof.Machine.execSetNumericMode m s
  | .setMapping m => Sys2Proof.Machine.execSetMapping m s
  | .resetScales m => Sys2Proof.Machine.execResetScales m s
  | .injectFault m => Sys2Proof.Machine.execInjectFault m s
  | .routeLoad m => Sys2Proof.Machine.execRouteLoad m s
  | .routeDrain m => Sys2Proof.Machine.execRouteDrain m s
  | .routeSwap m => Sys2Proof.Machine.execRouteSwap m s
  | .routeResume m => Sys2Proof.Machine.execRouteResume m s
  | .routeCancel m => Sys2Proof.Machine.execRouteCancel m s
  | .readRunRecord m => Sys2Proof.Machine.execReadRunRecord m s
  | .readOverflowLog m => Sys2Proof.Machine.execReadOverflowLog m s
  | .readOverrunLog m => Sys2Proof.Machine.execReadOverrunLog m s
  | .readIdleAccount m => Sys2Proof.Machine.execReadIdleAccount m s
  | .readRankWait m => Sys2Proof.Machine.execReadRankWait m s
  | .readLedger m => Sys2Proof.Machine.execReadLedger m s
  | .readEventLog m => Sys2Proof.Machine.execReadEventLog m s
  | .readClusterStatus m => Sys2Proof.Machine.execReadClusterStatus m s
  | .readFaultRecord m => Sys2Proof.Machine.execReadFaultRecord m s
  | .clearHalt m => Sys2Proof.Machine.execClearHalt m s
  | .readStats m => Sys2Proof.Machine.execReadStats m s
  | .readMemFaults m => Sys2Proof.Machine.execReadMemFaults m s
  | .readStackStatus m => Sys2Proof.Machine.execReadStackStatus m s
  | .memReadRemote m => Sys2Proof.Machine.execMemReadRemote m s
  | .memWriteRemote m => Sys2Proof.Machine.execMemWriteRemote m s
  | .fwStatus m => Sys2Proof.Machine.execFwStatus m s
  | .fwBegin m => Sys2Proof.Machine.execFwBegin m s
  | .fwWrite m => Sys2Proof.Machine.execFwWrite m s
  | .fwFinish m => Sys2Proof.Machine.execFwFinish m s
  | .fwDiscard m => Sys2Proof.Machine.execFwDiscard m s
  | .fwConfirm m => Sys2Proof.Machine.execFwConfirm m s
  | .keyEnrol m => Sys2Proof.Machine.execKeyEnrol m s
  | .keyRemove m => Sys2Proof.Machine.execKeyRemove m s
  | .keyList m => Sys2Proof.Machine.execKeyList m s
  | .attest m => Sys2Proof.Machine.execAttest m s
  | .attestRun m => Sys2Proof.Machine.execAttestRun m s
  | .identityCert m => Sys2Proof.Machine.execIdentityCert m s
  | .setCapMax m => Sys2Proof.Machine.execSetCapMax m s
  | .setVcore m => Sys2Proof.Machine.execSetVcore m s
  | .modulePower m => Sys2Proof.Machine.execModulePower m s
  | .moduleReset m => Sys2Proof.Machine.execModuleReset m s
  | .dieReset m => Sys2Proof.Machine.execDieReset m s
  | .clearTrip m => Sys2Proof.Machine.execClearTrip m s
  | .readTripLog m => Sys2Proof.Machine.execReadTripLog m s
  | .pairStatus m => Sys2Proof.Machine.execPairStatus m s
  | .fmRegister m => Sys2Proof.Machine.execFmRegister m s
  | .failover m => Sys2Proof.Machine.execFailover m s
  | .resync m => Sys2Proof.Machine.execResync m s
  | .restorePartner m => Sys2Proof.Machine.execRestorePartner m s
  | .pairUnfence m => Sys2Proof.Machine.execPairUnfence m s
  | .declareLost m => Sys2Proof.Machine.execDeclareLost m s
  | .meterInfo m => Sys2Proof.Machine.execMeterInfo m s
  | .meterRead m => Sys2Proof.Machine.execMeterRead m s
  | .meterPubkey m => Sys2Proof.Machine.execMeterPubkey m s
  | .meterCert m => Sys2Proof.Machine.execMeterCert m s
  | .gatherCollectDeadline eng ctx now => Sys2Proof.Machine.execGatherCollectDeadline eng ctx now s
  | .shiftDeadline eng ctx now => Sys2Proof.Machine.execShiftDeadline eng ctx now s
  | .meterReply a now => Sys2Proof.Machine.execMeterReply a now s
  | .meterCommandTimeout now => Sys2Proof.Machine.execMeterCommandTimeout now s
  | .dieResetRelease die now => Sys2Proof.Machine.execDieResetRelease die now s
  | .moduleResetRelease now => Sys2Proof.Machine.execModuleResetRelease now s
  | .rstNGlitch now => Sys2Proof.Machine.execRstNGlitch now s
  | .injectedPartnerLossEnd now => Sys2Proof.Machine.execInjectedPartnerLossEnd now s

end Sys2Proof.Machine
end

