-- ==== Sys2Proof/Machine/Step.lean ====
section
/-! DEFINITION. One step of the block: the command at the front of the queue, or a tick of the clock. -/

namespace Sys2Proof.Machine

/-- A tick of the clock: 1 ns of network time passes, what time changes by itself changes, and hub commands that wait go on where
nothing is in progress (DESIGN CHOICE, log entry 5). -/
def State.tick (s : State) : Host.Outcome State Fault Refusal := s.happens (s.time + 1) (fun s => s.hubGo)

/-- One step. A waiting command is taken from the front of the queue and runs on the state with the queue's rest. On
an empty queue the clock ticks. -/
def step (s : State) : Host.Outcome State Fault Refusal :=
  match s.pending with
  | [] => s.tick
  | c :: cs => exec c { s with pending := cs }

/-- The state with the command that a table word spells at the front of its queue; unchanged where it spells none. -/
def State.withFetchWord (s : State) (nbits w : Nat) : State :=
  match decodeTableWord nbits w with
  | some c => { s with pending := c :: s.pending }
  | none => s

end Sys2Proof.Machine
end

