-- ==== Sys2Proof/Safety.lean ====
section
/-! DEFINITION. What claims about the module speak of: states in which nothing follows of itself, and the properties that every step
keeps. -/

namespace Sys2Proof.Machine

/-- Nothing waits in a context for what follows of itself: no results handed over whose frames have to leave, no outcome to act on, no REDUCE
behind a held set, no GATHER fill to serve, no PERMUTE block held back. -/
def Ctx.rests (c : Ctx) : Bool :=
  c.closing.isNone && c.phase != .outcome && !(c.desc.op == 1 && (c.phase == .waitReads || !c.held.isEmpty)) && !(c.desc.serve && c.phase == .waitReads)
    && !(c.desc.op == 4 && !c.held.isEmpty)

/-- Nothing in the module waits to follow a command: no JOB_START in progress, no mapping switch ordered or to be undone, no stream context
that waits, no frame that an engine holds back, no signature unsent, no advance or SEAL outstanding, no frame of the module's own on its
way. -/
def State.quiet (s : State) : Bool :=
  s.jobs.all (fun (e : Nat × Job) => e.2.startMsg.isNone && e.2.mapPend.isNone && !e.2.mapBad)
    && s.dies.all (fun (e : Nat × DieState) => e.2.sigOwn.isEmpty)
    && s.shards.all (fun (r : Shard) => r.advDue == 0)
    && s.engines.all (fun (e : Nat × Engine) => e.2.ctxs.all Ctx.rests && e.2.held.isEmpty)
    && s.pair.seals.isEmpty && s.fab.selfEgress.isEmpty && s.fab.heldStream.isEmpty && s.fab.unitHeld.isEmpty

/-- A cluster that issues a bundle of n bytes as soon as its last word comes: its core runs, its impression has started, its step has
come, no bundle waits, nothing is in flight, no issue interval is open, the bundle lies in the code region with its lines in the
cache, and the innermost loop does not end here (R139, R156, R167, R168, R173, R192). -/
def Cluster.ready (n : Nat) (k : Cluster) : Bool :=
  k.gstate == .running && k.startGate.isNone && decide (k.nextIssue ≤ k.stepCount) && (k.issuedAt != some k.stepCount)
    && k.forming.isEmpty && k.fetchQ.isEmpty && k.inflight.isEmpty && k.tiles.isEmpty && k.waitDone.isNone && !k.gateDone && k.grant.isNone
    && k.dueFault.isNone && k.fetchBad.isEmpty && k.ending.isNone
    && k.lastTile.all (fun x => decide (x.issue + x.len ≤ k.stepCount))
    && k.lastIssue.all (fun (e : Nat × Nat) => decide (e.2 + 6 ≤ k.stepCount + 1))
    && decide (k.pc.toNat + n ≤ k.codeLen)
    && ((linesOf k.pc.toNat n).all fun l => k.cached l)
    && k.loops.head?.all (fun e => e.last != k.pc.toNat)

/-- k' is k after a bundle of n bytes has issued in its step: the next bundle follows it in the code region and comes after the bundle's
idle steps; results are in flight; no register, flag or loop has changed (R164, R168). -/
def Issued (n : Nat) (idle : BitVec 4) (k k' : Cluster) : Prop :=
  k' = { k with
    pc := k.pc + BitVec.ofNat 32 n, bundleCount := k.bundleCount + 1, issuedAt := some k.stepCount
    nextIssue := k.stepCount + 1 + idle.toNat, waitDeadline := none, holdCause := .none
    icache := k'.icache, inflight := k'.inflight, lastIssue := k'.lastIssue, accesses := k'.accesses }

/-- What a statement about a closing slot word assumes: the module is quiet, the cluster is enabled, the word closes its bundle, and
the cluster is ready for a bundle of n bytes. -/
def Closes (n : Nat) (p : Place) (s : State) : Prop :=
  s.quiet = true ∧ s.hasCluster p.cl = true ∧ p.more = false ∧ p.stray = 0 ∧ (s.clu p.cl).ready n = true

end Sys2Proof.Machine
end

