-- ==== Sys2Proof/Certificates/Slice0/Obligations.lean ====
section
/-! DEFINITION. The statements for the provers: what the rules of the spec say that a command or the module does. -/

open Sys2Proof Sys2Proof.Machine

namespace Sys2Proof.Claims

/-- The integer operations of two registers with their result and latency (R177, R192). -/
def intOps : List ((Place → Fields → Instr) × (DWord → DWord → DWord) × Nat) :=
  [ (.add, (fun a b => a + b), 1), (.sub, (fun a b => a - b), 1), (.mul, (fun a b => a * b), 3)
  , (.and, (fun a b => a &&& b), 1), (.or, (fun a b => a ||| b), 1), (.xor, (fun a b => a ^^^ b), 1)
  , (.shl, (fun a b => a <<< (b.extractLsb' 0 6)), 1), (.shr, (fun a b => a >>> (b.extractLsb' 0 6)), 1)
  , (.sra, (fun a b => a.sshiftRight (b.extractLsb' 0 6).toNat), 1)
  , (.slt, (fun a b => if a.toInt < b.toInt then 1 else 0), 1), (.sltu, (fun a b => if a.toNat < b.toNat then 1 else 0), 1)
  , (.seq, (fun a b => if a = b then 1 else 0), 1)
  , (.min, (fun a b => if a.toInt ≤ b.toInt then a else b), 1), (.max, (fun a b => if a.toInt ≤ b.toInt then b else a), 1) ]

/-- The binary32 operations of two registers with their result, flags, and latency (R95, R177, R192). -/
def f2Ops : List ((Place → Fields → Instr) × (Word → Word → Word × NFlags) × Nat) :=
  [ (.fadd, f32add, 4), (.fsub, f32sub, 4), (.fmul, f32mul, 4), (.fdiv, f32div, 12)
  , (.fmax, (fun a b => (f32max a b, NFlags.none)), 4), (.fmin, (fun a b => (f32min a b, NFlags.none)), 4) ]

/-- The binary32 operations of one register (R95, R177, R192). -/
def f1Ops : List ((Place → Fields → Instr) × (Word → Word × NFlags) × Nat) :=
  [ (.fsqrt, f32sqrt, 12), (.frsqrt, f32rsqrt, 12)
  , (.fabs, (fun a => (f32abs a, NFlags.none)), 1), (.fneg, (fun a => (f32neg a, NFlags.none)), 1) ]

/-- The lane operations of two registers with their result and latency (R95, R180, R192). -/
def v2Ops : List ((Place → Fields → Instr) × (Word → Word → Word × NFlags) × Nat) :=
  [ (.vadd, f32add, 6), (.vsub, f32sub, 6), (.vmul, f32mul, 6), (.vdiv, f32div, 20)
  , (.vmax, (fun a b => (f32max a b, NFlags.none)), 6), (.vmin, (fun a b => (f32min a b, NFlags.none)), 6) ]

/-- The lane operations of one register (R95, R180, R192). -/
def v1Ops : List ((Place → Fields → Instr) × (Word → Word × NFlags) × Nat) :=
  [ (.vsqrt, f32sqrt, 20), (.vrsqrt, f32rsqrt, 20)
  , (.vabs, (fun a => (f32abs a, NFlags.none)), 2), (.vneg, (fun a => (f32neg a, NFlags.none)), 2) ]

/-- exec of a closing slot word answers a next state in which the cluster has issued it: the result T with flags F is in flight and
lands at the end of its latency; nothing else of the module changes. -/
def Books (i : Instr) (n slot lat : Nat) (T : List Target) (F : NFlags) (p : Place) (s : State) : Prop :=
  ∃ k', exec i s = .next (s.setClu p.cl k') ∧ Issued n p.idle (s.clu p.cl) k' ∧
    k'.inflight = [⟨(s.clu p.cl).stepCount + lat - 1, slot, T, F⟩]

/-- A cluster that has read ranges of its SRAM: each word of them that holds a single-bit error counts as corrected (R150). -/
def corrected (rs : List (Nat × Nat)) (cl : ClusterId) (s : State) (k : Cluster) : Cluster :=
  let ws := (rs.flatMap fun r => s.weakWords.filter fun w => meets (sramAddr cl r.1) r.2 w (codeWord w)).dedup
  { k with sramCorrected := if ws = [] then k.sramCorrected else min (k.sramCorrected + ws.length) 0xFFFFFFFF }

/-- exec of a closing slot word that reads n bytes at a of the cluster's SRAM answers a next state in which the cluster has issued it, as
Books says; the words of the range with a single-bit error count as corrected. -/
def Reads (i : Instr) (size slot lat a n : Nat) (T : List Target) (p : Place) (s : State) : Prop :=
  ∃ k', exec i s = .next (s.setClu p.cl k') ∧ Issued size p.idle (corrected [(a, n)] p.cl s (s.clu p.cl)) k' ∧
    k'.inflight = [⟨(s.clu p.cl).stepCount + lat - 1, slot, T, NFlags.none⟩]

/-- The job table lists its slots in rising order, each once. -/
def Rising (u : State) : Prop := u.jobs.Pairwise fun a b => a.1 < b.1

/-- The dies of t are those of s, but the waiting buffer requests of a cluster are gone (R155, R195). -/
def Abandons (c : ClusterId) (s t : State) : Prop :=
  ∀ d, t.die d = if d = c.die then { s.die d with waiters := (s.die d).waiters.filter fun w => w.owner != c.toNat } else s.die d

/-- The impression of a cluster, where it has one, is that of a job in the job table that is not in proof mode (R138, R323). -/
def Known (cl : ClusterId) (s : State) : Prop :=
  Rising s ∧ ∀ i, (s.clu cl).impr = some i → s.jobSlot i.job ≠ none ∧ (s.job i.job).proofRole = 0

/-- A cluster has halted at its bundle: nothing else of the module changes but the event log, which has the fault record's copy, the
buffer requests of the cluster, which wait no longer, and the status of its schedule entry, which no longer runs and keeps the code and a
copy of the record (R195, R198, R200). -/
def Halts (i : Instr) (cl : ClusterId) (code : BitVec 16) (slot : BitVec 3) (cls : BitVec 4) (number : Byte) (detail : Word) (s : State) :
    Prop := ∃ t r,
  exec i s = .next t ∧ t = { s with clusters := t.clusters, hub := t.hub, dies := t.dies, jobs := t.jobs } ∧ Abandons cl s t ∧
    ((s.clu cl).impr = none → t.jobs = s.jobs) ∧
    (∀ x, (s.clu cl).impr = some x → let q := Table.get EntryProg.reset x.entry (t.job x.job).prog
      q.running = false ∧ q.ended = s.time ∧ q.code = code ∧ q.record = some r) ∧
    (∀ n, (∀ x, (s.clu cl).impr = some x → n ≠ x.job) → t.job n = s.job n) ∧
    t.hub.eventSeq = s.hub.eventSeq + 1 ∧ (∀ c, c ≠ cl → t.clu c = s.clu c) ∧
    (t.clu cl).gstate = .halted ∧ (t.clu cl).ending = none ∧ (t.clu cl).faultRec = some r ∧ (t.clu cl).inflight = [] ∧
    (t.clu cl).x = (s.clu cl).x ∧ (t.clu cl).pc = (s.clu cl).pc ∧
    r.code = code ∧ r.slot = slot ∧ r.cls = cls ∧ r.number = number ∧ r.detail = detail ∧ r.pc = (s.clu cl).pc ∧ r.job = (s.clu cl).job ∧
    r.cluster = cl ∧ r.step = BitVec.ofNat 64 (s.clu cl).stepCount ∧ r.time = BitVec.ofNat 64 s.time

/-- exec of a closing control word answers a next state in which the cluster has issued it and its next bundle stands at pc with the
loop stack loops; nothing goes in flight and nothing else of the module changes. -/
def Moves (i : Instr) (n : Nat) (pc : Word) (loops : List LoopEntry) (p : Place) (s : State) : Prop :=
  ∃ k', exec i s = .next (s.setClu p.cl k') ∧ Issued n p.idle (s.clu p.cl) { k' with pc := (s.clu p.cl).pc + BitVec.ofNat 32 n, loops := (s.clu p.cl).loops } ∧
    k'.pc = pc ∧ k'.loops = loops ∧ k'.inflight = []

end Sys2Proof.Claims

/-- R168, R177, R192: an integer operation of two registers reads them at issue; its result lands in xd at the end of step
t + latency − 1, and the issue changes nothing else. -/
def Obligations.IntegerOpsBookTheirResult : Prop :=
  ∀ e ∈ Claims.intOps, ∀ (s : State) (p : Place) (w : Fields), Closes 6 p s → w.wide = false → w.c = 0 → w.mod = 0 →
    Claims.Books (e.1 p w) 6 1 e.2.2 [.x w.d (e.2.1 ((s.clu p.cl).xr w.a) ((s.clu p.cl).xr w.b))] NFlags.none p s

/-- R177: ADDI adds the sign-extended immediate; LIH puts the immediate above the low 32 bits of xa. SETCX sets the conversion
context from xa, xb and the immediate. Each takes effect one step later and changes nothing else at issue. -/
def Obligations.ImmediateOpsBookTheirResult : Prop :=
  ∀ (s : State) (p : Place) (w : Fields), Closes 10 p s → w.wide = true → w.c = 0 → w.mod = 0 →
    (w.b = 0 → Claims.Books (.addi p w) 10 1 1 [.x w.d ((s.clu p.cl).xr w.a + w.imm.signExtend 64)] NFlags.none p s) ∧
    (w.b = 0 → Claims.Books (.lih p w) 10 1 1 [.x w.d (w.imm ++ ((s.clu p.cl).xr w.a).extractLsb' 0 32)] NFlags.none p s) ∧
    (w.d = 0 → w.imm.toNat < 2 ^ 20 → Claims.Books (.setcx p w) 10 1 1
      [.cx ⟨((s.clu p.cl).xr w.a).extractLsb' 0 32, ((s.clu p.cl).xr w.b).extractLsb' 0 32, w.imm.extractLsb' 8 12, w.imm.extractLsb' 0 8⟩]
      NFlags.none p s)

/-- R95, R177, R192: a binary32 operation reads its registers at issue and books its rounded result and its flags. -/
def Obligations.FloatOpsBookTheirResult : Prop :=
  ∀ (s : State) (p : Place) (w : Fields), Closes 6 p s → w.wide = false → w.mod = 0 →
    (∀ e ∈ Claims.f2Ops, w.c = 0 →
      let r := e.2.1 ((s.clu p.cl).fr w.a) ((s.clu p.cl).fr w.b)
      Claims.Books (e.1 p w) 6 1 e.2.2 [.f w.d r.1] r.2 p s) ∧
    (∀ e ∈ Claims.f1Ops, w.b = 0 → w.c = 0 →
      let r := e.2.1 ((s.clu p.cl).fr w.a)
      Claims.Books (e.1 p w) 6 1 e.2.2 [.f w.d r.1] r.2 p s) ∧
    (let r := f32fma ((s.clu p.cl).fr w.a) ((s.clu p.cl).fr w.b) ((s.clu p.cl).fr w.c)
     Claims.Books (.ffma p w) 6 1 4 [.f w.d r.1] r.2 p s)

/-- R177 to R179: FCMP writes 1 or 0 for its predicate; FMVXF and FMVFX move bits; ICVTF and FCVTI convert. -/
def Obligations.MovesAndConversionsBookTheirResult : Prop :=
  ∀ (s : State) (p : Place) (w : Fields), Closes 6 p s → w.wide = false → w.mod = 0 →
    (w.c.toNat ≤ 5 → Claims.Books (.fcmp p w) 6 1 4
      [.x w.d (if f32cmp w.c.toNat ((s.clu p.cl).fr w.a) ((s.clu p.cl).fr w.b) then 1 else 0)] NFlags.none p s) ∧
    (w.b = 0 → w.c = 0 →
      Claims.Books (.fmvxf p w) 6 1 1 [.x w.d (0#32 ++ (s.clu p.cl).fr w.a)] NFlags.none p s ∧
      Claims.Books (.fmvfx p w) 6 1 1 [.f w.d (((s.clu p.cl).xr w.a).extractLsb' 0 32)] NFlags.none p s ∧
      Claims.Books (.icvtf p w) 6 1 4 [.f w.d (f32ofInt ((s.clu p.cl).xr w.a).toInt).1] (f32ofInt ((s.clu p.cl).xr w.a).toInt).2 p s ∧
      Claims.Books (.fcvti p w) 6 1 4 [.x w.d (f32toInt ((s.clu p.cl).fr w.a)).1] (f32toInt ((s.clu p.cl).fr w.a)).2 p s)

/-- R168, R177: a scalar load of n bytes books the little-endian number that stands in SRAM at its address when it issues; a store books the
bytes of its register for the end of the next step. The address is xa plus the sign-extended immediate, a multiple of n inside the
SRAM, where no word is uncorrectable and no fault is armed. R150: a load corrects the single-bit errors of the words that it reads. -/
def Obligations.ScalarLoadsAndStoresBook : Prop :=
  ∀ (s : State) (p : Place) (w : Fields), Closes 10 p s → w.wide = true → w.c = 0 → w.mod = 0 → s.armed = [] → s.badWords = [] →
    let a := ((s.clu p.cl).xr w.a + w.imm.signExtend 64).toNat
    (w.b = 0 → a % 8 = 0 → a + 8 ≤ 2 ^ 23 →
      Claims.Reads (.ld p w) 10 1 4 a 8 [.x w.d (BitVec.ofNat 64 (s.readLe (sramAddr p.cl a) 8))] p s) ∧
    (w.b = 0 → a % 4 = 0 → a + 4 ≤ 2 ^ 23 →
      Claims.Reads (.fld p w) 10 1 4 a 4 [.f w.d (BitVec.ofNat 32 (s.readLe (sramAddr p.cl a) 4))] p s) ∧
    (w.d = 0 → a % 8 = 0 → a + 8 ≤ 2 ^ 23 →
      Claims.Books (.st p w) 10 1 2 [.sram a (leBytes 8 ((s.clu p.cl).xr w.b).toNat)] NFlags.none p s) ∧
    (w.d = 0 → a % 4 = 0 → a + 4 ≤ 2 ^ 23 →
      Claims.Books (.fst p w) 10 1 2 [.sram a (leBytes 4 ((s.clu p.cl).fr w.b).toNat)] NFlags.none p s)

/-- R153, R180, R192: a lane operation computes the lanes that its mask enables, books them with the flags that they raise, and
raises none for the other lanes. -/
def Obligations.LaneOpsBookTheirResult : Prop :=
  ∀ (s : State) (p : Place) (w : Fields), Closes 6 p s → w.wide = false → w.mod.toNat < 8 →
    let k := s.clu p.cl
    let en := k.mr (w.mod.setWidth 3)
    let a := fun l => (k.vr w.a).getD l 0
    let b := fun l => (k.vr w.b).getD l 0
    let c := fun l => (k.vr w.c).getD l 0
    (∀ e ∈ Claims.v2Ops, w.c = 0 →
      let r := lanes en fun l => e.2.1 (a l) (b l)
      Claims.Books (e.1 p w) 6 2 e.2.2 [.v w.d r.1 en] r.2 p s) ∧
    (∀ e ∈ Claims.v1Ops, w.b = 0 → w.c = 0 →
      let r := lanes en fun l => e.2.1 (a l)
      Claims.Books (e.1 p w) 6 2 e.2.2 [.v w.d r.1 en] r.2 p s) ∧
    (let r := lanes en fun l => f32fma (a l) (b l) (c l)
     Claims.Books (.vfma p w) 6 2 6 [.v w.d r.1 en] r.2 p s) ∧
    (w.b = 0 → w.c = 0 →
      let r := lanes en fun _ => (f32pass (k.fr w.a), NFlags.none)
      Claims.Books (.vbcast p w) 6 2 2 [.v w.d r.1 en] r.2 p s) ∧
    (w.c.toNat < 8 →
      let r := lanes en fun l => (f32pass (if (k.mr (w.c.setWidth 3)).getLsbD l then a l else b l), NFlags.none)
      Claims.Books (.vsel p w) 6 2 2 [.v w.d r.1 en] r.2 p s)

/-- R178, R180, R162: VCMP writes the enabled bits of a mask register; the mask operations write a whole one, read m0 as all ones, and
discard a write to m0 when it lands. -/
def Obligations.MaskOpsBookTheirResult : Prop :=
  ∀ (s : State) (p : Place) (w : Fields), Closes 6 p s → w.wide = false → w.d.toNat < 8 →
    let k := s.clu p.cl
    let m := fun (r : BitVec 5) => k.mr (r.setWidth 3)
    (w.c.toNat ≤ 5 → w.mod.toNat < 8 → Claims.Books (.vcmp p w) 6 2 4
      [.m (w.d.setWidth 3) (maskOf fun l => f32cmp w.c.toNat ((k.vr w.a).getD l 0) ((k.vr w.b).getD l 0)) (k.mr (w.mod.setWidth 3))]
      NFlags.none p s) ∧
    (w.mod = 0 → w.c = 0 → w.a.toNat < 8 →
      (w.b.toNat < 8 →
        Claims.Books (.mand p w) 6 2 1 [.m (w.d.setWidth 3) (m w.a &&& m w.b) (BitVec.allOnes 512)] NFlags.none p s ∧
        Claims.Books (.mor p w) 6 2 1 [.m (w.d.setWidth 3) (m w.a ||| m w.b) (BitVec.allOnes 512)] NFlags.none p s ∧
        Claims.Books (.mxor p w) 6 2 1 [.m (w.d.setWidth 3) (m w.a ^^^ m w.b) (BitVec.allOnes 512)] NFlags.none p s) ∧
      (w.b = 0 → Claims.Books (.mnot p w) 6 2 1 [.m (w.d.setWidth 3) (~~~ m w.a) (BitVec.allOnes 512)] NFlags.none p s))

/-- R181, R192: VLD reads 512 codes of its format at issue and extends each with zeros; VST books the low bits of every lane, of which
those of the enabled lanes reach SRAM. R150: VLD corrects the single-bit errors of the words that it reads. -/
def Obligations.VectorLoadsAndStoresBook : Prop :=
  ∀ (s : State) (p : Place) (w : Fields) (g : Fmt), Closes 6 p s → w.wide = false → w.mod.toNat < 8 →
    Fmt.ofCode w.c.toNat = some g → s.armed = [] → s.badWords = [] →
    let k := s.clu p.cl
    let en := k.mr (w.mod.setWidth 3)
    let a := (k.xr w.a).toNat
    a % 64 = 0 → a + g.bytes 512 ≤ 2 ^ 23 →
    (w.b = 0 → Claims.Reads (.vld p w) 6 2 8 a (g.bytes 512)
      [.v w.d ((unpack g 512 (s.read (sramAddr p.cl a) (g.bytes 512))).map (BitVec.ofNat 32)) en] p s) ∧
    (w.d = 0 → Claims.Books (.vst p w) 6 2 3
      [.vst a (w.c.setWidth 4) ((k.vr w.b).map fun x => BitVec.ofNat 32 (x.toNat % 2 ^ g.bits)) en] NFlags.none p s)

/-- R91 to R99, R182: VCVT converts each enabled lane with its scale and its rounding, VDEC decodes each enabled lane, VSPLIT3 writes
three parts to three registers, VRED reduces the enabled lanes in the fixed tree. -/
def Obligations.VectorConversionsBook : Prop :=
  ∀ (s : State) (p : Place) (w : Fields),
    let k := s.clu p.cl
    let en := k.mr (w.mod.setWidth 3)
    let a := fun l => (k.vr w.a).getD l 0
    let scale := fun l =>
      let e := if w.imm.getLsbD 6 then ((k.vr w.b).getD l 0).toNat else (k.xr w.b).toNat
      effExp (BitVec.ofNat 8 e) (BitVec.ofNat 8 (e / 256))
    (∀ g, Closes 10 p s → w.wide = true → w.mod.toNat < 8 → Fmt.ofCode (w.imm.toNat % 16) = some g → w.imm.toNat % 16 ≤ 5 →
      w.imm.toNat < 128 →
      (useCodeOk k.cx.use = true → (w.imm.getLsbD 5 = true → w.imm.toNat % 16 = 3) →
        let one := fun l =>
          let n := ((k.xr w.c).toNat + l) % 2 ^ 64
          let rd := if w.imm.getLsbD 4 then
              Rounding.draw (drawWord (((s.plate k.job).map (·.seed)).getD 0) n k.cx.tensor k.cx.step k.cx.rank k.cx.use)
            else .nearest
          let r := convert g rd (w.imm.getLsbD 5) (scale l) (a l)
          (BitVec.ofNat 32 r.1, r.2)
        Claims.Books (.vcvt p w) 10 2 8 [.v w.d (lanes en one).1 en] (lanes en one).2 p s) ∧
      (w.c = 0 → w.imm.getLsbD 4 = false → w.imm.getLsbD 5 = false →
        let r := lanes en fun l => decodeScaled g (scale l) ((a l).toNat % 2 ^ g.bits)
        Claims.Books (.vdec p w) 10 2 6 [.v w.d r.1 en] r.2 p s)) ∧
    (Closes 6 p s → w.wide = false → w.mod.toNat < 8 → w.b = 0 →
      (w.c = 0 → w.d.toNat ≤ 29 →
        let r := (List.range 512).map fun l => if en.getLsbD l then split3 (a l) else ((0, 0, 0), NFlags.none)
        Claims.Books (.vsplit3 p w) 6 2 10
          [ .v w.d (r.map fun x => BitVec.ofNat 32 x.1.1) en, .v (w.d + 1) (r.map fun x => BitVec.ofNat 32 x.1.2.1) en
          , .v (w.d + 2) (r.map fun x => BitVec.ofNat 32 x.1.2.2) en ] (orFlags (r.map (·.2))) p s) ∧
      (w.c.toNat ≤ 3 →
        let r := reduceLanes w.c.toNat ((List.range 512).map fun l => (a l, en.getLsbD l))
        Claims.Books (.vred p w) 6 2 14 [.f w.d r.1] r.2 p s))

/-- R165: a bundle header that names no slot issues, occupies its step and its idle steps, and does nothing else; with a wide bit set
it is illegal. R171 to R173: BR goes
to the bundle's offset plus the immediate; BRZ and BRNZ do so when xa is zero or not zero, else they fall through; every loop that does not
contain the target leaves the loop stack. LOOP, whose body lies inside the innermost loop and not before the next bundle, with a place free on
the loop stack, pushes an entry for a count that is not 0, and for a count of 0 skips its body, to the bundle that follows the body's last. -/
def Obligations.EmptyBundlesBranchesAndLoopsMove : Prop :=
  (∀ (s : State) (cl : ClusterId) (idle : BitVec 4), s.quiet = true → s.hasCluster cl = true → (s.clu cl).ready 2 = true →
    ∃ k', exec (.emptyBundle cl (idle ++ 0#12)) s = .next (s.setClu cl k') ∧ Issued 2 idle (s.clu cl) k' ∧ k'.inflight = []) ∧
  (∀ (s : State) (cl : ClusterId) (idle : BitVec 4) (wide : BitVec 6), s.quiet = true → s.hasCluster cl = true → (s.clu cl).ready 2 = true →
    Claims.Known cl s → wide ≠ 0 →
    Claims.Halts (.emptyBundle cl (idle ++ wide ++ 0#6)) cl Code.illegalInstruction 7 0 0 0 s) ∧
  ∀ (s : State) (p : Place) (w : Fields), Closes 10 p s → w.wide = true → w.d = 0 → w.b = 0 → w.c = 0 → w.mod = 0 →
    w.imm.toNat % 2 = 0 →
    let k := s.clu p.cl
    let last := k.pc.toNat + w.imm.toNat
    let to_ := k.pc + w.imm
    let kept := k.loops.dropWhile fun e => !(decide (e.first ≤ to_.toNat) && decide (to_.toNat ≤ e.last))
    let taken := fun (i : Instr) => Claims.Moves i 10 to_ kept p s
    let falls := fun (i : Instr) => Claims.Moves i 10 (k.pc + 10) k.loops p s
    (w.a = 0 → taken (.br p w)) ∧
    (k.xr w.a = 0 → taken (.brz p w) ∧ falls (.brnz p w)) ∧
    (k.xr w.a ≠ 0 → falls (.brz p w) ∧ taken (.brnz p w)) ∧
    (k.loops.length < 4 → 10 ≤ w.imm.toInt → (∀ e ∈ k.loops.head?, e.first ≤ k.pc.toNat + 10 ∧ last ≤ e.last) →
      (k.xr w.a ≠ 0 → Claims.Moves (.loop p w) 10 (k.pc + 10) (⟨k.pc.toNat + 10, last, k.xr w.a⟩ :: k.loops) p s) ∧
      (k.xr w.a = 0 → (∀ b ∈ s.badWords, meets (k.codeBase.toNat + last) 2 b (codeWord b) = false) →
        Claims.Moves (.loop p w) 10 (BitVec.ofNat 32 (last + headerSize (s.readLe (k.codeBase.toNat + last) 2))) k.loops p s))

/-- R172, R174, R276: a WAITC whose counter has reached its operand writes MET and issues; one whose counter has not is held with cause
SYNC, and its timeout runs from now. R172, R403: a WAITG issues where its hatch entry starts now, and is held with cause GATE else.
A held WAITC that a counter has met issues with MET; one whose timeout has passed issues with TIMEOUT. -/
def Obligations.WaitsIssueOrHoldAndEnd : Prop :=
  (∀ (s : State) (p : Place) (w : Fields), Closes 10 p s → w.wide = true → w.a = 0 → w.c = 0 → w.mod = 0 →
    let k := s.clu p.cl
    let n : CounterName := w.imm.extractLsb' 0 16
    let v := ((k.xr w.b).extractLsb' 0 32).toNat
    let held := fun (i : Instr) (cause : HoldCause) (due : Option Nat) => ∃ k', exec i s = .next (s.setClu p.cl k') ∧
      k' = { k with gstate := .held, holdCause := cause, waitDeadline := due, fetchQ := k'.fetchQ, icache := k'.icache }
    (k.job ≠ 0 → (s.counter n).job = k.job → (s.counter n).orphaned = false →
      (v ≤ (s.counter n).value.toNat → Claims.Books (.waitc p w) 10 0 1 [.x w.d 0] NFlags.none p s) ∧
      ((s.counter n).value.toNat < v → k.waitDeadline = none →
        held (.waitc p w) .sync (if w.imm.extractLsb' 16 16 = 0 then none else some (s.time + 256 * (w.imm.extractLsb' 16 16).toNat)))) ∧
    (w.d = 0 → w.b = 0 → w.imm.toNat < 4096 → s.hasEntry k.job w.imm.toNat = true →
      (s.gateOpen k.job w.imm.toNat = true → Claims.Moves (.waitg p w) 10 (k.pc + 10) k.loops p s) ∧
      (s.gateOpen k.job w.imm.toNat = false → held (.waitg p w) .gate k.waitDeadline))) ∧
  ∀ (s : State) (cl : ClusterId) (idle : BitVec 4) (w : Fields) (now : Nat), s.quiet = true → s.hasCluster cl = true →
    w.wide = true → w.a = 0 → w.c = 0 → w.mod = 0 →
    let u := s.advanceTo now
    let k := u.clu cl
    let k0 := { k with gstate := .running, fetchQ := [], waitDone := none, holdCause := .none }
    let n : CounterName := w.imm.extractLsb' 0 16
    k.gstate = .held → k.fetchQ = [⟨[⟨0, 0x05, w⟩], idle, 0⟩] → k0.ready 10 = true → k.job ≠ 0 → (u.counter n).job = k.job →
    let issues := fun (i : Instr) (status : DWord) => ∃ k', exec i s = .next (u.setClu cl k') ∧ Issued 10 idle k0 k' ∧
      k'.inflight = [⟨k.stepCount, 0, [.x w.d status], NFlags.none⟩]
    (k.waitDone = some 0 → issues (.waitMet cl now) 0) ∧
    (∀ d, k.waitDone = none → k.waitDeadline = some d → d ≤ u.time → issues (.waitcTimeout cl now) 2)

/-- R155: HALT issues the last bundle of its impression, which is to end with the halt code; no later word issues. R155, R198, R200: the
steps of an ending impression go on until everything that it issued has landed; then the core is IDLE with the halt code, or HALTED with the
fault record, its schedule entry no longer runs, and the entry keeps the code and a copy of the record. -/
def Obligations.HaltEndsTheImpression : Prop :=
  (∀ (s : State) (p : Place) (w : Fields), Closes 10 p s → w.wide = true → w.d = 0 → w.a = 0 → w.b = 0 → w.c = 0 → w.mod = 0 →
    w.imm.toNat < 2 ^ 16 →
    ∃ t, exec (.halt p w) s = .next t ∧ t = { s with clusters := t.clusters, dies := t.dies } ∧ Claims.Abandons p.cl s t ∧
      (∀ c, c ≠ p.cl → t.clu c = s.clu c) ∧
      Issued 10 p.idle { s.clu p.cl with ending := some (.halt (w.imm.extractLsb' 0 16)), iwait := [] } (t.clu p.cl) ∧
      (t.clu p.cl).inflight = []) ∧
  (∀ (s : State) (p : Place) (w : Fields), s.quiet = true → s.hasCluster p.cl = true → (s.clu p.cl).ending ≠ none →
    exec (.add p w) s = .next s) ∧
  ∀ (s : State) (cl : ClusterId) (now : Nat) (e : Ending), s.quiet = true → s.hasCluster cl = true →
    let u := s.advanceTo now
    let k := u.clu cl
    k.gstate = .running → k.ending = some e → k.tiles = [] → k.dueFault = none → k.lastStepEnd + k.stepPs < 1000 * (u.time + 1) →
    Claims.Rising u → (∀ i, k.impr = some i → u.jobSlot i.job ≠ none ∧ (u.job i.job).proofRole = 0) → u.badWords = [] →
    ∃ t, exec (.clusterStepEnd cl now) s = .next t ∧
      t = { u with clusters := t.clusters, jobs := t.jobs, mem := t.mem, weakWords := t.weakWords } ∧ (∀ c, c ≠ cl → t.clu c = u.clu c) ∧
      ((∃ r ∈ k.inflight, k.stepCount < r.land) → (t.clu cl).gstate = .running ∧ (t.clu cl).ending = some e ∧ t.jobs = u.jobs) ∧
      ((∀ r ∈ k.inflight, r.land ≤ k.stepCount) → (t.clu cl).inflight = [] ∧ (t.clu cl).ending = none ∧
        (match e with
          | .halt code => (t.clu cl).gstate = .idle ∧ (t.clu cl).haltCode = code ∧ (t.clu cl).job = 0 ∧ (t.clu cl).impr = none
          | .fault r => (t.clu cl).gstate = .halted ∧ (t.clu cl).faultRec = some r ∧ (t.clu cl).job = k.job ∧ (t.clu cl).impr = k.impr) ∧
        ∀ i, k.impr = some i → let q := Table.get EntryProg.reset i.entry (t.job i.job).prog
          q.running = false ∧ q.ended = u.time ∧
            match e with
            | .halt code => q.code = code ∧ q.record = none
            | .fault r => q.code = r.code ∧ q.record = some r)

/-- R157, R172, R175, R176: PREF requests the cache line of its offset, RDFLG books the sticky flags nv, of and uz in bits 0, 1 and 2,
STAT books eight bytes of the snapshot of the cluster's status block that its step began with. -/
def Obligations.CacheFlagAndStatusReads : Prop :=
  ∀ (s : State) (p : Place) (w : Fields),
    let k := s.clu p.cl
    (Closes 10 p s → w.wide = true → w.d = 0 → w.b = 0 → w.c = 0 → w.mod = 0 →
      let line := (k.xr w.a + w.imm.signExtend 64).toNat / 128
      line ∉ k.iwait → k.cached line = false →
      ∃ k', exec (.pref p w) s = .next (s.setClu p.cl k') ∧ Issued 10 p.idle { k with iwait := k.iwait ++ [line] } k' ∧ k'.inflight = []) ∧
    (Closes 6 p s → w.wide = false → w.a = 0 → w.b = 0 → w.c = 0 → w.mod = 0 →
      Claims.Books (.rdflg p w) 6 0 1
        [.x w.d (BitVec.ofNat 64 ((if k.flags.nv then 1 else 0) + (if k.flags.ov then 2 else 0) + (if k.flags.uz then 4 else 0)))]
        NFlags.none p s) ∧
    (Closes 10 p s → w.wide = true → w.a = 0 → w.b = 0 → w.c = 0 → w.mod = 0 → w.imm.toNat % 8 = 0 → w.imm.toNat ≤ 0x58 →
      Claims.Books (.stat p w) 10 0 2 [.x w.d (BitVec.ofNat 64 (leNat ((k.snap.drop w.imm.toNat).take 8)))] NFlags.none p s)

/-- R183, R185, R192, R193: an MMA whose descriptors meet no condition puts its tile in progress: what the descriptors give with the
operands as they stand in SRAM now, for the rows and columns that they name. R150: the words that the array reads with a single-bit error
count as corrected, each once. -/
def Obligations.MmaStartsItsTile : Prop :=
  ∀ (s : State) (p : Place) (w : Fields) (x : Tile), Closes 6 p s → w.wide = false → w.d = 0 → w.b = 0 → w.c = 0 → w.mod.toNat < 2 →
    s.armed = [] → s.badWords = [] →
    let k := s.clu p.cl
    let m := s.planMma p.cl (w.mod.getLsbD 0) (k.xr w.a) k.stepCount
    m.conds = [] → m.tile = some x →
    ∃ k', exec (.mma p w) s = .next (s.setClu p.cl k') ∧
      Issued 6 p.idle { Claims.corrected m.bytes p.cl s k with tiles := [x], lastTile := some x, signSeq := k.signSeq + 1 } k' ∧
      k'.inflight = []

/-- R186, R188: a MOVE between two ranges of memory that do not meet, aligned, of a length of 16 bytes to 16 MiB, that no code region,
reserve or mirror table forbids, joins the outstanding moves of its cluster. -/
def Obligations.MoveJoinsTheOutstandingMoves : Prop :=
  ∀ (s : State) (p : Place) (w : Fields) (i : ImprRef), Closes 10 p s → w.wide = true → w.d = 0 → w.mod = 0 → w.imm.toNat < 2 ^ 24 →
    let k := s.clu p.cl
    let src := k.xr w.a
    let dst := k.xr w.b
    let n := (k.xr w.c).toNat
    let counter : CounterName := w.imm.extractLsb' 0 16
    let inc : Byte := w.imm.extractLsb' 16 8
    k.impr = some i → s.absentAt src = false → s.absentAt dst = false → src.toNat % 16 = 0 → dst.toNat % 16 = 0 → n % 16 = 0 →
    16 ≤ n → n ≤ 16777216 → inSpace src n = true → inSpace dst n = true → inReserve src n = false → inReserve dst n = false →
    meets src.toNat n dst.toNat n = false → s.inCode dst.toNat n = false → s.mirrorRange k.job dst.toNat n = none →
    s.mirrorRange i.job dst.toNat n = none → k.moves.length < 64 → (inc = 0 ∨ (s.counter counter).job = k.job) →
    ∃ k', exec (.move p w) s = .next (s.setClu p.cl k') ∧
      Issued 10 p.idle { k with
        moves := k.moves ++ [⟨src, dst, n, counter, inc, i, k.signSeq, false, 0, false, []⟩]
        signSeq := k.signSeq + moveTiles dst n } k' ∧ k'.inflight = []

/-- R186, R301, R302, R304: BALLOC for SRAM, within quota and with no older request, takes the lowest free granule, records its cluster as
owner, and books its address; BFREE of an SRAM granule by its releaser frees it. -/
def Obligations.GranulesAreTakenAndFreed : Prop :=
  ∀ (s : State) (p : Place) (w : Fields),
    let k := s.clu p.cl
    let u := p.cl.toNat
    (∀ g, Closes 10 p s → w.wide = true → w.a = 0 → w.b = 0 → w.c = 0 → w.mod = 0 → w.imm = 0 → (s.die p.cl.die).waiters = [] →
      s.charged u false k.job < s.quota u false k.job → s.freeSram p.cl = some g →
      ∃ k', exec (.balloc p w) s =
          .next ((s.setGran ⟨p.cl.die, (u % 64) * 512 + g, false⟩ ⟨.held, k.job, [u]⟩).setClu p.cl k') ∧
        Issued 10 p.idle k k' ∧ k'.inflight = [⟨k.stepCount + 1, 4, [.x w.d (BitVec.ofNat 64 (sramAddr p.cl (g * 16384)))], NFlags.none⟩]) ∧
    (∀ g, Closes 6 p s → w.wide = false → w.d = 0 → w.b = 0 → w.c = 0 → w.mod = 0 → granuleAt (k.xr w.a) = some g → g.dram = false →
      (s.gran g).st = .held → (s.gran g).owners.getLast? = some u →
      ∃ k', exec (.bfree p w) s = .next ((s.setClu p.cl k').setGran g GranRec.reset) ∧ Issued 6 p.idle k k' ∧ k'.inflight = [])

/-- R190, R202: SLAUNCH copies the 128 bytes of a descriptor from SRAM into the launch queue of the engine of its region that the word
names, with the time and the step. -/
def Obligations.SlaunchQueuesItsDescriptor : Prop :=
  ∀ (s : State) (p : Place) (w : Fields), Closes 6 p s → w.wide = false → w.d = 0 → w.b = 0 → w.c = 0 → w.mod.toNat < 2 →
    s.armed = [] → s.badWords = [] →
    let k := s.clu p.cl
    let a := k.xr w.a
    let q := enginePort p.cl (w.mod.getLsbD 0)
    s.hasPort q = true → (s.eng q).queue.length < 64 → s.weakIn a.toNat 128 = [] → a.toNat < 2 ^ 31 → a.toNat % 128 = 0 → s.absentAt a = false →
    ∃ k', exec (.slaunch p w) s = .next ((s.setClu p.cl k').modEng q fun e => { e with
        queue := e.queue ++ [⟨Desc.ofBytes (s.read a.toNat 128), s.time, (match k.impr with | some i => i.step | none => 0), none⟩] }) ∧
      Issued 6 p.idle k k' ∧ k'.inflight = []

/-- R190, R273, R275: CADD adds its signed 16-bit immediate, CADDR the low 32 bits of xb as a signed number, to a counter of the job that
the cluster runs, as one update; where no wait is held on the counter and it advances no shard, nothing else changes. R287: BARR counts a
local arrival for the lowest generation whose local arrivals are not complete; one that is not the last of its generation changes nothing
else. -/
def Obligations.CountersAndBarriersCount : Prop :=
  ∀ (s : State) (p : Place) (w : Fields), Closes 10 p s → w.wide = true → w.d = 0 → w.a = 0 → w.c = 0 → w.mod = 0 →
    let k := s.clu p.cl
    let n : CounterName := w.imm.extractLsb' 0 16
    let adds := fun (i : Instr) (delta : Int) => ∀ v : Nat, ((s.counter n).value.toNat : Int) + delta = (v : Int) → v < 2 ^ 32 →
      ∃ k', exec i s = .next ((s.setClu p.cl k').modCounter n fun c => { c with value := BitVec.ofNat 32 v }) ∧
        Issued 10 p.idle k k' ∧ k'.inflight = []
    (k.job ≠ 0 → (s.counter n).job = k.job → (s.counter n).underflow = false → (s.counter n).overflow = false →
      (∀ e ∈ s.clusters, e.2.heldOn n = false) → (∀ r ∈ s.shards, r.advance ≠ n) →
      (w.b = 0 → adds (.cadd p w) (w.imm.extractLsb' 16 16).toInt) ∧
      (w.imm.toNat < 2 ^ 16 → adds (.caddr p w) (((k.xr w.b).extractLsb' 0 32).toInt))) ∧
    (∀ b, w.b = 0 → w.imm.toNat < 64 → s.barDef k.job w.imm.toNat = some b →
      let x := s.bar b.slot.toNat
      x.floor < x.gen.toNat + 2 → (x.localAt x.floor).1 + 1 < b.local_ →
      ∃ k' l, exec (.barr p w) s = .next ((s.setClu p.cl k').modBar b.slot.toNat fun x => { x with part := l }) ∧
        (∀ y : Bar, y.part = l → y.localAt x.floor = ((x.localAt x.floor).1 + 1, (x.localAt x.floor).2) ∧
          ∀ g, x.floor < g → y.localAt g = x.localAt g) ∧ Issued 10 p.idle k k' ∧ k'.inflight = [])

/-- R167, R194, R196 to R200: a word with a reserved bit set halts the core at its bundle with ILLEGAL_INSTRUCTION; a word that reads a
register which an outstanding result will write ends the impression with SCHEDULE_HAZARD, kind 0, and the number of steps. The fault record
names the slot and the place, the event log receives its copy, and results in flight land before the core is HALTED. R173, R196: a LOOP that
finds all four entries of the loop stack in use halts the core with LOOP_OVERFLOW; one whose body would not begin after it, or would leave the
innermost loop, is illegal. -/
def Obligations.FaultyWordsHaltTheCore : Prop :=
  ∀ (s : State) (p : Place) (w : Fields), Claims.Known p.cl s →
    let k := s.clu p.cl
    (w.wide = false → Closes 6 p s → w.mod ≠ 0 → Claims.Halts (.add p w) p.cl Code.illegalInstruction 1 0 0 2 s) ∧
    (w.wide = true → Closes 10 p s → w.d = 0 → w.b = 0 → w.c = 0 → w.mod = 0 → w.imm.toNat % 2 = 0 → k.loops.length = 4 →
      (∀ e ∈ k.loops.head?, e.first ≤ k.pc.toNat + 10 ∧ (k.pc.toNat : Int) + w.imm.toInt ≤ e.last) → 10 ≤ w.imm.toInt →
      Claims.Halts (.loop p w) p.cl Code.loopOverflow 0 7 0 4 s) ∧
    (w.wide = true → Closes 10 p s → w.d = 0 → w.b = 0 → w.c = 0 → w.mod = 0 → w.imm.toNat % 2 = 0 → k.loops.length < 4 →
      (w.imm.toInt < 10 ∨ ∃ e ∈ k.loops.head?, k.pc.toNat + 10 < e.first ∨ (e.last : Int) < k.pc.toNat + w.imm.toInt) →
      (k.xr w.a = 0 → s.badWords = []) → Claims.Halts (.loop p w) p.cl Code.illegalInstruction 0 0 0 2 s) ∧
    (∀ land slot v fl, w.wide = false → Closes 6 p (s.setClu p.cl { k with inflight := [] }) → k.inflight = [⟨land, slot, [.x w.a v], fl⟩] →
      w.c = 0 → w.mod = 0 → w.a ≠ 0 → k.stepCount ≤ land → land - k.stepCount + 1 < 2 ^ 30 →
      ∃ t r, exec (.add p w) s = .next t ∧ t = { s with clusters := t.clusters, hub := t.hub, dies := t.dies } ∧ Claims.Abandons p.cl s t ∧
        t.hub.eventSeq = s.hub.eventSeq + 1 ∧ (∀ c, c ≠ p.cl → t.clu c = s.clu c) ∧
        (t.clu p.cl).gstate = .running ∧ (t.clu p.cl).ending = some (.fault r) ∧ (t.clu p.cl).inflight = k.inflight ∧
        (t.clu p.cl).x = k.x ∧ (t.clu p.cl).pc = k.pc ∧ r.code = Code.scheduleHazard ∧ r.slot = 1 ∧ r.cls = 1 ∧ r.number = w.a.setWidth 8 ∧
        r.detail = BitVec.ofNat 32 (land - k.stepCount + 1) ∧ r.pc = k.pc ∧ r.job = k.job)

/-- R21, R139, R141: CLUSTER_STEP_END ends the step of a running core under the pace limiter: the step count rises by 1, the cap of its
die holds from here on, and the limiter's next instant follows from this end. R145: a step in which two accesses share a bank counts as a
conflict. R161, R176: the snapshot of the status block is taken as the next step begins. With nothing to land or issue nothing else changes;
where the core does not run, or the limiter's instant has not come, the step does not end. R110 to R112: each stall step of a tile in the step
takes its time at the cap, and counts. -/
def Obligations.ClusterStepEnds : Prop :=
  ∀ (s : State) (cl : ClusterId) (now : Nat), s.quiet = true → s.hasCluster cl = true →
    let u := s.advanceTo now
    let k := u.clu cl
    let period := (100000 + k.stepCap.toNat - 1) / max k.stepCap.toNat 1
    let due := k.lastStepEnd + period
    let ends := fun (k' : Cluster) =>
      exec (.clusterStepEnd cl now) s = .next (u.setClu cl { k' with snap := (u.setClu cl k').statusBlock cl })
    let base := { k with
      stepCount := k.stepCount + 1, stepCap := BitVec.ofNat 16 (u.margin.capApplied.getD cl.die.toNat 85), accesses := [] }
    k.inflight = [] → k.dueFault = none → k.ending = none → k.fetchQ = [] →
    (k.gstate = .running → due < 1000 * (u.time + 1) → k.tiles = [] →
      ends { base with
        conflict := k.conflict + (if bankClash k.accesses then 1 else 0), lastStepEnd := max due (1000 * u.time) }) ∧
    (∀ x j n, k.gstate = .running → k.tiles = [x] → x.stalls = [(j, n)] → x.issue + j = k.stepCount → 0 < n →
      k.stepCount < x.issue + x.len + 19 →
      (due + n * period < 1000 * (u.time + 1) →
        ends { base with
          arrayStall := k.arrayStall + n, imprStall := k.imprStall + n, tiles := [{ x with stalls := [] }]
          lastStepEnd := max (due + n * period) (1000 * u.time) }) ∧
      (1000 * (u.time + 1) ≤ due + n * period → exec (.clusterStepEnd cl now) s = .next u)) ∧
    ((k.gstate ≠ .running ∨ 1000 * (u.time + 1) ≤ due) → exec (.clusterStepEnd cl now) s = .next u)

/-- R162, R168, R175: RESULT_LANDING writes the result whose step has come: xd, fd, the enabled lanes of vd, the enabled bits of md, the
conversion context; the flags gather; a write to x0 or m0 is discarded; nothing else changes. R181: a vector store writes the codes of the
lanes that its mask enables over the bits of its range, and leaves the codes of the other lanes and every byte outside the range. -/
def Obligations.ResultsLand : Prop :=
  ∀ (s : State) (cl : ClusterId) (r : InFlight) (x : Target), s.quiet = true → s.hasCluster cl = true →
    let k := s.clu cl
    k.tiles = [] → k.inflight = [r] → r.land ≤ k.landable → r.targets = [x] →
    let base := { k with inflight := [], flags := k.flags.or r.flags, accesses := k.accesses ++ [x.range.toList] }
    let lands := fun (k' : Cluster) => exec (.resultLanding cl) s = .next (s.setClu cl k')
    match x with
    | .x d v => ∃ k', lands k' ∧ k' = { base with x := k'.x } ∧ k'.xr 0 = 0 ∧ (d ≠ 0 → k'.xr d = v) ∧ ∀ q, q ≠ d → k'.xr q = k.xr q
    | .f d v => ∃ k', lands k' ∧ k' = { base with f := k'.f } ∧ k'.fr d = v ∧ ∀ q, q ≠ d → k'.fr q = k.fr q
    | .v d ls en => ∃ k', lands k' ∧ k' = { base with v := k'.v } ∧ (∀ q, q ≠ d → k'.vr q = k.vr q) ∧
        ∀ l, l < 512 → (k'.vr d).getD l 0 = if en.getLsbD l then ls.getD l 0 else (k.vr d).getD l 0
    | .m d v en => ∃ k', lands k' ∧ k' = { base with m := k'.m } ∧ k'.mr 0 = BitVec.allOnes 512 ∧
        (d ≠ 0 → k'.mr d = (k.mr d &&& ~~~en) ||| (v &&& en)) ∧ ∀ q, q ≠ d → k'.mr q = k.mr q
    | .cx v => lands { base with cx := v }
    | .sram a bs => s.badWords = [] → s.weakWords = [] → ∃ t, exec (.resultLanding cl) s = .next t ∧ t = { s.setClu cl base with mem := t.mem } ∧
        ∀ b, Memory.read b t.mem =
          if sramAddr cl a ≤ b ∧ b < sramAddr cl a + bs.length then bs.getD (b - sramAddr cl a) 0 else Memory.read b s.mem
    | .vst a fm ls en => ∀ g, s.badWords = [] → s.weakWords = [] → Fmt.ofCode fm.toNat = some g → (∀ l, l < 512 → (ls.getD l 0).toNat < 2 ^ g.bits) →
        ∃ t, exec (.resultLanding cl) s = .next t ∧ t = { s.setClu cl base with mem := t.mem } ∧
          (∀ b, (b < sramAddr cl a ∨ sramAddr cl a + g.bytes 512 ≤ b) → Memory.read b t.mem = Memory.read b s.mem) ∧
          ∀ l, l < 512 → (unpack g 512 (t.read (sramAddr cl a) (g.bytes 512))).getD l 0 =
            if en.getLsbD l then (ls.getD l 0).toNat else (unpack g 512 (s.read (sramAddr cl a) (g.bytes 512))).getD l 0

/-- R75, R86, R192, R193: MMA_TILE_COMPLETE writes each row of C of a tile whose steps are over, 512 bytes apart, as little-endian binary32
words; every other byte keeps its value, and the tile is no longer in progress. -/
def Obligations.TilesWriteTheirRows : Prop :=
  ∀ (s : State) (cl : ClusterId) (x : Tile), s.quiet = true → s.hasCluster cl = true → s.badWords = [] → s.weakWords = [] →
    let k := s.clu cl
    (∀ i, k.impr = some i → (s.job i.job).proofRole = 0) → k.tiles = [x] → x.issue + x.len + 19 ≤ k.landable → x.c.length = x.rows → (∀ r ∈ x.c, r.length = x.cols) → x.cols ≤ 128 →
    ∃ t, exec (.mmaTileComplete cl) s = .next t ∧
      t = { s.setClu cl { k with tiles := [], flags := k.flags.or x.flags, accesses := (t.clu cl).accesses } with mem := t.mem } ∧
      (∀ m n, m < x.rows → n < x.cols → t.readLe (sramAddr cl (x.cAddr + 512 * m + 4 * n)) 4 = ((x.c.getD m []).getD n 0).toNat) ∧
      ∀ b, (∀ m, m < x.rows → ¬ (sramAddr cl (x.cAddr + 512 * m) ≤ b ∧ b < sramAddr cl (x.cAddr + 512 * m) + 4 * x.cols)) →
        Memory.read b t.mem = Memory.read b s.mem

/-- R156 to R158: a good line that was requested enters the cache and is no longer awaited; a line with a parity error is counted and
stays awaited; a line of the cache in which a parity error is met is discarded, counted and awaited; no byte of memory changes. -/
def Obligations.CacheLinesFill : Prop :=
  ∀ (s : State) (cl : ClusterId) (line : BitVec 32) (now : Nat), s.quiet = true → s.hasCluster cl = true → s.armed = [] → s.badWords = [] →
    s.weakWords = [] →
    let u := s.advanceTo now
    let k := u.clu cl
    k.fetchQ = [] →
    (line.toNat ∈ k.iwait → ∃ t, exec (.icacheLineFill cl line .good now) s = .next t ∧ t = { u with clusters := t.clusters, dies := t.dies } ∧
      (t.clu cl).cached line.toNat = true ∧ (t.clu cl).iwait = k.iwait.erase line.toNat ∧
      t.clu cl = { k with icache := (t.clu cl).icache, iwait := (t.clu cl).iwait, refreshTill := (t.clu cl).refreshTill } ∧
      ∀ c, c ≠ cl → t.clu c = u.clu c) ∧
    (line.toNat ∈ k.iwait → k.cached line.toNat = false →
      exec (.icacheLineFill cl line .parity now) s = .next (u.setClu cl { k with icacheRefetch := min (k.icacheRefetch + 1) 0xFFFFFFFF })) ∧
    (k.cached line.toNat = true → (Table.get [] (line.toNat % 128) k.icache).Nodup →
      ∃ ic w, exec (.icacheLineFill cl line .parity now) s =
          .next (u.setClu cl { k with icache := ic, iwait := w, icacheRefetch := min (k.icacheRefetch + 1) 0xFFFFFFFF }) ∧
        line.toNat ∈ w ∧ ({ k with icache := ic } : Cluster).cached line.toNat = false)

/-- What an access to the protected word at w finds: an error that the word is known to hold, else what the command says (R150). -/
def Sys2Proof.Claims.finds (w : Nat) (found : Syndrome) (s : State) : Syndrome :=
  if w ∈ s.badWords then .uncorrectable else if found = .clean ∧ w ∈ s.weakWords then .corrected else found

/-- R146, R150, R555: an external write stores its bytes in the SRAM of its cluster and no other, and leaves the words that it covers or
merges good. An external read or a scrub finds the error that its word is known to hold, else what the command says: a correctable error
counts as corrected, as do those known in the further words of a read, and a read leaves it where it stands while a scrub makes the word good; an uncorrectable word stays so, and a scrub
reports it. A sensor reading replaces the last. -/
def Obligations.SramIsReadWrittenAndScrubbed : Prop :=
  ∀ (s : State) (cl : ClusterId), s.quiet = true → s.hasCluster cl = true →
    let k := s.clu cl
    (∀ o (sent : List Byte),
      let bs := sent.take (2 ^ 23 - o.toNat)
      (∀ w ∈ s.badWords, meets (sramAddr cl o.toNat) bs.length w (codeWord w) = false) →
      ∃ t, exec (.sramExternalAccess cl (.write o sent)) s = .next t ∧
      t = { s with mem := t.mem, weakWords := s.weakWords.filter fun w => !meets (sramAddr cl o.toNat) bs.length w (codeWord w) } ∧
      ∀ a, Memory.read a t.mem =
        if sramAddr cl o.toNat ≤ a ∧ a < sramAddr cl o.toNat + bs.length then bs.getD (a - sramAddr cl o.toNat) 0 else Memory.read a s.mem) ∧
    (∀ o n found,
      let a := sramAddr cl o.toNat
      let w := a / 8 * 8
      let read := Instr.sramExternalAccess cl (.read o n found)
      let beside := (s.weakWords.filter fun x =>
        meets a (min n (2 ^ 23 - o.toNat)) x (codeWord x) && x != w && decide (x ∉ s.badWords)).length
      let counted := fun (n : Nat) => if n = 0 then s else s.setClu cl { k with sramCorrected := min (k.sramCorrected + n) 0xFFFFFFFF }
      (Claims.finds w found s = .clean → exec read s = .next (counted beside)) ∧
      (Claims.finds w found s = .corrected → exec read s = .next { counted (beside + 1) with
          weakWords := if w ∈ s.weakWords then s.weakWords else s.weakWords ++ [w] }) ∧
      (Claims.finds w found s = .uncorrectable → exec read s = .next { counted beside with
        badWords := if w ∈ s.badWords then s.badWords else s.badWords ++ [w] })) ∧
    (∀ word found,
      let w := sramAddr cl (8 * word.toNat)
      let scrub := Instr.sramScrub cl word found
      (Claims.finds w found s = .clean → exec scrub s = .next s) ∧
      (Claims.finds w found s = .corrected →
        exec scrub s = .next { s.setClu cl { k with sramCorrected := min (k.sramCorrected + 1) 0xFFFFFFFF } with
          weakWords := s.weakWords.erase w }) ∧
      (Claims.finds w found s = .uncorrectable → s.pair.recovering = false → s.pair.st ≠ .fenced → s.pair.lastTrig ≠ some s.time →
        ∃ t, exec scrub s = .next t ∧
          t = { s with badWords := t.badWords, hub := t.hub, pair := { s.pair with lastTrig := some s.time } } ∧
          (∀ x, x ∈ t.badWords ↔ x = w ∨ x ∈ s.badWords) ∧ t.hub.eventSeq = s.hub.eventSeq + 1)) ∧
    (∀ v, exec (.tempSensorRead cl v) s = .next (s.setClu cl { k with temp := v }))

/-- R149: when the clearing of a job ends, every byte of the SRAM of its clusters is zero and every engine register of them is zero, and
every other byte keeps its value. -/
def Obligations.JobStartClearsItsClusters : Prop :=
  ∀ (s : State) (no : JobNo) (now : Nat) (p : Plate), s.quiet = true →
    let u := s.advanceTo now
    ((u.job no).st = .running ∨ ((u.job no).st = .starting ∧ (u.job no).digests = [] ∧ u.startPeers no ≠ [] ∧ (u.job no).proofRole ≠ 2)) →
    (u.job no).cleared = false → (u.job no).plate = some p → Claims.Rising u →
    (∀ c ∈ u.jobClusters no, (u.clu c).gstate = .idle ∨ (u.clu c).gstate = .halted) →
    (p.images.filter fun i => i.type == 0x11) = [] → s.hub.waiting = [] →
    ∃ t, exec (.sramClearDone no now) s = .next t ∧
      t = { u with mem := t.mem, badWords := t.badWords, weakWords := t.weakWords, clusters := t.clusters, jobs := t.jobs } ∧
      (∀ c ∈ u.jobClusters no, (∀ o, o < 2 ^ 23 → Memory.read (sramAddr c o) t.mem = 0) ∧ (∀ r, (t.clu c).xr r = 0) ∧ (∀ r, (t.clu c).fr r = 0) ∧
        (∀ r, (t.clu c).vr r = List.replicate 512 0) ∧ (∀ r, r ≠ 0 → (t.clu c).mr r = 0) ∧ (t.clu c).cx = ⟨0, 0, 0, 0⟩) ∧
      ∀ a, (∀ c ∈ u.jobClusters no, ¬ (sramAddr c 0 ≤ a ∧ a < sramAddr c 0 + 2 ^ 23)) → Memory.read a t.mem = Memory.read a s.mem

/-- R301, R302: the oldest waiting request that can be met is granted: the lowest free SRAM granule goes to its cluster, its record names
the cluster, and the request waits no longer. -/
def Obligations.WaitingRequestsAreGranted : Prop :=
  ∀ (s : State) (c : ClusterId) (no : JobNo) (now g : Nat), s.quiet = true →
    let u := s.advanceTo now
    (u.die c.die).waiters = [⟨c.toNat, false, no, none⟩] → u.charged c.toNat false no < u.quota c.toNat false no → u.freeSram c = some g →
    (u.clu c).fetchQ = [] →
    ∃ t, exec (.ballocGrant c.die false now) s = .next t ∧ t = { u with dies := t.dies, clusters := t.clusters } ∧
      (t.die c.die).waiters = [] ∧ t.gran ⟨c.die, (c.toNat % 64) * 512 + g, false⟩ = ⟨.held, no, [c.toNat]⟩ ∧
      t.clu c = { u.clu c with grant := some (BitVec.ofNat 64 (sramAddr c (g * 16384))) } ∧ ∀ q, q ≠ c → t.clu q = u.clu q

/-- R186, R188: MOVE_COMPLETE copies every byte of a move between SRAMs to its destination and changes no other byte, takes the move off
the outstanding ones, and adds its increment to its counter. -/
def Obligations.MovesCopyTheirBytes : Prop :=
  ∀ (s : State) (cl : ClusterId) (m : MoveOut) (now : Nat), s.quiet = true → s.hasCluster cl = true → s.armed = [] → s.badWords = [] →
    s.weakWords = [] →
    let u := s.advanceTo now
    (u.clu cl).moves = [m] → m.copied = false → m.mirrored = false → m.src.toNat + m.len ≤ 2 ^ 31 → m.dst.toNat + m.len ≤ 2 ^ 31 →
    m.len % 16 = 0 → m.dst.toNat % 16 = 0 → meets m.src.toNat m.len m.dst.toNat m.len = false → m.impr.job ≠ 0 →
    (u.job m.impr.job).proofRole = 0 → (u.counter m.counter).job = m.impr.job → (u.counter m.counter).orphaned = false → (u.counter m.counter).underflow = false →
    (u.counter m.counter).overflow = false → (u.counter m.counter).value.toNat + m.inc.toNat < 2 ^ 32 →
    (∀ e ∈ u.clusters, e.2.heldOn m.counter = false) → (∀ r ∈ u.shards, r.advance ≠ m.counter) →
    ∃ t, exec (.moveComplete cl 0 now) s = .next t ∧ t = { u with mem := t.mem, clusters := t.clusters, dies := t.dies } ∧
      (t.clu cl) = { u.clu cl with moves := [], refreshTill := (t.clu cl).refreshTill } ∧
      (t.counter m.counter).value.toNat = (u.counter m.counter).value.toNat + m.inc.toNat ∧
      ∀ a, Memory.read a t.mem =
        if m.dst.toNat ≤ a ∧ a < m.dst.toNat + m.len then Memory.read (m.src.toNat + (a - m.dst.toNat)) s.mem else Memory.read a s.mem

namespace Sys2Proof.Claims

/-- A counter takes an addition for a job: it belongs to the job, it is neither orphaned nor frozen, the sum fits, no wait is held on it,
and it advances no shard (R273, R276, R283, R292, R307). -/
def Takes (n : CounterName) (no : JobNo) (inc : Nat) (u : State) : Prop :=
  let k := u.counter n
  no ≠ 0 ∧ k.job = no ∧ k.orphaned = false ∧ k.underflow = false ∧ k.overflow = false ∧ k.value.toNat + inc < 2 ^ 32 ∧
    (∀ e ∈ u.clusters, e.2.heldOn n = false) ∧ ∀ r ∈ u.shards, r.advance ≠ n

/-- The counters of t are those of u, but n has risen by inc. -/
def Counted (n : CounterName) (inc : Nat) (u t : State) : Prop :=
  ∀ m, t.counter m = if m = n then { u.counter n with value := BitVec.ofNat 32 ((u.counter n).value.toNat + inc) } else u.counter m

/-- The length of the status area of a descriptor: its record, and the missing-rank mask of a REDUCE or collecting GATHER (R212). -/
def areaLen (d : Desc) : Nat := if d.op = 1 ∨ (d.op = 2 ∧ d.serve = false) then 576 else 64

/-- What a statement about a context assumes: it is active on its engine, its results are not on their way, no frame of it waits to leave and
it holds no frame back, its job is not in proof mode, no word has an error, no fault is armed, its status area can be written, and its
done_counter takes its done_inc. -/
def Active (p : Port) (c : Ctx) (u : State) : Prop :=
  u.ctx p c.id = some c ∧ (u.job c.desc.job).proofRole = 0 ∧ u.badWords = [] ∧ u.armed = [] ∧
    u.weakWords = [] ∧ c.held = [] ∧ c.closing = none ∧ u.sentAll c = true ∧ u.statusUsable c.desc.statusAddr (areaLen c.desc) = true ∧
    (c.desc.doneInc = 0 ∨ Takes c.desc.doneCounter c.desc.job c.desc.doneInc u)

/-- exec of i ends the impression of c with a code: its status record and mask are written, its context is free, its done_counter has risen,
and no byte of memory outside its status area and the listed ranges changes; of the rest of the module only the job's progress and the
counts of the stacks may change. -/
def Ends (i : Instr) (p : Port) (c : Ctx) (code : BitVec 16) (missing : List Nat) (also : List (Nat × Nat)) (u s : State) (t : State) : Prop :=
  exec i s = .next t ∧ t = { u with mem := t.mem, engines := t.engines, jobs := t.jobs, dies := t.dies } ∧
    t.ctx p c.id = none ∧ (∀ q, q ≠ p → t.eng q = u.eng q) ∧
    t.read c.desc.statusAddr.toNat 64 = c.status code u.time c.gateNs ∧
    (areaLen c.desc = 576 → t.read (c.desc.statusAddr.toNat + 64) 512 = maskBytes missing) ∧
    Counted c.desc.doneCounter c.desc.doneInc u t ∧
    ∀ a, ¬ (c.desc.statusAddr.toNat ≤ a ∧ a < c.desc.statusAddr.toNat + areaLen c.desc) → (∀ r ∈ also, ¬ (r.1 ≤ a ∧ a < r.1 + r.2)) →
      Memory.read a t.mem = Memory.read a u.mem

/-- A frame that comes to a unit is not behind an earlier one of its source, no engine holds one like it, and its transfer waits for no
entry of the pending-signal table (R18, R204, R282). -/
def Comes (w : LocalUnit) (f : Frame) (u : State) : Prop := u.behind w f = false ∧ u.heldBack f = false ∧ u.pstHolds f = false

end Sys2Proof.Claims

/-- R202, R203, R224: PACOR_LAUNCH moves the oldest waiting launch of the Pacor into a queue with room. DESCRIPTOR_ACTIVATE makes the head
descriptor, a SHIFT or a SORT that breaks no rule of R211 and waits for no gate and no start of its schedule entry, active in the lowest free
context, which starts now. -/
def Obligations.LaunchesEnterAndActivate : Prop :=
  ∀ (s : State) (p : Port) (now : Nat) (q : QEntry) (rest : List QEntry), s.quiet = true → s.hasPort p = true →
    let u := s.advanceTo now
    let e := u.eng p
    (∀ w waits, e.pacorWait = (q, w) :: waits → e.queue.length < 64 →
      exec (.pacorLaunch p now) s = .next (u.setEng p { e with pacorWait := waits, queue := e.queue ++ [⟨q.desc, u.time, q.step, q.entry⟩] })) ∧
    (∀ id < 16, e.queue = q :: rest → (∀ c ∈ e.ctxs, c.id ≠ id) → (∀ j < id, ∃ c ∈ e.ctxs, c.id = j) → q.desc.op = 3 ∨ q.desc.op = 5 →
      q.desc.startGate = 0xFFF → q.desc.tensorAddr = 0 → e.held = [] → u.armed = [] → u.badWords = [] → u.weakWords = [] →
      (∀ i, q.entry = some i → (Table.get EntryProg.reset i (u.job q.desc.job).prog).start ≤ u.time) →
      let c := Ctx.fresh id q u.time (u.ranksNamed q.desc)
      let v := (u.modJob q.desc.job (Job.ledgerOpens q.step)).setEng p { e with
        queue := rest, lastGate := Table.set 0 0xFFF u.time e.lastGate, ctxs := e.ctxs ++ [c] }
      checkCode ((v.tables q.desc).map (·.1) ++ v.plainChecks p c) = none → checkCode (v.tableChecks p c) = none →
      ∃ t, exec (.descriptorActivate p now) s = .next t ∧ t = { v with engines := t.engines, dies := t.dies } ∧ (∀ r, r ≠ p → t.eng r = v.eng r) ∧
        (∀ n, t.counter n = u.counter n) ∧
        t.eng p = { v.eng p with
          refreshTill := (t.eng p).refreshTill
          ctxs := e.ctxs ++ [if q.desc.op = 3 then { c with signSeq := q.desc.ringN * tilesAt (bitsOf q.desc.dest.toNat 0 32) q.desc.length } else c] })

/-- R88, R89, R218 to R221: a contribution on time for the step of an active REDUCE, with whole units that have not come before, is written to
its slot and to the log, and its rank arrives with its last unit; an addition adds the next rank's decoded elements to the running sum,
the first one starting it. -/
def Obligations.ContributionsAreWrittenAndAdded : Prop :=
  ∀ (s : State) (p : Port) (now : Nat) (c : Ctx), s.quiet = true → s.hasPort p = true →
    let u := s.advanceTo now
    let d := c.desc
    let t0 := u.tensor d
    Claims.Active p c u → d.op = 1 → c.phase = .collecting →
    (∀ (f : Frame) (q : Nat), Claims.Comes (.engine p) f u → f.kind = 1 → u.contribCtx p f = some c → f.detail.toNat / 2 ^ 32 = d.step.toNat → u.time ≤ c.start + 256 * d.deadline →
      c.mask.idxOf f.srcRank.toNat = q → q < c.mask.length → c.hasArrived q = false →
      f.offset.toNat % 128 = 0 → f.payload.length % 128 = 0 → f.offset.toNat + f.payload.length ≤ d.length →
      (∀ x, f.offset.toNat / 128 ≤ x → x < (f.offset.toNat + f.payload.length) / 128 → (q, x) ∉ c.units) →
      let o := d.step.toNat % 2 * d.setStride + q * d.slotPitch + f.offset.toNat
      d.slotBase.toNat + o + f.payload.length ≤ 2 ^ 62 → 2 ^ 62 ≤ d.logBase.toNat →
      u.inCode (d.slotBase.toNat + o) f.payload.length = false → u.inCode (d.logBase.toNat + o) f.payload.length = false →
      ∃ t c', exec (.contrib p f now) s = .next t ∧
        t = { u.unbox (.engine p) f with mem := t.mem, engines := t.engines, dies := t.dies } ∧
        t.ctx p c.id = some c' ∧ c'.units = c.units ++ (List.range (f.payload.length / 128)).map (fun x => (q, f.offset.toNat / 128 + x)) ∧
        c'.arrived = c.arrived + (if c'.hasArrived q then 1 else 0) ∧ c'.late = c.late ∧ c'.dup = c.dup ∧ c'.stray = c.stray ∧
        ∀ a, Memory.read a t.mem =
          if d.slotBase.toNat + o ≤ a ∧ a < d.slotBase.toNat + o + f.payload.length then f.payload.getD (a - (d.slotBase.toNat + o)) 0
          else if d.logBase.toNat + o ≤ a ∧ a < d.logBase.toNat + o + f.payload.length then f.payload.getD (a - (d.logBase.toNat + o)) 0
          else Memory.read a u.mem) ∧
    (∀ f, c.hasArrived c.added = true → c.added + 1 < c.mask.length → Fmt.ofCode t0.fmt = some f →
      u.inCode d.accBase.toNat (4 * t0.elems) = false →
      let xs := t0.decode f (u.read (d.slotBase.toNat + (d.step.toNat % 2 * d.setStride + c.added * d.slotPitch)) d.length)
      ∃ t c', exec (.reduceAdd p c.id now) s = .next t ∧ t = { u with mem := t.mem, engines := t.engines, dies := t.dies } ∧
        t.ctx p c.id = some c' ∧ c'.added = c.added + 1 ∧ c'.phase = .collecting ∧
        (∀ i < t0.elems, t.readLe (d.accBase.toNat + 4 * i) 4 =
          (if c.added = 0 then (xs.getD i (0, NFlags.none)).1
            else (f32add (BitVec.ofNat 32 (u.readLe (d.accBase.toNat + 4 * i) 4)) (xs.getD i (0, NFlags.none)).1).1).toNat) ∧
        ∀ a, ¬ (d.accBase.toNat ≤ a ∧ a < d.accBase.toNat + 4 * t0.elems) → Memory.read a t.mem = Memory.read a u.mem)

/-- R218, R232, R236: a piece of a collecting GATHER is written at its rank's place; the whole block of a PERMUTE that is not in_place is written
at its destination. R233, R234: a request for a state that the shard holds is answered with the area's bytes and a notice, and pins the area; a
part of a SHIFT block on time goes on to the successor in the ring. -/
def Obligations.StreamFramesAreDisposedOf : Prop :=
  ∀ (s : State) (p : Port) (now : Nat) (c : Ctx) (f : Frame), s.quiet = true → s.hasPort p = true →
    let u := s.advanceTo now
    let d := c.desc
    let b := u.unbox (.engine p) f
    Claims.Active p c u → Claims.Comes (.engine p) f u → f.kind = 2 ∨ f.kind = 3 → f.job = d.job → f.ident = d.impr → u.time ≤ c.start + 256 * d.deadline →
    ((u.eng p).ctxs.find? fun x => x.desc.op != 1 && x.desc.job == f.job && x.desc.impr == f.ident && decide (2 ≤ x.desc.op ∧ x.desc.op ≤ 4)) = some c →
    (∀ q, d.op = 2 → d.serve = false → f.kind = 2 → c.mask.idxOf f.srcRank.toNat = q → q < c.mask.length → c.hasArrived q = false →
      f.offset.toNat % 128 = 0 → f.payload.length % 128 = 0 → f.offset.toNat + f.payload.length ≤ d.length → c.arrived + 1 < c.mask.length →
      (∀ x, f.offset.toNat / 128 ≤ x → x < (f.offset.toNat + f.payload.length) / 128 → (q, x) ∉ c.units) →
      let a0 := d.dest.toNat + q * d.length + f.offset.toNat
      u.inCode a0 f.payload.length = false →
      ∃ t c', exec (.gatherCollectFrame p f now) s = .next t ∧ t = { b with mem := t.mem, engines := t.engines, dies := t.dies } ∧
        t.ctx p c.id = some c' ∧ c'.units = c.units ++ (List.range (f.payload.length / 128)).map (fun x => (q, f.offset.toNat / 128 + x)) ∧
        c'.arrived = c.arrived + (if c'.hasArrived q then 1 else 0) ∧
        ∀ a, Memory.read a t.mem = if a0 ≤ a ∧ a < a0 + f.payload.length then f.payload.getD (a - a0) 0 else Memory.read a u.mem) ∧
    (∀ r area e, d.op = 2 → d.serve = true → f.kind = 3 → f.detail.toNat / 2 ^ 32 = d.shard8.toNat → c.requests = [] → c.serving = none →
      u.shards = [r] → r.job = d.job → r.shard = d.shard8 → r.areaOf (f.detail.setWidth 32) = some area → u.rankEntry d.job f.srcRank.toNat = some e →
      d.length % 128 = 0 →
      let bs := u.read (r.wireBase.toNat + area * r.areaSize) d.length ++
        noticeBytes 4 d.job d.shard8 c.step (f.detail.setWidth 32) (u.serveRung c true) []
      let fs := streamFrames c ((u.ownRank d.job).getD 0) (u.serveRung c true) (c.step.setWidth 64) f.offset.toNat (e.kind == 1) (some bs.length) bs
      ∃ (v : State) (c' : Ctx), exec (.gatherReq p f now) s = .next v.dispatchOwn ∧
        v = { b with engines := v.engines, dies := v.dies, shards := [{ r with readers := r.readers ++ [area] }]
                     fab := { b.fab with selfEgress := fs.map fun (g : Frame) => (g.toRank e).sealCrc } } ∧
        fs.flatMap (·.payload) = bs ∧
        v.ctx p c.id = some c' ∧ c'.serving = some (BitVec.ofNat 32 area) ∧ c'.phase = .sending ∧ c'.requests = []) ∧
    (∀ e, let ring := c.mask
      let pos := ring.idxOf f.srcRank.toNat
      let succ := ring.getD ((pos + d.ringK) % ring.length) 0
      d.op = 3 → f.kind = 2 → pos < ring.length → f.offset.toNat % 32 = 0 → f.offset.toNat + f.payload.length < d.length → c.units = [] → c.arrived < ring.length → u.rankEntry d.job succ = some e →
      ∃ (v : State) (c' : Ctx) (g : Frame), exec (.shiftBlock p f now) s = .next v.dispatchOwn ∧
        v = { b with engines := v.engines, fab := { b.fab with selfEgress := [g] } } ∧ v.ctx p c.id = some c' ∧
        c'.units = (List.range (f.payload.length / 32)).map (fun x => (pos, f.offset.toNat / 32 + x)) ∧ c'.arrived = c.arrived ∧
        g.payload = f.payload ∧ g.srcRank = f.srcRank ∧ g.ident = f.ident ∧ g.offset = BitVec.ofNat 32 (d.dest.toNat % 2 ^ 32 + f.offset.toNat) ∧ g.dstModule = e.module ∧ g.transfer = d.impr.setWidth 16 ∧
        g.dstPort = (if e.kind = 1 then e.port else 0x3F) ∧ g.sig = (e.kind == 1) ∧ g.inc = 0 ∧ g.crc = g.goodCrc) ∧
    (d.op = 4 → d.inPlace = false → f.kind = 2 → c.blocks = [] → 0 < d.blockSize → d.blockSize % 128 = 0 → f.offset.toNat % d.blockSize = 0 →
      f.payload.length = d.blockSize → c.arrived + 1 < d.incoming → u.mayWrite d.dest (d.dest.toNat + f.offset.toNat) d.blockSize = true →
      u.inCode (d.dest.toNat + f.offset.toNat) d.blockSize = false → (u.job d.job).mapOn = none →
      ∃ t c', exec (.permuteBlock p f now) s = .next t ∧ t = { b with mem := t.mem, engines := t.engines, dies := t.dies } ∧
        t.ctx p c.id = some c' ∧ c'.arrived = c.arrived + 1 ∧ c'.aux0 = c.aux0 ∧
        ∀ a, Memory.read a t.mem = if d.dest.toNat + f.offset.toNat ≤ a ∧ a < d.dest.toNat + f.offset.toNat + d.blockSize
          then f.payload.getD (a - (d.dest.toNat + f.offset.toNat)) 0 else Memory.read a u.mem)

/-- R221, R232, R233, R235, R557: once its deadline has passed, an impression with ranks missing ends with DEADLINE_MISSED, the number of missing
ranks and the lowest of them; one without ranks ends so too; a serving one without requests ends OK, and one that is sending a reply
ends only after it. Before the deadline nothing happens. -/
def Obligations.StreamDeadlinesEndImpressions : Prop :=
  ∀ (s : State) (p : Port) (now : Nat) (c : Ctx), s.quiet = true → s.hasPort p = true →
    let u := s.advanceTo now
    let d := c.desc
    let ended := fun (i : Instr) (l : List Nat) =>
      ∃ t, Claims.Ends i p { c with aux0 := l.length, aux1 := l.headD 0 } Code.deadlineMissed l [] u s t
    Claims.Active p c u →
    (0 < d.deadline → c.start + 256 * d.deadline < u.time →
      (d.op = 1 → c.phase = .collecting → c.missing ≠ [] → ended (.reduceDeadline p c.id now) (c.missing.map fun q => c.mask.getD q 0)) ∧
      (d.op = 2 → d.serve = false → c.phase = .collecting → c.missing ≠ [] →
        ended (.gatherCollectDeadline p c.id now) (c.missing.map fun q => c.mask.getD q 0)) ∧
      (d.op = 3 → ended (.shiftDeadline p c.id now) c.shiftMissing) ∧
      (4 ≤ d.op → c.granules = [] → ∃ t, Claims.Ends (.streamDeadline p c.id now) p c Code.deadlineMissed [] [] u s t) ∧
      (d.serve = true → c.readsDone = false → c.requests = [] →
        (c.serving = none → ∃ t, Claims.Ends (.gatherServeDeadline p c.id now) p c Code.ok [] [] u s t) ∧
        (c.serving ≠ none → exec (.gatherServeDeadline p c.id now) s = .next (u.setCtx p { c with readsDone := true, phase := .sending })))) ∧
    ((d.deadline = 0 ∨ u.time ≤ c.start + 256 * d.deadline) →
      exec (.reduceDeadline p c.id now) s = .next u ∧ exec (.gatherCollectDeadline p c.id now) s = .next u ∧
      exec (.shiftDeadline p c.id now) s = .next u ∧ exec (.streamDeadline p c.id now) s = .next u ∧
      exec (.gatherServeDeadline p c.id now) s = .next u)

/-- R309: when a reply has left, its pin ends and its context serves on. R238: when the outgoing reads of an in_place PERMUTE have completed, the
block that waited is written and its context knows it. R239, R214: a SORT without buckets writes its records in order and ends OK. R126,
R127, R222: in NORMAL a delivery whose sum met an overflow is replayed at the binary32 rung. R130, R287: in another mode a delivery votes to
skip where a conversion or the sum overflowed or the sum holds a NaN; a replay whose wider conversion fits votes not to skip. The vote counts at
the generation of its step. -/
def Obligations.StreamWorkCompletes : Prop :=
  ∀ (s : State) (p : Port) (now : Nat) (c : Ctx), s.quiet = true → s.hasPort p = true →
    let u := s.advanceTo now
    let d := c.desc
    let t0 := u.tensor d
    Claims.Active p c u →
    let inTime := d.deadline = 0 ∨ u.time ≤ c.start + 256 * d.deadline
    (∀ a r, d.op = 2 → d.serve = true → inTime → c.serving = some a → c.requests = [] → u.shards = [r] → r.job = d.job → r.shard = d.shard8 →
      r.relDue = [] →
      exec (.gatherReplySent p c.id now) s = .next { u.setCtx p { c with serving := none, arrived := c.arrived + 1, phase := .collecting } with
        shards := [{ r with readers := r.readers.erase a.toNat }] }) ∧
    (∀ b, d.op = 4 → inTime → c.readsDone = false → c.blocks = [b] → d.blockSize / 128 ≤ b.units.length → c.arrived < d.incoming →
      u.inCode (d.dest.toNat + b.index * d.blockSize) b.bytes.length = false →
      ∃ t, exec (.permuteReadsDone p c.id now) s = .next t ∧ t = { u.setCtx p { c with readsDone := true } with mem := t.mem, dies := t.dies } ∧
        ∀ a, Memory.read a t.mem = if d.dest.toNat + b.index * d.blockSize ≤ a ∧ a < d.dest.toNat + b.index * d.blockSize + b.bytes.length
          then b.bytes.getD (a - (d.dest.toNat + b.index * d.blockSize)) 0 else Memory.read a u.mem) ∧
    (∀ a, d.op = 5 → d.bucketsN = 0 → inTime → DWord.target d.dest = .addr a → u.reaches a.toNat d.length = true → u.inCode a.toNat d.length = false →
      (a.toNat + d.length ≤ d.statusAddr.toNat ∨ d.statusAddr.toNat + 64 ≤ a.toNat) → 0 < d.recSize → d.length % d.recSize = 0 →
      let src := u.read d.source.toNat d.length
      let out := (sortedRecords d src).flatMap (·.2.2)
      ∃ t, Claims.Ends (.streamWorkDone p c.id now) p { c with result := d.length / d.recSize } Code.ok [] [(a.toNat, d.length)] u s t ∧
        t.read a.toNat d.length = out) ∧
    (∀ f, d.op = 1 → Fmt.ofCode t0.deliv = some f → u.inCode t0.absmax.toNat t0.tableBytes = false → u.inCode d.accBase.toNat (4 * t0.elems) = false →
      let acc := words32 t0.elems (u.read d.accBase.toNat (4 * t0.elems))
      let tab0 := AbsTable.ofBytes t0.unitsN (u.read t0.absmax.toNat t0.tableBytes)
      let tab := { tab0 with valid := tab0.valid && (u.job d.job).scaled.contains t0.id }
      let cv := t0.convertAll f (t0.recipe f tab) (u.drawOf c t0) acc
      let mode := ((u.job d.job).modeAt d.step).toNat
      let kept := fun (a n : Nat) (t : State) => (t.job d.job = { u.job d.job with scaled := (t.job d.job).scaled }) ∧
        ∀ x, ¬ (a ≤ x ∧ x < a + n) → Memory.read x t.mem = Memory.read x u.mem
      let votes := fun (i : Instr) (v : Bool) (a n : Nat) => ∀ b, d.vote = true → u.barDef d.job d.voteBarrier = some b →
        let k := u.bar b.slot.toNat
        let g := barVoteGen d.step k
        k.gen.toNat ≤ g → g < k.gen.toNat + 2 → k.floor ≤ g → (k.localAt g).1 + 1 < b.local_ →
        ∃ t c' n l, exec i s = .next t ∧ t = { u with mem := t.mem, engines := t.engines, dies := t.dies, jobs := t.jobs, bars := t.bars } ∧ kept a n t ∧
          t.ctx p c.id = some c' ∧ c'.phase = .voting ∧ c'.vote = v ∧
          t.bar b.slot.toNat = { k with voted := k.withVote d.step, floor := n, part := l } ∧ k.floor ≤ n ∧ n ≤ g ∧
          (t.bar b.slot.toNat).localAt g = ((k.localAt g).1 + 1, (k.localAt g).2 || v)
      (c.phase = .summed → (mode = 0 ∨ d.vote = false) → c.stages &&& 0xB ≠ 0 → ∃ t c', exec (.reduceDelivery p c.id now) s = .next t ∧
        t = { u with mem := t.mem, engines := t.engines, dies := t.dies, jobs := t.jobs } ∧ kept t0.absmax.toNat t0.tableBytes t ∧
        t.ctx p c.id = some c' ∧ c'.phase = .replay ∧ c'.rung = 6) ∧
      (c.phase = .summed → mode ≠ 0 →
        votes (.reduceDelivery p c.id now) (c.ofStage || cv.2.1.ov || acc.any isNan32) t0.absmax.toNat t0.tableBytes) ∧
      (∀ g rf rec, c.phase = .replay → c.absrec = some rec → Fmt.ofCode t0.fmt = some g → c.stages = 4 → allFinite acc = true → Fmt.ofCode c.rung.toNat = some rf →
        c.vote = false → c.mask = [c.mask.headD 0] →
        let sum := (t0.decode g (u.read (d.logBase.toNat + d.step.toNat % 2 * d.setStride) d.length)).map (·.1)
        finiteOf sum (t0.convertAll rf rec.scales (u.drawOf c t0) sum).2.2 = [] →
        votes (.overflowReplay p c.id now) false d.accBase.toNat (4 * t0.elems)))

/-- R278 to R283: a signalled frame that commits on the die of its counter, and the report of one that committed on another die, open an entry
with their bytes; on another die the frame's report sets out; a report that never set out does nothing; while the table of the counter's die is
full, the first frame of a transfer waits. The tag
that brings the announced total applies the increment and frees the entry; an entry that nothing updates for 1 ms is discarded and counted;
a SIGNAL frame adds to a counter of its job and is counted as discarded for any other counter. R129, R307: an addition of 1 to an advance
counter installs the shard's next state, retires its current one, and frees for each tensor the oldest slot set held. -/
def Obligations.SignalsCount : Prop :=
  ∀ (s : State) (now : Nat), s.quiet = true →
    let u := s.advanceTo now
    let unheld := fun (d : Die) (f : Frame) => u.unbox (.die d) f
    let new := fun (no : JobNo) (r : Rank) (x : BitVec 16) => ∀ d, ∀ e ∈ (u.die d).pst, ¬ (e.job = no ∧ e.rank = r ∧ e.transfer = x)
    let opens := fun (d : Die) (e : PstEntry) (v : State) => v.modDie d fun x => { x with pst := x.pst ++ [e], pstPeak := max x.pstPeak (x.pst.length + 1) }
    (∀ d f, f.sig = true → f.stomp = false → ¬ (f.kind = 2 ∧ f.mc = true) → u.behind (.die d) f = false → f.sigDie ≠ d →
      (u.pstFull f.sigDie f.job f.srcRank f.transfer = false →
        exec (.signalledFrameCommit d f now) s = .next ((unheld d f).modDie f.sigDie fun x => { x with reports := x.reports ++ [⟨f.job, f.srcRank,
          f.transfer, f.payload.length, if f.inc = 0 then none else some ⟨f.counter, f.inc, f.announced⟩⟩] })) ∧
      (new f.job f.srcRank f.transfer → (u.die f.sigDie).reports = [] → 2048 ≤ (u.die f.sigDie).pst.length →
        exec (.signalledFrameCommit d f now) s = .next u)) ∧
    (∀ d f, f.sig = true → f.stomp = false → ¬ (f.kind = 2 ∧ f.mc = true) → u.behind (.die d) f = false → f.sigDie = d → (u.die d).reports = [] →
      (u.die d).pst.length < 2048 →
      (f.inc = 0 → new f.job f.srcRank f.transfer →
        exec (.signalledFrameCommit d f now) s = .next (opens d ⟨f.job, f.srcRank, f.transfer, f.payload.length, none, u.time⟩ (unheld d f))) ∧
      (∀ e, f.inc ≠ 0 → (u.die d).pst = [e] → e.job = f.job → e.rank = f.srcRank → e.transfer = f.transfer → (∀ x, x ≠ d → (u.die x).pst = []) →
        f.counter.die = d → e.tally + f.payload.length = f.announced.toNat → Claims.Takes f.counter f.job f.inc.toNat u →
        ∃ t, exec (.signalledFrameCommit d f now) s = .next t ∧ t = { unheld d f with dies := t.dies } ∧ (t.die d).pst = [] ∧
          Claims.Counted f.counter f.inc.toNat u t)) ∧
    (∀ src r, src ≠ r.dst → r.tag = none →
      let report : CommitRep := ⟨r.job, r.rank, r.transfer, r.bytes.toNat, none⟩
      (report ∈ (u.die r.dst).reports → new r.job r.rank r.transfer →
        exec (.dieCommitReport src r now) s = .next (opens r.dst ⟨r.job, r.rank, r.transfer, r.bytes.toNat, none, u.time⟩
          (u.modDie r.dst fun x => { x with reports := x.reports.erase report }))) ∧
      (report ∉ (u.die r.dst).reports → exec (.dieCommitReport src r now) s = .next u)) ∧
    (∀ d e, (u.die d).pst = [e] → e.updated + 1000000 ≤ u.time →
      ∃ t, exec (.pendingSignalTimeout d e.job e.rank e.transfer now) s = .next t ∧
        t = { u.modDie d (fun x => { x with pst := [], sigMismatch := min (x.sigMismatch + 1) 0xFFFFFFFF }) with hub := t.hub } ∧
        t.hub.eventSeq = u.hub.eventSeq + 1 ∧ t.hub.events.getLast?.map (·.code) = some Code.signalMismatch) ∧
    (∀ f, f.stomp = false → f.inc ≠ 0 → u.behind (.die f.counter.die) f = false →
      (Claims.Takes f.counter f.job f.inc.toNat u → ∃ t, exec (.signal f now) s = .next t ∧ t = { unheld f.counter.die f with dies := t.dies } ∧
        Claims.Counted f.counter f.inc.toNat u t) ∧
      (f.job = 0 ∨ (u.counter f.counter).job ≠ f.job → exec (.signal f now) s = .next ((unheld f.counter.die f).modDie f.counter.die fun x => { x with
        sigDiscarded := min (x.sigDiscarded + 1) 0xFFFFFFFF }))) ∧
    (∀ n r x, u.shards = [r] → r.job = (u.counter n).job → r.advance = n → (u.counter n).underflow = false → (u.counter n).overflow = false →
      (u.counter n).value.toNat + 1 < 2 ^ 32 → (∀ e ∈ u.clusters, e.2.heldOn n = false) → u.inProof r.job = false → u.mirrorSource r.job r.shard = none →
      r.isFilling = false → r.st.toNat < 0xFFFFFFFE → r.areas[(r.st.toNat + 1) % r.hold]? = some x → x.valid = false → 1 < r.hold → r.areas.length = r.hold →
      ∀ who, ∃ t r', exec (.shardAdvance n ⟨who, 1⟩ now) s = .next t ∧ t = { u with dies := t.dies, shards := [r'], engines := t.engines } ∧
        Claims.Counted n 1 u t ∧ r' = { r with st := r.st + 1, areas := r'.areas } ∧ r'.areas.length = r.hold ∧
        (∀ i y, r.areas[i]? = some y → r'.areas[i]? = some (
          if i = r.st.toNat % r.hold then { y with retired := true, gen := (u.bar r.relSlot.toNat).gen }
          else if i = (r.st.toNat + 1) % r.hold then ⟨r.st + 1, true, false, false, 0⟩ else y)) ∧
        ∀ p, t.eng p = { u.eng p with heldSets := dropOldest r.job r.shard (u.eng p).heldSets [] })

/-- R287 to R290: at the root an arrival frame of a rank that has not arrived enters the mask and the vote of the open generation, which its
first arrival opens, but not before the job has started; once the
deadline has passed the open generation ends with MISSED_DEADLINE: every other rank gets a completion frame, and the outcome record with the mask
of the missing ranks is written. At a participant a completion frame's record and mask are copied unchanged. Each completion ends the
generation and adds 1 to done_counter. -/
def Obligations.BarriersComplete : Prop :=
  ∀ (s : State) (now : Nat) (b : BarDef), s.quiet = true →
    let u := s.advanceTo now
    let k := u.bar b.slot.toNat
    let calm := u.badWords = [] ∧ u.weakWords = [] ∧ (∀ e ∈ u.engines, ∀ c ∈ e.2.ctxs, c.phase ≠ .voting)
    let missing := b.mask.filter fun r => !k.masks.1.contains r
    (∀ f, u.barDef f.job (f.ident.toNat % 64) = some b → (u.job f.job).st = .running ∨ (u.job f.job).st = .starting ∨ (u.job f.job).st = .done →
      u.behind (.die b.done.die) f = false →
      let v := u.unbox (.die b.done.die) f
      (u.ownRank f.job = some b.root → f.detail.setWidth 32 = k.gen → f.srcRank.toNat ∈ b.mask → f.srcRank.toNat ∉ k.masks.1 →
        (∃ r ∈ b.mask, r ≠ f.srcRank.toNat ∧ r ∉ k.masks.1) →
        exec (.barrierArrivalFrame f now) s = .next (v.modBar b.slot.toNat fun k => { k with
          masks := (k.masks.1 ++ [f.srcRank.toNat], k.masks.2), votes := (k.votes.1 || f.ident.getLsbD 6, k.votes.2)
          opened := if (u.job f.job).st = .starting then k.opened else some (k.opened.getD u.time) })) ∧
      (∀ status, calm → (u.job f.job).mapAt = none → f.ident.toNat / 256 % 256 = status → status ≠ 2 → ¬ (b.kind = 2 ∧ status = 0) → k.gen.toNat ≤ f.detail.toNat % 2 ^ 32 → f.payload.length = 544 →
        Claims.Takes b.done f.job 1 u → ∃ t, exec (.barrierCompletionFrame f now) s = .next t ∧
          t = { v with mem := t.mem, dies := t.dies, bars := t.bars } ∧
          t.bar b.slot.toNat = { k with gen := f.detail.setWidth 32 + 1 } ∧ Claims.Counted b.done 1 u t ∧
          ∀ a, Memory.read a t.mem =
            if b.outcome.toNat ≤ a ∧ a < b.outcome.toNat + 544 then f.payload.getD (a - b.outcome.toNat) 0 else Memory.read a u.mem)) ∧
    (∀ slot t0, calm → u.barDef k.job slot.toNat = some b → b.slot = slot →
      (u.job k.job).st = .running ∨ (u.job k.job).st = .starting ∨ (u.job k.job).st = .done → (u.job k.job).proofRole ≠ 2 → (u.job k.job).mapAt = none →
      u.ownRank k.job = some b.root → k.opened = some t0 →
      0 < b.deadline → t0 + 256 * b.deadline < u.time → Claims.Takes b.done k.job 1 u → (∃ r ∈ b.mask, r ∉ k.masks.2) →
      let record := outcomeBytes k.gen 1 k.votes.1 k.masks.1.length missing.length (match missing with | r :: _ => BitVec.ofNat 32 r | [] => 0xFFFFFFFF) u.time ++
        maskBytes missing
      ∃ v : State, exec (.barrierDeadline slot now) s = .next v.dispatchOwn ∧
        v = { u with mem := v.mem, dies := v.dies, bars := v.bars
                     fab := { u.fab with selfEgress := (b.mask.filter (· ≠ b.root)).filterMap fun r => (u.rankEntry k.job r).map fun e =>
                       ((completionFrame k.job b.root slot k.votes.1 1 k.gen record).toRank e).sealCrc } } ∧
        v.bar slot.toNat = { k with
          gen := k.gen + 1, masks := (k.masks.2, []), votes := (k.votes.2, false)
          opened := if k.masks.2 = [] then none else some u.time } ∧
        Claims.Counted b.done 1 u v ∧
        ∀ a, Memory.read a v.mem =
          if b.outcome.toNat ≤ a ∧ a < b.outcome.toNat + 544 then record.getD (a - b.outcome.toNat) 0 else Memory.read a u.mem)

/-- R246: a digest for a loaded job is kept by its module; the digest by which the partner refuses a start (log entry 41) takes back an
earlier one. R466: at start_at a job whose digests have come starts; a digest that has not come
within 10 s refuses the start with START_TIMEOUT. R272, R314, R498: the start sets the counters of the plate, begins the run record, opens
the marker and returns the network time. -/
def Obligations.JobsStart : Prop :=
  ∀ (s : State) (now : Nat) (no : JobNo) (p : Plate),
    let u := s.advanceTo now
    let j := u.job no
    let here := u.startPeers no
    no ≠ 0 → j.plate = some p → Claims.Rising u → u.hub.waiting = [] → (u.modJob no fun j => { j with startMsg := none }).quiet = true →
    (∀ module digest, j.st = .loaded → j.startMsg = none → (∀ x ∈ u.fab.inbox, x.1 ≠ .pair) →
      exec (.jobDigestFrame no module digest now) s = .next (u.modJob no fun j => { j with
        digests := (if u.partner = some module ∧ digest = ~~~ p.pairDigest then [] else [(module.toNat, digest)]) ++
          j.digests.filter fun e => e.1 != module.toNat })) ∧
    (∀ m, j.st = .starting → j.startMsg = some m → m.path = .internal →
      (j.proofRole = 0 → j.startBegan + 10000000000 ≤ u.time → (∃ x ∈ here, ∀ e ∈ j.digests, e.1 ≠ x) →
        exec (.jobStartTimeout no now) s = .next { (u.modJob no fun j => { j with st := .loaded, startMsg := none, cleared := false, digests := [] }) with
          outbox := u.outbox ++ [.reply 0x0030 Code.startTimeout m.seq 0xFF []] }) ∧
      (j.cleared = true → (∀ x ∈ here, ∃ e ∈ j.digests, e.1 = x) → j.startAt ≠ 0 → j.startAt ≤ u.time → p.shardRecs = [] → p.mirror = [] → p.nextSwitch 0 0 = none →
        (∀ b ∈ p.barriers, (u.bar b.slot.toNat).masks.1 = []) →
        ∃ t, exec (.jobStartAt no now) s = .next t ∧
          t = { u with outbox := t.outbox, clusters := t.clusters, engines := t.engines, dies := t.dies, jobs := t.jobs
                       windows := t.windows, armed := t.armed, meter := t.meter } ∧
          (t.job no).st = .running ∧ (t.job no).startTime = u.time ∧ (t.job no).startMsg = none ∧ (t.job no).mode = p.mode ∧ (t.job no).ledger = [] ∧
          (t.job no).ovLog = [] ∧ (t.job no).overruns = [] ∧ (t.job no).closedStep = 0xFFFFFFFF ∧
          t.outbox = u.outbox ++ (if u.margin.hubOn then [.marker true false no] else []) ++ [.reply 0x0030 Code.ok m.seq 0 (words64 (BitVec.ofNat 64 u.time))] ∧
          (∀ c ∈ p.counters, (∀ x ∈ p.counters, x.name = c.name → x = c) → t.counter c.name = ⟨no, c.cause, false, false, false, c.initial⟩)))

/-- R249, R250, R162: the next impression of a program entry starts on its idle cluster, with its id, its step and its start address, and
of a stream entry in the queue of its engine. R400, R401, R403: at the start of a hatch entry its gates reach the gated ports, and programs
that hold for it run. R317: a step that no unit works on any more closes: its entry joins the ledger and the chain goes on. R459, R498:
a job past its last step is DONE and its marker closes. R124, R467, R524: a step that begins arms the faults whose step has come. -/
def Obligations.JobsRunTheirSteps : Prop :=
  ∀ (s : State) (now : Nat) (no : JobNo) (p : Plate), s.quiet = true →
    let u := s.advanceTo now
    let j := u.job no
    let begins := fun (step : Word) => some (match j.begun with | some b => if b < step then step else b | none => step)
    no ≠ 0 → j.st = .running → j.plate = some p → Claims.Rising u →
    (∀ i x, p.sched[i]? = some x → j.scalePend = [] → j.injPend = [] → x.startGate = 0xFFF → x.mapping.toNat = j.mapping →
      let g := Table.get EntryProg.reset i j.prog
      let step := x.first + g.next
      g.running = false → (x.last = 0xFFFFFFFF ∨ step ≤ x.last) → step < 2 ^ 32 → u.pair.st ≠ .fenced →
      let runs := fun (t : State) => (t.job no).begun = begins (BitVec.ofNat 32 step) ∧
        Table.get EntryProg.reset i (t.job no).prog =
          { g with next := g.next + 1, running := true, start := u.time, due := 0, shift := 0, refresh := 0, retry := 0 }
      (x.kind = 1 → (u.clu x.target).gstate = .idle → (u.die (ClusterId.die x.target)).inReset = false →
        ∃ t, exec (.impressionStart no i now) s = .next t ∧ t = { u with jobs := t.jobs, clusters := t.clusters } ∧ runs t ∧
          (∀ c, c ≠ x.target → t.clu c = u.clu c) ∧
          t.clu x.target = { u.clu x.target with
            gstate := .running, holdCause := .none, startGate := none, job := no
            impr := some ⟨no, BitVec.ofNat 32 (65536 * x.collective.toNat + step % 65536), BitVec.ofNat 32 step, i, u.time⟩
            pc := x.address.setWidth 32, loops := [], forming := [], fetchQ := [], waitDone := none, gateDone := false, grant := none
            waitDeadline := none, flags := NFlags.none, signSeq := 0, nextIssue := (u.clu x.target).stepCount, issuedAt := none
            lastStepEnd := 1000 * u.time, dueFault := none, lastTile := none, imprStall := 0, ending := none, fetchBad := [], iwait := []
            icache := if (u.clu x.target).codeBase = (p.codeOf x.target).1 then (u.clu x.target).icache else []
            codeBase := (p.codeOf x.target).1, codeLen := (p.codeOf x.target).2, snap := t.statusBlock x.target }) ∧
      (x.kind = 2 → (u.die (Port.die (x.target.setWidth 6))).inReset = false → u.armed = [] → u.badWords = [] → u.weakIn x.address.toNat 128 = [] →
        x.address.toNat < 2 ^ 31 →
        x.address.toNat % 128 = 0 → u.absentAt x.address = false → (u.eng (x.target.setWidth 6)).queue.length < 64 →
        (u.eng (x.target.setWidth 6)).pacorWait = [] →
        ∃ t q, exec (.impressionStart no i now) s = .next t ∧ t = { u with jobs := t.jobs, engines := t.engines } ∧ runs t ∧
          (∀ e, e ≠ x.target.setWidth 6 → t.eng e = u.eng e) ∧
          t.eng (x.target.setWidth 6) = { u.eng (x.target.setWidth 6) with queue := (u.eng (x.target.setWidth 6)).queue ++ [q] } ∧
          q.accepted = u.time ∧ q.step = BitVec.ofNat 32 step ∧ q.entry = some i ∧
          q.desc.impr = BitVec.ofNat 32 (65536 * x.collective.toNat + step % 65536) ∧
          ∀ n, 0 < n → n < 8 → q.desc.w.getD n 0 = (Desc.ofBytes (u.read x.address.toNat 128)).w.getD n 0)) ∧
    (∀ slot, Table.get 0 slot.toNat u.hatchJobs = no.toNat → Table.wf Cluster.reset u.clusters = true → (∀ e ∈ u.clusters, e.1 < 256) →
      (∀ e ∈ u.clusters, ¬ (e.2.job = no ∧ e.2.gstate = .held ∧ e.2.startGate = none)) →
      ∃ t, exec (.hatchEntryStart slot now) s = .next t ∧ t = { u with ports := t.ports, clusters := t.clusters } ∧
        (∀ q, t.port q = if u.hasPort q ∧ p.hatch.gated.getLsbD q.toNat then
          { u.port q with egress := p.hatch.applyNow no u.time (u.port q).egress } else u.port q) ∧
        ∀ c, t.clu c = match (u.clu c).startGate with
          | some g => if (u.clu c).job = no ∧ p.hatch.startsAt g u.time then { u.clu c with
              gstate := .running, holdCause := .none, startGate := none, nextIssue := (u.clu c).stepCount, lastStepEnd := 1000 * u.time
              impr := (u.clu c).impr.map fun i => { i with start := u.time } } else u.clu c
          | none => u.clu c) ∧
    (∀ n l, Job.nextClose p j = some n → (∃ b, j.begun = some b ∧ n ≤ b.toNat) → u.stepOpen no p n = false → j.ledgerOpen = [l] → l.step.toNat = n →
      exec (.ledgerStepClose no now) s = .next (u.modJob no fun j => { j with
        ledger := (j.ledger ++ [(⟨l.step, l.ended, l.digest⟩ : LedgerEntry)]).drop (j.ledger.length + 1 - 65536)
        chain := shake256 32 (j.chain ++ (leBytes 4 l.step.toNat ++ leBytes 4 l.ended ++ leBytes 8 l.digest.toNat))
        closedStep := l.step, ledgerOpen := [] })) ∧
    ((∀ i x, p.sched[i]? = some x → j.entryPast p x i = true) → u.imprsLeft no = false → u.margin.hubOn = true →
      exec (.jobDone no now) s = .next { (u.modJob no fun j => { j with st := .done, endTime := u.time }) with
        outbox := u.outbox ++ [.marker false false no], meter := { u.meter with openJobs := u.meter.openJobs.filter (· ≠ no), toldAt := some u.time } }) ∧
    (∀ step, j.scalePend = [] → (∀ i ∈ j.injPend, i.code = Code.sramUncorrectable ∨ i.code = Code.dramUncorrectable ∨ i.code = Code.injOverflow ∨ i.code = Code.injDropRank) →
      ∃ t, exec (.effectiveStepBegin no step now) s = .next t ∧ t = { u with jobs := t.jobs, armed := t.armed } ∧ (t.job no).begun = begins step ∧
        (∀ i ∈ j.injPend, (i ∈ t.armed ∧ i ∉ (t.job no).injPend) ∨ (i ∈ (t.job no).injPend ∧ ∀ b, begins step = some b → b < i.step)))

namespace Sys2Proof.Claims

/-- t is u with a changed port p: every other part, and every other port, is as before. -/
def PortOnly (p : Port) (u t : State) : Prop := t = u.setPort p (t.port p)

/-- The port p of t is in DETECT since now, with nothing of a link kept (R336, R341). -/
def Detects (p : Port) (u t : State) : Prop :=
  (t.port p).phase = .detect ∧ (t.port p).phaseAt = u.time ∧ (t.port p).txLanes = 0 ∧ (t.port p).rxLanes = 0 ∧ (t.port p).rxUsable = 0 ∧
    (t.port p).retryBuf = [] ∧ (t.port p).txUnits = [] ∧ ∀ l < 8, ((t.port p).lane l).locked = false ∧ ((t.port p).lane l).cwLock = false

/-- No recovery is in progress and no trigger-class event of this instant is in the log (R517). -/
def Calm (u : State) : Prop := u.pair.st ≠ .fenced ∧ u.pair.recovering = false ∧ u.pair.lastTrig ≠ some u.time

/-- The link of p has gone down: an event of the port with a code in the log, and a recovery of the port begins (R341, R514, R517). -/
def PortFault (p : Port) (code : BitVec 16) (u t : State) : Prop :=
  t = { u.setPort p (t.port p) with hub := t.hub, pair := t.pair } ∧ t.hub.eventSeq = u.hub.eventSeq + 1 ∧
    (t.hub.events.getLast?.map fun e => (e.code, e.unit, e.recStart)) = some (code, p.setWidth 16, true) ∧
    t.pair = { u.pair with recUnits := [p.toNat], recoverAt := u.time, lastTrig := some u.time, st := t.pair.st } ∧
    (t.pair.st = if u.pair.st = .paired then .recovering else u.pair.st)

end Sys2Proof.Claims

/-- R332 to R338, R345: a training frame locks its lane in DETECT, 4 locked lanes begin EQUALISE, where a lane counts ready frames; a lane that is not
equalised after 10 ms is out, and phases without progress for 1 ms return to DETECT; an ALIGN block locks its lane; three TRAIN blocks of a
fitting partner are accepted. R336, R340: a removed lane that is equalised returns to the usable set, one that is not after 20 ms has failed,
and before either nothing ends. R341, R366, R367: disable and go take the link down; an enabled port begins in DETECT, one of the role unused
stays DISABLED. -/
def Obligations.LinksTrain : Prop :=
  ∀ (s : State) (now : Nat) (p : Port) (l : BitVec 3), s.quiet = true → s.hasPort p = true →
    let u := s.advanceTo now
    let x := u.port p
    (∀ w, x.role ≠ 0 → x.down = false →
      (x.phase = .detect →
        let y := x.modLane l.toNat fun k => { k with locked := true, inverted := w.inverted }
        exec (.trainingFrame p l w now) s = .next (u.setPort p (
          if 4 ≤ ((List.range 8).filter fun i => (y.lane i).locked).length then { y with phase := .equalise, phaseAt := u.time } else y))) ∧
      (x.phase = .equalise → (x.lane l.toNat).timedOut = false → (∃ i < 8, i ≠ l.toNat ∧ (x.lane i).timedOut = false ∧ (x.lane i).readyRun < 16) →
        ∃ k', exec (.trainingFrame p l w now) s = .next (u.setPort p (x.modLane l.toNat fun _ => k')) ∧ k'.locked = true ∧ k'.rxReady = true ∧
          k'.readyRun = (if w.status.getLsbD 6 ∧ w.status.getLsbD 7 then (x.lane l.toNat).readyRun + 1 else (x.lane l.toNat).readyRun) ∧
          (w.control = 0 → k'.tapM2 = (x.lane l.toNat).tapM2 ∧ k'.tapM1 = (x.lane l.toNat).tapM1 ∧ k'.tapP1 = (x.lane l.toNat).tapP1))) ∧
    (x.phase = .equalise → (∃ i < 8, i ≠ l.toNat ∧ (x.lane i).timedOut = false ∧ (x.lane i).readyRun < 16) →
      (x.phaseAt + 10000000 ≤ u.time → (x.lane l.toNat).timedOut = false → (x.lane l.toNat).readyRun < 16 →
        exec (.equaliseTimeout p l now) s = .next (u.setPort p (x.modLane l.toNat fun k => { k with timedOut := true }))) ∧
      (u.time < x.phaseAt + 10000000 → exec (.equaliseTimeout p l now) s = .next u)) ∧
    (x.phaseAt + 1000000 ≤ u.time →
      (x.phase = .align → ∃ t, exec (.alignTimeout p now) s = .next t ∧ Claims.PortOnly p u t ∧ Claims.Detects p u t) ∧
      (x.phase = .negotiate → x.mismatch = false → ∃ t, exec (.negotiateTimeout p now) s = .next t ∧ Claims.PortOnly p u t ∧ Claims.Detects p u t)) ∧
    (∀ bs n, x.phase = .align → x.role ≠ 0 → (bs.drop 32).take 16 = alignMarker → bs.head? = some 4 →
      ∃ t, exec (.alignBlock p l (.block bs n) now) s = .next t ∧ Claims.PortOnly p u t ∧ ((t.port p).lane l.toNat).cwLock = true ∧
        (t.port p).lastRx = u.time ∧ (t.port p).fecCorr = x.fecCorr + n ∧ (∀ i, i ≠ l.toNat → (t.port p).lane i = x.lane i) ∧
        ((t.port p).phase = if ((lanesOf x.rxUsable).all fun i => i == l.toNat || (x.lane i).cwLock) then .negotiate else .align)) ∧
    (∀ bs n, x.phase = .negotiate → x.role = 1 → blockCrcOk bs = true → blockField bs 0 1 % 16 = 5 → x.trainSent < 8 →
      let c := capsOf bs
      let run := if x.peerCaps = some c then x.peerRun + 1 else 1
      (3 ≤ run → c.version = 1 ∧ c.role = 1) →
      ∃ t, exec (.trainBlock p l (.block bs n) now) s = .next t ∧ Claims.PortOnly p u t ∧ (t.port p).peerCaps = some c ∧ (t.port p).peerRun = run ∧
        (t.port p).lastRx = u.time ∧ (t.port p).phase = .negotiate ∧
        (x.peerOk = false → ((t.port p).peerOk = decide (3 ≤ run)) ∧ (3 ≤ run → (t.port p).identity = c.identity))) ∧
    (x.phase = .active → (x.lane l.toNat).retrain = true → u.pair.recUnits = [] →
      let fine := (x.lane l.toNat).rxReady = true ∧ 16 ≤ (x.lane l.toNat).readyRun
      let late := (x.lane l.toNat).retrainAt + 20000000 ≤ u.time
      (fine → ∃ t, exec (.laneRetrainEnd p l true now) s = .next t ∧ Claims.PortOnly p u t ∧
        (∀ i, (t.port p).rxUsable.getLsbD i = (x.rxUsable.getLsbD i || i == l.toNat)) ∧ (t.port p).laneReq = activeLanes (t.port p).rxUsable ∧
        (t.port p).lane l.toNat = { x.lane l.toNat with retrain := false, laneState := 0 }) ∧
      (fine → exec (.laneRetrainEnd p l false now) s = .next u) ∧
      (¬ fine → exec (.laneRetrainEnd p l true now) s = .next u) ∧
      (¬ late → exec (.laneRetrainEnd p l false now) s = .next u) ∧
      (¬ fine → late → ∃ t, exec (.laneRetrainEnd p l false now) s = .next t ∧
        t = { u.setPort p (x.modLane l.toNat fun k => { k with retrain := false, laneState := 3 }) with hub := t.hub } ∧
        t.hub.eventSeq = u.hub.eventSeq + 1 ∧ (t.hub.events.getLast?.map fun e => (e.code, e.detail)) = some (Code.laneFailed, l.setWidth 32))) ∧
    (x.phase ≠ .active →
      (∃ t, exec (.fabWzCtrlDisable p true now) s = .next t ∧ Claims.PortOnly p u t ∧ (t.port p).phase = .disabled ∧ (t.port p).disable = true) ∧
      (x.phase = .disabled → x.role ≠ 0 → ∃ t, exec (.fabWzCtrlDisable p false now) s = .next t ∧ Claims.PortOnly p u t ∧ Claims.Detects p u t ∧ (t.port p).disable = false) ∧
      (x.phase = .disabled → x.role = 0 → exec (.fabWzCtrlDisable p false now) s = .next (u.setPort p { x with disable := false })) ∧
      (x.phase ≠ .disabled → ∃ t, exec (.fabWzRetrain p true now) s = .next t ∧ Claims.PortOnly p u t ∧ Claims.Detects p u t)) ∧
    exec (.fabWzRetrain p false now) s = .next u ∧
    (x.phase = .active → x.rxUid = none → Claims.Calm u →
      (∃ t, exec (.fabWzCtrlDisable p true now) s = .next t ∧ Claims.PortFault p Code.linkDown u t ∧ (t.port p).phase = .disabled ∧ (t.port p).disable = true) ∧
      (∃ t, exec (.fabWzRetrain p true now) s = .next t ∧ Claims.PortFault p Code.linkDown u t ∧ Claims.Detects p u t))

/-- R347, R354 to R357, R360: a DATA block with the expected number is accepted, one with another number is not, asks for a replay and does not count against silence; the control
unit of an accepted block acknowledges blocks and returns credits. R363 to R365: a TIME block gives the partner's offset and, once the partner
has echoed, the delay. R331, R343, R348: an idle link sends IDLE blocks as the levels of their codeword; TIME blocks fall due every 10 µs, ALIGN blocks every 16,384 codewords. R339: a
lane above the limit is removed from both directions and retrains. R341, R356: no acknowledgement for 20 µs starts a replay, silence of 100 µs ends the link. -/
def Obligations.LinkBlocksMove : Prop :=
  ∀ (s : State) (now : Nat) (p : Port) (l : BitVec 3), s.quiet = true → s.hasPort p = true →
    let u := s.advanceTo now
    let x := u.port p
    x.phase = .active →
    (∀ bs n (type : Nat), blockCrcOk bs = true → blockField bs 0 1 % 16 = type → blockField bs 6 1 % 2 = 0 → BitVec.ofNat 8 (blockField bs 0x14 1) = x.peerReq →
      let ack := BitVec.ofNat 16 (blockField bs 4 2)
      let moved := (ack - x.lastAckIn).toNat
      let kept := if moved = 0 ∨ 32768 ≤ moved then x.retryBuf else x.retryBuf.filter fun b => decide (32768 ≤ (ack - b.seq).toNat)
      let controls := fun (t : State) => (t.port p).lastRx = u.time ∧ (t.port p).fecCorr = x.fecCorr + n ∧ (t.port p).retryBuf = kept ∧
        ∀ c < 5, let d := (BitVec.ofNat 16 (blockField bs (8 + 2 * c) 2) - Table.get 0 c x.lastFreed).toNat
          (t.port p).credit c = x.credit c + if d < 32768 then d else 0
      (type = 1 → blockField bs 2 2 = x.rxExpect.toNat → x.rxUnits = [] → (∀ i < 608, bs.getD (32 + i) 0 = 0) →
        ∃ t, exec (.dataBlock p l (.block bs n) now) s = .next t ∧ Claims.PortOnly p u t ∧ controls t ∧ (t.port p).rxExpect = x.rxExpect + 1 ∧
          (t.port p).nak = false ∧ (t.port p).rxAny = true ∧ (t.port p).rxUnits = []) ∧
      (type = 1 → blockField bs 2 2 ≠ x.rxExpect.toNat →
        ∃ t, exec (.dataBlock p l (.block bs n) now) s = .next t ∧ Claims.PortOnly p u t ∧ (t.port p).rxExpect = x.rxExpect ∧ (t.port p).nak = true ∧
          (t.port p).lastRx = x.lastRx ∧ (t.port p).retryBuf = x.retryBuf ∧ (t.port p).credits = x.credits) ∧
      (type = 2 → ∃ t, exec (.idleBlock p l (.block bs n) now) s = .next t ∧ Claims.PortOnly p u t ∧ controls t ∧ (t.port p).rxExpect = x.rxExpect) ∧
      (type = 3 → x.rtts = [] →
        ∃ t, exec (.timeBlock p l (.block bs n) now) s = .next t ∧ t = { u.setPort p (t.port p) with hub := t.hub } ∧ controls t ∧
          (t.port p).timeTxIn = BitVec.ofNat 64 (blockField bs 0x20 8) ∧ (t.port p).timeRxAt = u.time ∧
          (blockField bs 0x28 8 = 0 → (t.port p).delay = 0 ∧ (t.port p).offset = 16 * (blockField bs 0x20 8 : Int) - 16 * (u.time : Int)) ∧
          (blockField bs 0x28 8 ≠ 0 → (t.port p).delay = (16 * (u.time - blockField bs 0x28 8) - blockField bs 0x30 4) / 2 ∧
            (t.port p).offset = 16 * (blockField bs 0x20 8 : Int) - (16 * (u.time : Int) - ((t.port p).delay : Int))))) ∧
    (x.role ≠ 0 → (∀ i < 8, (x.lane i).retrain = false) → x.alignDue = 0 → (x.timeDue = false ∨ u.time < x.timeSent + 1000) → x.replayPos = none → x.txUnits = [] →
      let i := (lanesOf x.txLanes).getD (x.streamPos % max 1 (lanesOf x.txLanes).length) 0
      ∃ t, exec (.blockTransmit p now) s = .next t ∧ t = { u.setPort p (t.port p) with outbox := t.outbox } ∧ (t.port p).streamPos = x.streamPos + 1 ∧
        ((t.port p).lane i).txCount = (x.lane i).txCount + 1 ∧
        t.outbox = u.outbox ++ [.block p i (symbolLevels (rsEncode (blockSymbols (scramble (x.block 2 0 0 (List.replicate 608 0)) (x.lane i).txScr).1)))]) ∧
    exec (.timeBlockDue p now) s = .next (u.setPort p (if x.timeSent + 10000 ≤ u.time then { x with timeDue := true } else x)) ∧
    exec (.alignBlockDue p now) s = .next (u.setPort p (
      if (∀ i ∈ lanesOf x.txLanes, (x.lane i).txCount % 16384 = 0) then { x with alignDue := x.txLanes } else x)) ∧
    (∀ errors symbols, symbols < 10000 * errors → Claims.Calm u → x.rxUsable.getLsbD l.toNat = true → 5 ≤ (lanesOf x.rxUsable).length →
      ∃ t, exec (.laneSerWindow p l errors symbols now) s = .next t ∧ Claims.PortFault p Code.laneFailed u t ∧ (t.port p).phase = .active ∧
        (∀ i, (t.port p).rxUsable.getLsbD i = (x.rxUsable.getLsbD i && i != l.toNat)) ∧ ((t.port p).lane l.toNat).retrain = true ∧
        (∀ i, (t.port p).txLanes.getLsbD i = (x.txLanes.getLsbD i && i != l.toNat)) ∧ ((t.port p).lane l.toNat).retrainAt = u.time ∧
        (t.port p).laneReq = activeLanes (t.port p).rxUsable) ∧
    (∀ errors symbols, 10000 * errors ≤ symbols → exec (.laneSerWindow p l errors symbols now) s = .next u) ∧
    (∀ b rest, x.retryBuf = b :: rest → x.ackAdv + 20000 ≤ u.time → x.replayN < 7 →
      exec (.ackTimeoutReplay p now) s = .next (u.setPort p { x with
        replayPos := some 0, replayAt := some u.time, replaySeq := b.seq, ackAdv := u.time, replays := min (x.replays + 1) 0xFFFFFFFF
        replayN := if x.replayN ≠ 0 ∧ x.replaySeq = b.seq then x.replayN + 1 else 1 })) ∧
    (x.lastRx + 100000 ≤ u.time → x.rxUid = none → Claims.Calm u →
      ∃ t, exec (.linkSilenceTimeout p now) s = .next t ∧ Claims.PortFault p Code.linkDown u t ∧ Claims.Detects p u t)

/-- R374, R376, R381, R382: 40 ns after its header a frame for an endpoint port of this module stands in that port's queue with one hop less, and a
whole frame for the hub waits for it. R360: a frame that its unit takes frees its units at its ingress. R285: a signal-only frame merges with one for the same counter that waits in
its queue. R360, R396: an egress starts a C0 frame that its reservation serves: its units
go to the link and its credits are spent. R358: a copy whose next unit does not come ends with a stomped tail and waits again. R377: a STREAM
frame without a steering entry is discarded after 100 µs. -/
def Obligations.FramesAreForwarded : Prop :=
  ∀ (s : State) (now : Nat) (p : Port),
    let u := s.advanceTo now
    let x := u.port p
    (s.quiet = true → s.hasPort p = true →
      (∀ l, x.lookups = [l] → l.looked = false → l.since + 40 ≤ u.time → x.role ≠ 6 → l.f.mc = false → l.f.dstModule = u.fab.module →
        (∀ q, l.f.dstPort = q → q ≠ 0x3F → u.hasPort q = true → (u.port q).role = 1 → (u.job l.f.job).proofRole ≠ 2 → l.f.cls.toNat < 2 → l.f.kind ≠ 4 →
          exec (.routeLookupDone p now) s = .next ((u.setPort p { x with lookups := [] }).modPort q fun y => { y with
            egress := y.egress.setQueue l.f.cls.toNat (y.egress.queue l.f.cls.toNat ++
              [⟨l.uid, { l.f with ttl := l.f.ttl - 1 }, l.since, false, some p, l.whole, false, none, false, laneCount x.rxLanes, false⟩]) })) ∧
        (∀ q y, l.f.dstPort = q → q ≠ 0x3F → u.hasPort q = true → (u.port q).role = 1 → (u.job l.f.job).proofRole ≠ 2 → l.f.kind = 4 → l.f.cls = 1 → l.whole = true →
          l.f.inc ≠ 0 → l.f.announced = 0 → y.f.announced = 0 → l.f.echo = false → l.f.payload = [] → (u.port q).egress.queue 1 = [y] → y.uid ≠ l.uid → y.f.kind = 4 → y.f.cls = 1 → y.f.mc = false →
          y.f.echo = false → y.f.payload = [] → y.whole = true → y.again = false → y.f.inc ≠ 0 → y.f.job = l.f.job → y.f.dstModule = l.f.dstModule →
          y.f.dstPort = l.f.dstPort → y.f.counter = l.f.counter → y.f.inc.toNat + l.f.inc.toNat < 65536 →
          ∃ t, exec (.routeLookupDone p now) s = .next t ∧ t = { u with ports := t.ports, dies := t.dies } ∧
            (t.port q).egress.queue 1 = [{ y with f := ({ y.f with inc := y.f.inc + l.f.inc } : Frame).sealCrc }] ∧
            t.die (Port.die q) = { u.die (Port.die q) with sigCombined := min ((u.die (Port.die q)).sigCombined + 1) 0xFFFFFFFF }) ∧
        (l.f.dstPort = 0x3F → l.f.kind = 9 → l.f.cls = 4 → l.whole = true →
          exec (.routeLookupDone p now) s = .next { u.setPort p { x with lookups := [] } with
            fab := { u.fab with inbox := u.fab.inbox ++ [(.hub, ⟨l.uid, l.f, l.since, false, some p, true, false, none, false, laneCount x.rxLanes, false⟩)] } })) ∧
      (∀ y : Queued, u.fab.inbox = [(.die y.f.counter.die, y)] → y.ingress = some p → y.f.inc = 0 → x.rxUid ≠ some y.uid → x.rxBase ≤ y.uid →
        ({ u with fab := { u.fab with inbox := [] } } : State).stands y.uid = false →
        let c := y.f.cls.toNat
        exec (.signal y.f now) s = .next { (u.setPort p { x with
            freed := Table.set 0 c (Table.get 0 c x.freed + BitVec.ofNat 16 (y.f.plen.toNat + 2)) x.freed }) with fab := { u.fab with inbox := [] } }) ∧
      (∀ q rest, x.phase = .active → x.egress.sending = none → x.txUnits.length < 19 → x.egress.queue 0 = q :: rest → (∀ c, 1 ≤ c → c ≤ 4 → x.egress.queue c = []) →
        q.f.cls = 0 → q.f.mc = false → q.ingress = none → q.whole = true → u.eligible p 0 q = true →
        let sum := max 1 (weightSum x.egress.weights)
        let b0 := min 12288000 (x.egress.b0 + (125000 * weightOf x.egress.weights 0 * (u.time - x.egress.b0Filled) + x.egress.b0Rem) / sum)
        1000 * ((q.f.plen.toNat + 2) * 32) ≤ b0 →
        ∃ t, exec (.egressSelect p now) s = .next t ∧ Claims.PortOnly p u t ∧ (t.port p).egress.queue 0 = rest ∧
          (∀ c, 1 ≤ c → c ≤ 4 → (t.port p).egress.queue c = []) ∧ (t.port p).credit 0 = x.credit 0 - (q.f.plen.toNat + 2) ∧
          ((t.port p).txUnits.map fun y => y.bytes) = (x.txUnits.map fun y => y.bytes) ++ q.f.header :: unitsOf (q.f.payload.length / 32) q.f.payload ++ [q.f.tail]) ∧
      (∀ q i, x.egress.sending = some q → q.ingress = some i → (u.port i).retrySince.isSome = true → x.txUnits.length < 19 →
        ∃ t y, exec (.frameStomp p now) s = .next t ∧ Claims.PortOnly p u t ∧ (t.port p).egress.sending = none ∧
          (t.port p).txUnits = x.txUnits ++ [y] ∧ y.bytes = { q.f with stomp := true, crc := ~~~ q.f.goodCrc }.tail ∧
          (t.port p).stompTx = min (x.stompTx + 1) 0xFFFFFFFF ∧
          (t.port p).egress.queue q.f.cls.toNat = { q with again := true } :: x.egress.queue q.f.cls.toNat)) ∧
    (∀ no ident q, ({ s with fab := { s.fab with heldStream := [] } } : State).quiet = true → u.fab.heldStream = [q] → q.f.job = no → q.f.ident = ident →
      q.born + 100000 ≤ u.time → q.ingress = none →
      exec (.steeringTimeout no ident now) s = .next { u with fab := { u.fab with heldStream := [], noTarget := u.fab.noTarget + 1 } })

/-- R387: an echo halves the rate toward a rank, at most once in 8 µs and not below 1,000 MB/s; each 20 µs without one raises it by 2,500 MB/s up
to the line rate of the egress toward the rank, which a rate has after 1 ms without one; the bucket of the rank has filled until then at the old rate. R410: at each multiple of its period an egress samples its queues. R405, R15: a write of a policer's parameter fills both
buckets, on a port that a fuse disables too. R390: a module whose ring and mirror egresses are empty is DRAINED, one that is not after 10 ms says so once. -/
def Obligations.CongestionIsAnswered : Prop :=
  ∀ (s : State) (now : Nat), s.quiet = true →
    let u := s.advanceTo now
    (∀ no rank, let e₀ := Table.get EcnRate.reset (no.toNat * 4096 + rank.toNat) u.fab.ecn
      let line := u.lineTo no rank
      let e := { e₀ with bucket := fillBucket 8192000 (min e₀.rate line) e₀.bucket (u.time - e₀.filled), filled := u.time }
      let gives := fun (i : Instr) (n : Nat) (e' : EcnRate) => exec i s = .next { u with fab := { u.fab with
        ecn := Table.set EcnRate.reset (no.toNat * 4096 + rank.toNat) e' u.fab.ecn, echoRx := u.fab.echoRx + n } }
      (e.reduced = 0 ∨ e.reduced + 8000 ≤ u.time →
        gives (.ecnEcho no rank now) 1 { e with rate := max (min e.rate line / 2) 1000, reduced := u.time, lastEcho := u.time, raised := u.time }) ∧
      (e.reduced ≠ 0 → u.time < e.reduced + 8000 → gives (.ecnEcho no rank now) 1 { e with lastEcho := u.time, raised := u.time }) ∧
      (e.lastEcho + 1000000 ≤ u.time → gives (.ecnRateStep no rank now) 0 { e with rate := line, raised := u.time }) ∧
      (u.time < e.lastEcho + 1000000 → e.raised + 20000 ≤ u.time →
        gives (.ecnRateStep no rank now) 0 { e with rate := min (e.rate + 2500) line, raised := u.time })) ∧
    (∀ p, s.hasPort p = true →
      (u.time % (256 * max 1 (u.port p).egress.period.toNat) = 0 → ∃ t, exec (.queueSample p now) s = .next t ∧
        t = u.setPort p { u.port p with egress := { (u.port p).egress with qs := (t.port p).egress.qs } } ∧
        ∀ c < 5, let q := Table.get ⟨0, 0, 0, 0, 0⟩ c (u.port p).egress.qs
          let depth := queueUnits ((u.port p).egress.queue c)
          let delay := match (u.port p).egress.queue c with | y :: _ => u.time - y.born | [] => 0
          Table.get ⟨0, 0, 0, 0, 0⟩ c (t.port p).egress.qs =
            ⟨q.samples + 1, q.depthSum + depth, q.delaySum + delay, min 0xFFFFFFFF (max q.depthMax depth), min 0xFFFFFFFF (max q.delayMax delay)⟩) ∧
      (u.time % (256 * max 1 (u.port p).egress.period.toNat) ≠ 0 → exec (.queueSample p now) s = .next (u.setPort p (u.port p)))) ∧
    (∀ p cls par v, ∃ t, exec (.policerParamWrite p cls par v now) s = .next t ∧ t = { u.setPort p (t.port p) with hub := t.hub } ∧
        let i := match cls with | .c2 => 0 | .c3 => 1 | .c4 => 2
        let q := Table.get Policer.reset i (u.port p).egress.policers
        let q' := Table.get Policer.reset i (t.port p).egress.policers
        q'.cir = (if par = .cir then v else q.cir) ∧ q'.pir = (if par = .pir then v else q.pir) ∧ q'.cbs = (if par = .cbs then v else q.cbs) ∧
        q'.pbs = (if par = .pbs then v else q.pbs) ∧ q'.tc = 1000 * q'.cbs.toNat ∧ q'.tp = 1000 * q'.pbs.toNat ∧ q'.filled = u.time) ∧
    (u.fab.st = .draining →
      ((∀ p : Port, 2 ≤ (u.port p).role.toNat → (∀ c < 5, (u.port p).egress.queue c = []) ∧ (u.port p).egress.sending = none ∧ (u.port p).txUnits = [] ∧
          (u.port p).retryBuf = []) →
        (∀ p, ∀ l ∈ (u.port p).lookups, l.looked = false → ∀ q, Dest.port q ∈ u.dests (some p) l.f → (u.port q).role.toNat < 2) → exec (.drained now) s = .next { u with fab := { u.fab with st := .drained } }) ∧
      (u.fab.drainTold = false → u.fab.drainAt + 10000000 ≤ u.time → ∃ t, exec (.drainTimeout now) s = .next t ∧
        t = { u with fab := { u.fab with drainTold := true }, hub := t.hub } ∧ t.hub.eventSeq = u.hub.eventSeq + 1 ∧
        (t.hub.events.getLast?.map fun e => e.code) = some Code.drainTimeout))

/-- R15, R392, R414, R452 to R454: a write of a read-write register, also one of a disabled port (R7), changes what a read of it returns to the
value, of which it keeps the bits of its field; a write of a read-only register changes nothing; writing 1 to a done bit clears it, and an argument of a mailbox that is not BUSY
takes its word. -/
def Obligations.RegistersReadBack : Prop :=
  ∀ (s : State) (v : Word), s.quiet = true →
    let holds := fun (a : BitVec 32) (shown : Word) => ∃ t, exec (.registerWrite a v) s = .next t ∧
      t = { s with fab := t.fab, ports := t.ports, dies := t.dies, hub := t.hub } ∧ t.readReg a.toNat = shown
    (∃ t, exec (.registerWrite 0x10010 v) s = .next t ∧ t = { s with fab := { s.fab with ecnThresh := v } } ∧ t.readReg 0x10010 = v) ∧
    holds 0x10014 (v &&& 0xFFFF) ∧ holds 0x10018 (v &&& 0xFFFF) ∧ holds 0x1001C (v &&& 0xFFFF) ∧
    (∀ p : Port, s.hasPort p = false → holds (BitVec.ofNat 32 (0x10000000 * (p.toNat / 16 + 1) + 0x400004 + 256 * (p.toNat % 16))) (v &&& 1)) ∧
    (∀ p : Port,
      let a := BitVec.ofNat 32 (0x10000000 * (p.toNat / 16 + 1) + 0x500000 + 512 * (p.toNat % 16))
      holds (a + 0x14) (v &&& 0xFFFF) ∧ holds (a + 0x90) (v &&& 0xFF) ∧
      holds (a + 0x20) v ∧ holds (a + 0x4C) v ∧ holds (a + 0x60) v) ∧
    (∀ a : BitVec 32, a.toNat < 0x10000 ∨ (0x20000 ≤ a.toNat ∧ a.toNat < 0x40000) → exec (.registerWrite a v) s = .next s) ∧
    (∀ (d : Die) (k i : Nat), k < 16 → i < 28 → (Table.get Mailbox.reset k (s.die d).mbx).status ≠ Code.busy → (s.die d).inReset = false →
      holds (BitVec.ofNat 32 (0x10000000 * (d.toNat + 1) + 256 * k + 0x10 + 4 * i)) v) ∧
    (∀ (d : Die) (mask : BitVec 16),
      exec (.mbxDoneClear d mask) s = .next (s.setDie d { s.die d with done := (s.die d).done &&& ~~~ mask }) ∧
      exec (.registerWrite (BitVec.ofNat 32 (0x10000000 * (d.toNat + 1) + 0x1000)) (mask.setWidth 32)) s =
        .next (s.setDie d { s.die d with done := (s.die d).done &&& ~~~ mask }))

/-- R419, R420, R423, R427, R428: a READ that a window allows is answered with its line and status 0, in a combining window once its entry closes,
with one read for all readers; a WRITE replaces its line and is answered; a refused request gets its status and touches no memory. A WRITE to loaded code is refused
with DENIED (R159; the status is the model's choice, log entry 121). R432: a
reply, or none for 1 ms, ends the remote access of a control processor. -/
def Obligations.RequestsAreServed : Prop :=
  ∀ (s : State) (now : Nat) (d : Die), s.quiet = true →
    let u := s.advanceTo now
    (∀ f : Frame, u.behind (.mem d) f = true ∨ u.pstHolds f = true → exec (.memReq d f now) s = .next u) ∧
    (∀ (f : Frame) e, u.behind (.mem d) f = false → u.pstHolds f = false → u.memNoRanks f.job = false → (u.job f.job).proofRole = 0 → u.rankEntry f.job f.srcRank.toNat = some e →
      let op := f.detail.toNat / 2 ^ 12 % 16
      let n := memWindow f
      let b := u.unbox (.mem d) f
      let good := (op = 1 ∧ f.plen = 0 ∧ f.inc = 0 ∨ op = 2 ∧ f.plen = 4) ∧ f.offset.toNat % 128 = 0 ∧ f.fmt = 0
      let replies := fun (v : State) (status : Nat) (line : List Byte) => ∃ g : Frame, v.fab = { b.fab with selfEgress := [g], nextUid := v.fab.nextUid } ∧ g.kind = 7 ∧ g.cls = 2 ∧
        g.ident = f.ident ∧ g.offset = f.offset ∧ g.transfer = f.transfer ∧ g.dstModule = e.module ∧ g.payload = line ∧
        g.detail.toNat = f.detail.toNat % 65536 + 65536 * status
      (∀ w, good → u.window n = some w → w.job = f.job → f.offset.toNat + 128 ≤ w.size → u.armed = [] → u.badWords = [] → u.weakWords = [] →
        let a := w.base.toNat + f.offset.toNat
        (op = 1 → w.rd = true → w.combine = false → ∃ v, exec (.memReq d f now) s = .next (State.dispatchOwn v) ∧
          v = { b with dies := v.dies, fab := v.fab } ∧ (v.die d).memReads = (u.die d).memReads + 1 ∧ (v.die d).memRefused = (u.die d).memRefused ∧
          replies v 0 (u.read a 128)) ∧
        (op = 1 → w.rd = true → w.combine = true → (u.die d).combines = [] →
          let cap := max 1 (u.margin.capApplied.getD d.toNat 85)
          exec (.memReq d f now) s = .next (b.setDie d { u.die d with
            combines := [⟨w.job, w.number, f.offset, [f], u.time + (6400 + cap - 1) / cap⟩] })) ∧
        (op = 2 → w.wr = true → (u.job f.job).st ≠ .stopped → u.pair.st ≠ .fenced → u.inCode a 128 = false → (u.die d).combines = [] → f.payload.length = 128 →
          ∃ v, exec (.memReq d f now) s = .next (State.dispatchOwn v) ∧ v = { b with mem := v.mem, dies := v.dies, fab := v.fab } ∧
            (v.die d).memWrites = (u.die d).memWrites + 1 ∧ replies v 0 [] ∧
            ∀ x, Memory.read x v.mem = if a ≤ x ∧ x < a + 128 then f.payload.getD (x - a) 0 else Memory.read x u.mem)) ∧
      (f.sig = false →
        let status := if ¬ good then 7 else match u.window n with
          | none => 1
          | some w => if w.job ≠ f.job then 2 else if w.size < f.offset.toNat + 128 then 3
            else if op = 1 ∧ w.rd = false ∨ op = 2 ∧ w.wr = false then 4
            else if op = 2 ∧ u.inCode (w.base.toNat + f.offset.toNat) 128 = true then 4
            else if op = 2 ∧ ((u.job f.job).st = .stopped ∨ u.pair.st = .fenced) then 5 else 0
        status ≠ 0 → ∃ v, exec (.memReq d f now) s = .next (State.dispatchOwn v) ∧ v = { b with dies := v.dies, fab := v.fab } ∧
          (v.die d).memRefused = (u.die d).memRefused + 1 ∧ replies v status [])) ∧
    (∀ n off w (c : Combine), u.window n = some w → (u.die d).combines = [c] → c.job = w.job → c.window = w.number → c.offset = off → c.closes ≤ u.time →
      u.armed = [] → u.badWords = [] → u.weakWords = [] → (∀ r ∈ c.readers, (u.job r.job).proofRole = 0 ∧ (u.rankEntry r.job r.srcRank.toNat).isSome = true) →
      ∃ v : State, exec (.combineClose d n off now) s = .next (State.dispatchOwn v) ∧ v = { u with dies := v.dies, fab := v.fab } ∧ (v.die d).combines = [] ∧
        v.fab = { u.fab with selfEgress := v.fab.selfEgress } ∧ v.fab.selfEgress.length = c.readers.length ∧
        ∀ (i : Nat) (g r : Frame), v.fab.selfEgress[i]? = some g → c.readers[i]? = some r → g.payload = u.read (w.base.toNat + off.toNat) 128 ∧ g.ident = r.ident) ∧
    (∀ x, (u.die d).remote = [x] → (u.die d).going = [] → x.msg.path = .internal → Msg.die x.msg = d → actsOnDies x.code = false →
      let ends := fun (i : Instr) (b : State) (status : BitVec 16) (detail : Byte) (res : List Word) => ∃ t, exec i s = .next t ∧
        t = { b with dies := t.dies, outbox := u.outbox ++ [.reply x.code status x.msg.seq detail res] } ∧ (∀ q, q ≠ d → t.die q = u.die q) ∧
        (16 ≤ x.mbx → t.die d = { u.die d with remote := [] }) ∧
        (x.mbx < 16 → t.die d = { u.die d with
            remote := [], mbx := (t.die d).mbx, busy := (u.die d).busy &&& ~~~ (1#16 <<< x.mbx), done := (u.die d).done ||| (1#16 <<< x.mbx) } ∧
          let y := Table.get Mailbox.reset x.mbx (t.die d).mbx
          y.status = status ∧ y.detail = detail ∧ y.owned = false ∧ ∀ n < 32, Table.get 0 n y.res = res.getD n 0)
      (∀ f, f.ident = x.tag → u.behind (.die d) f = false → ends (.memReply d f now) (u.unbox (.die d) f) Code.ok (f.detail.extractLsb' 16 8)
        (if f.detail.extractLsb' 16 8 = 0 then wordsOf (f.payload.length / 4) f.payload else [])) ∧
      (x.sent + 1000000 ≤ u.time → ends (.memTimeout d x.tag now) u Code.memTimeout 0 []))

/-- R439 to R445: a refresh slot takes place once in an interval for its bank, a sixteenth of it apart in its channel (in whole ns: the model's
choice, log entry 125); it blocks its bank for 120 ns and moves the bank's scrub on by a line; a corrected word counts for its stack; an
uncorrectable one is kept as such, recorded and reported, at this and at each later scrub. -/
def Obligations.RefreshSlotsScrub : Prop :=
  ∀ (s : State) (now : Nat) (stack : BitVec 5) (channel bank : BitVec 4), s.quiet = true →
    let u := s.advanceTo now
    let k := stack.toNat
    let key := channel.toNat * 16 + bank.toNat
    let line := Table.get 0 key (u.stack k).scrubNext
    let o := dramOffset channel.toNat (line / 16 * 32768 + bank.toNat * 2048 + line % 16 * 128)
    let row := ((dramMap o).1 * 16 + (dramMap o).2.1) * 262144 + (dramMap o).2.2.1
    let slot := { u.stack k with
      blocked := Table.set 0 key (u.time + 120) (u.stack k).blocked, scrubNext := Table.set 0 key (line + 1) (u.stack k).scrubNext
      slotLast := Table.set 0 key (u.time + 1) (u.stack k).slotLast }
    let a := 2 ^ 62 + k * 2 ^ 37 + o
    let gap := if (u.stack k).hot then 1950 else 3900
    let spent := fun (n gap : Nat) => Table.get 0 n (u.stack k).slotLast = 0 ∨ Table.get 0 n (u.stack k).slotLast - 1 + gap ≤ u.time
    let due := spent key gap ∧ ∀ b < 16, spent (channel.toNat * 16 + b) (gap / 16)
    (¬ due → ∀ f, exec (.refreshSlot stack channel bank f now) s = .next u) ∧
    (due → line + 1 < bankLines bank.toNat → (u.stack k).passes.length < 256 → a + 64 ∉ u.badWords → a + 64 ∉ u.weakWords →
    (a ∉ u.badWords → a ∉ u.weakWords → ∃ t, exec (.refreshSlot stack channel bank ⟨.clean, .clean⟩ now) s = .next t ∧ t = { u with dies := t.dies } ∧ t.stack k = slot) ∧
    (a ∉ u.badWords → Table.get 0 row (u.stack k).rowCounts + 1 < 16 →
      ∀ f, f = .corrected ∨ f = .clean ∧ a ∈ u.weakWords → ∃ t, exec (.refreshSlot stack channel bank ⟨f, .clean⟩ now) s = .next t ∧
        t = { u with dies := t.dies, weakWords := u.weakWords.filter fun w => decide (w ≠ a) } ∧
        t.stack k = { slot with
          corrected := slot.corrected + 1, rowCounts := Table.set 0 row (Table.get 0 row slot.rowCounts + 1) slot.rowCounts }) ∧
    (Claims.Calm u → ∀ f, f = .uncorrectable ∨ a ∈ u.badWords → ∃ t, exec (.refreshSlot stack channel bank ⟨f, .clean⟩ now) s = .next t ∧
      t = { u with dies := t.dies, badWords := t.badWords, hub := t.hub, pair := { u.pair with lastTrig := some u.time } } ∧
      a ∈ t.badWords ∧ (t.stack k).uncorrectable = min (slot.uncorrectable + 1) 0xFFFFFFFF ∧
      t.hub.eventSeq = u.hub.eventSeq + 1 ∧ (t.hub.events.getLast?.map fun e => (e.code, e.unit)) = some (Code.dramUncorrectable, stack.setWidth 16) ∧
      ((t.die (BitVec.ofNat 2 (k / 8))).memFaults.getLast?.map fun r => (r.stack, r.scrub)) = some (stack, true)))

namespace Sys2Proof.Claims

/-- A job of u that runs and holds nothing whose end is seen elsewhere: no impression, no counter, no barrier. -/
def Alone (no : JobNo) (u : State) : Prop :=
  no ≠ 0 ∧ Rising u ∧ (u.job no).st = .running ∧ (∀ e ∈ u.clusters, e.2.job ≠ no) ∧
    (∀ e ∈ u.engines, e.2.ctxs = [] ∧ e.2.queue = [] ∧ e.2.pacorWait = []) ∧ (∀ p, (u.job no).plate = some p → p.barriers = []) ∧
    u.countersOf no = []

/-- t is u after the job has been stopped with a code: what changes besides the job is its waiting requests and moves, the marker for the
meter, the event of the stop, and the fabric part given (R459, R498, R521). -/
def Stopped (no : JobNo) (code : BitVec 16) (detail : Word) (b : Fabric) (u t : State) : Prop :=
  t = { u with clusters := t.clusters, dies := t.dies, jobs := t.jobs, hub := t.hub, meter := t.meter, fab := b
               outbox := u.outbox ++ (if u.margin.hubOn then [.marker false false no] else []) } ∧
    (t.job no).st = .stopped ∧ (t.job no).reason = code ∧ (t.job no).endTime = u.time ∧ t.hub.eventSeq = u.hub.eventSeq + 1 ∧
    (t.hub.events.getLast?.map fun e => (e.code, e.job, e.detail)) = some (code, no, detail)

/-- t is u but for one more event in the log, and what is named. -/
def Logs (code : BitVec 16) (recStart recEnd : Bool) (u t : State) : Prop :=
  t.hub = { u.hub with events := t.hub.events, eventSeq := u.hub.eventSeq + 1 } ∧
    (t.hub.events.getLast?.map fun e => (e.code, e.recStart, e.recEnd, e.time)) = some (code, recStart, recEnd, u.time)

/-- One pair frame of a subkind stands on its way to the partner (R506). -/
def Sends (sub cls : Nat) (no : JobNo) (detail : DWord) (off : Word) (b : Fabric) (u v : State) : Prop :=
  ∃ g : Frame, v.fab = { b with selfEgress := [g] } ∧ g.kind = 8 ∧ g.cls.toNat = cls ∧ g.job = no ∧ g.ident.toNat = sub ∧ g.detail = detail ∧
    g.offset = off ∧ g.plen = 0 ∧ some g.dstModule = u.partner

end Sys2Proof.Claims

/-- R324, R327 to R329: an entry of the partner waits on its die for the own entry of its key; an equal one is counted and leaves with it. An entry
that differs in a field other than state, and an own entry that is alone for 10 ms, stop the job with PROOF_DIVERGED, write the report
and tell the partner; a notice of the partner stops the job as well: its report says missing where the own entry equals the partner's or there is
none. The twin delivers a forwarded frame to the unit that it names. -/
def Obligations.SignaturesAreCompared : Prop :=
  ∀ (s : State) (now : Nat) (d : Die) (e : SigEntry),
    let u := s.advanceTo now
    let x := u.die d
    (s.quiet = true → x.sigPartner = [] →
      exec (.signatureBatch d [e] now) s = .next (u.setDie d { x with sigPartner := [⟨e, 0, u.time, true, false⟩] })) ∧
    (∀ o : SigHeld, ((s.setDie d { s.die d with sigOwn := [] }) : State).quiet = true → x.sigOwn = [o] → o.sent = true → x.sigPartner = [] →
      let j := u.job o.job
      let agrees := o.e.object = e.object ∧ o.e.crc = e.crc ∧ o.e.bytes = e.bytes
      let report := fun (missing : Bool) (crc : DWord) => some (⟨o.job, missing, false, o.inj, o.e, crc, u.time, 0, j.cleanCmp⟩ : DivReport)
      let tells := fun (i : Instr) (rep : Option DivReport) => ∀ m, u.partner = some m → Claims.Alone o.job u → ∃ v, exec i s = .next (State.dispatchOwn v) ∧
        Claims.Stopped o.job Code.proofDiverged o.e.key.impression v.fab u v ∧ (v.job o.job).report = rep ∧
        ∃ g : Frame, v.fab = { u.fab with selfEgress := [g] } ∧ g.kind = 8 ∧ g.job = o.job ∧ g.dstModule = m
      (o.e.key = e.key → agrees → Claims.Rising u → o.job ≠ 0 → j.no = o.job → ∃ t, exec (.signatureBatch d [e] now) s = .next t ∧
        t = { u with dies := t.dies, jobs := t.jobs } ∧ (∀ q, t.die q = if q = d then { x with sigOwn := [] } else u.die q) ∧
        t.job o.job = { j with cleanCmp := min (j.cleanCmp + 1) 0xFFFFFFFF }) ∧
      (o.e.key = e.key → ¬ agrees → tells (.signatureBatch d [e] now) (report false e.crc)) ∧
      (o.e.key ≠ e.key → exec (.signatureBatch d [e] now) s = .next (u.setDie d { x with sigPartner := [⟨e, 0, u.time, true, false⟩] })) ∧
      (o.time + 10000000 ≤ u.time → tells (.signatureMissing d o.e.key now) (report true 0)) ∧
      (u.time < o.time + 10000000 → exec (.signatureMissing d o.e.key now) s = .next u) ∧
      ((u.job o.job).proofRole ≠ 0 → o.e.key = e.key → (∀ q, q ≠ d → (u.die q).sigOwn = []) → Claims.Alone o.job u →
        ∃ t, exec (.divergenceNotice o.job e now) s = .next t ∧ Claims.Stopped o.job Code.proofDiverged e.key.impression u.fab u t ∧
          (t.job o.job).report = some ⟨o.job, decide agrees, true, o.inj, o.e, if agrees then 0 else e.crc, u.time, 0, j.cleanCmp⟩)) ∧
    (s.quiet = true → ∀ no, (u.job no).proofRole ≠ 0 → (∀ q, (u.die q).sigOwn = []) → Claims.Alone no u →
      ∃ t, exec (.divergenceNotice no e now) s = .next t ∧ Claims.Stopped no Code.proofDiverged e.key.impression u.fab u t ∧
        (t.job no).report = some ⟨no, true, true, false, { e with crc := 0, state := 0xFFFFFFFF }, 0, u.time, 0, (u.job no).cleanCmp⟩) ∧
    (s.quiet = true → ∀ no, (u.job no).proofRole = 0 → exec (.divergenceNotice no e now) s = .next u) ∧
    (s.quiet = true → ∀ (p : Port) (f : Frame), s.hasPort p = true → u.behind .pair f = false →
      let b := u.unbox .pair f
      let g := { f with dstModule := u.fab.module, dstPort := 0x3F }
      ((u.job f.job).proofRole ≠ 2 → exec (.proofForwardFrame p f now) s = .next b) ∧
      ((u.job f.job).proofRole = 2 → f.kind = 4 → f.cls = 1 → f.ecn = false → (∀ y ∈ b.fab.inbox, y.1 ≠ .die f.counter.die) →
        exec (.proofForwardFrame p f now) s = .next { b with fab := { b.fab with
          inbox := b.fab.inbox ++ [(.die f.counter.die, ⟨b.fab.nextUid, g, u.time, false, none, true, false, none, false, 0, false⟩)]
          nextUid := b.fab.nextUid + 1 } }))

/-- R506, R509, R510, R516, R520: the bytes of a mirrored move are staged for their state and acknowledged, the hold range as it was; a SEAL
makes the staged bytes of its state the image, gives the range its number and is acknowledged, also where a resync seals a range of a job
that has not started; the last acknowledgement of a move lets its
increment apply, that of a SEAL adds 1 to sealed_counter; RESTORE_DATA is written over the image. A fenced module discards them (R518). -/
def Obligations.MirroredUpdatesReachThePartner : Prop :=
  ∀ (s : State) (now : Nat) (f : Frame), ({ s with pair := { s.pair with seals := [] } } : State).quiet = true → s.badWords = [] → s.weakWords = [] → s.armed = [] →
    let u := s.advanceTo now
    let b := u.unbox .pair f
    u.behind .pair f = false →
    let shard : Word := f.detail.setWidth 32
    let st : Word := (f.detail >>> 32).setWidth 32
    (u.pair.st = .fenced → u.pair.restoring = false → u.pair.resyncLeft = [] →
      ∀ i ∈ [Instr.mirrorData f now, .mirrorAck f now, .seal f now, .sealAck f now, .restoreData f now], exec i s = .next b) ∧
    (∀ h m, u.pair.st ≠ .fenced → u.pair.seals = [] → u.partner = some m → u.pair.holds = [h] → h.job = f.job → h.shard = shard →
      ((h.staged.map fun e => e.2.2.length).sum + f.payload.length ≤ 1048576 * h.grans.length → ∃ v, exec (.mirrorData f now) s = .next (State.dispatchOwn v) ∧
        v = { b with fab := v.fab, pair := { u.pair with holds := [{ h with staged := h.staged ++ [(st, f.offset.toNat, f.payload)] }] } } ∧
        Claims.Sends 2 1 f.job f.detail f.offset b.fab u v) ∧
      (∀ off bs, h.staged = [(st, off, bs)] ∨ h.staged = [] ∧ bs = [] →
        ∃ v, exec (.seal f now) s = .next (State.dispatchOwn v) ∧
          v = { b with mem := v.mem, dies := v.dies, fab := v.fab, pair := { u.pair with holds := [{ h with st := st, staged := [], grans := [] }] } } ∧
          Claims.Sends 4 1 f.job f.detail 0 b.fab u v ∧
          ∀ a, Memory.read a v.mem =
            if h.base.toNat + off ≤ a ∧ a < h.base.toNat + off + bs.length then bs.getD (a - (h.base.toNat + off)) 0 else Memory.read a u.mem)) ∧
    (∀ n p m, u.pair.st ≠ .fenced → u.pair.seals = [] → u.partner = some n → u.pair.holds = [] → (u.job f.job).plate = some p → p.mirrorOf shard = some m →
      m.hold = true → ∃ v, exec (.seal f now) s = .next (State.dispatchOwn v) ∧
        v = { b with fab := v.fab, pair := { u.pair with holds := [⟨f.job, shard, m.base, m.length, st, [], []⟩] } } ∧ Claims.Sends 4 1 f.job f.detail 0 b.fab u v) ∧
    (∀ p m, u.pair.st ≠ .fenced → u.pair.seals = [] → (u.job f.job).plate = some p → p.mirrorOf shard = some m →
      f.offset.toNat + f.payload.length ≤ m.length → m.hold = true ∨ (u.job f.job).st = .stopped →
      ∃ t, exec (.restoreData f now) s = .next t ∧ t = { b with mem := t.mem, dies := t.dies } ∧
        ∀ a, Memory.read a t.mem = if m.base.toNat + f.offset.toNat ≤ a ∧ a < m.base.toNat + f.offset.toNat + f.payload.length then
          f.payload.getD (a - (m.base.toNat + f.offset.toNat)) 0 else Memory.read a u.mem) ∧
    (∀ m, u.pair.st = .paired → u.pair.seals = [⟨f.job, shard, st⟩] → u.mirrorSource f.job shard = some m → Claims.Takes m.sealed f.job 1 u →
      ∃ t, exec (.sealAck f now) s = .next t ∧ t = { b with dies := t.dies, pair := { u.pair with seals := [] } } ∧ Claims.Counted m.sealed 1 u t) ∧
    (u.pair.st = .resync → u.pair.seals = [] → u.pair.shadows = [] → u.pair.resyncLeft = [shard] →
      ∃ t, exec (.sealAck f now) s = .next t ∧ t = { b with hub := t.hub, pair := { u.pair with st := .paired, resyncLeft := [] } } ∧
        Claims.Logs Code.resyncDone false true u t) ∧
    (∀ c m, u.pair.st = .paired → u.pair.seals = [] → (u.clu c).moves = [m] → (∀ q, q ≠ c → (u.clu q).moves = []) → Table.wf Cluster.reset u.clusters = true →
      (∀ e ∈ u.clusters, e.1 < 256) → m.mirrored = true →
      m.copied = true → m.impr.job = f.job → m.shard = shard →
      (m.acksDue = [f.offset.toNat] → Claims.Takes m.counter f.job m.inc.toNat u →
        ∃ t, exec (.mirrorAck f now) s = .next t ∧ t = { b with clusters := t.clusters, dies := t.dies } ∧
          (∀ q, t.clu q = if q = c then { u.clu c with moves := [] } else u.clu q) ∧ Claims.Counted m.counter m.inc.toNat u t) ∧
      (∀ x, m.acksDue = [f.offset.toNat, x] → exec (.mirrorAck f now) s = .next (b.setClu c { u.clu c with moves := [{ m with acksDue := [x] }] })))

/-- R506, R507, R511 to R517, R522, R524: PAIR_HELLO pairs a module whose heartbeat input is ALIVE and ends a loss; every 1 ms the module sends its own.
Both conditions declare the partner lost, one alone makes it suspect, and a loss during a recovery fences. A complete takeover enters
SOLO. A recovery that lasts 50 ms fails. Events are pushed to the registered address, and a heartbeat every 100 ms; an injected
loss ends at its time. -/
def Obligations.PairStatesMove : Prop :=
  ∀ (s : State) (now : Nat) (f : Frame), s.quiet = true →
    let u := s.advanceTo now
    let heard := { u.pair with lastPair := u.time, partnerSt := f.detail.setWidth 4, suspect := false }
    let gives := fun (i : Instr) (x : Pair) => u.behind .pair f = false → exec i s = .next { u.unbox .pair f with pair := x }
    (u.pair.st = .unpaired → u.margin.hbSt = .alive → gives (.pairHello f now) { heard with st := .paired }) ∧
    (u.pair.st = .partnerLost → (∀ e ∈ u.clusters, ∀ m ∈ e.2.moves, m.mirrored = false) →
      gives (.pairHello f now) { heard with st := .paired, injNotice := false }) ∧
    (u.pair.st ≠ .partnerLost → u.pair.st ≠ .unpaired ∨ u.margin.hbSt ≠ .alive → gives (.pairHello f now) heard) ∧
    (∀ m, u.partner = some m → u.pair.helloAt + 1000000 ≤ u.time → ∃ v, exec (.pairHelloDue now) s = .next (State.dispatchOwn v) ∧
      v = { u with fab := v.fab, pair := { u.pair with helloAt := u.time } } ∧ Claims.Sends 5 1 0 (u.pair.st.code.setWidth 64) 0 u.fab u v) ∧
    (u.time < u.pair.helloAt + 1000000 → exec (.pairHelloDue now) s = .next u) ∧
    gives (.injectNotice f now) { u.pair with
        lastPair := u.time, injNotice := if u.pair.st ≠ .fenced ∧ f.detail.setWidth 16 = Code.partnerLost then true else u.pair.injNotice } ∧
    (let gone := u.margin.hbSt = .lost ∧ ∃ t0, u.pair.hbLostAt = some t0 ∧ t0 + 10000000 ≤ u.time
     let silent := u.pair.lastPair + 10000000 ≤ u.time ∧ ∀ p : Port, (u.port p).role = 6 → (u.port p).lastRx + 10000000 ≤ u.time
     (u.pair.st = .paired → gone → silent → (∀ e ∈ u.jobs, e.2.proofRole = 0) →
       (Claims.Calm u → ∃ t, exec (.partnerLost now) s = .next t ∧
         t = { u with hub := t.hub, pair := { u.pair with st := .partnerLost, lastTrig := some u.time } } ∧ Claims.Logs Code.partnerLost true false u t) ∧
       (u.pair.recovering = true ∨ u.pair.lastTrig = some u.time → u.jobs = [] → ∃ t, exec (.partnerLost now) s = .next t ∧
         t = { u with hub := t.hub, pair := { u.pair with st := .fenced, recUnits := [], restoring := false } } ∧ t.alertLow = u.margin.running ∧
         t.hub.eventSeq = u.hub.eventSeq + 1 ∧ (t.hub.events.getLast?.map fun e => (e.code, e.fenced)) = some (Code.partnerLost, true))) ∧
     (u.pair.st = .paired ∨ u.pair.st = .recovering → (gone ∧ ¬ silent) ∨ (¬ gone ∧ silent) → u.pair.suspect = false → ∃ t, exec (.partnerLost now) s = .next t ∧
       t = { u with hub := t.hub, pair := { u.pair with suspect := true } } ∧ Claims.Logs Code.partnerSuspect false false u t) ∧
     (¬ gone → ¬ silent → exec (.partnerLost now) s = .next u)) ∧
    (u.pair.st = .takeover → u.jobs = [] → u.pair.shadows = [] → (∀ e ∈ u.clusters, ∀ m ∈ e.2.moves, m.mirrored = false) → ∃ t, exec (.takeoverComplete now) s = .next t ∧
      t = { u with hub := t.hub, pair := { u.pair with st := .solo, solo := true } } ∧ Claims.Logs Code.failoverDone false true u t) ∧
    (u.pair.st ≠ .takeover → exec (.takeoverComplete now) s = .next u) ∧
    (∀ p, s.hasPort p = true → u.pair.recUnits = [p.toNat] →
      (u.pair.recoverAt + 50000000 ≤ u.time → ∃ t, exec (.recoveryTimeout p now) s = .next t ∧
        t = { u.setPort p { u.port p with recovery := none, down := !(u.port p).isUp } with
          hub := t.hub, pair := { u.pair with recUnits := [], st := t.pair.st } } ∧
        t.pair.st = (if u.pair.st = .recovering then .paired else u.pair.st) ∧ Claims.Logs Code.recoveryFailed false true u t) ∧
      (u.time < u.pair.recoverAt + 50000000 → exec (.recoveryTimeout p now) s = .next u)) ∧
    (∀ ws, u.settings.fmAddr = some ws → u.margin.hubOn = true → u.margin.hubHeld = false → u.hub.recovery = false →
      let es := (u.hub.events.filter fun e => u.pair.pushedSeq < e.seq).take 3
      (es ≠ [] ∨ u.pair.lastPush + 100000000 ≤ u.time → exec (.eventPush now) s = .next { u with
        outbox := u.outbox ++ [.datagram false (fmTarget ws).1 (fmTarget ws).2 (u.pushBytes es)]
        pair := { u.pair with lastPush := u.time, pushedSeq := (es.getLast?.map fun e => e.seq).getD u.pair.pushedSeq } }) ∧
      (es = [] → u.time < u.pair.lastPush + 100000000 → exec (.eventPush now) s = .next u)) ∧
    (∀ t0, u.pair.injectLoss = some t0 →
      (t0 ≤ u.time → ∃ t, exec (.injectedPartnerLossEnd now) s = .next t ∧ t = { u with ports := t.ports, pair := { u.pair with injectLoss := none } } ∧
        ∀ p, t.port p ≠ u.port p → (u.port p).role = 6 ∧ (u.port p).disable = false ∧ (u.port p).phase = .disabled ∧ (t.port p).phase = .detect ∧ (t.port p).down = false) ∧
      (u.time < t0 → exec (.injectedPartnerLossEnd now) s = .next u))

namespace Sys2Proof.Claims

/-- A sample at which no trip condition of R481 comes closer: power, voltages and temperatures are in their limits. -/
def Inside (m : Sample) (u : State) : Prop :=
  m.vin * m.iin < 800 * 100000 ∧ 4700 ≤ m.vin ∧ m.vin ≤ 6200 ∧ m.hubTemp < 8 * 110 ∧ (∀ k < 32, -32768 ≤ m.stackTemps.getD k 0 ∧ m.stackTemps.getD k 0 < 8 * 108) ∧
    (∀ d : Die, u.dieTempNow d < 8 * 108) ∧ (∀ d < 4, m.vcore.getD d 0 ≤ u.margin.vset.getD d 0 + 50 ∧ u.margin.vset.getD d 0 ≤ m.vcore.getD d 0 + 50) ∧
    u.margin.pfRun < 99

/-- Every die is in reset until the power-up releases it, its mailboxes at their reset state (R456, R477). -/
def Held (t : State) : Prop :=
  ∀ d : Die, (t.die d).inReset = true ∧ (t.die d).held = true ∧ (t.die d).mbx = [] ∧ (t.die d).busy = 0 ∧ (t.die d).going = [] ∧ (t.die d).remote = []

/-- The quadrant dies have lost what they held: each die is in reset, each cluster keeps the temperature that is read of it, and no more (R478). -/
def Powerless (t : State) : Prop :=
  Held t ∧ ∀ c, ∃ temp, t.clu c = { Cluster.reset with temp := temp }

/-- The time unit of t has entered a state; nothing else but the given margin record and the event log has changed. -/
def TimeUnit (x : Margin) (st : TimeSt) (code : Option (BitVec 16)) (u t : State) : Prop :=
  t = { u with hub := t.hub, margin := { x with timeSt := st, lockedOnce := u.margin.lockedOnce || st == .locked } } ∧
    match code with
    | some c => ∃ e ∈ t.hub.events, e.code = c ∧ e.time = u.time
    | none => t.hub = u.hub

end Sys2Proof.Claims

/-- R475, R480 to R483, R487: at a sample the input, the power and the temperatures are taken; a trip comes first and takes the rails of the quadrant
dies and with TRIP_VIN_HIGH the hub's, then VIN_LOW, which starts a power-down; in ON the caps move by one step and the cap of a die is
the lowest of three. The heartbeat input is classified, and lost after 100 samples without an edge. -/
def Obligations.SamplesAreJudged : Prop :=
  ∀ (s : State) (now : Nat) (m : Sample), s.quiet = true →
    let u := s.advanceTo now
    let x := u.margin
    let power := m.vin * m.iin
    let pins := (x.pins ++ [power]).drop (x.pins.length - 9)
    let sum := pins.foldl (· + ·) 0
    let edges := (x.hbEdges ++ [m.hbEdges]).drop (x.hbEdges.length - 108)
    let last := edges.reverse.take 100
    (x.running = false → exec (.marginSample m now) s = .next u) ∧
    (x.running = true → x.power = .on → Claims.Inside m u → u.jobs = [] ∨ u.pair.st = .unpaired →
      ∃ t, exec (.marginSample m now) s = .next t ∧ t = { u with dies := t.dies, margin := t.margin, hub := t.hub, pair := t.pair } ∧
        t.margin.power = .on ∧ t.margin.vin = m.vin ∧ t.margin.pin = power * 8 / 100000 ∧ t.margin.pins = pins ∧ t.margin.vcore = m.vcore ∧
        t.margin.hbEdges = edges ∧ (∀ d : Die, t.margin.dieTemp.getD d.toNat 0 = u.dieTempNow d) ∧
        (∀ k < 32, ((t.stack k).temp.toInt = m.stackTemps.getD k 0) ∧ (t.stack k).hot = decide (8 * 85 < m.stackTemps.getD k 0)) ∧
        t.margin.powerCap = (if 700 * 100000 ≤ power then 85 else if 600 * 100000 * pins.length < sum then max 85 (x.powerCap - 1)
          else if sum < 592 * 100000 * pins.length ∧ 99 ≤ x.coolRun ∧ 9 ≤ x.capUpWait then min 145 (x.powerCap + 1) else x.powerCap) ∧
        (∀ d : Die, let c := x.capThermal.getD d.toNat 145
          t.margin.capThermal.getD d.toNat 145 = (if x.hotWait.getD d.toNat 0 < 9 then c else if 8 * 100 ≤ u.dieTempNow d then max 85 (c - 1)
            else if u.dieTempNow d ≤ 8 * 97 ∧ 99 ≤ x.coldRun.getD d.toNat 0 then min 145 (c + 1) else c) ∧
          t.margin.capApplied.getD d.toNat 0 = if (x.ramps.any fun r => r.1 == d.toNat) then 85 else
            min t.margin.powerCap (min (t.margin.capThermal.getD d.toNat 145) (x.capMax.getD d.toNat 145))) ∧
        (last.length = 100 → (∀ e ∈ last, e = 0) → t.margin.hbSt = .lost ∧
          t.margin.hbLost = if x.hbSt = .lost then x.hbLost else min (x.hbLost + 1) 0xFFFFFFFF) ∧
        (20 < (edges.reverse.take 10).foldl (· + ·) 0 → t.margin.hbSt = .noisy)) ∧
    (∀ code, x.running = true → x.power ≠ .tripped →
      code = (if 800 * 100000 ≤ power then Code.tripOvercurrent else Code.tripVinHigh) → 800 * 100000 ≤ power ∨ 6200 < m.vin →
      ∃ t, exec (.marginSample m now) s = .next t ∧
        t = { u with outbox := t.outbox, mem := [], staging := [], badWords := [], weakWords := [], clusters := t.clusters, engines := [], dies := t.dies, bars := [], jobs := t.jobs
                     shards := [], windows := [], armed := [], ports := t.ports, fab := t.fab, pair := t.pair, margin := t.margin, meter := t.meter, hub := t.hub
                     hatchJobs := t.hatchJobs } ∧
        t.margin.power = .tripped ∧ t.alertLow = true ∧ t.margin.tripLast = code ∧ t.margin.dramOn = false ∧ t.margin.coreOn = false ∧ t.hbPin = some false ∧
        t.margin.hubOn = (x.hubOn && code != Code.tripVinHigh) ∧ t.margin.tripOn = code ∧ t.margin.downCause = 0 ∧ Claims.Powerless t ∧
        ((t.margin.trips.getLast?.map fun r => (r.code, r.unit, r.vin.toNat)) = some (code, 0xF, m.vin % 65536)) ∧
        (code = Code.tripOvercurrent → Claims.Rising u → ∀ no, no ≠ 0 → (u.job no).st ≠ .none → (t.job no).st = .stopped ∧ (t.job no).reason = code)) ∧
    (x.running = true → x.power = .tripped → x.tripConds = [] → 800 * 100000 ≤ power → u.pair.st = .unpaired → ∃ t, exec (.marginSample m now) s = .next t ∧
      t.margin.power = .tripped ∧ t.margin.tripLast = Code.tripOvercurrent ∧ t.margin.tripOn = x.tripOn ∧ t.mem = u.mem ∧ t.jobs = u.jobs ∧ t.clusters = u.clusters ∧
      (t.margin.trips.getLast?.map fun r => r.code) = some Code.tripOvercurrent) ∧
    (x.running = true → x.power = .on ∨ x.power = .powering → x.pfRun < 99 → power < 800 * 100000 → m.vin < 4700 → 9 ≤ x.lowRun → u.jobs = [] →
      (∀ n ∈ x.vcoreRun, n < 9) → (∀ n ∈ x.thermRun, n < 2) → (∀ d : Die, (u.die d).going = [] ∧ (u.die d).remote = []) →
      ∃ t, exec (.marginSample m now) s = .next t ∧
        t = { u with clusters := t.clusters, dies := t.dies, ports := t.ports, fab := t.fab, margin := t.margin, hub := t.hub, pair := t.pair } ∧
        t.margin.power = .poweringDown ∧ t.margin.downTo = .hubUp ∧ t.margin.downCause = Code.vinLow ∧ t.margin.hbOut = false ∧ Claims.Held t ∧
        ∃ e ∈ t.hub.events, e.code = Code.vinLow ∧ e.time = u.time) ∧
    (100 ≤ x.hbEdges.length → (∀ e ∈ x.hbEdges.reverse.take 100, e = 0) → x.hbSt ≠ .lost → ∃ t, exec (.partnerHbLost now) s = .next t ∧
      t = { u with hub := t.hub, margin := { x with hbSt := .lost, hbLost := min (x.hbLost + 1) 0xFFFFFFFF }
                   pair := { u.pair with hbLostAt := some u.time, suspect := t.pair.suspect } } ∧
      (u.pair.st ≠ .paired → u.pair.st ≠ .recovering → t.pair.suspect = u.pair.suspect ∧ Claims.Logs Code.partnerLost false false u t)) ∧
    (x.hbEdges.length < 100 ∨ (∃ e ∈ x.hbEdges.reverse.take 100, e ≠ 0) → exec (.partnerHbLost now) s = .next u)

/-- R484, R485: an accepted PPS edge counts and restarts the interval, an early one is only counted and reported at most once a second; a Sync of
PTP, and the loss of either input, move the time unit between its states. -/
def Obligations.TimeUnitFollowsItsInputs : Prop :=
  ∀ (s : State) (now : Nat), s.quiet = true →
    let u := s.advanceTo now
    let x := u.margin
    let early := ∃ t0, x.ppsLast = some t0 ∧ u.time < t0 + 500000000
    (¬ early → ∃ (t : State) (y : Margin), exec (.ppsEdge now) s = .next t ∧
      y = { x with ppsAccept := min (x.ppsAccept + 1) 0xFFFFFFFF, ppsLast := some u.time, ppsRun := y.ppsRun, ppsHere := y.ppsHere, ppsGone := y.ppsGone } ∧
      (y.ppsRun = match x.ppsLast with | some t0 => if t0 + 999000000 ≤ u.time ∧ u.time ≤ t0 + 1001000000 then x.ppsRun + 1 else 0 | none => 0) ∧
      y.ppsHere = (decide (3 ≤ y.ppsRun) || x.ppsHere) ∧ y.ppsGone = (x.ppsGone && !decide (3 ≤ y.ppsRun)) ∧
      t = { u with hub := t.hub, margin := { y with timeSt := t.margin.timeSt, lockedOnce := t.margin.lockedOnce } } ∧
      (x.ptpHere = true → y.ppsHere = true → t.margin.timeSt = .locked ∧ t.margin.lockedOnce = true)) ∧
    (early →
      ((∃ t0, x.ppsTold = some t0 ∧ u.time < t0 + 1000000000) →
        exec (.ppsEdge now) s = .next { u with margin := { x with ppsReject := min (x.ppsReject + 1) 0xFFFFFFFF } }) ∧
      ((¬ ∃ t0, x.ppsTold = some t0 ∧ u.time < t0 + 1000000000) → ∃ t, exec (.ppsEdge now) s = .next t ∧
        t = { u with hub := t.hub, margin := { x with ppsReject := min (x.ppsReject + 1) 0xFFFFFFFF, ppsTold := some u.time } } ∧
        Claims.Logs Code.ppsRejected false false u t)) ∧
    (x.ppsGone = false → x.ppsLast.getD x.startedAt + 1500000000 ≤ u.time → x.timeSt ≠ .holdover → ∃ t, exec (.ppsLost now) s = .next t ∧
      let y := { x with ppsHere := false, ppsGone := true, ppsRun := 0 }
      (x.ptpHere = true → Claims.TimeUnit y .ptpOnly (some Code.ppsLost) u t) ∧
      (x.ptpHere = false → x.lockedOnce = true → Claims.TimeUnit y .holdover (some Code.holdoverEntered) u t) ∧
      (x.ptpHere = false → x.lockedOnce = false → Claims.TimeUnit y .free (some Code.ppsLost) u t)) ∧
    (u.time < x.ppsLast.getD x.startedAt + 1500000000 → exec (.ppsLost now) s = .next u) ∧
    (let y := { x with ptpLast := some u.time, ptpHere := true }
     ∃ t, exec (.ptpSync now) s = .next t ∧
      (x.ppsHere = true → x.timeSt ≠ .holdover → Claims.TimeUnit y .locked none u t) ∧
      (x.ppsHere = true → x.timeSt = .holdover → Claims.TimeUnit y .locked (some Code.holdoverLeft) u t) ∧
      (x.ppsHere = false → x.lockedOnce = true → x.timeSt ≠ .holdover → Claims.TimeUnit y .ptpOnly none u t)) ∧
    (∀ t0, x.ptpHere = true → x.ptpLast = some t0 → t0 + 3000000000 ≤ u.time → x.timeSt ≠ .holdover → ∃ t, exec (.ptpLost now) s = .next t ∧
      let y := { x with ptpHere := false }
      (x.lockedOnce = true → x.ppsHere = true → Claims.TimeUnit y .ppsOnly (some Code.ptpLost) u t) ∧
      (x.lockedOnce = true → x.ppsHere = false → Claims.TimeUnit y .holdover (some Code.holdoverEntered) u t) ∧
      (x.lockedOnce = false → Claims.TimeUnit y .free (some Code.ptpLost) u t)) ∧
    (∀ t0, x.ptpLast = some t0 → u.time < t0 + 3000000000 → exec (.ptpLost now) s = .next u)

/-- R476 to R479, R486, R488 to R490: power-up runs by its steps, each begun by its condition, a rail that is late trips, the last quadrant reset makes
the module ON; a power-down ends in HUB_UP or STANDBY with DRAM and SRAM lost; a low of RST_N is logged, clears the latch and starts a
power-down or clears a trip, except a hot one. A ramp ends with its set point, a reset of a die with the die started again. -/
def Obligations.PowerSequencesRun : Prop :=
  ∀ (s : State) (now : Nat), s.quiet = true →
    let u := s.advanceTo now
    let x := u.margin
    let gives := fun (i : Instr) (y : Margin) => exec i s = .next { u with margin := y }
    let logs := fun (i : Instr) (y : Margin) (code : BitVec 16) => ∃ t, exec i s = .next t ∧ t = { u with hub := t.hub, margin := y } ∧ Claims.Logs code false false u t
    let still := (∀ d : Die, (u.die d).going = [] ∧ (u.die d).remote = []) ∧ ∀ p : Port, (u.port p).phase ≠ .active
    let lost := fun (t : State) => t.mem = [] ∧ t.staging = [] ∧ t.badWords = [] ∧ t.weakWords = [] ∧ Claims.Powerless t ∧ t.engines = [] ∧ t.bars = [] ∧ t.shards = [] ∧
      t.windows = [] ∧ t.armed = []
    let hubNew := fun (t : State) => t.jobs = [] ∧ t.fab = { Fabric.reset with module := u.fab.module } ∧ t.hub.events = [] ∧ t.hub.eventSeq = 0 ∧ t.hub.agentSeqs = [] ∧
      t.hub.slots = u.hub.slots ∧ t.hub.settings = u.hub.settings ∧ t.hub.rollMin = u.hub.rollMin ∧ t.hub.serial = u.hub.serial ∧ t.meter = { u.meter with waiting := none, toldAt := none }
    (x.running = true → gives (.standbyUp now) x) ∧
    (x.running = false → gives (.standbyUp now)
      { Margin.reset with power := .standby, hubOn := false, trips := x.trips, boots := x.boots + 1, rstLow := x.rstLow, startedAt := u.time }) ∧
    (∃ t, exec (.inputLoss now) s = .next t ∧ lost t ∧ hubNew t ∧ t.alertLow = false ∧ t.hbPin = none ∧
      t.margin = { Margin.reset with power := .standby, hubOn := false, running := false, trips := x.trips, boots := x.boots, rstLow := x.rstLow }) ∧
    (let begins := x.running = true ∧ 100 ≤ x.goodRun ∧ x.rstLow = false ∧ x.rstVirtual = false ∧ x.latch = false ∧ (x.power = .standby ∨ (x.power = .hubUp ∧ x.hubHeld = true))
     (begins → ∃ t, exec (.powerupHub now) s = .next t ∧ hubNew t ∧ t.mem = u.mem ∧ t.margin = { x with
        power := .hubUp, hubOn := true, hubHeld := false, bootDone := false, downCause := 0, seqStep := 1, railAt := u.time
        timeSt := t.margin.timeSt, lockedOnce := t.margin.lockedOnce } ∧ (x.hubOn = false → t.margin.timeSt = .free)) ∧
     (¬ begins → gives (.powerupHub now) x)) ∧
    (let ready := x.power = .hubUp ∧ x.hubOn = true ∧ x.hubHeld = false ∧ x.bootDone = true ∧ x.opStage = true ∧
        (x.downCause = Code.vinLow → 100 ≤ x.goodRun ∧ x.rstLow = false ∧ x.rstVirtual = false ∧ x.latch = false)
     let on := { x with power := .powering, dramOn := true, coreOn := false, released := 0, seqStep := 2, railAt := u.time, downCause := 0 }
     (ready → x.seqStep ≠ 1 → gives (.bootComplete now) on) ∧
     (¬ ready ∨ x.seqStep = 1 → gives (.bootComplete now) x) ∧
     (x.seqStep = 1 → u.time ≤ x.railAt + 2000000 → (ready → gives (.railsInWindow .hub now) on) ∧
       (¬ ready → gives (.railsInWindow .hub now) { x with seqStep := 0 }))) ∧
    (x.seqStep = 2 → u.time ≤ x.railAt + 2000000 → ∃ t, exec (.railsInWindow .dram now) s = .next t ∧ t = { u with hub := t.hub, margin := { x with
        coreOn := true, powerCap := 85, seqStep := 3, railAt := u.time
        capApplied := t.margin.capApplied, throttleP := t.margin.throttleP, throttleT := t.margin.throttleT } } ∧
      t.margin.capApplied.length = 4 ∧ ∀ c ∈ t.margin.capApplied, c ≤ 85) ∧
    (x.seqStep = 3 → u.time ≤ x.railAt + 2000000 → gives (.railsInWindow .core now) { x with seqStep := 4, railAt := u.time }) ∧
    (∀ g n, (g, n) ∈ [(RailGroup.hub, 1), (.dram, 2), (.core, 3)] →
      (x.seqStep ≠ n → gives (.railsInWindow g now) x) ∧ (x.seqStep ≠ n ∨ u.time < x.railAt + 2000000 → gives (.railWindowTimeout g now) x) ∧
      (∀ i, i = Instr.railWindowTimeout g now ∧ x.railAt + 2000000 ≤ u.time ∨ i = .railsInWindow g now ∧ x.railAt + 2000000 < u.time →
        x.seqStep = n → x.power ≠ .tripped → ∃ t, exec i s = .next t ∧ lost t ∧
        t.margin.power = .tripped ∧ t.margin.tripLast = Code.tripSequence ∧ t.margin.dramOn = false ∧ t.margin.coreOn = false ∧ t.margin.hubOn = x.hubOn ∧
        t.margin.seqStep = 0 ∧ (t.margin.trips.getLast?.map fun r => r.code) = some Code.tripSequence)) ∧
    (∀ d : Die, x.seqStep = 4 → x.released = d.toNat → d = 0 ∨ x.railAt + 10000 ≤ u.time →
      ∃ t, exec (.quadrantResetRelease d now) s = .next t ∧ (∀ q, t.die q = if q = d then { u.die d with inReset := false, held := false } else u.die q) ∧
        (d ≠ 3 → t = { u with dies := t.dies, margin := { x with released := d.toNat + 1, railAt := u.time } }) ∧
        (d = 3 → t = { u with dies := t.dies, hub := t.hub, margin := { x with released := 4, railAt := u.time, power := .on, seqStep := 0 } } ∧
          Claims.Logs Code.sequenceDone false false u t)) ∧
    (∀ d, x.seqStep ≠ 4 → gives (.quadrantResetRelease d now) x) ∧
    (x.power = .poweringDown →
      (x.downTo = .hubUp → ∃ t, exec (.powerDownDone now) s = .next t ∧ lost t ∧ t.margin = { x with power := .hubUp, dramOn := false, coreOn := false } ∧
        Claims.Logs Code.sequenceDone false false u t) ∧
      (x.downTo = .standby → ∃ t, exec (.powerDownDone now) s = .next t ∧ lost t ∧ hubNew t ∧
        t.margin = { x with power := .standby, dramOn := false, coreOn := false, hubOn := false, bootDone := false })) ∧
    (x.power ≠ .poweringDown → gives (.powerDownDone now) x) ∧
    (∀ (d : Die) mv, x.ramps = [(d.toNat, mv)] → ∃ caps, gives (.vcoreRampDone d now) { x with vset := x.vset.set d.toNat mv, ramps := [], capApplied := caps } ∧
      ∀ q : Die, caps.getD q.toNat 0 = min x.powerCap (min (x.capThermal.getD q.toNat 145) (x.capMax.getD q.toNat 145))) ∧
    (x.running = true →
      let y := { x with rstLow := true, latch := false, hubHeld := x.hubOn }
      (x.power = .on ∨ x.power = .powering → u.jobs = [] → still → ∃ t, exec (.rstNLow now) s = .next t ∧
        t = { u with clusters := t.clusters, dies := t.dies, ports := t.ports, hub := t.hub, margin := { y with
          power := .poweringDown, released := 0, seqStep := 0, ramps := [], hbOut := false, downTo := .hubUp, downCause := Code.resetRequested } } ∧
        Claims.Held t ∧ Claims.Logs Code.resetRequested false false u t) ∧
      (x.power = .standby ∨ x.power = .hubUp ∨ x.power = .poweringDown → logs (.rstNLow now) y Code.resetRequested) ∧
      (x.power = .tripped → u.tripStays = false → logs (.rstNLow now) { y with power := if x.hubOn then .hubUp else .standby } Code.resetRequested) ∧
      (x.power = .tripped → u.tripStays = true → gives (.rstNLow now) { x with rstLow := true })) ∧
    (x.running = false → gives (.rstNLow now) x) ∧
    gives (.rstNRise now) { x with rstLow := false } ∧
    gives (.rstNGlitch now) { x with rstGlitch := min (x.rstGlitch + 1) 0xFFFFFFFF } ∧
    (x.rstVirtual = true → x.virtualAt + 1000000 ≤ u.time → gives (.moduleResetRelease now) { x with rstVirtual := false }) ∧
    (x.rstVirtual = false ∨ u.time < x.virtualAt + 1000000 → gives (.moduleResetRelease now) x) ∧
    (∀ d : Die, (u.die d).held = true → exec (.dieResetRelease d now) s = .next u) ∧
    (∀ d : Die, (u.die d).inReset = true → (u.die d).held = false → (u.die d).resetAt + 100000 ≤ u.time → ∃ t, exec (.dieResetRelease d now) s = .next t ∧
      t = { u with clusters := t.clusters, engines := t.engines, dies := t.dies, ports := t.ports } ∧
      (∀ c, t.clu c = if ClusterId.die c = d then (u.clu c).dieReset else u.clu c) ∧ (∀ p, t.eng p = if Port.die p = d then Engine.reset else u.eng p) ∧
      (∀ p, t.port p = if Port.die p = d then (u.port p).dieReset else u.port p) ∧ (∀ q, t.die q = if q = d then (u.die d).dieReset else u.die q) ∧
      (t.die d).inReset = false ∧ (t.die d).mbx = [] ∧ (t.die d).counters = (u.die d).counters ∧ (t.die d).grans = (u.die d).grans ∧
      (t.die d).stk = (u.die d).stk ∧ (t.die d).queue = (u.die d).queue ∧ (t.die d).pstPeak = (u.die d).pstPeak ∧
      (∀ c, ClusterId.die c = d → (t.clu c).gstate = .idle ∧ (t.clu c).stepCount = (u.clu c).stepCount) ∧
      ∀ p, Port.die p = d → (t.port p).role = (u.port p).role ∧ (t.port p).fecCorr = (u.port p).fecCorr ∧ (t.port p).phase = PortState.reset.phase)

namespace Sys2Proof.Claims

/-- A message of local software that the hub runs at once: the module is quiet, the hub runs its firmware, and no hub command is in progress or
waits (R458). -/
def Hub (m : Msg) (s : State) : Prop :=
  s.quiet = true ∧ m.path = .internal ∧ m.target = 0 ∧ s.margin.hubOn = true ∧ s.margin.hubHeld = false ∧ s.hub.waiting = [] ∧
    s.hub.recovery = false ∧ s.meter.waiting = none

/-- A message of local software for die d, whose queue is empty, whose lowest mailbox is free and whose control processor is free (R455, R458). -/
def AtDie (m : Msg) (d : Die) (s : State) : Prop :=
  s.quiet = true ∧ m.path = .internal ∧ m.target = 4#4 + d.setWidth 4 ∧ s.margin.hubOn = true ∧ s.margin.hubHeld = false ∧
    (s.die d).inReset = false ∧ (s.die d).queue = [] ∧ (s.die d).remote = [] ∧ (s.die d).busy.getLsbD 0 = false ∧
    (Table.get Mailbox.reset 0 (s.die d).mbx).owned = false ∧ s.hub.recovery = false

/-- The message of i is answered with a status, a detail and results, and leaves the module as v. -/
def Answers (i : Instr) (code status : BitVec 16) (detail : Byte) (res : List Word) (m : Msg) (s v : State) : Prop :=
  exec i s = .next { v with outbox := v.outbox ++ [.reply code status m.seq detail res] }

/-- The message of i runs from mailbox 0 of die d, which holds its status, its detail and its results then, and is answered with the same; the module
is v otherwise (R453, R454, R458). -/
def Serves (d : Die) (i : Instr) (code status : BitVec 16) (detail : Byte) (res : List Word) (m : Msg) (s v : State) : Prop :=
  ∃ t, exec i s = .next t ∧ t = { v with dies := t.dies, outbox := v.outbox ++ [.reply code status m.seq detail res] } ∧ (∀ q, q ≠ d → t.die q = v.die q) ∧
    t.die d = { v.die d with mbx := (t.die d).mbx, done := (v.die d).done ||| 1 } ∧
    let x := Table.get Mailbox.reset 0 (t.die d).mbx
    x.status = status ∧ x.detail = detail ∧ x.doneSeq = m.seq ∧ x.owned = false ∧ x.resLen.toNat = 4 * res.length % 65536 ∧
      ∀ i < 32, Table.get 0 i x.res = res.getD i 0

/-- The result words of a page of records of k bytes from a first one (R461). -/
def page (k first : Nat) (recs : List (List Byte)) : List Word :=
  [if first + 120 / k < recs.length then BitVec.ofNat 32 (first + 120 / k) else 0xFFFFFFFF, BitVec.ofNat 32 recs.length] ++
    ((recs.drop first).take (120 / k)).flatMap fun r => wordsOf ((r.length + 3) / 4) r

/-- The arguments of a message that a command does not list are 0. -/
def Only (l : List Nat) (m : Msg) : Prop := ∀ i < 28, i ∉ l → m.args.getD i 0 = 0

end Sys2Proof.Claims

/-- R458 to R468: what the hub commands of information, registers, plates and routes do, and with which status they are refused. -/
def Obligations.HubCommandsAct : Prop :=
  ∀ (s : State) (m : Msg), Claims.Hub m s →
    let a := fun (n : Nat) => m.args.getD n 0
    let a64 := (a 0).toNat + 2 ^ 32 * (a 1).toNat
    let j := s.job m.job
    Claims.Answers (.nop m) 0x0001 Code.ok 0 [] m s s ∧
    Claims.Answers (.getInfo m) 0x0002 Code.ok 0 ([s.ownModule.setWidth 32, s.fuseReg 0, s.fuseReg 4, s.hub.running.setWidth 32, (s.hub.running >>> 32).setWidth 32,
      BitVec.ofNat 32 (RouteSt.code s.fab.st + 256 * s.pair.st.code.toNat)] ++ (List.range 8).map fun k =>
        let x := Table.get Job.reset k s.jobs
        if x.st = .none then 0 else BitVec.ofNat 32 (x.no.toNat + 65536 * x.st.code)) m s s ∧
    (1 ≤ (a 1).toNat → (a 1).toNat ≤ 32 → reachable 0 (a 0).toNat (a 1).toNat = true → Claims.Answers (.readReg m) 0x0010 Code.ok 0
      ((List.range (a 1).toNat).map fun i => s.readReg ((a 0).toNat + 4 * i)) m s s) ∧
    ((a 1).toNat = 0 ∨ 32 < (a 1).toNat ∨ reachable 0 (a 0).toNat (a 1).toNat = false → Claims.Answers (.readReg m) 0x0010 Code.badArgument 0 [] m s s) ∧
    (a 0 = 0x10010 → Claims.Answers (.writeReg m) 0x0011 Code.ok 0 [] m s
      { s with fab := { s.fab with ecnThresh := (s.fab.ecnThresh &&& ~~~ a 2) ||| (a 1 &&& a 2) } }) ∧
    ((a 0).toNat < 0x10000 ∨ 0x20000 ≤ (a 0).toNat ∧ (a 0).toNat < 0x40000 → reachable 0 (a 0).toNat 1 = true → Claims.Answers (.writeReg m) 0x0011 Code.ok 0 [] m s s) ∧
    (a64 % 128 = 0 → a64 + m.data.length ≤ 4000000000 → ∃ v, Claims.Answers (.stageWrite m) 0x0020 Code.ok 0 [] m s v ∧ v = { s with staging := v.staging } ∧
      ∀ x, Memory.read x v.staging = if a64 ≤ x ∧ x < a64 + m.data.length then m.data.getD (x - a64) 0 else Memory.read x s.staging) ∧
    (a64 % 128 ≠ 0 ∨ 4000000000 < a64 + m.data.length → Claims.Answers (.stageWrite m) 0x0020 Code.badArgument 0 [] m s s) ∧
    (m.job ≠ 0 → Claims.Rising s →
      let bs := s.stagedPart
      let part := (a 0).toNat % 256
      let parts := (a 0).toNat / 256 % 256
      let module : BitVec 9 := BitVec.ofNat 9 (leNat ((bs.drop 10).take 2))
      let inOrder := part < parts ∧ leNat ((bs.drop 5).take 1) = part ∧ leNat ((bs.drop 6).take 1) = parts ∧ leNat ((bs.drop 8).take 2) = m.job.toNat ∧
        (module = s.ownModule ∨ some module = s.partner)
      let gone := fun (r : Reply) => ∃ v, Claims.Answers (.plateLoad m) 0x0021 r.status (hubReply 0x0021 r).detail r.res m s v ∧
        v = { s with jobs := v.jobs, ports := v.ports, hub := { s.hub with events := v.hub.events, eventSeq := v.hub.eventSeq, rateNames := v.hub.rateNames }
                     hatchJobs := v.hatchJobs } ∧ (v.job m.job).st = .none
      (j.st = .none → part = 0 → (1 < parts → ∀ e ∈ s.jobs, e.2.st ≠ .loading) → (∃ k < 8, (Table.get Job.reset k s.jobs).no = 0) → (∀ e ∈ s.jobs, e.2.no ≠ m.job) →
        (inOrder → 1 < parts → ∃ v, Claims.Answers (.plateLoad m) 0x0021 Code.ok 0 [] m s v ∧ v = { s with jobs := v.jobs } ∧
          v.job m.job = { Job.reset with no := m.job, st := .loading, partsN := parts, parts := [bs] }) ∧
        (inOrder → parts = 1 → ∀ b, (∀ k, ({ s with jobs := Table.set Job.reset k { Job.reset with no := m.job, st := .loading, partsN := 1, parts := [bs] } s.jobs } : State).checkPlate m.job
            (parsePlate [bs] (allSections 0 [bs])) [bs] (allSections 0 [bs]) = some b) →
          gone ⟨b.status, 0, [BitVec.ofNat 32 b.sec, BitVec.ofNat 32 b.entry, BitVec.ofNat 32 b.port]⟩) ∧
        (¬ inOrder → gone ⟨Code.platePartOrder, 0, []⟩ ∧ (hubReply 0x0021 ⟨Code.platePartOrder, 0, []⟩).detail = 0xFF)) ∧
      (j.st = .none → part = 0 → 1 < parts → (∃ e ∈ s.jobs, e.2.st = .loading) → Claims.Answers (.plateLoad m) 0x0021 Code.wrongState 0 [] m s s) ∧
      (j.st = .loading → part ≠ 0 → inOrder → part = j.parts.length → j.partsN = parts → part + 1 < parts → ∃ v,
        Claims.Answers (.plateLoad m) 0x0021 Code.ok 0 [] m s v ∧ v = { s with jobs := v.jobs } ∧ v.job m.job = { j with parts := j.parts ++ [bs] }) ∧
      (j.st = .loaded → Claims.Answers (.plateLoad m) 0x0021 Code.wrongState 2 [] m s s ∧ ∃ v, Claims.Answers (.plateUnload m) 0x0022 Code.ok 0 [] m s v ∧
        v = { s with jobs := v.jobs, ports := v.ports, hub := { s.hub with events := v.hub.events, eventSeq := v.hub.eventSeq, rateNames := v.hub.rateNames }
                     hatchJobs := s.hatchJobs.filter fun e => e.2 != m.job.toNat } ∧
        ∀ k, s.jobSlot m.job = some k → v.jobs = s.jobs.filter fun e => e.1 != k)) ∧
    (let bs := Memory.readN a64 4224 s.staging
     let x := parseMap bs
     a64 + 4224 ≤ 4000000000 →
      (x.good s.fab.module.toNat bs = true → s.rolesGood bs = true → s.routeInUse x = false →
        Claims.Answers (.routeLoad m) 0x0040 Code.ok 0 [] m s { s with fab := { s.fab with staged := some x } }) ∧
      (x.good s.fab.module.toNat bs = false ∨ s.rolesGood bs = false → Claims.Answers (.routeLoad m) 0x0040 Code.routeInvalid 0 [] m s s)) ∧
    (s.fab.st = .active → Claims.Answers (.routeDrain m) 0x0041 Code.ok 0 [] m s { s with fab := { s.fab with st := .draining, drainAt := s.time, drainTold := false } }) ∧
    (s.fab.st ≠ .active → Claims.Answers (.routeDrain m) 0x0041 Code.ok 0 [] m s s) ∧
    (s.fab.st ≠ .drained → Claims.Answers (.routeSwap m) 0x0042 Code.wrongState (BitVec.ofNat 8 (RouteSt.code s.fab.st)) [] m s s) ∧
    (∀ x, s.fab.st = .drained → s.fab.staged = some x → (∀ p : Port, (s.port p).phase ≠ .active) → ∃ v, Claims.Answers (.routeSwap m) 0x0042 Code.ok 0 [] m s v ∧
      v = { s with fab := { s.fab with st := .swapped, map := some x, staged := none, lost := [] }, ports := v.ports } ∧
      ∀ p : Port, (s.hasPort p = true → (v.port p).role = x.roles.getD p.toNat 0 ∧ (x.roles.getD p.toNat 0 = 0 → (v.port p).phase = .disabled)) ∧
        (s.hasPort p = false → v.port p = s.port p)) ∧
    (s.fab.st = .swapped → s.fab.waiting = [] → Claims.Answers (.routeResume m) 0x0043 Code.ok 0 [] m s { s with fab := { s.fab with st := .active } }) ∧
    (s.fab.st = .draining ∨ s.fab.st = .drained → s.fab.waiting = [] →
      Claims.Answers (.routeCancel m) 0x0044 Code.ok 0 [] m s { s with fab := { s.fab with st := .active } }) ∧
    (s.fab.st = .active ∨ s.fab.st = .swapped → Claims.Answers (.routeCancel m) 0x0044 Code.wrongState (BitVec.ofNat 8 (RouteSt.code s.fab.st)) [] m s s)

/-- R124, R263, R315, R459, R466, R467: JOB_START sends the digest of its job and waits; it is refused without time, in FENCED or outside PAIRED with a mirror
table. JOB_STOP stops the job for a reason in the event log; JOB_END leaves it LOADED with nothing held. A command that changes results
waits for its effective step and is logged; after that step, or with a full log, it is refused. -/
def Obligations.JobCommandsAct : Prop :=
  ∀ (s : State) (m : Msg) (p : Plate), Claims.Hub m s → m.job ≠ 0 → Claims.Rising s → (s.job m.job).plate = some p →
    let a := fun (n : Nat) => m.args.getD n 0
    let j := s.job m.job
    (j.st = .loaded →
      (s.margin.timeSt = .free → Claims.Answers (.jobStart m) 0x0030 Code.timeInvalid 0xFF [] m s s) ∧
      (s.margin.timeSt ≠ .free →
        (s.pair.st = .fenced → Claims.Answers (.jobStart m) 0x0030 Code.fenced 0xFF [] m s s) ∧
        (s.pair.st ≠ .fenced → a 0 = 0 → p.module = s.ownModule →
          (p.mirror ≠ [] → s.pair.st ≠ .paired → Claims.Answers (.jobStart m) 0x0030 Code.pairNotReady 0xFF [] m s s) ∧
          (p.mirror = [] → ∀ d : Die, (s.die d).inReset = true → s.usesDie m.job d = true →
            (∀ q : Die, q.toNat < d.toNat → (s.die q).inReset = false) → Claims.Answers (.jobStart m) 0x0030 Code.cmdLost (d.setWidth 8) [] m s s) ∧
          (p.mirror = [] → j.digests = [] → s.jobClusters m.job ≠ [] → j.proofRole = 0 → (∀ d, (s.die d).inReset = false) → ∃ v, exec (.jobStart m) s = .next (State.dispatchOwn v) ∧
            v = { s with jobs := v.jobs, bars := v.bars, fab := { s.fab with selfEgress := (s.startPeers m.job).map fun x => (digestFrame m.job p.digest x).sealCrc } } ∧
            (∀ b ∈ p.barriers, v.bar b.slot.toNat = { Bar.reset with job := m.job }) ∧ (∀ n, (∀ b ∈ p.barriers, b.slot.toNat ≠ n) → v.bar n = s.bar n) ∧
            v.job m.job = { j with st := .starting, startMsg := some m, startAt := (a 1).toNat + 2 ^ 32 * (a 2).toNat, startBegan := s.time, cleared := false })))) ∧
    (j.st = .loaded ∨ j.st = .loading ∨ j.st = .stopped → Claims.Answers (.jobStop m) 0x0031 Code.wrongState (BitVec.ofNat 8 j.st.code) [] m s s) ∧
    (Claims.Alone m.job s → s.pair.st ≠ .partnerLost → ∃ t code, exec (.jobStop m) s = .next t ∧
      t = { s with freeCtr := s.freeCtr + 1, clusters := t.clusters, dies := t.dies, jobs := t.jobs, hub := t.hub, meter := t.meter
                   outbox := s.outbox ++ [.marker false false m.job, .reply 0x0031 Code.ok m.seq 0 []] } ∧
      (t.job m.job).st = .stopped ∧ (t.job m.job).reason = code ∧ (t.job m.job).endTime = s.time ∧ (t.job m.job).preempted = (a 0).getLsbD 0 ∧
      t.hub.eventSeq = s.hub.eventSeq + 1 ∧ (t.hub.events.getLast?.map fun e => (e.code, e.job)) = some (code, m.job)) ∧
    (j.st = .done ∨ j.st = .stopped → ∃ t, exec (.jobEnd m) s = .next t ∧
      t = { s with dies := t.dies, engines := t.engines, bars := t.bars, jobs := t.jobs, outbox := s.outbox ++ [.reply 0x0032 Code.ok m.seq 0 []]
                   armed := s.armed.filter fun i => i.job != m.job
                   windows := s.windows.filter fun w => w.job != m.job
                   shards := s.shards.filter fun r => r.job != m.job
                   pair := { s.pair with
                     holds := s.pair.holds.filter fun h => h.job != m.job
                     shadows := s.pair.shadows.filter fun x => x.job != m.job
                     seals := s.pair.seals.filter fun x => x.job != m.job } } ∧
      (t.job m.job).st = .loaded ∧ (t.job m.job).plate = some p ∧ (t.job m.job).ended = true ∧ (t.job m.job).begun = none ∧ (t.job m.job).digests = [] ∧
      (t.job m.job).mapOn = none ∧ (t.job m.job).logFrom = j.cmdLog.length ∧
      (∀ n : CounterName, (s.counter n).job = m.job → t.counter n = Counter.reset) ∧
      ((∀ d, Table.wf Counter.reset (s.die d).counters = true ∧ ∀ e ∈ (s.die d).counters, e.1 < 16384) →
        ∀ n : CounterName, (s.counter n).job ≠ m.job → t.counter n = s.counter n)) ∧
    (let step := a 1
     let logged := fun (t : State) (code : BitVec 16) (st : Word) => t = { s with jobs := t.jobs, outbox := s.outbox ++ [.reply code Code.ok m.seq 0 []] } ∧
       (t.job m.job).cmdLog = j.cmdLog ++ [⟨code, st, [a 0, a 1, a 2, a 3], s.time⟩]
     let free := fun (st : Word) => (∀ b, j.begun = some b → b < st) ∧ j.cmdLog.length < 1024 + j.logFrom
     (j.st = .loaded ∨ j.st = .starting ∨ j.st = .running → a 0 ≤ 3 → free step → ∃ t, exec (.setNumericMode m) s = .next t ∧ logged t 0x0033 step ∧
       t.job m.job = { j with cmdLog := (t.job m.job).cmdLog
                              modePend := (j.modePend.filter fun e => j.begun.any fun b => decide (e.1 ≤ b)) ++ [(step, (a 0).setWidth 4)] }) ∧
     (j.st = .running → (a 0).toNat < min 4 p.mappingsN → free step → s.pair.st ≠ .takeover →
       j.mapOn = none → j.mapAt = none → j.mapHere = false → ∃ t, exec (.setMapping m) s = .next t ∧ logged t 0x0034 step ∧
       t.job m.job = { j with cmdLog := (t.job m.job).cmdLog, mapPend := some (step, (a 0).toNat)
                              mapOn := if s.mapDue m.job p step && s.mapMayStart (a 0).toNat then some s.time else none }) ∧
     (j.st = .running → free step → ∃ t, exec (.resetScales m) s = .next t ∧ logged t 0x0035 step ∧
       t.job m.job = { j with cmdLog := (t.job m.job).cmdLog, scalePend := j.scalePend ++ [(step, a 0)] }) ∧
     (j.st = .running → s.injectOk ((a 0).setWidth 16) ((a 1).toNat / 65536 % 16) ((a 1).toNat % 65536) (a 3).toNat = true → free (a 2) →
       ∃ t, exec (.injectFault m) s = .next t ∧ logged t 0x0036 (a 2) ∧
         t.job m.job = { j with cmdLog := (t.job m.job).cmdLog, injPend := j.injPend ++ [⟨(a 0).setWidth 16, BitVec.ofNat 4 ((a 1).toNat / 65536 % 16), (a 1).setWidth 16, a 3, a 2, m.job⟩] }) ∧
     (∀ b, j.st = .running → j.begun = some b → step ≤ b → a 0 ≤ 3 → (a 0).toNat < p.mappingsN →
       Claims.Answers (.setNumericMode m) 0x0033 Code.stepPassed 0 [] m s s ∧ Claims.Answers (.setMapping m) 0x0034 Code.stepPassed 0 [] m s s ∧
       Claims.Answers (.resetScales m) 0x0035 Code.stepPassed 0 [] m s s) ∧
     (j.st = .running → (∀ b, j.begun = some b → b < step) → 1024 + j.logFrom ≤ j.cmdLog.length → Claims.Answers (.resetScales m) 0x0035 Code.runRecordFull 0 [] m s s))

/-- R136, R154, R160, R200, R269, R314, R315, R317, R321, R322, R432, R444, R450, R460, R461: a read command answers with the records that it names, page by
page, and changes nothing; of a job that has not started it is refused. CLEAR_HALT makes a halted cluster IDLE without its record. A remote
line access sends its request and waits for the reply. -/
def Obligations.ReadCommandsAnswer : Prop :=
  ∀ (s : State) (m : Msg) (d : Die),
    let a := fun (n : Nat) => m.args.getD n 0
    let j := s.job m.job
    let c : ClusterId := BitVec.ofNat 8 (a 0).toNat
    let logs : List ((Msg → Instr) × BitVec 16 × Nat × List (List Byte)) :=
      [ (.readRunRecord, 0x0050, 32, ((List.range 6).map fun i => ((s.runRecord m.job).drop (32 * i)).take 32) ++ j.runLog.map LogEntry.bytes)
      , (.readOverflowLog, 0x0051, 32, j.ovLog.map OvEvent.bytes), (.readOverrunLog, 0x0052, 32, j.overruns.map Overrun.bytes)
      , (.readRankWait, 0x0054, 8, (List.range 4096).map fun r => leBytes 8 (Table.get 0 r j.rankWait)), (.readLedger, 0x0055, 16, j.ledger.map LedgerEntry.bytes) ]
    (Claims.Hub m s → m.job ≠ 0 →
      (j.started = true → (∀ x ∈ logs, Claims.Answers (x.1 m) x.2.1 Code.ok 0 (Claims.page x.2.2.1 (a 0).toNat x.2.2.2) m s s) ∧
        Claims.Answers (.readIdleAccount m) 0x0053 Code.ok 0 (wordsOf 16 (leBytes 4 m.job.toNat ++ leBytes 4 j.unitsN ++
          (List.range 7).flatMap fun i => leBytes 8 (j.idle.getD i 0))) m s s) ∧
      (j.started = false → (∀ x ∈ logs, Claims.Answers (x.1 m) x.2.1 Code.wrongState (BitVec.ofNat 8 j.st.code) [] m s s) ∧
        Claims.Answers (.readIdleAccount m) 0x0053 Code.wrongState (BitVec.ofNat 8 j.st.code) [] m s s)) ∧
    (Claims.Hub m s → Claims.Answers (.readEventLog m) 0x0056 Code.ok 0 (Claims.page 32 (a 0).toNat (s.hub.events.map Event.bytes)) m s s) ∧
    (Claims.AtDie m d s →
      Claims.Serves d (.nop m) 0x0001 Code.ok 0 [] m s s ∧
      (∀ i ∈ [((Instr.getInfo m), (0x0002 : BitVec 16)), (.stageWrite m, 0x0020), (.jobStart m, 0x0030), (.readEventLog m, 0x0056), (.fwStatus m, 0x0070)],
        Claims.Serves d i.1 i.2 Code.badCommand 0 [] m s s) ∧
      (ClusterId.die c = d →
        Claims.Serves d (.readClusterStatus m) 0x0060 Code.ok 0 (wordsOf 24 (s.statusBlock c)) m s s ∧
        Claims.Serves d (.readFaultRecord m) 0x0061 Code.ok 0 (match (s.clu c).faultRec with | some r => wordsOf 8 r.bytes | none => List.replicate 8 0) m s s ∧
        (s.hasCluster c = true → (s.clu c).gstate = .halted → Claims.Serves d (.clearHalt m) 0x0062 Code.ok 0 [] m s
          (s.setClu c { s.clu c with gstate := .idle, holdCause := .none, faultRec := none, impr := none, job := 0, fetchBad := [], ending := none })) ∧
        (s.hasCluster c = true → (s.clu c).gstate ≠ .halted → Claims.Serves d (.clearHalt m) 0x0062 Code.wrongState (BitVec.ofNat 8 (s.clu c).gstate.code) [] m s s)) ∧
      (ClusterId.die c ≠ d → Claims.Serves d (.readClusterStatus m) 0x0060 Code.badArgument 0 [] m s s ∧ Claims.Serves d (.readFaultRecord m) 0x0061 Code.badArgument 0 [] m s s ∧
        Claims.Serves d (.clearHalt m) 0x0062 Code.badArgument 0 [] m s s) ∧
      (∀ k o : Nat, o < 80000000000 → k / 8 = d.toNat → m.job ≠ 0 → j.started = true → Msg.arg64 0 m = BitVec.ofNat 64 (dramAddr k o) → o + 32 * (a 2).toNat ≤ 80000000000 →
        s.badWords = [] → s.weakWords = [] → s.armed = [] →
        let ring := (Table.get [] (dramAddr k o) (s.die d).statRings).filter fun x => x.1 == m.job.toNat && decide (x.2 < (a 2).toNat)
        ∃ v, Claims.Serves d (.readStats m) 0x0063 Code.ok 0 (Claims.page 32 (a 3).toNat (ring.map fun x => s.read (dramAddr k o + 32 * x.2) 32)) m s v ∧
          v = { s with dies := v.dies } ∧ (∀ q, q ≠ d → v.die q = s.die q) ∧ v.die d = { s.die d with stk := (v.die d).stk }) ∧
      Claims.Serves d (.readMemFaults m) 0x0064 Code.ok 0 (Claims.page 32 (a 0).toNat ((s.die d).memFaults.map MemFault.bytes)) m s s ∧
      Claims.Serves d (.readStackStatus m) 0x0065 Code.ok 0 (wordsOf 16 (s.stack (8 * d.toNat + (a 0).toNat % 8)).bytes) m s s ∧
      (m.job ≠ 0 → j.proofRole ≠ 2 → s.badWords = [] → s.weakWords = [] → s.armed = [] →
        let tag : Word := BitVec.ofNat 32 (2 ^ 30 * d.toNat + (s.die d).remoteSeq % 2 ^ 30)
        let asks := fun (i : Instr) (code : BitVec 16) (op : Nat) (line : List Byte) => ∃ v, exec i s = .next (State.dispatchOwn v) ∧
          v = { s with dies := v.dies, fab := v.fab } ∧
          (∃ q : Msg, (v.die d).remote = [⟨tag, op == 2, 0, q, code, s.time⟩] ∧ q.seq = m.seq ∧ q.job = m.job ∧ q.target = m.target ∧ q.path = .internal) ∧
          (Table.get Mailbox.reset 0 (v.die d).mbx).status = Code.busy ∧ (v.die d).busy.getLsbD 0 = true ∧
          (v.die d).remoteSeq = (s.die d).remoteSeq + 1 ∧ ∃ g : Frame, v.fab = { s.fab with
              selfEgress := [g], transfers := Table.set 0 g.dstModule.toNat (g.transfer + 1) s.fab.transfers } ∧
            g.transfer = Table.get 0 g.dstModule.toNat s.fab.transfers ∧ g.kind = 6 ∧ g.cls = 2 ∧
            g.plen.toNat = line.length / 32 ∧ g.job = m.job ∧ g.ident = tag ∧ g.offset = a 2 ∧ g.detail.toNat = (a 1).toNat % 4096 + 4096 * op ∧ g.payload = line ∧
            g.dstModule = (a 0).setWidth 9
        (j.st = .running ∨ j.st = .stopped → asks (.memReadRemote m) 0x0066 1 []) ∧
        (∀ k o : Nat, o + 128 ≤ 80000000000 → j.st = .running → k / 8 = d.toNat → Msg.arg64 3 m = BitVec.ofNat 64 (dramAddr k o) →
          asks (.memWriteRemote m) 0x0067 2 (s.read (dramAddr k o) 128))))

namespace Sys2Proof.Claims

/-- A message of an agent on the service port that the hub runs at once; the agent's last message is this one, and its right is admin. -/
def Serviced (m : Msg) (x : AgentSeq) (s : State) : Prop :=
  s.quiet = true ∧ m.path = .service x.agent 3 ∧ m.target = 0 ∧ s.margin.hubOn = true ∧ s.margin.hubHeld = false ∧ s.hub.waiting = [] ∧
    s.meter.waiting = none ∧ s.hub.agentSeqs = [x] ∧ x.via = none

/-- The reply of i is a signed datagram to the agent, kept for a repeated request; it leaves the module as v (R470, R472). -/
def Signs (i : Instr) (code status : BitVec 16) (res : List Word) (m : Msg) (x : AgentSeq) (s v : State) : Prop :=
  let b := v.replyDatagram code false x.agent m ⟨status, 0, res⟩
  exec i s = .next { v with
    outbox := v.outbox ++ [.datagram true x.addr x.port b], hub := { v.hub with agentSeqs := [{ x with reply := b }] } }

end Sys2Proof.Claims

/-- R527, R531, R532, R537, R540 to R542: an image is begun, written, checked and staged or failed, over the service port alone; it is discarded, or confirmed with
the other slot emptied and the rollback minimum raised. Keys are enrolled, replaced, removed and listed. Attestations answer their body or
their signature. -/
def Obligations.FirmwareAndKeysAreKept : Prop :=
  ∀ (s : State) (m : Msg),
    let a := fun (n : Nat) => m.args.getD n 0
    let a64 := (a 0).toNat + 2 ^ 32 * (a 1).toNat
    let slots := fun (v : State) (k : Nat) (y : FwSlot) => v = { s with hub := { s.hub with slots := s.hub.slots.set k y } }
    (∀ x, Claims.Serviced m x s → s.hub.slots.length = 2 → s.hub.booted < 2 →
      let k := 1 - s.hub.booted
      let y := s.slot k
      (Claims.Only [0, 1] m → 1 ≤ a64 → a64 ≤ 268435456 → (s.slot s.hub.booted).st ≠ .trial → ∃ v, Claims.Signs (.fwBegin m) 0x0071 Code.ok [BitVec.ofNat 32 k] m x s v ∧
        slots v k { FwSlot.reset with st := .writing, failure := y.failure, length := a64, agent := x.agent }) ∧
      (y.st = .writing → y.agent = x.agent → (s.slot s.hub.booted).st ≠ .writing →
        (Claims.Only [0, 1] m → a64 % 128 = 0 → a64 + m.data.length ≤ y.length → ∃ v y', Claims.Signs (.fwWrite m) 0x0072 Code.ok [] m x s v ∧ slots v k y' ∧
          y' = { y with image := y'.image, written := y'.written } ∧
          ∀ i, Memory.read i y'.image = if a64 ≤ i ∧ i < a64 + m.data.length then m.data.getD (i - a64) 0 else Memory.read i y.image) ∧
        (Claims.Only [0, 1] m → a64 % 128 = 0 → y.length < a64 + m.data.length → Claims.Signs (.fwWrite m) 0x0072 Code.badArgument [] m x s s) ∧
        (Claims.Only [] m → s.hub.recovery = false →
          (∀ c, y.finishFault s.hub.rollMin = some c → ∃ v y', Claims.Signs (.fwFinish m) 0x0073 c [] m x s v ∧ slots v k y' ∧ y'.st = .failed ∧ y'.failure = c ∧ y'.image = y.image) ∧
          (y.finishFault s.hub.rollMin = none → y.factory = false → ∃ v y', Claims.Signs (.fwFinish m) 0x0073 Code.ok
              (wordsOf ((shake256 32 y.bytes).length / 4) (shake256 32 y.bytes)) m x s v ∧
            slots v k y' ∧ y'.st = .staged ∧ y'.image = y.image ∧ y'.version = BitVec.ofNat 64 (leNat ((y.bytes.drop 8).take 8)))) ∧
        (Claims.Only [] m → (s.slot s.hub.booted).st ≠ .staged → ∃ v, Claims.Signs (.fwDiscard m) 0x0074 Code.ok [] m x s v ∧
          slots v k { FwSlot.reset with failure := y.failure }))) ∧
    (Claims.Hub m s → (∀ i ∈ [((Instr.fwBegin m), (0x0071 : BitVec 16)), (.fwWrite m, 0x0072), (.fwFinish m, 0x0073), (.fwDiscard m, 0x0074)],
        Claims.Answers i.1 i.2 Code.servicePortOnly 0 [] m s s) ∧
      (Claims.Only [] m → (∀ k < 2, (s.slot k).st ≠ .empty ∧ (s.slot k).st ≠ .writing ∧ (s.slot k).factory = false) → ∃ res, Claims.Answers (.fwStatus m) 0x0070 Code.ok 0 res m s s ∧
        res.take 6 = [BitVec.ofNat 32 ((s.slot 0).st.code + 16 * (s.slot 1).st.code + 256 * (s.hub.booted % 2) + 2 ^ 16 * s.hub.rollMin),
          (s.slot 0).version.setWidth 32, ((s.slot 0).version >>> 32).setWidth 32, (s.slot 1).version.setWidth 32, ((s.slot 1).version >>> 32).setWidth 32,
          BitVec.ofNat 32 ((s.slot 0).failure.toNat + 65536 * (s.slot 1).failure.toNat)]) ∧
      (Claims.Only [] m → s.hub.slots.length = 2 → s.hub.booted < 2 → (s.slot s.hub.booted).st = .trial → ∃ t, exec (.fwConfirm m) s = .next t ∧
        t = { s with outbox := s.outbox ++ [.reply 0x0075 Code.ok m.seq 0 []], hub := t.hub } ∧ t.hub.eventSeq = s.hub.eventSeq + 1 ∧
        (t.hub.events.getLast?.map fun e => e.code) = some Code.fwConfirmed ∧ t.slot s.hub.booted = { s.slot s.hub.booted with st := .confirmed } ∧
        t.slot (1 - s.hub.booted) = { FwSlot.reset with failure := (s.slot (1 - s.hub.booted)).failure } ∧ t.hub.settings = s.hub.settings.set (1 - s.hub.inUse) Settings.reset ∧
        t.hub.rollMin = max s.hub.rollMin (min 64 (s.slot s.hub.booted).rollback.toNat)) ∧
      (Claims.Only [] m → s.hub.booted < 2 → (s.slot s.hub.booted).st ≠ .trial → Claims.Answers (.fwConfirm m) 0x0075 Code.wrongState 0 [] m s s) ∧
      (∀ key : List Byte, s.hub.inUse < s.hub.settings.length →
        let ids := fun (l : List Agent) => { s with hub := { s.hub with settings := s.hub.settings.set s.hub.inUse { s.settings with agents := l } } }
        let id := Msg.arg64 0 m
        let known := s.settings.agents.any fun x => x.id == id
        (id ≠ 0 → 1 ≤ (a 2).toNat → (a 2).toNat ≤ 3 → key.length = 57 → (bytesOf (Msg.argList 3 15 m)) = key ++ [0, 0, 0] → Claims.Only (List.range 18) m →
          (known = true → Claims.Answers (.keyEnrol m) 0x0076 Code.ok 0 [] m s (ids (s.settings.agents.map fun b => if b.id = id then ⟨id, (a 2).setWidth 2, key⟩ else b))) ∧
          (known = false → s.settings.agents.length < 64 → Claims.Answers (.keyEnrol m) 0x0076 Code.ok 0 [] m s (ids (s.settings.agents ++ [⟨id, (a 2).setWidth 2, key⟩]))) ∧
          (known = false → 64 ≤ s.settings.agents.length → Claims.Answers (.keyEnrol m) 0x0076 Code.keyStoreFull 0 [] m s s)) ∧
        (Claims.Only [0, 1] m → known = true → (∃ x ∈ s.settings.agents, x.id ≠ id ∧ x.right = 3) →
          Claims.Answers (.keyRemove m) 0x0077 Code.ok 0 [] m s (ids (s.settings.agents.filter fun x => x.id != id))) ∧
        (Claims.Only [0, 1] m → known = false → Claims.Answers (.keyRemove m) 0x0077 Code.keyUnknown 0 [] m s s) ∧
        (Claims.Only [0, 1] m → (∃ x ∈ s.settings.agents, x.id = id ∧ x.right = 3) → (∀ x ∈ s.settings.agents, x.right = 3 → x.id = id) →
          Claims.Answers (.keyRemove m) 0x0077 Code.badArgument 0 [] m s s)) ∧
      (Claims.Only [0] m → Claims.Answers (.keyList m) 0x0078 Code.ok 0 (Claims.page 16 (a 0).toNat (s.settings.agents.map Agent.bytes)) m s s ∧
        Claims.Answers (.identityCert m) 0x007B Code.ok 0 (Claims.page 120 (a 0).toNat (certRecords "identity")) m s s) ∧
      (Claims.Only (List.range 9) m →
        let nonce := bytesOf (Msg.argList 1 8 m)
        let half := fun (i : Instr) (code : BitVec 16) (body : List Byte) =>
          (a 0 = 0 → Claims.Answers i code Code.ok 0 (wordsOf (body.length / 4) body) m s s) ∧
          (a 0 = 1 → Claims.Answers i code Code.ok 0 (wordsOf 30 (padTo 120 ((Config.ed448Sign "identity" (textBytes "HNL-ATTEST") body).take 114))) m s s)
        ((s.slot s.hub.booted).factory = false → (s.slot s.hub.booted).st ≠ .empty →
          half (.attest m) 0x0079 (s.attestBody 1 0 nonce (shake256 32 (s.slot s.hub.booted).bytes))) ∧
        (m.job ≠ 0 → (s.job m.job).started = true → half (.attestRun m) 0x007A (s.attestBody 2 m.job.toNat nonce
          (shake256 32 (s.runRecord m.job ++ (s.job m.job).runLog.flatMap LogEntry.bytes))))))

/-- R486, R489, R490, R504, R515, R516, R518, R520, R522, R523: what the commands of the margin controller, of the pair and of the meter do, in the states that take
them; in any other state a pair command ends with WRONG_STATE and the code of the state. -/
def Obligations.ModuleCommandsAct : Prop :=
  ∀ (s : State) (m : Msg), Claims.Hub m s →
    let a := fun (n : Nat) => m.args.getD n 0
    let x := s.margin
    let applied := fun (y : Margin) => (List.range 4).map fun d => if (y.ramps.any fun (r : Nat × Nat) => r.1 == d) then 85 else
      min y.powerCap (min (y.capThermal.getD d 145) (y.capMax.getD d 145))
    let power := BitVec.ofNat 8 (PowerSt.code x.power)
    let still := (∀ d : Die, (s.die d).going = [] ∧ (s.die d).remote = []) ∧ ∀ p : Port, (s.port p).phase ≠ .active
    (Claims.Only [0, 1] m → 85 ≤ (a 1).toNat → (a 1).toNat ≤ 145 → (a 0).toNat ≤ 4 →
      let y := { x with capMax := if a 0 = 4 then List.replicate 4 (a 1).toNat else x.capMax.set (a 0).toNat (a 1).toNat }
      let below := fun (cap : Nat → Nat) => (List.range 4).any fun d => decide (cap d < y.capMax.getD d 145)
      let tp := below fun _ => x.powerCap
      let tt := below fun d => x.capThermal.getD d 145
      ∃ v, Claims.Answers (.setCapMax m) 0x0080 Code.ok 0 [] m s v ∧
        v = { s with hub := v.hub, margin := { y with capApplied := applied y, throttleP := tp, throttleT := tt } } ∧
        (tp = false ∨ x.throttleP = true → tt = false ∨ x.throttleT = true → v.hub = s.hub) ∧
        (tp = true → x.throttleP = false → tt = false ∨ x.throttleT = true → Claims.Logs Code.throttlePower false false s v)) ∧
    ((a 1).toNat < 85 ∨ 145 < (a 1).toNat ∨ 4 < (a 0).toNat → Claims.Answers (.setCapMax m) 0x0080 Code.badArgument 0 [] m s s) ∧
    (Claims.Only [0, 1] m → (a 0).toNat ≤ 3 → 700 ≤ (a 1).toNat → (a 1).toNat ≤ 800 → (a 1).toNat % 5 = 0 → x.coreOn = true →
      let y := { x with ramps := (x.ramps.filter fun (r : Nat × Nat) => r.1 != (a 0).toNat) ++ [((a 0).toNat, (a 1).toNat)] }
      Claims.Answers (.setVcore m) 0x0081 Code.ok 0 [] m s { s with margin := { y with capApplied := applied y } }) ∧
    (Claims.Only [0, 1] m → (a 0).toNat ≤ 3 → 700 ≤ (a 1).toNat → (a 1).toNat ≤ 800 → (a 1).toNat % 5 = 0 → x.coreOn = false →
      Claims.Answers (.setVcore m) 0x0081 Code.ok 0 [] m s { s with margin := { x with vset := x.vset.set (a 0).toNat (a 1).toNat } }) ∧
    ((a 1).toNat < 700 ∨ 800 < (a 1).toNat ∨ (a 1).toNat % 5 ≠ 0 → Claims.Answers (.setVcore m) 0x0081 Code.badArgument 0 [] m s s) ∧
    (Claims.Only [0] m → a 0 = 1 → x.power ≠ .hubUp → Claims.Answers (.modulePower m) 0x0082 Code.wrongState power [] m s s) ∧
    (Claims.Only [0] m → a 0 = 1 → x.power = .hubUp → x.bootDone = true → x.opStage = true → x.downCause ≠ Code.vinLow → x.seqStep ≠ 1 → Claims.Answers (.modulePower m) 0x0082 Code.ok 0 [] m s
      { s with margin := { x with power := .powering, dramOn := true, coreOn := false, released := 0, seqStep := 2, railAt := s.time, downCause := 0 } }) ∧
    (Claims.Only [0] m → a 0 = 1 → x.power = .hubUp → x.bootDone = false ∨ x.opStage = false ∨ x.seqStep = 1 → Claims.Answers (.modulePower m) 0x0082 Code.ok 0 [] m s s) ∧
    (Claims.Only [0] m → a 0 = 0 → x.power ≠ .tripped → s.jobs = [] → still → ∃ v, Claims.Answers (.modulePower m) 0x0082 Code.ok 0 [] m s v ∧
      v = { s with clusters := v.clusters, dies := v.dies, ports := v.ports, margin := { x with
        power := .poweringDown, released := 0, seqStep := 0, ramps := [], hbOut := false, downTo := .standby, downCause := 0, latch := true } } ∧ Claims.Held v) ∧
    (Claims.Only [0] m → a 0 = 0 → x.power = .tripped → Claims.Answers (.modulePower m) 0x0082 Code.ok 0 [] m s { s with margin := { x with latch := true } }) ∧
    (Claims.Only [] m →
      (x.power = .on ∨ x.power = .powering → s.jobs = [] → still → ∃ t, exec (.moduleReset m) s = .next t ∧ Claims.Held t ∧
        t = { s with clusters := t.clusters, dies := t.dies, ports := t.ports, hub := t.hub, outbox := s.outbox ++ [.reply 0x0083 Code.ok m.seq 0 []], margin := { x with
          rstVirtual := true, virtualAt := s.time, latch := false, hubHeld := true, power := .poweringDown, released := 0, seqStep := 0, ramps := [], hbOut := false
          downTo := .hubUp, downCause := Code.resetRequested } } ∧ Claims.Logs Code.resetRequested false false s t) ∧
      (x.power ≠ .tripped → Claims.Answers (.clearTrip m) 0x0085 Code.wrongState power [] m s s) ∧
      (x.power = .tripped → s.tripStays = true → Claims.Answers (.clearTrip m) 0x0085 Code.wrongState 0x06 [] m s s) ∧
      (x.power = .tripped → s.tripStays = false → x.bootDone = true → x.opStage = true → x.downCause ≠ Code.vinLow → x.seqStep ≠ 1 → Claims.Answers (.clearTrip m) 0x0085 Code.ok 0 [] m s
        { s with margin := { x with power := .powering, dramOn := true, coreOn := false, released := 0, seqStep := 2, railAt := s.time, downCause := 0 } }) ∧
      (x.power = .tripped → s.tripStays = false → x.bootDone = false ∨ x.opStage = false ∨ x.seqStep = 1 → Claims.Answers (.clearTrip m) 0x0085 Code.ok 0 [] m s
        { s with margin := { x with power := .hubUp } })) ∧
    (∀ d : Die, Claims.Only [0] m → a 0 = d.setWidth 32 → s.jobs = [] → (s.die d).counters = [] → (s.die d).going = [] → (s.die d).remote = [] →
      (∀ p : Port, Port.die p = d → (s.port p).phase ≠ .active) → ∃ v, Claims.Answers (.dieReset m) 0x0084 Code.ok 0 [] m s v ∧
        v = { s with dies := v.dies, ports := v.ports, margin := { x with hbOut := false } } ∧
        (∀ q, v.die q = if q = d then { s.die d with mbx := [], done := 0, busy := 0, inReset := true, resetAt := s.time } else s.die q) ∧
        ∀ p, if Port.die p = d ∧ s.hasPort p = true then (v.port p).phase = .disabled ∧ (v.port p).role = (s.port p).role else v.port p = s.port p) ∧
    (Claims.Only [0] m → Claims.Answers (.readTripLog m) 0x0086 Code.ok 0 (Claims.page 32 (a 0).toNat (x.trips.map TripRec.bytes)) m s s) ∧
    (let st := s.pair.st.code.setWidth 8
     let sound := s.badWords = [] ∧ s.weakWords = [] ∧ s.armed = []
     let image := fun (v : State) (no : JobNo) (detail : DWord) (p : BitVec 9) (bs : List Byte) => ∃ g h : Frame, v.fab = { s.fab with selfEgress := [g, h] } ∧
       (∀ f ∈ [g, h], f.kind = 8 ∧ f.job = no ∧ f.detail = detail ∧ f.offset = 0 ∧ f.dstModule = p) ∧
       g.ident = 7 ∧ g.cls = 3 ∧ g.payload = bs ∧ h.ident = 3 ∧ h.cls = 1 ∧ h.payload = []
     (Claims.Only [] m → ∃ res, Claims.Answers (.pairStatus m) 0x0090 Code.ok 0 res m s s ∧ res.length = 7 ∧ res.getD 0 0 = s.pair.st.code.setWidth 32 ∧
       (∀ p, s.partner = some p → res.getD 1 0 = p.setWidth 32) ∧ res.getD 2 0 = BitVec.ofNat 32 (HbSt.code x.hbSt) ∧
       res.getD 5 0 = BitVec.ofNat 32 (s.pair.recUnits.head?.getD 0xFFFF) ∧ res.getD 6 0 = s.hub.eventSeq) ∧
     (Claims.Only [0, 1, 2, 3, 4] m → (a 0).toNat < 2 ^ 17 → Claims.Answers (.fmRegister m) 0x0091 Code.ok 0 [] m s
       { s with hub := { s.hub with settings := s.hub.settings.set s.hub.inUse { s.settings with fmAddr := some [a 0, a 1, a 2, a 3, a 4] } } }) ∧
     (Claims.Only [1, 2] m → (a 1).toNat ≤ 3 → s.pair.st ≠ .partnerLost → Claims.Answers (.failover m) 0x0092 Code.wrongState st [] m s s) ∧
     (Claims.Only [1, 2] m → (a 1).toNat ≤ 3 → s.pair.st = .partnerLost → s.jobs = [] → s.pair.holds = [] → Claims.Answers (.failover m) 0x0092 Code.ok 0 [] m s
       { s with pair := { s.pair with foMapping := (a 1).toNat, st := .takeover } }) ∧
     (Claims.Only [] m →
       (s.pair.st ≠ .solo → Claims.Answers (.resync m) 0x0093 Code.wrongState st [] m s s) ∧
       (s.pair.st = .solo → s.pair.partnerSt ≠ 0 → Claims.Answers (.resync m) 0x0093 Code.pairNotReady 0 [] m s s) ∧
       (∀ y g p, s.pair.st = .solo → s.pair.partnerSt = 0 → s.pair.shadows = [y] → y.copy = [g] → s.partner = some p → 0 < y.length → y.length ≤ 4096 → sound → ∃ v, exec (.resync m) s = .next (State.dispatchOwn v) ∧
         v = { s with outbox := s.outbox ++ [.reply 0x0093 Code.ok m.seq 0 []], dies := v.dies, fab := v.fab, pair := { s.pair with st := .resync, resyncLeft := [y.shard] } } ∧
         image v y.job (y.shard.setWidth 64 ||| (y.st.setWidth 64 <<< 32)) p (s.read g.toNat y.length)) ∧
       (s.pair.st ≠ .fenced ∨ (∃ e ∈ s.jobs, e.2.st ≠ .none ∧ e.2.st ≠ .loaded) → Claims.Answers (.pairUnfence m) 0x0095 Code.wrongState st [] m s s) ∧
       (s.pair.st = .fenced → (∀ e ∈ s.jobs, e.2.st = .none ∨ e.2.st = .loaded) → Claims.Answers (.pairUnfence m) 0x0095 Code.ok 0 [] m s
         { s with pair := { s.pair with st := .unpaired, restoring := false, resyncLeft := [], solo := false } }) ∧
       (s.pair.st ≠ .paired → s.pair.st ≠ .recovering → Claims.Answers (.declareLost m) 0x0096 Code.wrongState st [] m s s) ∧
       (s.pair.st = .paired → Claims.Calm s → (∀ e ∈ s.jobs, e.2.proofRole = 0) → ∃ t, exec (.declareLost m) s = .next t ∧
         t = { s with outbox := s.outbox ++ [.reply 0x0096 Code.ok m.seq 0 []], hub := t.hub, pair := { s.pair with st := .partnerLost, lastTrig := some s.time } } ∧
         Claims.Logs Code.partnerLost true false s t)) ∧
     (Claims.Only [1] m →
       (s.pair.st ≠ .paired → s.pair.st ≠ .fenced → Claims.Answers (.restorePartner m) 0x0094 Code.wrongState st [] m s s) ∧
       (∀ h p, s.pair.st = .paired ∨ s.pair.st = .fenced → m.job ≠ 0 → (s.job m.job).st = .stopped → s.pair.holds = [h] → h.job = m.job → a 1 = h.shard ∨ a 1 = 0xFFFFFFFF →
         0 < h.length → h.length ≤ 4096 → s.partner = some p → sound → ∃ v, exec (.restorePartner m) s = .next (State.dispatchOwn v) ∧
         v = { s with outbox := s.outbox ++ [.reply 0x0094 Code.ok m.seq 0 []], dies := v.dies, fab := v.fab, pair := { s.pair with restoring := true, resyncLeft := [h.shard] } } ∧
         image v h.job (h.shard.setWidth 64 ||| (h.st.setWidth 64 <<< 32)) p (s.read h.base.toNat h.length)))) ∧
    (let asks := fun (i : Instr) (code : BitVec 16) => exec i s = .next { s with meter := { s.meter with waiting := some (code, m, s.time) } }
     (Claims.Only [] m → asks (.meterInfo m) 0x00A0 ∧ asks (.meterPubkey m) 0x00A2) ∧
     (Claims.Only [0, 1, 2] m → (a 2).toNat < 2 → asks (.meterRead m) 0x00A1) ∧
     (Claims.Only [0] m → asks (.meterCert m) 0x00A3))

/-- R495 to R498, R500, R501, R504, R505: the meter numbers its records, each with its totals, its label and the hub's labels, and keeps the latest 8,192; a seal
break is latched; no record is written without power, and one second of a minute has one INTERVAL record, before the marker that comes
with it; one instant has one energy (R499). The hub tells the meter the network time once
per second. The hub copies records, reports a SEAL record and, once, a meter that does not
answer. A command ends with the meter's answer, or after 100 ms with METER_ABSENT. -/
def Obligations.MeterRecordsAndAnswers : Prop :=
  ∀ (s : State) (m : MeterSample) (job : JobNo) (module : BitVec 16), s.quiet = true →
    let x := s.meter
    let r := { m with ms := max x.ms m.ms, energy := if m.ms ≤ x.ms ∨ m.energy.toNat < x.energy.toNat then x.energy else m.energy }
    let outside := m.range || decide (m.vmin.toNat < 4000) || decide (6200 < m.vmax.toNat) || decide (20000 < m.imax.toNat) || decide (m.imax.toNat < 250)
    let kept := fun (l : Option (DWord × Nat)) => l.filter fun e => decide (r.ms ≤ e.2 + 2000)
    let writes := fun (i : Instr) (kind : Byte) (deferred : Bool) (job : JobNo) (y : Meter) =>
      let e : MeterRec := ⟨kind, y.broken, (kept y.label).isNone, outside, deferred, BitVec.ofNat 64 x.nextSeq, BitVec.ofNat 64 (r.ms / 1000),
        ((kept y.label).map (·.1)).getD 0, r.energy, r.energy - x.lastTotal, job, y.module, BitVec.ofNat 32 (r.ms - x.lastMs), m.vmin, m.vmax, m.pmax, m.imax⟩
      exec i s = .next { s with meter := { y with
        records := (x.records ++ [e]).drop (x.records.length + 1 - 8192), nextSeq := x.nextSeq + 1, energy := r.energy, ms := r.ms, lastMs := r.ms, lastTotal := r.energy } }
    (x.up = true →
      (r.ms / 1000 % 60 = 0 → x.lastMin ≠ some (r.ms / 1000) → writes (.meterInterval m) 1 false 0 { x with lastMin := some (r.ms / 1000) }) ∧
      (r.ms / 1000 % 60 ≠ 0 ∨ x.lastMin = some (r.ms / 1000) → exec (.meterInterval m) s = .next s) ∧
      (r.ms / 1000 % 60 ≠ 0 ∨ x.lastMin = some (r.ms / 1000) →
        writes (.meterJobMarker true false job module m) 2 false job { x with label := some (BitVec.ofNat 64 s.time, r.ms), module := module } ∧
        ∀ d, writes (.meterJobMarker false d job module m) 3 d job { x with label := some (BitVec.ofNat 64 s.time, r.ms), module := module }) ∧
      (∀ o d t, exec (.meterInterval m) s = .next t → exec (.meterJobMarker o d job module m) s = exec (.meterJobMarker o d job module m) t) ∧
      (x.broken = false → writes (.meterSealBreak m) 4 false 0 { x with broken := true }) ∧
      (x.broken = true → exec (.meterSealBreak m) s = .next s) ∧
      writes (.meterPowerLoss m) 6 false 0 { x with up := false } ∧
      exec (.meterPowerUp m) s = .next s) ∧
    (x.up = false → writes (.meterPowerUp m) 5 false 0 { x with up := true, label := none } ∧
      ∀ i ∈ [Instr.meterInterval m, .meterJobMarker true false job module m, .meterSealBreak m, .meterPowerLoss m], exec i s = .next s) ∧
    ∀ now, s.hub.waiting = [] →
      let u := s.advanceTo now
      (let due := u.margin.hubOn = true ∧ ∀ t0, u.meter.toldAt = some t0 → t0 + 1000000000 ≤ u.time
       let tells := fun (y : Meter) => exec (.meterTimeLabel m now) s = .next { u with outbox := u.outbox ++ [.label (BitVec.ofNat 64 u.time)], meter := y }
       (due → u.meter.up = true → tells { u.meter with
         toldAt := some u.time, label := some (BitVec.ofNat 64 u.time, max u.meter.ms m.ms), ms := max u.meter.ms m.ms
         energy := if m.ms ≤ u.meter.ms ∨ m.energy.toNat < u.meter.energy.toNat then u.meter.energy else m.energy }) ∧
       (due → u.meter.up = false → tells { u.meter with toldAt := some u.time }) ∧
       (¬ due → exec (.meterTimeLabel m now) s = .next u)) ∧
      (u.meter.lost = false → ∃ t, exec (.meterLost now) s = .next t ∧ t = { u with hub := t.hub, meter := { u.meter with lost := true } } ∧
        Claims.Logs Code.meterLost false false u t) ∧
      (u.meter.lost = true → exec (.meterLost now) s = .next u) ∧
      (∀ r, r ∈ u.meter.records → (∀ q ∈ u.meter.records, q.seq = r.seq → q = r) → ∃ t, exec (.meterReply (.record r.seq) now) s = .next t ∧
        t = { u with hub := t.hub, meter := { u.meter with lost := false, copies := u.meter.copies ++ [r], readUpTo := max u.meter.readUpTo (r.seq.toNat + 1) } } ∧
        (r.kind = 4 → Claims.Logs Code.sealBroken false false u t) ∧ (r.kind ≠ 4 → t.hub = u.hub)) ∧
      (u.meter.waiting = none → exec (.meterReply .command now) s = .next { u with meter := { u.meter with lost := false } }) ∧
      ∀ code (q : Msg) t0, u.meter.waiting = some (code, q, t0) → q.path = .internal →
        let answers := fun (status : BitVec 16) (res : List Word) => exec (.meterReply .command now) s = .next { u with
          outbox := u.outbox ++ [.reply code status q.seq 0 res], meter := { u.meter with lost := false, waiting := none } }
        let w := fun (v : DWord) => [v.setWidth 32, (v >>> 32).setWidth 32]
        (∀ first last, code = 0x00A0 → u.meter.records.head? = some first → u.meter.records.getLast? = some last →
          answers Code.ok (w u.meter.serial ++ w u.meter.firmware ++ [if u.meter.broken then 1 else 0] ++ w last.seq ++ w first.seq)) ∧
        (code = 0x00A1 → (∀ r, u.meter.records.find? (fun r => r.seq == Msg.arg64 0 q) = some r →
            (q.args.getD 2 0 = 0 → answers Code.ok (wordsOf 30 (Meter.body r u.meter))) ∧
            (q.args.getD 2 0 ≠ 0 → answers Code.ok (wordsOf 30 (padTo 120 ((Config.ed448Sign "meter" (textBytes "HNL-METER") (Meter.body r u.meter)).take 114))))) ∧
          ((∀ r ∈ u.meter.records, r.seq ≠ Msg.arg64 0 q) →
            (u.meter.nextSeq ≤ (Msg.arg64 0 q).toNat → answers Code.badArgument []) ∧
            (∀ first, (Msg.arg64 0 q).toNat < u.meter.nextSeq → u.meter.records.head? = some first → answers Code.meterGone (w first.seq)))) ∧
        (code = 0x00A2 → answers Code.ok (wordsOf 32 (padTo 128 ((Config.publicKey "meter").take 57)))) ∧
        (code = 0x00A3 → answers Code.ok (Claims.page 120 (q.args.getD 0 0).toNat (certRecords "meter"))) ∧
        (t0 + 100000000 ≤ u.time → u.meter.lost = true → exec (.meterCommandTimeout now) s = .next { u with
          outbox := u.outbox ++ [.reply code Code.meterAbsent q.seq 0 []], meter := { u.meter with waiting := none } }) ∧
        (u.time < t0 + 100000000 → exec (.meterCommandTimeout now) s = .next u)

/-- R457, R458, R470 to R473, R530, R541: a datagram to another UDP port is not taken. A malformed datagram, or one that no enrolled key signed, is discarded and counted. A new message for a die enters its queue,
a full queue answers QUEUE_FULL; the last one repeated gets its reply again, an older one STALE_SEQUENCE. A message for another module is
relayed without data to a module of the map, and its reply or RELAY_TIMEOUT goes to the agent. A queued message runs from a free mailbox.
R533, R534, R536: the boot ROM boots a slot that verifies, fails one that does not, and without a slot enters recovery mode. -/
def Obligations.DatagramsAndBoot : Prop :=
  ∀ (s : State) (now : Nat), s.quiet = true →
    let u := s.advanceTo now
    let runs := u.margin.hubOn = true ∧ u.margin.hubHeld = false
    let refused := fun (i : Instr) (w : State) => ∃ t, exec i s = .next t ∧ t = { w with freeCtr := u.freeCtr + 1, hub := t.hub } ∧
      t.hub.refusedDg = u.hub.refusedDg + 1 ∧ t.hub.eventSeq = u.hub.eventSeq + 1 ∧
      (t.hub.events.getLast?.map fun e => e.detail) = some (BitVec.ofNat 32 (u.hub.refusedDg + 1))
    let sends := fun (i : Instr) (svc : Bool) (g : Datagram) (bytes : List Byte) =>
      exec i s = .next { u with outbox := u.outbox ++ [.datagram svc g.srcAddr g.srcPort bytes] }
    (∀ g : Datagram, runs →
      let p := parseDg g.bytes
      let tells := fun (i : Instr) (svc : Bool) (status : BitVec 16) => sends i svc g (u.replyDatagram p.code false p.agent p.msg ⟨status, 0, []⟩)
      (∀ e ∈ [((Instr.mgmtDatagram g now), false, [0x0020#16]), (.serviceDatagram g now, true, [0x0020#16, 0x0072#16])], u.hub.recovery = false →
        let udp := if e.2.1 then u.settings.svcPort else u.settings.mgmtPort
        (g.dstPort ≠ udp → exec e.1 s = .next u) ∧
        (g.dstPort = udp → wellFormedDg false e.2.2 g.bytes = false → refused e.1 u) ∧
        (g.dstPort = udp → wellFormedDg false e.2.2 g.bytes = true → u.signer g.bytes = none → u.bootstraps g.bytes = false → refused e.1 u) ∧
        (∀ agent path, g.dstPort = udp → wellFormedDg false e.2.2 g.bytes = true → u.signer g.bytes = some agent → p.module = u.ownModule.toNat →
          path = (if e.2.1 then Path.service agent.id agent.right else Path.mgmt agent.id agent.right) →
          (∀ q, u.hub.agentSeqs = [q] → q.agent = p.agent →
            (p.msg.seq = q.seq → q.reply ≠ [] → sends e.1 e.2.1 g q.reply) ∧
            (32767 < (p.msg.seq - q.seq).toNat → tells e.1 e.2.1 Code.staleSequence)) ∧
          (∀ d : Die, (∀ q, u.hub.agentSeqs = [q] → q.agent = p.agent ∧ 1 ≤ (p.msg.seq - q.seq).toNat ∧ (p.msg.seq - q.seq).toNat ≤ 32767) → u.hub.agentSeqs.length ≤ 1 →
            p.msg.target = 4#4 + d.setWidth 4 →
            let entry : AgentSeq := ⟨p.agent, p.msg.seq, [], g.srcAddr, g.srcPort, none⟩
            ((u.die d).queue.length < 256 → exec e.1 s = .next { u.setDie d { u.die d with queue := (u.die d).queue ++ [(p.code, { p.msg with path := path })] } with
              hub := { u.hub with agentSeqs := [entry] } }) ∧
            (256 ≤ (u.die d).queue.length → p.agent = agent.id →
              let b := u.replyDatagram p.code false p.agent { p.msg with path := path } ⟨Code.queueFull, 0, []⟩
              exec e.1 s = .next { u with outbox := u.outbox ++ [.datagram e.2.1 g.srcAddr g.srcPort b], hub := { u.hub with agentSeqs := [{ entry with reply := b }] } })))) ∧
      (u.hub.recovery = false → g.dstPort = u.settings.mgmtPort → wellFormedDg false [0x0020] g.bytes = true →
        (u.bootstraps g.bytes = true → u.signer g.bytes = none → p.module = u.ownModule.toNat → tells (.mgmtDatagram g now) false Code.servicePortOnly) ∧
        ((u.signer g.bytes).isSome = true → p.module ≠ u.ownModule.toNat →
          (p.dataLen ≠ 0 → tells (.mgmtDatagram g now) false Code.notRelayable) ∧
          (∀ map, p.dataLen = 0 → u.fab.map = some map →
            ((map.entry p.module).valid = false → tells (.mgmtDatagram g now) false Code.relayUnreachable) ∧
            ((map.entry p.module).valid = true → ∃ v f, exec (.mgmtDatagram g now) s = .next (State.dispatchOwn v) ∧
              v = { u with hub := v.hub, fab := { u.fab with selfEgress := [f] } } ∧
              v.hub = { u.hub with relays := u.hub.relays ++ [⟨BitVec.ofNat 9 p.module, p.agent, g.srcAddr, g.srcPort, p.msg.seq, g.bytes, u.time⟩] } ∧
              f.kind = 9 ∧ f.cls = 4 ∧ f.plen = 13 ∧ f.job = 0 ∧ f.ident = 1 ∧ f.dstPort = 0x3F ∧ f.dstModule.toNat = p.module ∧ f.detail = u.ownModule.setWidth 64 ∧
              f.payload.length = 416))))) ∧
    (u.margin.hubOn = false → ∀ g : Datagram, exec (.mgmtDatagram g now) s = .next u ∧ exec (.serviceDatagram g now) s = .next u) ∧
    (∀ f : Frame, let w := u.unbox .hub f
      u.behind .hub f = false →
      (runs → u.hub.recovery = false → wellFormedDg true [] (f.payload.take 402) = false → refused (.relayRequest f now) w) ∧
      (∀ agent (d : Die), let own := withRelayed false (f.payload.take 402)
        let p := parseDg own
        runs → u.hub.recovery = false → wellFormedDg true [] (f.payload.take 402) = true → p.module = u.ownModule.toNat → u.signer own = some agent →
        u.hub.agentSeqs = [] → p.msg.target = 4#4 + d.setWidth 4 → (u.die d).queue.length < 256 →
        exec (.relayRequest f now) s = .next { w.setDie d { u.die d with queue := (u.die d).queue ++ [(p.code, { p.msg with path := .relay agent.id agent.right })] } with
          hub := { u.hub with agentSeqs := [⟨p.agent, p.msg.seq, [], [], 0, some (f.detail.setWidth 9)⟩] } }) ∧
      (∀ x, u.hub.relays = [x] → let p := parseDg (f.payload.take 402)
        (x.target.toNat = p.module → x.agent = p.agent → x.seq = p.msg.seq → exec (.relayReply f now) s = .next { w with
          hub := { u.hub with relays := [] }, outbox := u.outbox ++ [.datagram false x.srcAddr x.srcPort (f.payload.take 402)] }) ∧
        (x.agent ≠ p.agent → exec (.relayReply f now) s = .next w))) ∧
    (∀ x, u.hub.relays = [x] →
      (x.sent + 2000000000 ≤ u.time → exec (.relayTimeout x.target now) s = .next { u with hub := { u.hub with relays := [] }, outbox := u.outbox ++
        [.datagram false x.srcAddr x.srcPort (u.replyDatagram (parseDg x.msg).code false (parseDg x.msg).agent (parseDg x.msg).msg ⟨Code.relayTimeout, 0, []⟩)] }) ∧
      (u.time < x.sent + 2000000000 → exec (.relayTimeout x.target now) s = .next u)) ∧
    (∀ (d : Die) (m : Msg) rest, let x := s.die d
      x.inReset = false → x.busy = 0 → (Table.get Mailbox.reset 0 x.mbx).owned = false → x.queue = (0x0001, m) :: rest → x.remote = [] → m.path = .internal →
      s.hub.recovery = false → ∃ t, exec (.mailboxDispatch d) s = .next t ∧ t = { s with dies := t.dies, outbox := s.outbox ++ [.reply 0x0001 Code.ok m.seq 0 []] } ∧
        (∀ q, q ≠ d → t.die q = s.die q) ∧ t.die d = { x with queue := rest, mbx := (t.die d).mbx, done := x.done ||| 1 } ∧
        (Table.get Mailbox.reset 0 (t.die d).mbx).status = Code.ok ∧ (Table.get Mailbox.reset 0 (t.die d).mbx).doneSeq = m.seq ∧
        (Table.get Mailbox.reset 0 (t.die d).mbx).owned = false) ∧
    (∀ d : Die, (s.die d).queue = [] → exec (.mailboxDispatch d) s = .next s) ∧
    (u.margin.power = .hubUp → runs → u.margin.bootDone = false → u.hub.recovery = false → u.hub.slots.length = 2 → u.meter.openJobs = [] →
      (∀ k < 32, ∀ e ∈ (u.stack k).rowCounts, e.2 < 16) →
      ((∀ k < 2, (u.slot k).st ≠ .staged ∧ (u.slot k).st ≠ .confirmed ∧ (u.slot k).st ≠ .trial) →
        exec (.bootRomRun now) s = .next { u with hub := { u.hub with recovery := true } }) ∧
      (∀ k plain, k < 2 → (u.slot k).st = .confirmed → (u.slot (1 - k)).st = .empty ∨ (u.slot (1 - k)).st = .failed → (u.slot k).verify u.hub.rollMin = .ok plain →
        u.settings.fmt = (u.slot k).setFmt → ∃ t, exec (.bootRomRun now) s = .next t ∧
        t = { u with dies := t.dies, margin := { u.margin with bootDone := true, opStage := true }, hub := { u.hub with
          booted := k, recovery := false, running := (u.slot k).version, plain := plain } }) ∧
      (∀ k plain, k < 2 → (u.slot k).st = .staged → (u.slot (1 - k)).st = .confirmed → (u.slot k).verify u.hub.rollMin = .ok plain → u.hub.inUse < 2 → u.hub.settings.length = 2 →
        ∃ t, exec (.bootRomRun now) s = .next t ∧
        t = { u with dies := t.dies, margin := { u.margin with bootDone := true, opStage := true }, hub := t.hub } ∧ t.hub.booted = k ∧ t.hub.running = (u.slot k).version ∧
        t.slot k = { u.slot k with st := .trial } ∧ t.slot (1 - k) = u.slot (1 - k) ∧ t.hub.inUse = 1 - u.hub.inUse ∧ t.settings = { u.settings with fmt := (u.slot k).setFmt }) ∧
      (∀ k plain c, k < 2 → (u.slot k).st = .staged → (u.slot (1 - k)).st = .confirmed → (u.slot k).verify u.hub.rollMin = .error c → (u.slot (1 - k)).verify u.hub.rollMin = .ok plain →
        u.settings.fmt = (u.slot (1 - k)).setFmt → ∃ t, exec (.bootRomRun now) s = .next t ∧
        t = { u with dies := t.dies, margin := { u.margin with bootDone := true, opStage := true }, hub := t.hub } ∧ t.hub.booted = 1 - k ∧
        t.slot k = { u.slot k with st := .failed, failure := c } ∧ t.slot (1 - k) = u.slot (1 - k)))

/-- A step takes the command at the front of the queue and runs it on the module with the rest of the queue. On an empty queue 1 ns of
network time passes (the model's own choice, log entry 5). -/
def Obligations.StepTakesTheFrontCommand : Prop :=
  (∀ (c : Instr) (cs : List Instr) (s : State), s.pending = c :: cs → step s = exec c { s with pending := cs }) ∧
  ∀ s : State, s.pending = [] → ∃ t, step s = .next t ∧ t.pending = [] ∧ t.time = s.time + 1

namespace Sys2Proof.Claims

/-- Byte memory and the staging area are in their canonical form, and the job table lists each slot once, in rising order. -/
def Kept (s : State) : Prop := Memory.wf s.mem = true ∧ Memory.wf s.staging = true ∧ Rising s

end Sys2Proof.Claims

/-- R366, R392, R414, R415, R453, R492, R511: what registers show after reset where the spec gives their value, the pair state UNPAIRED, no
event, and an empty queue of commands; the module meets the invariant that every step keeps. -/
def Obligations.ResetShowsItsValues : Prop :=
  let r := fun (a : Nat) => State.reset.readReg a
  Claims.Kept State.reset ∧ State.reset.pending = [] ∧ State.reset.pair.st = .unpaired ∧ State.reset.alertLow = false ∧ State.reset.hub.events = [] ∧
  r 0x10000 = 0 ∧ r 0x10010 = 2048 * 65536 + 1024 ∧ r 0x10014 = 50 ∧ r 0x10018 = 500 ∧ r 0x1001C = 5000 ∧
  (∀ slot : BitVec 3, r (0x20000 + 32 * slot.toNat) = 0 ∧ r (0x2000C + 32 * slot.toNat) = 0xFFF) ∧
  r 0x30000 = 0x00030002 ∧ r 0x3000C = 85 ∧ r 0x30030 = 0x1E1E1E1E ∧ (∀ d : Die, r (0x30010 + 8 * d.toNat) = 145 * 65536 + 145 * 256 + 85) ∧
  (∀ (d : Die) (k : BitVec 4) (o : BitVec 6), r (0x10000000 * (d.toNat + 1) + 256 * k.toNat + 4 * o.toNat) = 0) ∧
  (∀ p : Port, State.reset.hasPort p = true →
    let wz := 0x10000000 * (p.toNat / 16 + 1) + 0x400000 + 256 * (p.toNat % 16)
    let tc := 0x10000000 * (p.toNat / 16 + 1) + 0x500000 + 512 * (p.toNat % 16)
    r wz = 1 ∧ r (wz + 4) = 0 ∧ r tc = 0x60401040 ∧ r (tc + 4) = 0x10 ∧ r (tc + 8) = 0x1F * 4096 + 0xFFF ∧ r (tc + 0x0C) = 31250 ∧
      r (tc + 0x10) = 12288 ∧ r (tc + 0x14) = 4 ∧ (∀ c < 3, r (tc + 0x20 + 16 * c) = 0 ∧ r (tc + 0x24 + 16 * c) = 0 ∧
      r (tc + 0x28 + 16 * c) = 16384 ∧ r (tc + 0x2C + 16 * c) = 32768) ∧ r (tc + 0x90) = 0x99)

/-- R7, R8, R9, R11, R25: every command completes in every state, with every operand: of all the constructors of Instr only SRAM_EXTERNAL_ACCESS has a
condition, that its cluster is enabled; at a cluster that the fuses disable, whose SRAM is not addressable, it stops. So also an event of a tile, an
echo or a rate step of the congestion control, a queue sample, a policer write, a drain, and every event of a port, which a disabled port ignores,
answers a next state. It leaves the fuses and the queue as they are, and network time does not run backwards. -/
def Obligations.EveryCommandTakesEffect : Prop :=
  (∀ (i : Instr) (s : State), (∀ cl a, i = .sramExternalAccess cl a → s.hasCluster cl = true) →
    ∃ t, exec i s = .next t ∧ t.pending = s.pending ∧ t.fuse = s.fuse ∧ s.time ≤ t.time) ∧
  ∀ (s : State) (cl : ClusterId) (a : ExtAccess), s.hasCluster cl = false → exec (.sramExternalAccess cl a) s = .fault .absentEngine

/-- Every step keeps byte memory and the staging area in their canonical form, so that equal memories are equal data, and the job table with
each slot once, in rising order, whatever the state. -/
def Obligations.EveryStepKeepsTheCanonicalForm : Prop :=
  ∀ s t : State, Claims.Kept s → step s = .next t → Claims.Kept t
end

