-- ==== Sys2Proof/Laws/Table.lean ====
section
/-! SUPPORT. Tables and byte memory: what a read gives after a write, and that every operation keeps the canonical form. -/

namespace Sys2Proof.Machine

variable {α : Type}

/-! ## Reads after writes -/

theorem Table.get_drop (d : α) (j k : Nat) (t : Table α) :
    Table.get d j (Table.drop k t) = if j = k then d else Table.get d j t := by
  induction t with
  | nil => simp [Table.drop, Table.get]
  | cons e t ih =>
    obtain ⟨i, w⟩ := e
    by_cases h : i = k
    · subst h
      have : Table.drop i ((i, w) :: t) = Table.drop i t := by simp [Table.drop]
      rw [this, ih]
      by_cases g : j = i
      · simp [g]
      · simp [g, Table.get, Ne.symm g]
    · have : Table.drop k ((i, w) :: t) = (i, w) :: Table.drop k t := by simp [Table.drop, h]
      rw [this]
      by_cases g : i = j
      · subst g; simp [Table.get, h]
      · simp [Table.get, g, ih]

theorem Table.get_put_same (d v : α) (k : Nat) (t : Table α) (h : ∀ e ∈ t, e.1 ≠ k) :
    Table.get d k (Table.put k v t) = v := by
  induction t with
  | nil => simp [Table.put, Table.get]
  | cons e t ih =>
    obtain ⟨i, w⟩ := e
    have hi : i ≠ k := h (i, w) (by simp)
    simp only [Table.put]
    split
    · simp [Table.get]
    · simp [Table.get, hi]
      exact ih fun e he => h e (by simp [he])

theorem Table.get_put_other (d v : α) (j k : Nat) (t : Table α) (h : j ≠ k) :
    Table.get d j (Table.put k v t) = Table.get d j t := by
  induction t with
  | nil => simp [Table.put, Table.get, Ne.symm h]
  | cons e t ih =>
    obtain ⟨i, w⟩ := e
    simp only [Table.put]
    split
    · simp [Table.get, Ne.symm h]
    · by_cases g : i = j <;> simp [Table.get, g, ih]

theorem Table.mem_drop {k : Nat} {t : Table α} {e : Nat × α} (h : e ∈ Table.drop k t) : e.1 ≠ k := by
  simpa [Table.drop] using (List.mem_filter.mp h).2

/-- A read after a write: the value at the key written, the old value at every other key. -/
theorem Table.get_set [DecidableEq α] (d v : α) (j k : Nat) (t : Table α) :
    Table.get d j (Table.set d k v t) = if j = k then v else Table.get d j t := by
  unfold Table.set
  split
  · rename_i h; rw [Table.get_drop, h]
  · split
    · rename_i h; subst h
      exact Table.get_put_same d v j _ fun e he => Table.mem_drop he
    · rename_i h
      rw [Table.get_put_other d v j k _ h, Table.get_drop, if_neg h]

@[simp] theorem Table.get_set_same [DecidableEq α] (d v : α) (k : Nat) (t : Table α) :
    Table.get d k (Table.set d k v t) = v := by simp [Table.get_set]

theorem Table.get_set_other [DecidableEq α] (d v : α) {j k : Nat} (t : Table α) (h : j ≠ k) :
    Table.get d j (Table.set d k v t) = Table.get d j t := by simp [Table.get_set, h]

theorem Table.drop_drop (k : Nat) (t : Table α) : Table.drop k (Table.drop k t) = Table.drop k t := by
  simp [Table.drop]

theorem Table.drop_put (k : Nat) (v : α) (t : Table α) : Table.drop k (Table.put k v t) = Table.drop k t := by
  induction t with
  | nil => simp [Table.put, Table.drop]
  | cons e t ih =>
    obtain ⟨i, w⟩ := e
    simp only [Table.put]
    split
    · simp [Table.drop]
    · by_cases g : i = k <;> simp_all [Table.drop]

/-- The last write to a key counts. -/
@[simp] theorem Table.set_set [DecidableEq α] (d u v : α) (k : Nat) (t : Table α) :
    Table.set d k v (Table.set d k u t) = Table.set d k v t := by
  have : Table.drop k (Table.set d k u t) = Table.drop k t := by
    unfold Table.set
    split
    · exact Table.drop_drop k t
    · rw [Table.drop_put, Table.drop_drop]
  unfold Table.set at *
  rw [this]

/-! ## The canonical form -/

theorem Table.wfFrom_mono [DecidableEq α] {d : α} {lo hi : Nat} {t : Table α} (h : Table.wfFrom d hi t = true) (hl : lo ≤ hi) :
    Table.wfFrom d lo t = true := by
  cases t with
  | nil => rfl
  | cons e t =>
    obtain ⟨i, w⟩ := e
    simp only [Table.wfFrom, Bool.and_eq_true, decide_eq_true_eq] at h ⊢
    exact ⟨⟨by omega, h.1.2⟩, h.2⟩

theorem Table.wfFrom_drop [DecidableEq α] {d : α} (k : Nat) {lo : Nat} {t : Table α} (h : Table.wfFrom d lo t = true) :
    Table.wfFrom d lo (Table.drop k t) = true := by
  induction t generalizing lo with
  | nil => rfl
  | cons e t ih =>
    obtain ⟨i, w⟩ := e
    simp only [Table.wfFrom, Bool.and_eq_true, decide_eq_true_eq] at h
    have hd := ih h.2
    by_cases g : i = k
    · have e : Table.drop k ((i, w) :: t) = Table.drop k t := by simp [Table.drop, g]
      rw [e]; exact Table.wfFrom_mono hd (by omega)
    · have e : Table.drop k ((i, w) :: t) = (i, w) :: Table.drop k t := by simp [Table.drop, g]
      rw [e]; simp [Table.wfFrom, hd, h.1.1, h.1.2]

theorem Table.wfFrom_put [DecidableEq α] {d v : α} {k lo : Nat} {t : Table α} (h : Table.wfFrom d lo t = true) (hv : v ≠ d)
    (hk : lo ≤ k) (hn : ∀ e ∈ t, e.1 ≠ k) : Table.wfFrom d lo (Table.put k v t) = true := by
  induction t generalizing lo with
  | nil => simp [Table.put, Table.wfFrom, hv, hk]
  | cons e t ih =>
    obtain ⟨i, w⟩ := e
    simp only [Table.wfFrom, Bool.and_eq_true, decide_eq_true_eq] at h
    have hi : i ≠ k := hn (i, w) (by simp)
    simp only [Table.put]
    split
    · rename_i g
      simp only [Table.wfFrom, Bool.and_eq_true, decide_eq_true_eq]
      exact ⟨⟨hk, hv⟩, ⟨by omega, h.1.2⟩, h.2⟩
    · rename_i g
      simp only [Table.wfFrom, Bool.and_eq_true, decide_eq_true_eq]
      exact ⟨h.1, ih h.2 (by omega) fun e he => hn e (by simp [he])⟩

/-- A write keeps the canonical form of a table. -/
theorem Table.wf_set [DecidableEq α] {d : α} (k : Nat) (v : α) {t : Table α} (h : Table.wf d t = true) :
    Table.wf d (Table.set d k v t) = true := by
  unfold Table.set
  split
  · exact Table.wfFrom_drop k h
  · rename_i g
    exact Table.wfFrom_put (Table.wfFrom_drop k h) g (Nat.zero_le k) fun e he => Table.mem_drop he

/-! ## Memory -/

/-- A byte read after a byte written. -/
theorem Memory.read_write (a b : Nat) (v : Byte) (m : Memory) :
    Memory.read a (Memory.write b v m) = if a = b then v else Memory.read a m := Table.get_set _ _ _ _ _

theorem Memory.wf_write (a : Nat) (v : Byte) {m : Memory} (h : m.wf = true) : (Memory.write a v m).wf = true := Table.wf_set a v h

theorem Memory.wf_writeN (a : Nat) (bs : List Byte) {m : Memory} (h : m.wf = true) : (Memory.writeN a bs m).wf = true := by
  induction bs generalizing a m with
  | nil => exact h
  | cons b bs ih => exact ih (a + 1) (Memory.wf_write a b h)

/-- A byte read after a run of bytes written: the written byte inside the run, the old byte outside. -/
theorem Memory.read_writeN (a b : Nat) (bs : List Byte) (m : Memory) :
    Memory.read a (Memory.writeN b bs m) = if b ≤ a ∧ a < b + bs.length then bs.getD (a - b) 0 else Memory.read a m := by
  induction bs generalizing b m with
  | nil => simp [Memory.writeN]
  | cons c cs ih =>
    rw [Memory.writeN, ih, Memory.read_write]
    by_cases h : a = b
    · subst h; simp
    · by_cases g : b + 1 ≤ a ∧ a < b + 1 + cs.length
      · have e : a - b = (a - (b + 1)) + 1 := by omega
        have g' : b ≤ a ∧ a < b + (c :: cs).length := by simp only [List.length_cons]; omega
        rw [if_pos g, if_pos g', e]; simp
      · have g' : ¬(b ≤ a ∧ a < b + (c :: cs).length) := by simp only [List.length_cons]; omega
        rw [if_neg g, if_neg g', if_neg h]

end Sys2Proof.Machine
end

