-- ==== Sys2Proof/Laws/State.lean ====
section
/-! SUPPORT. What each shared update of the state leaves as it was, and what reading a part gives after putting it. -/

namespace Sys2Proof.Machine

/-! ## Frames: every other field of the state is unchanged -/

@[simp] theorem State.setClu_frame (c : ClusterId) (v : Cluster) (s : State) :
  (s.setClu c v).pending = s.pending ∧ (s.setClu c v).freeCtr = s.freeCtr ∧ (s.setClu c v).outbox = s.outbox ∧
  (s.setClu c v).fuse = s.fuse ∧ (s.setClu c v).time = s.time ∧ (s.setClu c v).mem = s.mem ∧ (s.setClu c v).staging = s.staging ∧
  (s.setClu c v).badWords = s.badWords ∧ (s.setClu c v).weakWords = s.weakWords ∧ (s.setClu c v).engines = s.engines ∧
  (s.setClu c v).dies = s.dies ∧ (s.setClu c v).bars = s.bars ∧ (s.setClu c v).jobs = s.jobs ∧ (s.setClu c v).shards = s.shards ∧
  (s.setClu c v).windows = s.windows ∧ (s.setClu c v).hatchJobs = s.hatchJobs ∧ (s.setClu c v).armed = s.armed ∧
  (s.setClu c v).ports = s.ports ∧ (s.setClu c v).fab = s.fab ∧ (s.setClu c v).pair = s.pair ∧ (s.setClu c v).margin = s.margin ∧
  (s.setClu c v).meter = s.meter ∧ (s.setClu c v).hub = s.hub :=
  ⟨rfl, rfl, rfl, rfl, rfl, rfl, rfl, rfl, rfl, rfl, rfl, rfl, rfl, rfl, rfl, rfl, rfl, rfl, rfl, rfl, rfl, rfl, rfl⟩

@[simp] theorem State.modClu_frame (c : ClusterId) (g : Cluster → Cluster) (s : State) :
  (s.modClu c g).pending = s.pending ∧ (s.modClu c g).freeCtr = s.freeCtr ∧ (s.modClu c g).outbox = s.outbox ∧
  (s.modClu c g).fuse = s.fuse ∧ (s.modClu c g).time = s.time ∧ (s.modClu c g).mem = s.mem ∧ (s.modClu c g).staging = s.staging ∧
  (s.modClu c g).badWords = s.badWords ∧ (s.modClu c g).weakWords = s.weakWords ∧ (s.modClu c g).engines = s.engines ∧
  (s.modClu c g).dies = s.dies ∧ (s.modClu c g).bars = s.bars ∧ (s.modClu c g).jobs = s.jobs ∧ (s.modClu c g).shards = s.shards ∧
  (s.modClu c g).windows = s.windows ∧ (s.modClu c g).hatchJobs = s.hatchJobs ∧ (s.modClu c g).armed = s.armed ∧
  (s.modClu c g).ports = s.ports ∧ (s.modClu c g).fab = s.fab ∧ (s.modClu c g).pair = s.pair ∧ (s.modClu c g).margin = s.margin ∧
  (s.modClu c g).meter = s.meter ∧ (s.modClu c g).hub = s.hub :=
  ⟨rfl, rfl, rfl, rfl, rfl, rfl, rfl, rfl, rfl, rfl, rfl, rfl, rfl, rfl, rfl, rfl, rfl, rfl, rfl, rfl, rfl, rfl, rfl⟩

@[simp] theorem State.setEng_frame (p : Port) (v : Engine) (s : State) :
  (s.setEng p v).pending = s.pending ∧ (s.setEng p v).freeCtr = s.freeCtr ∧ (s.setEng p v).outbox = s.outbox ∧
  (s.setEng p v).fuse = s.fuse ∧ (s.setEng p v).time = s.time ∧ (s.setEng p v).mem = s.mem ∧ (s.setEng p v).staging = s.staging ∧
  (s.setEng p v).badWords = s.badWords ∧ (s.setEng p v).weakWords = s.weakWords ∧ (s.setEng p v).clusters = s.clusters ∧
  (s.setEng p v).dies = s.dies ∧ (s.setEng p v).bars = s.bars ∧ (s.setEng p v).jobs = s.jobs ∧ (s.setEng p v).shards = s.shards ∧
  (s.setEng p v).windows = s.windows ∧ (s.setEng p v).hatchJobs = s.hatchJobs ∧ (s.setEng p v).armed = s.armed ∧
  (s.setEng p v).ports = s.ports ∧ (s.setEng p v).fab = s.fab ∧ (s.setEng p v).pair = s.pair ∧ (s.setEng p v).margin = s.margin ∧
  (s.setEng p v).meter = s.meter ∧ (s.setEng p v).hub = s.hub :=
  ⟨rfl, rfl, rfl, rfl, rfl, rfl, rfl, rfl, rfl, rfl, rfl, rfl, rfl, rfl, rfl, rfl, rfl, rfl, rfl, rfl, rfl, rfl, rfl⟩

@[simp] theorem State.modEng_frame (p : Port) (g : Engine → Engine) (s : State) :
  (s.modEng p g).pending = s.pending ∧ (s.modEng p g).freeCtr = s.freeCtr ∧ (s.modEng p g).outbox = s.outbox ∧
  (s.modEng p g).fuse = s.fuse ∧ (s.modEng p g).time = s.time ∧ (s.modEng p g).mem = s.mem ∧ (s.modEng p g).staging = s.staging ∧
  (s.modEng p g).badWords = s.badWords ∧ (s.modEng p g).weakWords = s.weakWords ∧ (s.modEng p g).clusters = s.clusters ∧
  (s.modEng p g).dies = s.dies ∧ (s.modEng p g).bars = s.bars ∧ (s.modEng p g).jobs = s.jobs ∧ (s.modEng p g).shards = s.shards ∧
  (s.modEng p g).windows = s.windows ∧ (s.modEng p g).hatchJobs = s.hatchJobs ∧ (s.modEng p g).armed = s.armed ∧
  (s.modEng p g).ports = s.ports ∧ (s.modEng p g).fab = s.fab ∧ (s.modEng p g).pair = s.pair ∧ (s.modEng p g).margin = s.margin ∧
  (s.modEng p g).meter = s.meter ∧ (s.modEng p g).hub = s.hub :=
  ⟨rfl, rfl, rfl, rfl, rfl, rfl, rfl, rfl, rfl, rfl, rfl, rfl, rfl, rfl, rfl, rfl, rfl, rfl, rfl, rfl, rfl, rfl, rfl⟩

@[simp] theorem State.setDie_frame (d : Die) (v : DieState) (s : State) :
  (s.setDie d v).pending = s.pending ∧ (s.setDie d v).freeCtr = s.freeCtr ∧ (s.setDie d v).outbox = s.outbox ∧
  (s.setDie d v).fuse = s.fuse ∧ (s.setDie d v).time = s.time ∧ (s.setDie d v).mem = s.mem ∧ (s.setDie d v).staging = s.staging ∧
  (s.setDie d v).badWords = s.badWords ∧ (s.setDie d v).weakWords = s.weakWords ∧ (s.setDie d v).clusters = s.clusters ∧
  (s.setDie d v).engines = s.engines ∧ (s.setDie d v).bars = s.bars ∧ (s.setDie d v).jobs = s.jobs ∧
  (s.setDie d v).shards = s.shards ∧ (s.setDie d v).windows = s.windows ∧ (s.setDie d v).hatchJobs = s.hatchJobs ∧
  (s.setDie d v).armed = s.armed ∧ (s.setDie d v).ports = s.ports ∧ (s.setDie d v).fab = s.fab ∧ (s.setDie d v).pair = s.pair ∧
  (s.setDie d v).margin = s.margin ∧ (s.setDie d v).meter = s.meter ∧ (s.setDie d v).hub = s.hub :=
  ⟨rfl, rfl, rfl, rfl, rfl, rfl, rfl, rfl, rfl, rfl, rfl, rfl, rfl, rfl, rfl, rfl, rfl, rfl, rfl, rfl, rfl, rfl, rfl⟩

@[simp] theorem State.modDie_frame (d : Die) (g : DieState → DieState) (s : State) :
  (s.modDie d g).pending = s.pending ∧ (s.modDie d g).freeCtr = s.freeCtr ∧ (s.modDie d g).outbox = s.outbox ∧
  (s.modDie d g).fuse = s.fuse ∧ (s.modDie d g).time = s.time ∧ (s.modDie d g).mem = s.mem ∧ (s.modDie d g).staging = s.staging ∧
  (s.modDie d g).badWords = s.badWords ∧ (s.modDie d g).weakWords = s.weakWords ∧ (s.modDie d g).clusters = s.clusters ∧
  (s.modDie d g).engines = s.engines ∧ (s.modDie d g).bars = s.bars ∧ (s.modDie d g).jobs = s.jobs ∧
  (s.modDie d g).shards = s.shards ∧ (s.modDie d g).windows = s.windows ∧ (s.modDie d g).hatchJobs = s.hatchJobs ∧
  (s.modDie d g).armed = s.armed ∧ (s.modDie d g).ports = s.ports ∧ (s.modDie d g).fab = s.fab ∧ (s.modDie d g).pair = s.pair ∧
  (s.modDie d g).margin = s.margin ∧ (s.modDie d g).meter = s.meter ∧ (s.modDie d g).hub = s.hub :=
  ⟨rfl, rfl, rfl, rfl, rfl, rfl, rfl, rfl, rfl, rfl, rfl, rfl, rfl, rfl, rfl, rfl, rfl, rfl, rfl, rfl, rfl, rfl, rfl⟩

@[simp] theorem State.modCounter_frame (n : CounterName) (g : Counter → Counter) (s : State) :
  (s.modCounter n g).pending = s.pending ∧ (s.modCounter n g).freeCtr = s.freeCtr ∧ (s.modCounter n g).outbox = s.outbox ∧
  (s.modCounter n g).fuse = s.fuse ∧ (s.modCounter n g).time = s.time ∧ (s.modCounter n g).mem = s.mem ∧
  (s.modCounter n g).staging = s.staging ∧ (s.modCounter n g).badWords = s.badWords ∧ (s.modCounter n g).weakWords = s.weakWords ∧
  (s.modCounter n g).clusters = s.clusters ∧ (s.modCounter n g).engines = s.engines ∧ (s.modCounter n g).bars = s.bars ∧
  (s.modCounter n g).jobs = s.jobs ∧ (s.modCounter n g).shards = s.shards ∧ (s.modCounter n g).windows = s.windows ∧
  (s.modCounter n g).hatchJobs = s.hatchJobs ∧ (s.modCounter n g).armed = s.armed ∧ (s.modCounter n g).ports = s.ports ∧
  (s.modCounter n g).fab = s.fab ∧ (s.modCounter n g).pair = s.pair ∧ (s.modCounter n g).margin = s.margin ∧
  (s.modCounter n g).meter = s.meter ∧ (s.modCounter n g).hub = s.hub :=
  ⟨rfl, rfl, rfl, rfl, rfl, rfl, rfl, rfl, rfl, rfl, rfl, rfl, rfl, rfl, rfl, rfl, rfl, rfl, rfl, rfl, rfl, rfl, rfl⟩

@[simp] theorem State.modStack_frame (k : Nat) (g : Stack → Stack) (s : State) :
  (s.modStack k g).pending = s.pending ∧ (s.modStack k g).freeCtr = s.freeCtr ∧ (s.modStack k g).outbox = s.outbox ∧
  (s.modStack k g).fuse = s.fuse ∧ (s.modStack k g).time = s.time ∧ (s.modStack k g).mem = s.mem ∧
  (s.modStack k g).staging = s.staging ∧ (s.modStack k g).badWords = s.badWords ∧ (s.modStack k g).weakWords = s.weakWords ∧
  (s.modStack k g).clusters = s.clusters ∧ (s.modStack k g).engines = s.engines ∧ (s.modStack k g).bars = s.bars ∧
  (s.modStack k g).jobs = s.jobs ∧ (s.modStack k g).shards = s.shards ∧ (s.modStack k g).windows = s.windows ∧
  (s.modStack k g).hatchJobs = s.hatchJobs ∧ (s.modStack k g).armed = s.armed ∧ (s.modStack k g).ports = s.ports ∧
  (s.modStack k g).fab = s.fab ∧ (s.modStack k g).pair = s.pair ∧ (s.modStack k g).margin = s.margin ∧
  (s.modStack k g).meter = s.meter ∧ (s.modStack k g).hub = s.hub :=
  ⟨rfl, rfl, rfl, rfl, rfl, rfl, rfl, rfl, rfl, rfl, rfl, rfl, rfl, rfl, rfl, rfl, rfl, rfl, rfl, rfl, rfl, rfl, rfl⟩

@[simp] theorem State.setPort_frame (p : Port) (v : PortState) (s : State) :
  (s.setPort p v).pending = s.pending ∧ (s.setPort p v).freeCtr = s.freeCtr ∧ (s.setPort p v).outbox = s.outbox ∧
  (s.setPort p v).fuse = s.fuse ∧ (s.setPort p v).time = s.time ∧ (s.setPort p v).mem = s.mem ∧ (s.setPort p v).staging = s.staging ∧
  (s.setPort p v).badWords = s.badWords ∧ (s.setPort p v).weakWords = s.weakWords ∧ (s.setPort p v).clusters = s.clusters ∧
  (s.setPort p v).engines = s.engines ∧ (s.setPort p v).dies = s.dies ∧ (s.setPort p v).bars = s.bars ∧
  (s.setPort p v).jobs = s.jobs ∧ (s.setPort p v).shards = s.shards ∧ (s.setPort p v).windows = s.windows ∧
  (s.setPort p v).hatchJobs = s.hatchJobs ∧ (s.setPort p v).armed = s.armed ∧ (s.setPort p v).fab = s.fab ∧
  (s.setPort p v).pair = s.pair ∧ (s.setPort p v).margin = s.margin ∧ (s.setPort p v).meter = s.meter ∧ (s.setPort p v).hub = s.hub :=
  ⟨rfl, rfl, rfl, rfl, rfl, rfl, rfl, rfl, rfl, rfl, rfl, rfl, rfl, rfl, rfl, rfl, rfl, rfl, rfl, rfl, rfl, rfl, rfl⟩

@[simp] theorem State.modPort_frame (p : Port) (g : PortState → PortState) (s : State) :
  (s.modPort p g).pending = s.pending ∧ (s.modPort p g).freeCtr = s.freeCtr ∧ (s.modPort p g).outbox = s.outbox ∧
  (s.modPort p g).fuse = s.fuse ∧ (s.modPort p g).time = s.time ∧ (s.modPort p g).mem = s.mem ∧ (s.modPort p g).staging = s.staging ∧
  (s.modPort p g).badWords = s.badWords ∧ (s.modPort p g).weakWords = s.weakWords ∧ (s.modPort p g).clusters = s.clusters ∧
  (s.modPort p g).engines = s.engines ∧ (s.modPort p g).dies = s.dies ∧ (s.modPort p g).bars = s.bars ∧
  (s.modPort p g).jobs = s.jobs ∧ (s.modPort p g).shards = s.shards ∧ (s.modPort p g).windows = s.windows ∧
  (s.modPort p g).hatchJobs = s.hatchJobs ∧ (s.modPort p g).armed = s.armed ∧ (s.modPort p g).fab = s.fab ∧
  (s.modPort p g).pair = s.pair ∧ (s.modPort p g).margin = s.margin ∧ (s.modPort p g).meter = s.meter ∧ (s.modPort p g).hub = s.hub :=
  ⟨rfl, rfl, rfl, rfl, rfl, rfl, rfl, rfl, rfl, rfl, rfl, rfl, rfl, rfl, rfl, rfl, rfl, rfl, rfl, rfl, rfl, rfl, rfl⟩

@[simp] theorem State.modBar_frame (k : Nat) (g : Bar → Bar) (s : State) :
  (s.modBar k g).pending = s.pending ∧ (s.modBar k g).freeCtr = s.freeCtr ∧ (s.modBar k g).outbox = s.outbox ∧
  (s.modBar k g).fuse = s.fuse ∧ (s.modBar k g).time = s.time ∧ (s.modBar k g).mem = s.mem ∧ (s.modBar k g).staging = s.staging ∧
  (s.modBar k g).badWords = s.badWords ∧ (s.modBar k g).weakWords = s.weakWords ∧ (s.modBar k g).clusters = s.clusters ∧
  (s.modBar k g).engines = s.engines ∧ (s.modBar k g).dies = s.dies ∧ (s.modBar k g).jobs = s.jobs ∧
  (s.modBar k g).shards = s.shards ∧ (s.modBar k g).windows = s.windows ∧ (s.modBar k g).hatchJobs = s.hatchJobs ∧
  (s.modBar k g).armed = s.armed ∧ (s.modBar k g).ports = s.ports ∧ (s.modBar k g).fab = s.fab ∧ (s.modBar k g).pair = s.pair ∧
  (s.modBar k g).margin = s.margin ∧ (s.modBar k g).meter = s.meter ∧ (s.modBar k g).hub = s.hub :=
  ⟨rfl, rfl, rfl, rfl, rfl, rfl, rfl, rfl, rfl, rfl, rfl, rfl, rfl, rfl, rfl, rfl, rfl, rfl, rfl, rfl, rfl, rfl, rfl⟩

@[simp] theorem State.modHub_frame (g : Hub → Hub) (s : State) :
  (s.modHub g).pending = s.pending ∧ (s.modHub g).freeCtr = s.freeCtr ∧ (s.modHub g).outbox = s.outbox ∧ (s.modHub g).fuse = s.fuse ∧
  (s.modHub g).time = s.time ∧ (s.modHub g).mem = s.mem ∧ (s.modHub g).staging = s.staging ∧ (s.modHub g).badWords = s.badWords ∧
  (s.modHub g).weakWords = s.weakWords ∧ (s.modHub g).clusters = s.clusters ∧ (s.modHub g).engines = s.engines ∧
  (s.modHub g).dies = s.dies ∧ (s.modHub g).bars = s.bars ∧ (s.modHub g).jobs = s.jobs ∧ (s.modHub g).shards = s.shards ∧
  (s.modHub g).windows = s.windows ∧ (s.modHub g).hatchJobs = s.hatchJobs ∧ (s.modHub g).armed = s.armed ∧
  (s.modHub g).ports = s.ports ∧ (s.modHub g).fab = s.fab ∧ (s.modHub g).pair = s.pair ∧ (s.modHub g).margin = s.margin ∧
  (s.modHub g).meter = s.meter :=
  ⟨rfl, rfl, rfl, rfl, rfl, rfl, rfl, rfl, rfl, rfl, rfl, rfl, rfl, rfl, rfl, rfl, rfl, rfl, rfl, rfl, rfl, rfl, rfl⟩

@[simp] theorem State.modPair_frame (g : Pair → Pair) (s : State) :
  (s.modPair g).pending = s.pending ∧ (s.modPair g).freeCtr = s.freeCtr ∧ (s.modPair g).outbox = s.outbox ∧
  (s.modPair g).fuse = s.fuse ∧ (s.modPair g).time = s.time ∧ (s.modPair g).mem = s.mem ∧ (s.modPair g).staging = s.staging ∧
  (s.modPair g).badWords = s.badWords ∧ (s.modPair g).weakWords = s.weakWords ∧ (s.modPair g).clusters = s.clusters ∧
  (s.modPair g).engines = s.engines ∧ (s.modPair g).dies = s.dies ∧ (s.modPair g).bars = s.bars ∧ (s.modPair g).jobs = s.jobs ∧
  (s.modPair g).shards = s.shards ∧ (s.modPair g).windows = s.windows ∧ (s.modPair g).hatchJobs = s.hatchJobs ∧
  (s.modPair g).armed = s.armed ∧ (s.modPair g).ports = s.ports ∧ (s.modPair g).fab = s.fab ∧ (s.modPair g).margin = s.margin ∧
  (s.modPair g).meter = s.meter ∧ (s.modPair g).hub = s.hub :=
  ⟨rfl, rfl, rfl, rfl, rfl, rfl, rfl, rfl, rfl, rfl, rfl, rfl, rfl, rfl, rfl, rfl, rfl, rfl, rfl, rfl, rfl, rfl, rfl⟩

@[simp] theorem State.modMargin_frame (g : Margin → Margin) (s : State) :
  (s.modMargin g).pending = s.pending ∧ (s.modMargin g).freeCtr = s.freeCtr ∧ (s.modMargin g).outbox = s.outbox ∧
  (s.modMargin g).fuse = s.fuse ∧ (s.modMargin g).time = s.time ∧ (s.modMargin g).mem = s.mem ∧ (s.modMargin g).staging = s.staging ∧
  (s.modMargin g).badWords = s.badWords ∧ (s.modMargin g).weakWords = s.weakWords ∧ (s.modMargin g).clusters = s.clusters ∧
  (s.modMargin g).engines = s.engines ∧ (s.modMargin g).dies = s.dies ∧ (s.modMargin g).bars = s.bars ∧
  (s.modMargin g).jobs = s.jobs ∧ (s.modMargin g).shards = s.shards ∧ (s.modMargin g).windows = s.windows ∧
  (s.modMargin g).hatchJobs = s.hatchJobs ∧ (s.modMargin g).armed = s.armed ∧ (s.modMargin g).ports = s.ports ∧
  (s.modMargin g).fab = s.fab ∧ (s.modMargin g).pair = s.pair ∧ (s.modMargin g).meter = s.meter ∧ (s.modMargin g).hub = s.hub :=
  ⟨rfl, rfl, rfl, rfl, rfl, rfl, rfl, rfl, rfl, rfl, rfl, rfl, rfl, rfl, rfl, rfl, rfl, rfl, rfl, rfl, rfl, rfl, rfl⟩

@[simp] theorem State.modFab_frame (g : Fabric → Fabric) (s : State) :
  (s.modFab g).pending = s.pending ∧ (s.modFab g).freeCtr = s.freeCtr ∧ (s.modFab g).outbox = s.outbox ∧ (s.modFab g).fuse = s.fuse ∧
  (s.modFab g).time = s.time ∧ (s.modFab g).mem = s.mem ∧ (s.modFab g).staging = s.staging ∧ (s.modFab g).badWords = s.badWords ∧
  (s.modFab g).weakWords = s.weakWords ∧ (s.modFab g).clusters = s.clusters ∧ (s.modFab g).engines = s.engines ∧
  (s.modFab g).dies = s.dies ∧ (s.modFab g).bars = s.bars ∧ (s.modFab g).jobs = s.jobs ∧ (s.modFab g).shards = s.shards ∧
  (s.modFab g).windows = s.windows ∧ (s.modFab g).hatchJobs = s.hatchJobs ∧ (s.modFab g).armed = s.armed ∧
  (s.modFab g).ports = s.ports ∧ (s.modFab g).pair = s.pair ∧ (s.modFab g).margin = s.margin ∧ (s.modFab g).meter = s.meter ∧
  (s.modFab g).hub = s.hub :=
  ⟨rfl, rfl, rfl, rfl, rfl, rfl, rfl, rfl, rfl, rfl, rfl, rfl, rfl, rfl, rfl, rfl, rfl, rfl, rfl, rfl, rfl, rfl, rfl⟩

@[simp] theorem State.modMeter_frame (g : Meter → Meter) (s : State) :
  (s.modMeter g).pending = s.pending ∧ (s.modMeter g).freeCtr = s.freeCtr ∧ (s.modMeter g).outbox = s.outbox ∧
  (s.modMeter g).fuse = s.fuse ∧ (s.modMeter g).time = s.time ∧ (s.modMeter g).mem = s.mem ∧ (s.modMeter g).staging = s.staging ∧
  (s.modMeter g).badWords = s.badWords ∧ (s.modMeter g).weakWords = s.weakWords ∧ (s.modMeter g).clusters = s.clusters ∧
  (s.modMeter g).engines = s.engines ∧ (s.modMeter g).dies = s.dies ∧ (s.modMeter g).bars = s.bars ∧ (s.modMeter g).jobs = s.jobs ∧
  (s.modMeter g).shards = s.shards ∧ (s.modMeter g).windows = s.windows ∧ (s.modMeter g).hatchJobs = s.hatchJobs ∧
  (s.modMeter g).armed = s.armed ∧ (s.modMeter g).ports = s.ports ∧ (s.modMeter g).fab = s.fab ∧ (s.modMeter g).pair = s.pair ∧
  (s.modMeter g).margin = s.margin ∧ (s.modMeter g).hub = s.hub :=
  ⟨rfl, rfl, rfl, rfl, rfl, rfl, rfl, rfl, rfl, rfl, rfl, rfl, rfl, rfl, rfl, rfl, rfl, rfl, rfl, rfl, rfl, rfl, rfl⟩

@[simp] theorem State.output_frame (o : Output) (s : State) :
  (s.output o).pending = s.pending ∧ (s.output o).freeCtr = s.freeCtr ∧ (s.output o).fuse = s.fuse ∧ (s.output o).time = s.time ∧
  (s.output o).mem = s.mem ∧ (s.output o).staging = s.staging ∧ (s.output o).badWords = s.badWords ∧
  (s.output o).weakWords = s.weakWords ∧ (s.output o).clusters = s.clusters ∧ (s.output o).engines = s.engines ∧
  (s.output o).dies = s.dies ∧ (s.output o).bars = s.bars ∧ (s.output o).jobs = s.jobs ∧ (s.output o).shards = s.shards ∧
  (s.output o).windows = s.windows ∧ (s.output o).hatchJobs = s.hatchJobs ∧ (s.output o).armed = s.armed ∧
  (s.output o).ports = s.ports ∧ (s.output o).fab = s.fab ∧ (s.output o).pair = s.pair ∧ (s.output o).margin = s.margin ∧
  (s.output o).meter = s.meter ∧ (s.output o).hub = s.hub :=
  ⟨rfl, rfl, rfl, rfl, rfl, rfl, rfl, rfl, rfl, rfl, rfl, rfl, rfl, rfl, rfl, rfl, rfl, rfl, rfl, rfl, rfl, rfl, rfl⟩

@[simp] theorem State.append_frame (e : Event) (s : State) :
  (s.append e).pending = s.pending ∧ (s.append e).freeCtr = s.freeCtr ∧ (s.append e).outbox = s.outbox ∧ (s.append e).fuse = s.fuse ∧
  (s.append e).time = s.time ∧ (s.append e).mem = s.mem ∧ (s.append e).staging = s.staging ∧ (s.append e).badWords = s.badWords ∧
  (s.append e).weakWords = s.weakWords ∧ (s.append e).clusters = s.clusters ∧ (s.append e).engines = s.engines ∧
  (s.append e).dies = s.dies ∧ (s.append e).bars = s.bars ∧ (s.append e).jobs = s.jobs ∧ (s.append e).shards = s.shards ∧
  (s.append e).windows = s.windows ∧ (s.append e).hatchJobs = s.hatchJobs ∧ (s.append e).armed = s.armed ∧
  (s.append e).ports = s.ports ∧ (s.append e).fab = s.fab ∧ (s.append e).pair = s.pair ∧ (s.append e).margin = s.margin ∧
  (s.append e).meter = s.meter := by
  simp only [State.append, and_self]

@[simp] theorem State.log_frame (code : BitVec 16) (cls : BitVec 4) (unit : BitVec 16) (job : JobNo) (detail : Word) (s : State) :
  (s.log code cls unit job detail).pending = s.pending ∧ (s.log code cls unit job detail).freeCtr = s.freeCtr ∧
  (s.log code cls unit job detail).outbox = s.outbox ∧ (s.log code cls unit job detail).fuse = s.fuse ∧
  (s.log code cls unit job detail).time = s.time ∧ (s.log code cls unit job detail).mem = s.mem ∧
  (s.log code cls unit job detail).staging = s.staging ∧ (s.log code cls unit job detail).badWords = s.badWords ∧
  (s.log code cls unit job detail).weakWords = s.weakWords ∧ (s.log code cls unit job detail).clusters = s.clusters ∧
  (s.log code cls unit job detail).engines = s.engines ∧ (s.log code cls unit job detail).dies = s.dies ∧
  (s.log code cls unit job detail).bars = s.bars ∧ (s.log code cls unit job detail).jobs = s.jobs ∧
  (s.log code cls unit job detail).shards = s.shards ∧ (s.log code cls unit job detail).windows = s.windows ∧
  (s.log code cls unit job detail).hatchJobs = s.hatchJobs ∧ (s.log code cls unit job detail).armed = s.armed ∧
  (s.log code cls unit job detail).ports = s.ports ∧ (s.log code cls unit job detail).fab = s.fab ∧
  (s.log code cls unit job detail).pair = s.pair ∧ (s.log code cls unit job detail).margin = s.margin ∧
  (s.log code cls unit job detail).meter = s.meter :=
  State.append_frame _ s

@[simp] theorem State.write_frame (a : Nat) (bs : List Byte) (s : State) :
  (s.write a bs).pending = s.pending ∧ (s.write a bs).freeCtr = s.freeCtr ∧ (s.write a bs).outbox = s.outbox ∧
  (s.write a bs).fuse = s.fuse ∧ (s.write a bs).time = s.time ∧ (s.write a bs).staging = s.staging ∧
  (s.write a bs).clusters = s.clusters ∧ (s.write a bs).engines = s.engines ∧ (s.write a bs).dies = s.dies ∧
  (s.write a bs).bars = s.bars ∧ (s.write a bs).jobs = s.jobs ∧ (s.write a bs).shards = s.shards ∧
  (s.write a bs).windows = s.windows ∧ (s.write a bs).hatchJobs = s.hatchJobs ∧ (s.write a bs).armed = s.armed ∧
  (s.write a bs).ports = s.ports ∧ (s.write a bs).fab = s.fab ∧ (s.write a bs).pair = s.pair ∧ (s.write a bs).margin = s.margin ∧
  (s.write a bs).meter = s.meter ∧ (s.write a bs).hub = s.hub :=
  ⟨rfl, rfl, rfl, rfl, rfl, rfl, rfl, rfl, rfl, rfl, rfl, rfl, rfl, rfl, rfl, rfl, rfl, rfl, rfl, rfl, rfl⟩

@[simp] theorem State.modJob_frame (no : JobNo) (g : Job → Job) (s : State) :
  (s.modJob no g).pending = s.pending ∧ (s.modJob no g).freeCtr = s.freeCtr ∧ (s.modJob no g).outbox = s.outbox ∧
  (s.modJob no g).fuse = s.fuse ∧ (s.modJob no g).time = s.time ∧ (s.modJob no g).mem = s.mem ∧ (s.modJob no g).staging = s.staging ∧
  (s.modJob no g).badWords = s.badWords ∧ (s.modJob no g).weakWords = s.weakWords ∧ (s.modJob no g).clusters = s.clusters ∧
  (s.modJob no g).engines = s.engines ∧ (s.modJob no g).dies = s.dies ∧ (s.modJob no g).bars = s.bars ∧
  (s.modJob no g).shards = s.shards ∧ (s.modJob no g).windows = s.windows ∧ (s.modJob no g).hatchJobs = s.hatchJobs ∧
  (s.modJob no g).armed = s.armed ∧ (s.modJob no g).ports = s.ports ∧ (s.modJob no g).fab = s.fab ∧ (s.modJob no g).pair = s.pair ∧
  (s.modJob no g).margin = s.margin ∧ (s.modJob no g).meter = s.meter ∧ (s.modJob no g).hub = s.hub := by
  unfold State.modJob
  split <;> simp

/-! ## Reading a part that has been put -/

theorem State.clu_setClu (c d : ClusterId) (v : Cluster) (s : State) : (s.setClu c v).clu d = if d = c then v else s.clu d := by
  simp [State.clu, State.setClu, Table.get_set, BitVec.toNat_inj]
@[simp] theorem State.clu_setClu_same (c : ClusterId) (v : Cluster) (s : State) : (s.setClu c v).clu c = v := by
  simp [State.clu_setClu]
@[simp] theorem State.clu_modClu_same (c : ClusterId) (g : Cluster → Cluster) (s : State) :
    (s.modClu c g).clu c = g (s.clu c) := by simp [State.modClu]
@[simp] theorem State.setClu_setClu (c : ClusterId) (u v : Cluster) (s : State) :
    (s.setClu c u).setClu c v = s.setClu c v := by simp [State.setClu]

theorem State.eng_setEng (p q : Port) (v : Engine) (s : State) : (s.setEng p v).eng q = if q = p then v else s.eng q := by
  simp [State.eng, State.setEng, Table.get_set, BitVec.toNat_inj]
@[simp] theorem State.eng_setEng_same (p : Port) (v : Engine) (s : State) : (s.setEng p v).eng p = v := by
  simp [State.eng_setEng]
@[simp] theorem State.eng_modEng_same (p : Port) (g : Engine → Engine) (s : State) : (s.modEng p g).eng p = g (s.eng p) := by
  simp [State.modEng]
@[simp] theorem State.setEng_setEng (p : Port) (u v : Engine) (s : State) :
    (s.setEng p u).setEng p v = s.setEng p v := by simp [State.setEng]

theorem State.die_setDie (d e : Die) (v : DieState) (s : State) : (s.setDie d v).die e = if e = d then v else s.die e := by
  simp [State.die, State.setDie, Table.get_set, BitVec.toNat_inj]
@[simp] theorem State.die_setDie_same (d : Die) (v : DieState) (s : State) : (s.setDie d v).die d = v := by
  simp [State.die_setDie]
@[simp] theorem State.die_modDie_same (d : Die) (g : DieState → DieState) (s : State) :
    (s.modDie d g).die d = g (s.die d) := by simp [State.modDie]
@[simp] theorem State.setDie_setDie (d : Die) (u v : DieState) (s : State) :
    (s.setDie d u).setDie d v = s.setDie d v := by simp [State.setDie]

theorem State.port_setPort (p q : Port) (v : PortState) (s : State) : (s.setPort p v).port q = if q = p then v else s.port q := by
  simp [State.port, State.setPort, Table.get_set, BitVec.toNat_inj]
@[simp] theorem State.port_setPort_same (p : Port) (v : PortState) (s : State) : (s.setPort p v).port p = v := by
  simp [State.port_setPort]
@[simp] theorem State.port_modPort_same (p : Port) (g : PortState → PortState) (s : State) :
    (s.modPort p g).port p = g (s.port p) := by simp [State.modPort]
@[simp] theorem State.setPort_setPort (p : Port) (u v : PortState) (s : State) :
    (s.setPort p u).setPort p v = s.setPort p v := by simp [State.setPort]

@[simp] theorem State.bar_modBar_same (k : Nat) (g : Bar → Bar) (s : State) : (s.modBar k g).bar k = g (s.bar k) := by
  simp [State.bar, State.modBar]

@[simp] theorem State.counter_modCounter_same (n : CounterName) (g : Counter → Counter) (s : State) :
    (s.modCounter n g).counter n = g (s.counter n) := by
  simp [State.counter, State.modCounter]

@[simp] theorem State.hub_log_seq (code : BitVec 16) (cls : BitVec 4) (unit : BitVec 16) (job : JobNo) (detail : Word) (s : State) :
    (s.log code cls unit job detail).hub.eventSeq = s.hub.eventSeq + 1 := rfl

/-- Putting into a table of the state keeps that table's canonical form. -/
theorem State.wf_setClu {s : State} (c : ClusterId) (v : Cluster) (h : Table.wf Cluster.reset s.clusters = true) :
    Table.wf Cluster.reset (s.setClu c v).clusters = true := Table.wf_set _ _ h
theorem State.wf_setEng {s : State} (p : Port) (v : Engine) (h : Table.wf Engine.reset s.engines = true) :
    Table.wf Engine.reset (s.setEng p v).engines = true := Table.wf_set _ _ h
theorem State.wf_setDie {s : State} (d : Die) (v : DieState) (h : Table.wf DieState.reset s.dies = true) :
    Table.wf DieState.reset (s.setDie d v).dies = true := Table.wf_set _ _ h
theorem State.wf_setPort {s : State} (p : Port) (v : PortState) (h : Table.wf PortState.reset s.ports = true) :
    Table.wf PortState.reset (s.setPort p v).ports = true := Table.wf_set _ _ h

/-! ## Protected memory keeps its canonical form -/

theorem writeSkip_wf (skip : List Nat) (a : Nat) (bs : List Byte) {m : Memory} (h : m.wf = true) :
    (writeSkip skip a bs m).wf = true := by
  induction bs generalizing a m with
  | nil => exact h
  | cons b bs ih =>
    simp only [writeSkip]
    split
    · exact ih _ h
    · exact ih _ (Memory.wf_write a b h)

/-- A write keeps the canonical form of memory. -/
theorem State.write_wf (a : Nat) (bs : List Byte) {s : State} (h : s.mem.wf = true) : (s.write a bs).mem.wf = true :=
  writeSkip_wf _ _ _ h

theorem writeSkip_nil (a : Nat) (bs : List Byte) (m : Memory) : writeSkip [] a bs m = Memory.writeN a bs m := by
  induction bs generalizing a m with
  | nil => rfl
  | cons b bs ih => simp [writeSkip, Memory.writeN, ih]

/-- Where no uncorrectable word is met in part, a write stores all its bytes and no other. -/
theorem State.read_write {s : State} (a b : Nat) (bs : List Byte) (h : s.spoiled b bs.length = []) :
    Memory.read a (s.write b bs).mem = if b ≤ a ∧ a < b + bs.length then bs.getD (a - b) 0 else Memory.read a s.mem := by
  simp only [State.write, h, writeSkip_nil]
  exact Memory.read_writeN a b bs s.mem

end Sys2Proof.Machine
end

