-- ==== Sys2Proof/Laws/Settle.lean ====
section
/-! SUPPORT. What time alone changes, and that nothing follows a command in a quiet state: the outcome of a command is then the
state that its effect makes. -/

namespace Sys2Proof.Machine

theorem foldl_eq_self {α β : Type} {f : β → α → β} {b : β} {l : List α} (h : ∀ a ∈ l, f b a = b) : l.foldl f b = b := by
  induction l with
  | nil => rfl
  | cons a l ih => rw [List.foldl_cons, h a (by simp)]; exact ih fun c hc => h c (by simp [hc])

/-! ## The parts of quiet -/

theorem State.quiet_iff (s : State) : s.quiet = true ↔
    (∀ e ∈ s.jobs, e.2.startMsg = none ∧ e.2.mapPend = none ∧ e.2.mapBad = false) ∧ (∀ e ∈ s.dies, e.2.sigOwn = []) ∧ (∀ r ∈ s.shards, r.advDue = 0)
      ∧ (∀ e ∈ s.engines, (∀ c ∈ e.2.ctxs, c.rests = true) ∧ e.2.held = []) ∧ s.pair.seals = [] ∧ s.fab.selfEgress = []
      ∧ s.fab.heldStream = [] ∧ s.fab.unitHeld = [] := by
  simp [State.quiet, and_assoc]

/-- Quiet depends on the jobs, dies, shards, engines, the pair state and the fabric alone. -/
theorem State.quiet_congr {s t : State} (h : s.quiet = true) (hj : t.jobs = s.jobs) (hd : t.dies = s.dies) (hs : t.shards = s.shards)
    (he : t.engines = s.engines) (hp : t.pair = s.pair) (hf : t.fab = s.fab) : t.quiet = true := by
  simpa [State.quiet, hj, hd, hs, he, hp, hf] using h

theorem Table.get_mem {α : Type} (d : α) (k : Nat) (t : Table α) : Table.get d k t = d ∨ (k, Table.get d k t) ∈ t := by
  induction t with
  | nil => exact .inl rfl
  | cons e t ih =>
    obtain ⟨i, w⟩ := e
    by_cases g : i = k
    · subst g; exact .inr (by simp [Table.get])
    · simp only [Table.get, g, if_false]
      rcases ih with h | h
      · exact .inl h
      · exact .inr (by simp [h])

theorem State.quiet_sigOwn {s : State} (h : s.quiet = true) (d : Die) : (s.die d).sigOwn = [] := by
  obtain ⟨_, hd, _⟩ := (State.quiet_iff s).mp h
  rcases Table.get_mem DieState.reset d.toNat s.dies with g | g
  · rw [State.die, g]; rfl
  · exact hd _ g

/-! ## Nothing follows in a quiet state -/

/-- A context that rests is left as it is. -/
theorem State.settleCtx_rests {s : State} {p : Port} {id : Nat} (h : ∀ c, s.ctx p id = some c → c.rests = true) :
    s.settleCtx p id = s := by
  unfold State.settleCtx
  split
  · rename_i c hc
    have g := h c hc
    simp only [Ctx.rests, Bool.and_eq_true, bne_iff_ne, ne_eq, Bool.not_eq_true', Bool.and_eq_false_iff, beq_eq_false_iff_ne,
      Bool.or_eq_false_iff, Bool.not_eq_false'] at g
    obtain ⟨⟨⟨⟨g0, g1⟩, g2⟩, g3⟩, g4⟩ := g
    have e1 : (c.phase == CtxPhase.outcome) = false := by simpa using g1
    rw [e1, if_neg (by simp), if_neg (by simp [Option.isNone_iff_eq_none.mp g0])]
    split
    · rename_i ho
      rcases g2 with g2 | ⟨g2, g5⟩
      · exact absurd ho g2
      · unfold State.settleReduce
        rw [if_neg (by simpa using g2), if_neg (by simp [g5])]
    · rw [if_neg (by rcases g3 with g3 | g3 <;> simp [g3])]
      rw [if_neg]
      rintro ⟨g5, g6, -⟩
      rcases g4 with g4 | g4
      · exact g4 g5
      · simp [g4] at g6
  · rfl

/-- Every context of a quiet state rests. -/
theorem State.quiet_ctx {s : State} (h : s.quiet = true) (p : Port) : ∀ c ∈ (s.eng p).ctxs, c.rests = true := by
  obtain ⟨-, -, -, he, -⟩ := (State.quiet_iff s).mp h
  rcases Table.get_mem Engine.reset p.toNat s.engines with g | g
  · intro c hc; rw [State.eng, g] at hc; simp [Engine.reset] at hc
  · exact (he _ g).1

/-- No engine of a quiet state holds a frame back. -/
theorem State.quiet_held {s : State} (h : s.quiet = true) (p : Port) : (s.eng p).held = [] := by
  obtain ⟨-, -, -, he, -⟩ := (State.quiet_iff s).mp h
  rcases Table.get_mem Engine.reset p.toNat s.engines with g | g
  · rw [State.eng, g]; rfl
  · exact (he _ g).2

theorem State.settle_quiet {s : State} (h : s.quiet = true) : s.settle = s := by
  have e : s.engines.foldl (fun s e =>
      (e.2.ctxs.foldl (fun s c => s.settleCtx (BitVec.ofNat 6 e.1) c.id) s).settleEngine (BitVec.ofNat 6 e.1)) s = s :=
    foldl_eq_self fun e _ => by
      rw [foldl_eq_self fun c _ => State.settleCtx_rests fun d hd => State.quiet_ctx h _ d (List.mem_of_find?_eq_some hd)]
      simp [State.settleEngine, State.quiet_held h]
  obtain ⟨-, -, -, -, -, -, -, hu⟩ := (State.quiet_iff s).mp h
  rw [State.settle, e]
  simp [State.freeUnits, hu]

/-- No context of a quiet state has results on their way. -/
theorem State.settleSent_quiet {s : State} (h : s.quiet = true) : s.settleSent = s := by
  obtain ⟨-, -, -, he, -⟩ := (State.quiet_iff s).mp h
  have e : (s.engines.flatMap fun (e : Nat × Engine) =>
      (e.2.ctxs.filter fun (c : Ctx) => c.closing.isSome && s.sentAll c).map fun (c : Ctx) => ((BitVec.ofNat 6 e.1 : Port), c)) = [] := by
    rw [List.flatMap_eq_nil_iff]
    intro x hx
    rw [List.map_eq_nil_iff, List.filter_eq_nil_iff]
    intro c hc
    have g := (he x hx).1 c hc
    simp only [Ctx.rests, Bool.and_eq_true, Option.isNone_iff_eq_none, and_assoc] at g
    simp [g.1]
  simp [State.settleSent, e]

theorem State.aftermath_quiet {s : State} (h : s.quiet = true) : s.aftermath = s := by
  obtain ⟨hj, hd, hs, he, hp, hf, hh, -⟩ := (State.quiet_iff s).mp h
  have h1 : s.answerStopped = s := foldl_eq_self fun e g => by simp [(hj e g).1]
  have h2 : s.matchSigs = s := by simp [State.matchSigs, DieState.sigPairs, State.quiet_sigOwn h]
  have h3 : s.advancesDue = s := foldl_eq_self fun r g => by simp [hs r g]
  have h4 : s.mapSwitches = s := foldl_eq_self fun e g => by simp [(hj e g).2.1, (hj e g).2.2]
  have h5 : s.sealShadows = s := by simp [State.sealShadows, hp]
  have h6 : s.settle = s := State.settle_quiet h
  have h7 : s.sendBatches = s := foldl_eq_self fun d _ => by simp [State.quiet_sigOwn h d]
  have h8 : s.releaseStream = s := by simp [State.releaseStream, hh]
  have h9 : s.dispatchOwn = s := by
    have e : s.modFab (fun b => { b with selfEgress := [] }) = s := by
      show { s with fab := { s.fab with selfEgress := [] } } = s
      rw [← hf]
    simp [State.dispatchOwn, hf, e]
  simp only [State.aftermath, h1, h2, h3, h4, h5, h6, h7, h8, h9, State.settleSent_quiet h]

theorem State.finish_quiet {s t : State} {now : Nat} (h : t.quiet = true) (hp : t.pending = s.pending) (hf : t.fuse = s.fuse)
    (ht : t.time = max s.time now) : s.finish now t = t := by
  simp only [State.finish, State.aftermath_quiet h, ← hp, ← hf, ← ht]

/-- A command whose effect leaves a quiet state, and neither the queue, the fuses nor the time changed, has that effect. -/
theorem State.happens_quiet {s : State} {now : Nat} {e : State → State} (h : (e (s.advanceTo now)).quiet = true)
    (hp : (e (s.advanceTo now)).pending = s.pending) (hf : (e (s.advanceTo now)).fuse = s.fuse)
    (ht : (e (s.advanceTo now)).time = max s.time now) : s.happens now e = .next (e (s.advanceTo now)) := by
  rw [State.happens, State.finish_quiet h hp hf ht]

theorem State.acts_quiet {s : State} {e : State → State} (h : (e s).quiet = true) (hp : (e s).pending = s.pending)
    (hf : (e s).fuse = s.fuse) (ht : (e s).time = s.time) : s.acts e = .next (e s) := by
  rw [State.acts, State.finish_quiet h hp hf (by simp [ht])]

/-! ## What time alone changes -/

/-- Time alone changes counts of clusters, contexts, jobs, ports, the fabric and the margin controller, and network time. -/
@[simp] theorem State.advanceTo_frame (now : Nat) (s : State) :
    (s.advanceTo now).pending = s.pending ∧ (s.advanceTo now).freeCtr = s.freeCtr ∧ (s.advanceTo now).outbox = s.outbox ∧
    (s.advanceTo now).fuse = s.fuse ∧ (s.advanceTo now).mem = s.mem ∧ (s.advanceTo now).staging = s.staging ∧
    (s.advanceTo now).badWords = s.badWords ∧ (s.advanceTo now).weakWords = s.weakWords ∧ (s.advanceTo now).dies = s.dies ∧ (s.advanceTo now).bars = s.bars ∧
    (s.advanceTo now).shards = s.shards ∧ (s.advanceTo now).windows = s.windows ∧
    (s.advanceTo now).hatchJobs = s.hatchJobs ∧ (s.advanceTo now).armed = s.armed ∧ (s.advanceTo now).pair = s.pair ∧
    (s.advanceTo now).meter = s.meter ∧ (s.advanceTo now).hub = s.hub := by
  unfold State.advanceTo
  split <;> simp [State.account]

@[simp] theorem State.advanceTo_time (now : Nat) (s : State) : (s.advanceTo now).time = max s.time now := by
  unfold State.advanceTo
  split
  · omega
  · show now = max s.time now
    omega

/-- At the instant that network time already shows, or an earlier one, time changes nothing. -/
theorem State.advanceTo_past {now : Nat} {s : State} (h : now ≤ s.time) : s.advanceTo now = s := by simp [State.advanceTo, h]

theorem State.accountJob_startMsg (dt : Nat) (s : State) (j : Job) :
    (s.accountJob dt j).startMsg = j.startMsg ∧ (s.accountJob dt j).mapPend = j.mapPend ∧ (s.accountJob dt j).mapBad = j.mapBad := by
  unfold State.accountJob
  split <;> simp

theorem State.advanceTo_quiet (now : Nat) {s : State} (h : s.quiet = true) : (s.advanceTo now).quiet = true := by
  obtain ⟨hj, hd, hs, he, hp, hf, hh, hu⟩ := (State.quiet_iff s).mp h
  unfold State.advanceTo
  split
  · exact h
  · rw [State.quiet_iff]
    refine ⟨?_, hd, hs, ?_, hp, hf, hh, hu⟩
    · simp only [State.account, List.mem_map, forall_exists_index, and_imp, forall_apply_eq_imp_iff₂]
      intro e g
      have := State.accountJob_startMsg (now - s.time) s e.2
      exact ⟨this.1.trans (hj e g).1, this.2.1.trans (hj e g).2.1, this.2.2.trans (hj e g).2.2⟩
    · simp only [State.account, List.mem_map, forall_exists_index, and_imp, forall_apply_eq_imp_iff₂]
      intro e g
      exact ⟨fun c hc => (he e g).1 c hc, (he e g).2⟩

end Sys2Proof.Machine
end

