-- ==== Sys2Proof/Laws/Issue.lean ====
section
/-! SUPPORT. The issue of a bundle of one word on a ready cluster: its results go in flight and the cluster steps on to the next
bundle. -/

namespace Sys2Proof.Machine

/-- A cluster whose next bundle of n bytes has been fetched: its lines are the most recently used. -/
def Cluster.fetched (n : Nat) (b : Bundle) (k : Cluster) : Cluster :=
  (linesOf k.pc.toNat n).foldl (fun (k : Cluster) l => k.touch l) { k with forming := [], fetchQ := [b] }

/-- Fetching changes the cache alone. -/
theorem Cluster.touchAll_eq (ls : List Nat) (k : Cluster) :
    ∃ ic, ls.foldl (fun (k : Cluster) l => k.touch l) k = { k with icache := ic } := by
  induction ls generalizing k with
  | nil => exact ⟨k.icache, rfl⟩
  | cons l ls ih =>
    obtain ⟨ic, h⟩ := ih (k.touch l)
    exact ⟨ic, by rw [List.foldl_cons, h]; rfl⟩

theorem Cluster.fetched_eq (n : Nat) (b : Bundle) (k : Cluster) :
    ∃ ic, k.fetched n b = { k with forming := [], fetchQ := [b], icache := ic } := by
  obtain ⟨ic, h⟩ := Cluster.touchAll_eq (linesOf k.pc.toNat n) { k with forming := [], fetchQ := [b] }
  exact ⟨ic, h⟩

/-- What ready says, part by part. -/
theorem Cluster.ready_iff (n : Nat) (k : Cluster) : k.ready n = true ↔
    k.gstate = .running ∧ k.startGate = none ∧ k.nextIssue ≤ k.stepCount ∧ k.issuedAt ≠ some k.stepCount ∧ k.forming = [] ∧
    k.fetchQ = [] ∧ k.inflight = [] ∧ k.tiles = [] ∧ k.waitDone = none ∧ k.gateDone = false ∧ k.grant = none ∧ k.dueFault = none ∧
    k.fetchBad = [] ∧ k.ending = none ∧ k.lastTile.all (fun x => decide (x.issue + x.len ≤ k.stepCount)) = true ∧
    k.lastIssue.all (fun (e : Nat × Nat) => decide (e.2 + 6 ≤ k.stepCount + 1)) = true ∧ k.pc.toNat + n ≤ k.codeLen ∧
    ((linesOf k.pc.toNat n).all fun l => k.cached l) = true ∧ k.loops.head?.all (fun e => e.last != k.pc.toNat) = true := by
  simp only [Cluster.ready, Bool.and_eq_true, decide_eq_true_eq, beq_iff_eq, bne_iff_ne, Option.isNone_iff_eq_none,
    List.isEmpty_iff, Bool.not_eq_true', and_assoc, ne_eq]

/-- A plan with no hold is not held (R170). -/
theorem State.holds_none (c : ClusterId) (ps : List Plan) (t : State) (h : ∀ q ∈ ps, q.hold = .none) : t.holds c ps = ([], t) := by
  unfold State.holds
  exact foldl_eq_self fun q hq => by simp [h q hq]

/-- A bundle in the code region with its lines in the cache, which meets no condition and no hold, issues. -/
theorem State.bundleAt_issues {t : State} {c : ClusterId} {b : Bundle}
    (hg : ((linesOf (t.clu c).pc.toNat b.size).all (t.clu c).cached) = true)
    (hc : (t.setClu c ((linesOf (t.clu c).pc.toNat b.size).foldl (fun k l => Cluster.touch l k) (t.clu c))).conds c b = [])
    (hh : ∀ x ∈ (t.setClu c ((linesOf (t.clu c).pc.toNat b.size).foldl (fun k l => Cluster.touch l k) (t.clu c))).plans c b,
      x.2.hold = .none) :
    t.bundleAt c b =
      (t.setClu c ((linesOf (t.clu c).pc.toNat b.size).foldl (fun k l => Cluster.touch l k) (t.clu c))).issueNow c b := by
  unfold State.bundleAt
  simp only [hg, Bool.not_true, Bool.false_eq_true, false_and, if_false, if_true, hc, List.filter_nil, firstCond]
  rw [State.holds_none _ _ _ (by intro q hq; obtain ⟨x, hx, rfl⟩ := List.mem_map.mp hq; exact hh x hx)]
  simp

/-- The state in which the bundle of a closing word stands at issue on a ready cluster. -/
def State.atIssue (p : Place) (n : Nat) (b : Bundle) (s : State) : State := s.setClu p.cl ((s.clu p.cl).fetched n b)

/-- A closing word on a ready cluster, whose plan meets no condition and no hold, issues. -/
theorem State.place_ready {s : State} {p : Place} {slot : Nat} {op : Byte} {w : Fields} {n : Nat} {b : Bundle}
    (hb : b = ⟨[⟨slot, op, w⟩], p.idle, 0⟩) (hn : b.size = n) (hm : p.more = false) (hy : p.stray = 0)
    (hr : (s.clu p.cl).ready n = true) (hc : (s.atIssue p n b).conds p.cl b = []) (hh : ∀ x ∈ (s.atIssue p n b).plans p.cl b, x.2.hold = .none) :
    s.place p slot op w = (s.atIssue p n b).issueNow p.cl b := by
  obtain ⟨h1, h2, h3, h4, h5, h6, -, -, -, -, -, -, h13, he, -, -, h16, h17, -⟩ := (Cluster.ready_iff n _).mp hr
  have hk : (s.setClu p.cl { s.clu p.cl with forming := [], fetchQ := [b] }).clu p.cl =
      { s.clu p.cl with forming := [], fetchQ := [b] } := State.clu_setClu_same _ _ _
  have hx : (s.setClu p.cl { s.clu p.cl with forming := [], fetchQ := [b] }).setClu p.cl ((s.clu p.cl).fetched n b) =
      s.atIssue p n b := State.setClu_setClu _ _ _ _
  have step1 : s.place p slot op w = (s.setClu p.cl { s.clu p.cl with forming := [], fetchQ := [b] }).tryIssue p.cl := by
    have hz : absentWide 0 [⟨slot, op, w⟩] = 0 := by simp [absentWide]
    simp only [State.place, h1, true_or, true_and, he, if_true, hm, h5, State.place.insertWord, h6, List.nil_append, hb, Bool.false_eq_true,
      if_false, hy, hz]
  have step2 : (s.setClu p.cl { s.clu p.cl with forming := [], fetchQ := [b] }).tryIssue p.cl =
      (s.setClu p.cl { s.clu p.cl with forming := [], fetchQ := [b] }).bundleAt p.cl b := by
    unfold State.tryIssue
    rw [hk]
    simp only [h1, true_or, h2, h3, ne_eq, h4, he, not_false_eq_true, and_self, if_true]
  rw [step1, step2, State.bundleAt_issues
    (by rw [hk, hn]; exact h17) (by rw [hk, hn]; exact (congrArg (fun t => State.conds p.cl b t) hx).trans hc)
    (by rw [hk, hn]; intro x hm; exact hh x (by rw [← hx]; exact hm))]
  rw [hk, hn]
  exact congrArg (fun t => State.issueNow p.cl b t) hx

/-! ## Conditions and results of a bundle of one word -/

theorem Table.get_le {k m : Nat} {t : Table Nat} (h : t.all (fun (e : Nat × Nat) => decide (e.2 + 6 ≤ m)) = true) :
    Table.get 0 k t = 0 ∨ Table.get 0 k t + 6 ≤ m := by
  rcases Table.get_mem 0 k t with g | g
  · exact .inl g
  · have := List.all_eq_true.mp h _ g
    exact .inr (by simpa using this)

/-- With nothing in flight and no issue interval open no plan meets a hazard (R194). -/
theorem Cluster.hazards_none {k : Cluster} {slot : Nat} {P : Plan} (h7 : k.inflight = []) (h8 : k.tiles = [])
    (h14 : k.lastTile.all (fun x => decide (x.issue + x.len ≤ k.stepCount)) = true)
    (h15 : k.lastIssue.all (fun (e : Nat × Nat) => decide (e.2 + 6 ≤ k.stepCount + 1)) = true) (hg : P.gap ≤ 6)
    (hs : ∀ x, P.tile = some x → P.targets = []) :
    k.hazards k.stepCount slot [] P.tile.toList P = [] := by
  have e1 : k.readEarly k.stepCount slot P = [] := by
    simp [Cluster.readEarly, Cluster.regLand, Cluster.sramLand, h7, h8]
  have e2 : k.writeEarly k.stepCount slot [] P = [] := by
    simp [Cluster.writeEarly, Cluster.regLand, Cluster.sramLand, h7, h8]
  have e3 : k.intoSpan k.stepCount slot P.tile.toList P = [] := by
    cases ht : P.tile with
    | none => simp [Cluster.intoSpan, h8]
    | some x => simp [Cluster.intoSpan, Plan.swrites, hs x ht]
  have e4 : k.intervalEarly k.stepCount slot P = [] := by
    unfold Cluster.intervalEarly
    split
    · split
      · rename_i x hx
        rw [hx] at h14
        have : x.issue + x.len ≤ k.stepCount := by simpa using h14
        rw [if_neg (by omega)]
      · rfl
    · rw [if_neg]
      rcases Table.get_le (k := P.group) h15 with g | g
      · simp [g]
      · omega
  simp [Cluster.hazards, e1, e2, e3, e4]

/-- The plan of a bundle of one legal word. -/
theorem State.plans_one {s : State} {c : ClusterId} {b : Bundle} {w : SlotWord} (hb : b.words = [w]) (hl : w.legal = true) :
    s.plans c b = [(w, s.plan c b w)] := by
  simp [State.plans, hb, hl]

theorem State.clu_atIssue (p : Place) (n : Nat) (b : Bundle) (s : State) : (s.atIssue p n b).clu p.cl = (s.clu p.cl).fetched n b :=
  State.clu_setClu_same _ _ _

/-- The conditions of a bundle of one legal word on a ready cluster are those of its plan. -/
theorem State.conds_one {s : State} {p : Place} {b : Bundle} {w : SlotWord} {n : Nat} (hb : b.words = [w]) (hl : w.legal = true)
    (hr : (s.clu p.cl).ready n = true) (hc : ((s.atIssue p n b).plan p.cl b w).conds = [])
    (hz : b.wide0 = 0) (hn : b.size = n) (hg : ((s.atIssue p n b).plan p.cl b w).gap ≤ 6)
    (hs : ∀ x, ((s.atIssue p n b).plan p.cl b w).tile = some x → ((s.atIssue p n b).plan p.cl b w).targets = []) : (s.atIssue p n b).conds p.cl b = [] := by
  obtain ⟨-, -, -, -, -, -, h7, h8, -, -, -, -, h13, -, h14, h15, h16, -, -⟩ := (Cluster.ready_iff n _).mp hr
  obtain ⟨ic, hk⟩ := Cluster.fetched_eq n b (s.clu p.cl)
  have hd : ((s.atIssue p n b).clu p.cl).headConds b = [] := by
    rw [State.clu_atIssue, hk]
    simp [Cluster.headConds, Cluster.badLine, h13, hz, hn, h16]
  have hz : ((s.atIssue p n b).clu p.cl).hazards ((s.atIssue p n b).clu p.cl).stepCount w.slot []
      ((s.atIssue p n b).plan p.cl b w).tile.toList ((s.atIssue p n b).plan p.cl b w) = [] := by
    apply Cluster.hazards_none <;> first | exact hg | exact hs | (rw [State.clu_atIssue, hk]; assumption)
  have hf : ∀ P : Plan, [(w, P)].filterMap (fun wp => wp.2.tile) = P.tile.toList := by intro P; cases h : P.tile <;> simp [h]
  simp only [State.conds, State.plans_one hb hl, hf, hd, List.foldl_cons, List.foldl_nil, hc, hz]
  simp [hb, hl]

/-- A cluster after the issue of a plan: the place of its next bundle, its results in flight. -/
def Cluster.issues (idle : BitVec 4) (slot : Nat) (P : Plan) (nx : Word × List LoopEntry) (k : Cluster) : Cluster :=
  let k1 := k.book k.stepCount slot P
  { k1 with
    pc := nx.1, loops := nx.2, bundleCount := k1.bundleCount + 1, issuedAt := some k.stepCount, nextIssue := k.stepCount + 1 + idle.toNat
    waitDone := none, gateDone := false, grant := none, waitDeadline := none, gstate := .running, holdCause := .none
    fetchQ := k1.fetchQ.tail }

/-- The issue of a bundle of one word of the scalar, vector, array, move or stream slot, whose read does not fail. -/
theorem State.issueNow_one {s : State} {c : ClusterId} {b : Bundle} {w : SlotWord} {P : Plan} {n : Nat}
    (hp : s.plans c b = [(w, P)]) (hf : P.fail = none) (hs : w.slot ≠ 0) (hn : b.size = n) :
    s.issueNow c b = ((s.setClu c ((s.clu c).issues b.idle w.slot P (s.nextPc (s.clu c) n .none))).act c P.act).correctRead c P := by
  simp [State.issueNow, hp, hf, failOf, hs, hn, Cluster.issues]

/-- The issue of a bundle of one word of the control slot other than HALT. -/
theorem State.issueNow_control {s : State} {c : ClusterId} {b : Bundle} {w : SlotWord} {P : Plan} {n : Nat}
    (hp : s.plans c b = [(w, P)]) (hf : P.fail = none) (hs : w.slot = 0) (hn : b.size = n) (hh : ∀ code, P.act ≠ .halt code) :
    s.issueNow c b = ((s.setClu c ((s.clu c).issues b.idle 0 P (s.nextPc (s.clu c) n P.act))).act c P.act).correctRead c P := by
  cases hA : P.act <;> first
    | exact absurd hA (hh _)
    | simp [State.issueNow, hp, hf, failOf, hs, hn, Cluster.issues, hA]

/-- The next place of a bundle that ends no loop (R173). -/
theorem State.nextPc_ready {k : Cluster} {n : Nat} (s : State) (h : k.loops.head?.all (fun e => e.last != k.pc.toNat) = true) :
    s.nextPc k n .none = (k.pc + BitVec.ofNat 32 n, k.loops) := by
  have e : ∀ next, loopBack k.pc.toNat next k.loops = (next, k.loops) := by
    intro next
    cases hl : k.loops with
    | nil => rfl
    | cons x t =>
      rw [hl] at h
      have : x.last ≠ k.pc.toNat := by simpa using h
      simp [loopBack, this]
  simp only [State.nextPc, e]
  congr 1
  apply BitVec.eq_of_toNat_eq
  simp

/-- A closing word of a slot other than the control slot, legal and without a condition, hold or failing read, issues on a
ready cluster: its results go in flight, and its act takes place. -/
theorem State.slot_issues {s : State} {p : Place} {slot : Nat} {op : Byte} {w : Fields} {n : Nat} {b : Bundle} {P : Plan}
    (hb : b = ⟨[⟨slot, op, w⟩], p.idle, 0⟩) (hn : b.size = n) (hm : p.more = false) (hy : p.stray = 0)
    (hr : (s.clu p.cl).ready n = true) (hl : (⟨slot, op, w⟩ : SlotWord).legal = true) (hs : slot ≠ 0) (hP : (s.atIssue p n b).plan p.cl b ⟨slot, op, w⟩ = P)
    (hc : P.conds = []) (hg : P.gap ≤ 6) (hx : ∀ x, P.tile = some x → P.targets = []) (hh : P.hold = .none) (hf : P.fail = none) :
    s.place p slot op w = ((s.setClu p.cl (((s.clu p.cl).fetched n b).issues p.idle slot P
      ((s.clu p.cl).pc + BitVec.ofNat 32 n, (s.clu p.cl).loops))).act p.cl P.act).correctRead p.cl P := by
  have hw : b.words = [⟨slot, op, w⟩] := by rw [hb]
  have hp := State.plans_one (s := s.atIssue p n b) (c := p.cl) hw hl
  have hloop := ((Cluster.ready_iff n _).mp hr).2.2.2.2.2.2.2.2.2.2.2.2.2.2.2.2.2.2
  obtain ⟨ic, hk⟩ := Cluster.fetched_eq n b (s.clu p.cl)
  have hi : b.idle = p.idle := by rw [hb]
  rw [State.place_ready hb hn hm hy hr (State.conds_one hw hl hr (by rw [hP, hc]) (by rw [hb]) hn (by rw [hP]; exact hg)
    (by rw [hP]; exact hx)) (by rw [hp]; intro x hx; rw [List.mem_singleton.mp hx]; simp [hP, hh])]
  rw [hP] at hp
  rw [State.issueNow_one hp hf hs hn, State.clu_atIssue, hi, State.nextPc_ready _ (by rw [hk]; exact hloop)]
  rw [hk]
  simp only [State.atIssue, State.setClu_setClu, hk]

/-- The bundle of one closing word. -/
def oneWord (p : Place) (slot : Nat) (op : Byte) (w : Fields) : Bundle := ⟨[⟨slot, op, w⟩], p.idle, 0⟩

theorem oneWord_size (p : Place) (slot : Nat) (op : Byte) (w : Fields) :
    (oneWord p slot op w).size = if w.wide then 10 else 6 := by
  simp only [oneWord, Bundle.size, SlotWord.size, List.foldl_cons, List.foldl_nil]
  split <;> rfl

/-- A register at issue is the register before it. -/
theorem State.atIssue_regs (p : Place) (n : Nat) (b : Bundle) (s : State) :
    (∀ r, ((s.atIssue p n b).clu p.cl).xr r = (s.clu p.cl).xr r) ∧ (∀ r, ((s.atIssue p n b).clu p.cl).fr r = (s.clu p.cl).fr r) ∧
    (∀ r, ((s.atIssue p n b).clu p.cl).vr r = (s.clu p.cl).vr r) ∧ (∀ r, ((s.atIssue p n b).clu p.cl).mr r = (s.clu p.cl).mr r) := by
  obtain ⟨ic, hk⟩ := Cluster.fetched_eq n b (s.clu p.cl)
  simp only [State.clu_atIssue, hk]
  exact ⟨fun _ => rfl, fun _ => rfl, fun _ => rfl, fun _ => rfl⟩

/-- Fetching changes neither the registers of a cluster nor what its instructions read of it. -/
theorem Cluster.fetched_regs (n : Nat) (b : Bundle) (k : Cluster) :
    (∀ r, (k.fetched n b).xr r = k.xr r) ∧ (∀ r, (k.fetched n b).fr r = k.fr r) ∧
    (∀ r, (k.fetched n b).vr r = k.vr r) ∧ (∀ r, (k.fetched n b).mr r = k.mr r) ∧
    (k.fetched n b).cx = k.cx ∧ (k.fetched n b).job = k.job ∧ (k.fetched n b).impr = k.impr ∧ (k.fetched n b).pc = k.pc ∧
    (k.fetched n b).loops = k.loops ∧ (k.fetched n b).stepCount = k.stepCount ∧ (k.fetched n b).flags = k.flags ∧
    (k.fetched n b).moves = k.moves ∧ (k.fetched n b).waitDone = k.waitDone ∧ (k.fetched n b).grant = k.grant ∧
    (k.fetched n b).gateDone = k.gateDone ∧ (k.fetched n b).codeBase = k.codeBase ∧ (k.fetched n b).signSeq = k.signSeq ∧
    (k.fetched n b).lastTile = k.lastTile ∧ (k.fetched n b).waitDeadline = k.waitDeadline ∧ (k.fetched n b).ending = k.ending ∧
    (k.fetched n b).snap = k.snap := by
  obtain ⟨ic, hk⟩ := Cluster.fetched_eq n b k
  rw [hk]
  exact ⟨fun _ => rfl, fun _ => rfl, fun _ => rfl, fun _ => rfl, rfl, rfl, rfl, rfl, rfl, rfl, rfl, rfl, rfl, rfl, rfl, rfl, rfl, rfl, rfl,
    rfl, rfl⟩

/-- What stands outside the clusters is at issue what it was before. -/
theorem State.atIssue_plate (p : Place) (n : Nat) (b : Bundle) (s : State) (no : JobNo) : (s.atIssue p n b).plate no = s.plate no := rfl

/-- What the issue of one word on a ready cluster leaves of the cluster. -/
theorem Cluster.issues_issued {n slot : Nat} {idle : BitVec 4} {b : Bundle} {P : Plan} {k : Cluster} (hr : k.ready n = true)
    (hf : P.fail = none) (ht : P.tile = none) :
    Issued n idle k ((k.fetched n b).issues idle slot P (k.pc + BitVec.ofNat 32 n, k.loops)) ∧
    ((k.fetched n b).issues idle slot P (k.pc + BitVec.ofNat 32 n, k.loops)).inflight =
      if P.targets = [] then [] else [⟨k.stepCount + P.lat - 1, slot, P.targets, P.flags⟩] := by
  obtain ⟨ic, hk⟩ := Cluster.fetched_eq n b k
  obtain ⟨h1, h2, h3, h4, h5, h6, h7, h8, h9, h10, h11, h12, h13, he, h14, h15, h16, h17, h18⟩ := (Cluster.ready_iff n _).mp hr
  unfold Issued Cluster.issues
  rw [hk]
  by_cases hT : P.targets = []
  · simp only [Cluster.book, hf, ht, hT]
    constructor
    · repeat' split
      all_goals simp [h1, h5, h6, h9, h10, h11]
    · repeat' split
      all_goals simp_all
  · have ht' := (List.isEmpty_eq_false_iff).mpr hT
    simp only [Cluster.book, hf, ht, ht']
    constructor
    · repeat' split
      all_goals simp [h1, h5, h6, h9, h10, h11]
    · repeat' split
      all_goals simp_all

/-- A plan that reads no SRAM corrects no word. -/
theorem State.correctRead_none {c : ClusterId} {P : Plan} (s : State) (h : P.conf = []) : s.correctRead c P = s := by
  simp [State.correctRead, State.corrects, h]

/-- A plan that reads one range of SRAM counts the words of it with a single-bit error (R150). -/
theorem State.correctRead_one {c : ClusterId} {P : Plan} {a n : Nat} (s : State) (k : Cluster) (h : P.conf = [(a, n)]) :
    (s.setClu c k).correctRead c P = s.setClu c { k with
      sramCorrected := if (s.weakIn (sramAddr c a) n).dedup = [] then k.sramCorrected
        else sat32 k.sramCorrected (s.weakIn (sramAddr c a) n).dedup.length } := by
  have e : (s.setClu c k).weakIn (sramAddr c a) n = s.weakIn (sramAddr c a) n := rfl
  simp only [State.correctRead, State.corrects, h, List.flatMap_cons, List.flatMap_nil, List.append_nil, e, List.isEmpty_iff]
  by_cases hz : (s.weakIn (sramAddr c a) n).dedup = []
  · simp only [hz, if_true]
  · simp only [hz, if_false, State.modClu, State.clu_setClu_same, State.setClu_setClu]

/-- A slot word of an enabled cluster is placed. -/
theorem State.slotWord_enabled {s : State} {p : Place} {slot : Nat} {op : Byte} {w : Fields} (h : s.hasCluster p.cl = true) :
    s.slotWord p slot op w = .next (s.finish s.time (s.place p slot op w)) := by
  simp [State.slotWord, State.onCluster, State.happens, State.advanceTo_past (Nat.le_refl s.time), h]

/-- A closing word of a slot other than the control slot on a ready cluster, legal and without a condition, a hold or a failing read:
the state in which its act takes place, and what the module is then. -/
theorem State.slotWord_acts {i : Instr} {s : State} {p : Place} {slot : Nat} {op : Byte} {w : Fields} {n : Nat} {P : Plan}
    (hi : exec i s = s.slotWord p slot op w) (hcl : Closes n p s)
    (hn : (if w.wide then 10 else 6) = n) (hl : (⟨slot, op, w⟩ : SlotWord).legal = true) (hs : slot ≠ 0)
    (hP : (s.atIssue p n (oneWord p slot op w)).plan p.cl (oneWord p slot op w) ⟨slot, op, w⟩ = P)
    (hc : P.conds = []) (hg : P.gap ≤ 6) (hh : P.hold = .none) (hf : P.fail = none) (ht : P.tile = none) :
    ∃ k', exec i s = .next (s.finish s.time (((s.setClu p.cl k').act p.cl P.act).correctRead p.cl P)) ∧ Issued n p.idle (s.clu p.cl) k' ∧
      k'.inflight = if P.targets = [] then [] else [⟨(s.clu p.cl).stepCount + P.lat - 1, slot, P.targets, P.flags⟩] := by
  obtain ⟨hq, hcc, hm, hy, hr⟩ := hcl
  have hplace := State.slot_issues (b := oneWord p slot op w) rfl ((oneWord_size p slot op w).trans hn) hm hy hr hl hs hP hc hg
    (by simp [ht]) hh hf
  have hk := Cluster.issues_issued (idle := p.idle) (slot := slot) (b := oneWord p slot op w) hr hf ht
  refine ⟨_, ?_, hk.1, hk.2⟩
  rw [hi]
  rw [State.slotWord_enabled hcc, hplace]

/-- A closing word that only computes, on a ready cluster: its results go in flight, and nothing else changes. -/
theorem State.slotWord_books {i : Instr} {s : State} {p : Place} {slot : Nat} {op : Byte} {w : Fields} {n lat : Nat}
    {T : List Target} {F : NFlags} (hi : exec i s = s.slotWord p slot op w) (hcl : Closes n p s)
    (hn : (if w.wide then 10 else 6) = n) (hl : (⟨slot, op, w⟩ : SlotWord).legal = true) (hs : slot ≠ 0)
    (hP : let P := (s.atIssue p n (oneWord p slot op w)).plan p.cl (oneWord p slot op w) ⟨slot, op, w⟩
      P.conds = [] ∧ P.gap ≤ 6 ∧ P.hold = .none ∧ P.fail = none ∧ P.act = .none ∧ P.tile = none ∧ P.conf = [] ∧ P.lat = lat ∧
        P.targets = T ∧ P.flags = F) (hT : T ≠ []) :
    ∃ k', exec i s = .next (s.setClu p.cl k') ∧ Issued n p.idle (s.clu p.cl) k' ∧
      k'.inflight = [⟨(s.clu p.cl).stepCount + lat - 1, slot, T, F⟩] := by
  obtain ⟨hc, hg, hh, hf, ha, ht, hv, rfl, rfl, rfl⟩ := hP
  obtain ⟨k', h1, h2, h3⟩ := State.slotWord_acts hi hcl hn hl hs rfl hc hg hh hf ht
  refine ⟨k', ?_, h2, h3.trans (if_neg hT)⟩
  rw [h1, ha, State.correctRead_none _ hv]
  exact congrArg Host.Outcome.next (State.finish_quiet (State.quiet_congr hcl.1 rfl rfl rfl rfl rfl rfl) rfl rfl (Nat.max_self _).symm)

/-- A closing word of the control slot other than HALT on a ready cluster, legal and without a condition or a hold: the bundle issues
and the next one stands where the word's act says. -/
theorem State.controlWord_acts {i : Instr} {s : State} {p : Place} {op : Byte} {w : Fields} {n : Nat} {P : Plan}
    (hi : exec i s = s.slotWord p 0 op w) (hcl : Closes n p s) (hn : (if w.wide then 10 else 6) = n)
    (hl : (⟨0, op, w⟩ : SlotWord).legal = true)
    (hP : (s.atIssue p n (oneWord p 0 op w)).plan p.cl (oneWord p 0 op w) ⟨0, op, w⟩ = P)
    (hc : P.conds = []) (hg : P.gap ≤ 6) (hx : ∀ x, P.tile = some x → P.targets = []) (hh : P.hold = .none) (hf : P.fail = none)
    (ha : ∀ code, P.act ≠ .halt code) :
    exec i s = .next (s.finish s.time (((s.setClu p.cl (((s.clu p.cl).fetched n (oneWord p 0 op w)).issues p.idle 0 P
      ((s.atIssue p n (oneWord p 0 op w)).nextPc ((s.clu p.cl).fetched n (oneWord p 0 op w)) n P.act))).act p.cl P.act).correctRead
        p.cl P)) := by
  obtain ⟨hq, hcc, hm, hy, hr⟩ := hcl
  have hw : (oneWord p 0 op w).words = [⟨0, op, w⟩] := rfl
  have hz := (oneWord_size p 0 op w).trans hn
  have hp := State.plans_one (s := s.atIssue p n (oneWord p 0 op w)) (c := p.cl) hw hl
  have hplace := State.place_ready (b := oneWord p 0 op w) rfl hz hm hy hr (State.conds_one hw hl hr (by rw [hP, hc]) rfl hz
    (by rw [hP]; exact hg) (by rw [hP]; exact hx)) (by rw [hp]; intro x hx; rw [List.mem_singleton.mp hx]; simp [hP, hh])
  rw [hP] at hp
  rw [State.issueNow_control hp hf rfl hz ha, State.clu_atIssue] at hplace
  rw [hi]
  rw [State.slotWord_enabled hcc, hplace]
  simp only [State.atIssue, State.setClu_setClu, oneWord]

end Sys2Proof.Machine
end

