-- ==== Sys2Proof/WellFormed.lean ====
section
/-! DEFINITION. Which commands are well formed: what an operand type admits and the hardware cannot be given. A legal
or illegal bundle word, a malformed frame on a lane, an argument out of range are all well formed, since the spec says
what the machine does with them. -/

namespace Sys2Proof

/-- A frame's payload is plen units of 32 bytes (R349, R350). -/
def Frame.wf (f : Frame) : Bool := f.payload.length == 32 * f.plen.toNat

/-- An access stays inside the 8 MiB of the SRAM and moves at least one byte (R142); an external write is a multiple of 16
bytes on a 16-byte boundary (R150). -/
def ExtAccess.wf : ExtAccess → Bool
  | .read o n _ => decide (0 < n) && decide (o.toNat + n ≤ 0x800000)
  | .write o bs => decide (0 < bs.length) && decide (o.toNat + bs.length ≤ 0x800000) && bs.length % 16 == 0 && o.toNat % 16 == 0

/-- A block is 640 bytes (R342); a codeword is 528 symbols, of which a decoder corrects at most 8 (R343). -/
def LaneData.wf : LaneData → Bool
  | .block bs n => bs.length == 640 && decide (n ≤ 8)
  | .codeword sy => sy.length == 528
  | .uncorrectable => true

/-- A sample measures four core rails and 32 stack temperatures (R475). -/
def Sample.wf (m : Sample) : Bool := m.vcore.length == 4 && m.stackTemps.length == 32

/-- A datagram comes from an IPv4 or an IPv6 address (R470) and fits in a 9,216-byte Ethernet frame. -/
def Datagram.wf (d : Datagram) : Bool :=
  (d.srcAddr.length == 4 || d.srcAddr.length == 16) && decide (d.bytes.length ≤ 9216)

/-- A message has at most the 28 arguments of R453 and at most 8,192 data bytes (R470). -/
def Msg.wf (m : Msg) : Bool := decide (m.args.length ≤ 28) && decide (m.data.length ≤ 8192)

/-- A well-formed command. -/
def Instr.wf : Instr → Bool
  | .emptyBundle _ hdr => hdr.extractLsb' 0 6 == 0
  | .br _ _ => true
  | .brz _ _ => true
  | .brnz _ _ => true
  | .loop _ _ => true
  | .waitc _ _ => true
  | .waitg _ _ => true
  | .halt _ _ => true
  | .pref _ _ => true
  | .rdflg _ _ => true
  | .stat _ _ => true
  | .add _ _ => true
  | .sub _ _ => true
  | .mul _ _ => true
  | .and _ _ => true
  | .or _ _ => true
  | .xor _ _ => true
  | .shl _ _ => true
  | .shr _ _ => true
  | .sra _ _ => true
  | .slt _ _ => true
  | .sltu _ _ => true
  | .seq _ _ => true
  | .min _ _ => true
  | .max _ _ => true
  | .addi _ _ => true
  | .lih _ _ => true
  | .ld _ _ => true
  | .st _ _ => true
  | .fld _ _ => true
  | .fst _ _ => true
  | .fadd _ _ => true
  | .fsub _ _ => true
  | .fmul _ _ => true
  | .ffma _ _ => true
  | .fdiv _ _ => true
  | .fsqrt _ _ => true
  | .frsqrt _ _ => true
  | .fmax _ _ => true
  | .fmin _ _ => true
  | .fabs _ _ => true
  | .fneg _ _ => true
  | .fcmp _ _ => true
  | .fmvxf _ _ => true
  | .fmvfx _ _ => true
  | .icvtf _ _ => true
  | .fcvti _ _ => true
  | .setcx _ _ => true
  | .vadd _ _ => true
  | .vsub _ _ => true
  | .vmul _ _ => true
  | .vfma _ _ => true
  | .vdiv _ _ => true
  | .vsqrt _ _ => true
  | .vrsqrt _ _ => true
  | .vmax _ _ => true
  | .vmin _ _ => true
  | .vabs _ _ => true
  | .vneg _ _ => true
  | .vcmp _ _ => true
  | .vsel _ _ => true
  | .vbcast _ _ => true
  | .vld _ _ => true
  | .vst _ _ => true
  | .vcvt _ _ => true
  | .vdec _ _ => true
  | .vsplit3 _ _ => true
  | .vred _ _ => true
  | .mand _ _ => true
  | .mor _ _ => true
  | .mxor _ _ => true
  | .mnot _ _ => true
  | .mma _ _ => true
  | .move _ _ => true
  | .balloc _ _ => true
  | .bfree _ _ => true
  | .slaunch _ _ => true
  | .cadd _ _ => true
  | .caddr _ _ => true
  | .barr _ _ => true
  | .resultLanding _ => true
  | .clusterStepEnd _ _ => true
  | .mmaTileComplete _ => true
  | .icacheLineFill _ _ _ _ => true
  | .sramExternalAccess _ a => a.wf
  | .sramScrub _ _ _ => true
  | .sramClearDone _ _ => true
  | .tempSensorRead _ _ => true
  | .waitMet _ _ => true
  | .waitcTimeout _ _ => true
  | .ballocGrant _ _ _ => true
  | .moveComplete _ _ _ => true
  | .pacorLaunch _ _ => true
  | .descriptorActivate _ _ => true
  | .contrib _ f _ => f.wf
  | .reduceAdd _ _ _ => true
  | .reduceDeadline _ _ _ => true
  | .reduceDelivery _ _ _ => true
  | .overflowReplay _ _ _ => true
  | .gatherCollectFrame _ f _ => f.wf
  | .gatherReq _ f _ => f.wf
  | .gatherServeDeadline _ _ _ => true
  | .gatherReplySent _ _ _ => true
  | .shiftBlock _ f _ => f.wf
  | .permuteBlock _ f _ => f.wf
  | .permuteReadsDone _ _ _ => true
  | .streamWorkDone _ _ _ => true
  | .streamDeadline _ _ _ => true
  | .signalledFrameCommit _ f _ => f.wf
  | .dieCommitReport _ _ _ => true
  | .signal f _ => f.wf
  | .pendingSignalTimeout _ _ _ _ _ => true
  | .barrierArrivalFrame f _ => f.wf
  | .barrierDeadline _ _ => true
  | .barrierCompletionFrame f _ => f.wf
  | .shardAdvance _ _ _ => true
  | .jobDigestFrame _ _ _ _ => true
  | .jobStartAt _ _ => true
  | .jobStartTimeout _ _ => true
  | .hatchEntryStart _ _ => true
  | .impressionStart _ _ _ => true
  | .ledgerStepClose _ _ => true
  | .jobDone _ _ => true
  | .effectiveStepBegin _ _ _ => true
  | .trainingFrame _ _ _ _ => true
  | .equaliseTimeout _ _ _ => true
  | .alignBlock _ _ rx _ => rx.wf
  | .alignTimeout _ _ => true
  | .trainBlock _ _ rx _ => rx.wf
  | .negotiateTimeout _ _ => true
  | .dataBlock _ _ rx _ => rx.wf
  | .idleBlock _ _ rx _ => rx.wf
  | .timeBlock _ _ rx _ => rx.wf
  | .blockTransmit _ _ => true
  | .timeBlockDue _ _ => true
  | .alignBlockDue _ _ => true
  | .laneSerWindow _ _ errors symbols _ => decide (errors ≤ symbols)
  | .laneRetrainEnd _ _ _ _ => true
  | .ackTimeoutReplay _ _ => true
  | .linkSilenceTimeout _ _ => true
  | .fabWzCtrlDisable _ _ _ => true
  | .fabWzRetrain _ _ _ => true
  | .routeLookupDone _ _ => true
  | .egressSelect _ _ => true
  | .frameStomp _ _ => true
  | .steeringTimeout _ _ _ => true
  | .ecnEcho _ _ _ => true
  | .ecnRateStep _ _ _ => true
  | .queueSample _ _ => true
  | .policerParamWrite _ _ _ _ _ => true
  | .registerWrite _ _ => true
  | .mbxDoneClear _ _ => true
  | .drained _ => true
  | .drainTimeout _ => true
  | .memReq _ f _ => f.wf
  | .combineClose _ _ _ _ => true
  | .memReply _ f _ => f.wf
  | .memTimeout _ _ _ => true
  | .refreshSlot _ _ _ _ _ => true
  | .signatureBatch _ _ _ => true
  | .signatureMissing _ _ _ => true
  | .divergenceNotice _ _ _ => true
  | .proofForwardFrame _ f _ => f.wf
  | .mirrorData f _ => f.wf
  | .mirrorAck f _ => f.wf
  | .seal f _ => f.wf
  | .sealAck f _ => f.wf
  | .pairHello f _ => f.wf
  | .pairHelloDue _ => true
  | .injectNotice f _ => f.wf
  | .restoreData f _ => f.wf
  | .partnerLost _ => true
  | .takeoverComplete _ => true
  | .recoveryTimeout _ _ => true
  | .eventPush _ => true
  | .marginSample m _ => m.wf
  | .standbyUp _ => true
  | .inputLoss _ => true
  | .powerupHub _ => true
  | .bootComplete _ => true
  | .railsInWindow _ _ => true
  | .railWindowTimeout _ _ => true
  | .quadrantResetRelease _ _ => true
  | .powerDownDone _ => true
  | .vcoreRampDone _ _ => true
  | .ppsEdge _ => true
  | .ppsLost _ => true
  | .ptpSync _ => true
  | .ptpLost _ => true
  | .partnerHbLost _ => true
  | .rstNLow _ => true
  | .rstNRise _ => true
  | .meterInterval _ => true
  | .meterJobMarker _ _ _ _ _ => true
  | .meterSealBreak _ => true
  | .meterPowerUp _ => true
  | .meterPowerLoss _ => true
  | .meterTimeLabel _ _ => true
  | .meterLost _ => true
  | .bootRomRun _ => true
  | .mgmtDatagram d _ => d.wf
  | .serviceDatagram d _ => d.wf
  | .relayRequest f _ => f.wf
  | .relayReply f _ => f.wf
  | .relayTimeout _ _ => true
  | .mailboxDispatch _ => true
  | .nop m => m.wf
  | .getInfo m => m.wf
  | .readReg m => m.wf
  | .writeReg m => m.wf
  | .stageWrite m => m.wf
  | .plateLoad m => m.wf
  | .plateUnload m => m.wf
  | .jobStart m => m.wf
  | .jobStop m => m.wf
  | .jobEnd m => m.wf
  | .setNumericMode m => m.wf
  | .setMapping m => m.wf
  | .resetScales m => m.wf
  | .injectFault m => m.wf
  | .routeLoad m => m.wf
  | .routeDrain m => m.wf
  | .routeSwap m => m.wf
  | .routeResume m => m.wf
  | .routeCancel m => m.wf
  | .readRunRecord m => m.wf
  | .readOverflowLog m => m.wf
  | .readOverrunLog m => m.wf
  | .readIdleAccount m => m.wf
  | .readRankWait m => m.wf
  | .readLedger m => m.wf
  | .readEventLog m => m.wf
  | .readClusterStatus m => m.wf
  | .readFaultRecord m => m.wf
  | .clearHalt m => m.wf
  | .readStats m => m.wf
  | .readMemFaults m => m.wf
  | .readStackStatus m => m.wf
  | .memReadRemote m => m.wf
  | .memWriteRemote m => m.wf
  | .fwStatus m => m.wf
  | .fwBegin m => m.wf
  | .fwWrite m => m.wf
  | .fwFinish m => m.wf
  | .fwDiscard m => m.wf
  | .fwConfirm m => m.wf
  | .keyEnrol m => m.wf
  | .keyRemove m => m.wf
  | .keyList m => m.wf
  | .attest m => m.wf
  | .attestRun m => m.wf
  | .identityCert m => m.wf
  | .setCapMax m => m.wf
  | .setVcore m => m.wf
  | .modulePower m => m.wf
  | .moduleReset m => m.wf
  | .dieReset m => m.wf
  | .clearTrip m => m.wf
  | .readTripLog m => m.wf
  | .pairStatus m => m.wf
  | .fmRegister m => m.wf
  | .failover m => m.wf
  | .resync m => m.wf
  | .restorePartner m => m.wf
  | .pairUnfence m => m.wf
  | .declareLost m => m.wf
  | .meterInfo m => m.wf
  | .meterRead m => m.wf
  | .meterPubkey m => m.wf
  | .meterCert m => m.wf
  | .gatherCollectDeadline _ _ _ => true
  | .shiftDeadline _ _ _ => true
  | .meterReply _ _ => true
  | .meterCommandTimeout _ => true
  | .dieResetRelease _ _ => true
  | .moduleResetRelease _ => true
  | .rstNGlitch _ => true
  | .injectedPartnerLossEnd _ => true

end Sys2Proof
end

