-- ==== Sys2Proof/Tests/Slice0.lean ====
section
/-! SUPPORT. Tests: an ill-formed term for each check of well-formedness, values computed by hand from the spec's rules, and for each
obligation with hypotheses, clause by clause, a state and operands that meet all of them together. What a signature check answers has no
body in Lean; where a clause supposes that a signature is good, the witness meets every other hypothesis and the theorem next to it says that
the one left is that answer. Of an accepted fabric map only its parts
stand here: its 4,096 bytes are neither parsed nor hashed. -/

namespace Sys2Proof.Tests

open Sys2Proof.Machine

set_option maxRecDepth 100000
set_option Elab.async false

/-! ## States for the tests -/

/-- The core of a cluster that runs: its code region has 256 bytes, all of whose lines are in its cache. -/
def core : Cluster := { Cluster.reset with gstate := .running, codeLen := 256, icache := [(0, [0]), (1, [1])], job := 7 }

/-- The module after reset with one cluster. -/
def onCore (k : Cluster) : State := State.reset.setClu 255 k

/-- The place of a word that closes its bundle on cluster 255. -/
def place : Place := ⟨255, false, 15, 0⟩

/-- The fields of a narrow word. -/
def word (d a b c : BitVec 5) (m : BitVec 4) : Fields := ⟨d, a, b, c, m, 0, false⟩

/-- The fields of a wide word. -/
def wword (d a b c : BitVec 5) (m : BitVec 4) (imm : Word) : Fields := ⟨d, a, b, c, m, imm, true⟩

/-- The module after reset at a network time. -/
def clock (t : Nat) : State := { State.reset with time := t }

/-- What a command leaves, seen through g. -/
def after {α : Type} (o : Host.Outcome State Fault Refusal) (g : State → α) : Option α :=
  match o with
  | .next t => some (g t)
  | _ => none

/-- A frame that carries nothing. -/
def frame : Frame where
  kind := 0
  cls := 0
  mc := false
  plen := 0
  ecn := false
  echo := false
  fmt := 0
  sigDie := 0
  sig := false
  job := 7
  srcRank := 0
  dstModule := 0
  dstPort := 0x3F
  group := 0
  transfer := 0
  ttl := 9
  ident := 0
  offset := 0
  detail := 0
  payload := []
  counter := 0
  inc := 0
  announced := 0
  stomp := false
  crc := 0
  reserved := false
  spare := 0

/-- A plate that names nothing. -/
def plate : Plate where
  job := 7
  seed := 0
  firmware := 0
  mode := 1
  mappingsN := 1
  digest := 0
  module := 0
  portOff := 0
  clusterOff := 0
  poolBases := []
  ranks := []
  mappings := []
  hatch := ⟨0, 0, [], 0⟩
  barriers := []
  weights := []
  sched := []
  counters := []
  pools := []
  quotas := []
  shares := []
  windows := []
  mirror := []
  shardRecs := []
  images := []
  bytes := []

/-- The module after reset with job 7 in slot 7, the last. -/
def withJob (j : Job) : State := { State.reset with jobs := [(7, { j with no := 7 })] }

/-- A job that runs a plate. -/
def running (p : Plate) : Job := { Job.reset with st := .running, plate := some p }

/-- A message of local software. -/
def msg (job : JobNo) (target : BitVec 4) (args : List Word) (data : List Byte) : Msg := ⟨0xFFFF, job, target, args, data, .internal⟩

/-- A descriptor of job 7 from its operation, impression, done_counter word, deadline, length, source, destination, tensor and last words. -/
def descr (op impr done deadline len : Nat) (source dest tensor : DWord) (more : List DWord) : Desc :=
  ⟨[ BitVec.ofNat 64 (op + 65536 * 7 + 2 ^ 32 * impr), 0x1000, BitVec.ofNat 64 (done + 2 ^ 32 * 0xFFF), BitVec.ofNat 64 (deadline + 2 ^ 32 * len)
   , source, dest, tensor, 0 ] ++ more⟩

/-- A context that starts at time 0. -/
def context (d : Desc) (mask : List Nat) : Ctx := Ctx.fresh 15 ⟨d, 0, 0, none⟩ 0 mask

/-- A frame that waits for its unit, from the module itself. -/
def queued (f : Frame) : Queued := ⟨0, f, 0, false, none, true, false, none, false, 0, false⟩

/-- The module after reset with one context on engine 63 and one frame for it. -/
def onEngine (c : Ctx) (f : List Frame) : State :=
  { State.reset.setEng 63 { Engine.reset with ctxs := [c] } with fab := { Fabric.reset with inbox := f.map fun f => (LocalUnit.engine 63, queued f) } }

/-- The module after reset with one port. -/
def onPort63 (x : PortState) : State := State.reset.setPort 63 x

/-- A block of a 28-byte control unit and 608 bytes with a CRC, which the witnesses check. -/
def sealed (crc : Nat) (ctl units : List Byte) : List Byte := ctl ++ leBytes 4 crc ++ units

/-- The fabric part after reset with a map in which module 1 is the pair partner of module 0. -/
def mapped : Fabric :=
  { Fabric.reset with map := some ⟨1, 2, 1, [(0, ⟨true, 0, 0, 1, false, false, false, false⟩), (1, ⟨true, 1, 0, 0, false, false, false, false⟩)], []⟩ }

/-- A signature entry. -/
def sigEntry (crc : DWord) : SigEntry := ⟨⟨1, 0xFF, 5, 6, 7⟩, 2, 9, crc, 64⟩

/-- The header of a plate part: its part number, the number of parts, and the bytes it counts, for job 7 on a module that has no map. -/
def partHeader (part parts len : Nat) : Memory :=
  [(5, BitVec.ofNat 8 part), (6, BitVec.ofNat 8 parts), (8, 7), (10, 0xFF), (11, 1), (0x10, BitVec.ofNat 8 len)].filter fun e => e.2 != 0

/-- What the meter measures at a time in ms. -/
def measured (ms : Nat) : MeterSample := ⟨ms, 77, 1, 2, 3, 4, true⟩

/-- A meter record. -/
def record (kind : Byte) (seq : DWord) : MeterRec := ⟨kind, false, true, false, false, seq, 0, 0, 0, 0, 0, 0, 0, 0, 0, 0, 0⟩

/-- The bytes of a request of agent 9 with a code and a sequence number for a module and a target, with 114 bytes where its signature stands. -/
def request (code : Nat) (seq : Nat) (module : BitVec 9) (target : Nat) (relayed : Bool) : List Byte :=
  envelope false relayed 0 9 module 0 ++ leBytes 2 code ++ leBytes 2 seq ++ List.replicate 6 0 ++ leBytes 2 target ++ List.replicate 358 0

/-! ## Well-formedness: each check refuses a term -/

/-- A message with arguments and data of given lengths. -/
def long (args data : Nat) : Msg := msg 7 0 (List.replicate args 0) (List.replicate data 0)

/-- A sample of given lengths. -/
def sampleOf (rails temps : Nat) : Sample := ⟨4800, 0, List.replicate rails 0, List.replicate temps 0, 0, 0, true⟩

theorem test_wf_empty_bundle_has_no_slot : (Instr.emptyBundle 0 0x0001).wf = false ∧ (Instr.emptyBundle 0 0xFFC0).wf = true := by decide
theorem test_wf_frame_payload_counts_units : (Instr.signal { frame with plen := 1 } 0).wf = false ∧ (Instr.signal frame 0).wf = true := by decide
theorem test_wf_read_in_sram : (Instr.sramExternalAccess 0 (.read 0x7FFFFF 2 .clean)).wf = false ∧
    (Instr.sramExternalAccess 0 (.read 0 0 .clean)).wf = false ∧ (Instr.sramExternalAccess 0 (.read 0x7FFFFF 1 .clean)).wf = true := by decide
theorem test_wf_write_in_units : (Instr.sramExternalAccess 0 (.write 8 (List.replicate 16 0))).wf = false ∧
    (Instr.sramExternalAccess 0 (.write 16 (List.replicate 8 0))).wf = false ∧
    (Instr.sramExternalAccess 0 (.write 0x7FFFF0 (List.replicate 32 0))).wf = false ∧ (Instr.sramExternalAccess 0 (.write 16 [])).wf = false := by decide
theorem test_wf_block_length : (LaneData.block (List.replicate 639 0) 0).wf = false := by decide +kernel
theorem test_wf_block_corrections : (LaneData.block (List.replicate 640 0) 9).wf = false := by decide +kernel
theorem test_wf_codeword_length : (LaneData.codeword (List.replicate 527 0)).wf = false := by decide +kernel
theorem test_wf_errors_among_symbols : (Instr.laneSerWindow 0 0 3 2 0).wf = false ∧ (Instr.laneSerWindow 0 0 2 2 0).wf = true := by decide
theorem test_wf_sample_rails : (Instr.marginSample (sampleOf 3 32) 0).wf = false ∧ (Instr.marginSample (sampleOf 4 31) 0).wf = false ∧
    (Instr.marginSample (sampleOf 4 32) 0).wf = true := by decide
theorem test_wf_datagram_source : (Instr.mgmtDatagram ⟨[], [1, 2, 3], 5, 7460⟩ 0).wf = false ∧ (Instr.mgmtDatagram ⟨[], [1, 2, 3, 4], 5, 7460⟩ 0).wf = true := by decide
theorem test_wf_datagram_length : (Instr.mgmtDatagram ⟨List.replicate 9217 0, [1, 2, 3, 4], 5, 7460⟩ 0).wf = false := by decide +kernel
theorem test_wf_message_arguments : (Instr.nop (long 29 0)).wf = false ∧ (Instr.nop (long 28 0)).wf = true := by decide
theorem test_wf_message_data : (Instr.stageWrite (long 2 8193)).wf = false := by decide +kernel

/-! ## Values computed by hand from the spec's rules -/

/-- What a word of cluster 255 puts in flight. -/
def issues (i : Instr) (k : Cluster) : Option (List (List Target)) := after (exec i (onCore k)) fun t => (t.clu 255).inflight.map (·.targets)

theorem test_add_wraps : issues (.add place (word 3 1 2 0 0)) { core with x := [(1, 0xFFFFFFFFFFFFFFFF), (2, 2)] } = some [[.x 3 1]] := by decide +kernel
theorem test_sub_borrows : issues (.sub place (word 1 1 2 0 0)) { core with x := [(2, 1)] } = some [[.x 1 0xFFFFFFFFFFFFFFFF]] := by decide +kernel
theorem test_mul_keeps_low_half : issues (.mul place (word 3 1 1 0 0)) { core with x := [(1, 0x100000001)] } = some [[.x 3 0x200000001]] := by decide +kernel
theorem test_slt_is_signed : issues (.slt place (word 3 1 2 0 0)) { core with x := [(1, 0x8000000000000000)] } = some [[.x 3 1]] := by decide +kernel
theorem test_sltu_is_unsigned : issues (.sltu place (word 3 1 2 0 0)) { core with x := [(1, 0x8000000000000000)] } = some [[.x 3 0]] := by decide +kernel
theorem test_sra_keeps_sign : issues (.sra place (word 3 1 2 0 0)) { core with x := [(1, 0x8000000000000000), (2, 63)] } =
    some [[.x 3 0xFFFFFFFFFFFFFFFF]] := by decide +kernel
theorem test_addi_extends_sign : issues (.addi place (wword 3 1 0 0 0 0xFFFFFFFE)) { core with x := [(1, 1)] } = some [[.x 3 0xFFFFFFFFFFFFFFFF]] := by decide +kernel
theorem test_lih_keeps_low_half : issues (.lih place (wword 3 1 0 0 0 0x12345678)) { core with x := [(1, 0xFFFFFFFF9ABCDEF0)] } =
    some [[.x 3 0x123456789ABCDEF0]] := by decide +kernel
theorem test_fadd_exact : issues (.fadd place (word 3 1 2 0 0)) { core with f := [(1, 0x3FC00000), (2, 0x40200000)] } = some [[.f 3 0x40800000]] := by decide +kernel
theorem test_fadd_ties_to_even : issues (.fadd place (word 3 1 2 0 0)) { core with f := [(1, 0x4B800000), (2, 0x3F800000)] } =
    some [[.f 3 0x4B800000]] := by decide +kernel
theorem test_fdiv_rounds : issues (.fdiv place (word 3 1 2 0 0)) { core with f := [(1, 0x3F800000), (2, 0x40400000)] } = some [[.f 3 0x3EAAAAAB]] := by decide +kernel
theorem test_fsqrt_rounds : issues (.fsqrt place (word 3 1 0 0 0)) { core with f := [(1, 0x40000000)] } = some [[.f 3 0x3FB504F3]] := by decide +kernel
theorem test_ffma_rounds_once : issues (.ffma place (word 3 1 1 2 0)) { core with f := [(1, 0x3F800001), (2, 0xBF800002)] } = some [[.f 3 0x28800000]] := by decide +kernel
theorem test_fcvti_saturates : issues (.fcvti place (word 3 1 0 0 0)) { core with f := [(1, 0x7F000000)] } = some [[.x 3 0x7FFFFFFFFFFFFFFF]] := by decide +kernel
theorem test_icvtf_rounds : issues (.icvtf place (word 3 1 0 0 0)) { core with x := [(1, 0x1000001)] } = some [[.f 3 0x4B800000]] := by decide +kernel

/-- R4, R5 in the example of the scope file: cluster Q2.G5.C3 has index 171, and ports P42 and P43 belong to region Q2.G5. -/
theorem test_numbers_of_units : ClusterId.die 171 = 2 ∧ Port.die 42 = 2 ∧ Port.region 42 = 21 ∧ Port.region 43 = 21 := by decide
/-- The CRC-32C of the nine digits 1 to 9, as the literature gives it. -/
theorem test_crc32c : crc32c (textBytes "123456789") = 0xE3069283 := by decide +kernel
/-- The CRC-64 of the nine digits 1 to 9 with the polynomial and the complements of R316. -/
theorem test_crc64 : crc64 (textBytes "123456789") = 0x995DC9BBDF1939FA := by decide +kernel

/-- A cluster that the fuses disable: no word runs there, and its SRAM is not addressable (R8). -/
theorem test_disabled_cluster_runs_nothing :
    after (exec (.add place (word 3 1 2 0 0)) { onCore core with fuse := { State.reset.fuse with clusterOff := 2 ^ 255 } }) (fun t => t.clu 255) =
      some core := by decide +kernel
/-- The step runs the front of the queue and leaves the rest. -/
theorem test_step_takes_the_front : after (step { State.reset with pending := [.ptpSync 5, .ptpSync 7] }) (fun t => (t.pending, t.time)) =
    some ([.ptpSync 7], 5) := by decide +kernel

/-! ## Hypotheses that are met -/

namespace IntegerOpsBookTheirResult1
def s : State := onCore { core with x := [(30, 0x8000000000000003), (31, 0xFFFFFFFFFFFFFFFF)], stepCount := 9 }
def p := place
def w := word 31 30 31 0 0
set_option synthInstance.maxSize 4000 in
theorem witness_IntegerOpsBookTheirResult_1 :
    Closes 6 p s ∧ w.wide = false ∧ w.c = 0 ∧ w.mod = 0 := by
  unfold Closes
  decide +kernel
end IntegerOpsBookTheirResult1

namespace ImmediateOpsBookTheirResult1
def s : State := onCore { core with x := [(30, 0x8000000000000003), (31, 0xFFFFFFFFFFFFFFFF)], stepCount := 9 }
def p := place
def w := wword 31 30 0 0 0 0xFFFFFFFF
set_option synthInstance.maxSize 4000 in
theorem witness_ImmediateOpsBookTheirResult_1 :
    Closes 10 p s ∧ w.wide = true ∧ w.c = 0 ∧ w.mod = 0 ∧ w.b = 0 := by
  unfold Closes
  decide +kernel
end ImmediateOpsBookTheirResult1

namespace ImmediateOpsBookTheirResult2
def s : State := onCore { core with x := [(30, 0x8000000000000003), (31, 0xFFFFFFFFFFFFFFFF)], stepCount := 9 }
def p := place
def w := wword 0 30 31 0 0 0xFFFFF
set_option synthInstance.maxSize 4000 in
theorem witness_ImmediateOpsBookTheirResult_2 :
    Closes 10 p s ∧ w.wide = true ∧ w.c = 0 ∧ w.mod = 0 ∧ w.d = 0 ∧ w.imm.toNat < 2 ^ 20 := by
  unfold Closes
  decide +kernel
end ImmediateOpsBookTheirResult2

namespace FloatOpsBookTheirResult1
def s : State := onCore { core with f := [(30, 0x7F7FFFFF), (31, 0x00800001)] }
def p := place
def w := word 31 30 31 0 0
set_option synthInstance.maxSize 4000 in
theorem witness_FloatOpsBookTheirResult_1 :
    Closes 6 p s ∧ w.wide = false ∧ w.mod = 0 ∧ w.c = 0 := by
  unfold Closes
  decide +kernel
end FloatOpsBookTheirResult1

namespace FloatOpsBookTheirResult2
def s : State := onCore { core with f := [(30, 0x7F7FFFFF), (31, 0x00800001)] }
def p := place
def w := word 31 30 0 0 0
set_option synthInstance.maxSize 4000 in
theorem witness_FloatOpsBookTheirResult_2 :
    Closes 6 p s ∧ w.wide = false ∧ w.mod = 0 ∧ w.b = 0 ∧ w.c = 0 := by
  unfold Closes
  decide +kernel
end FloatOpsBookTheirResult2

namespace FloatOpsBookTheirResult3
def s : State := onCore { core with f := [(30, 0x7F7FFFFF), (31, 0x00800001)] }
def p := place
def w := word 31 30 31 31 0
set_option synthInstance.maxSize 4000 in
theorem witness_FloatOpsBookTheirResult_3 :
    Closes 6 p s ∧ w.wide = false ∧ w.mod = 0 := by
  unfold Closes
  decide +kernel
end FloatOpsBookTheirResult3

namespace MovesAndConversionsBookTheirResult1
def s : State := onCore { core with f := [(30, 0x7F7FFFFF), (31, 0x00800001)] }
def p := place
def w := word 31 30 31 5 0
set_option synthInstance.maxSize 4000 in
theorem witness_MovesAndConversionsBookTheirResult_1 :
    Closes 6 p s ∧ w.wide = false ∧ w.mod = 0 ∧ w.c.toNat ≤ 5 := by
  unfold Closes
  decide +kernel
end MovesAndConversionsBookTheirResult1

namespace MovesAndConversionsBookTheirResult2
def s : State := onCore { core with f := [(30, 0x7F7FFFFF), (31, 0x00800001)], x := [(30, 0xFFFFFFFFFFFFFFFF)] }
def p := place
def w := word 31 30 0 0 0
set_option synthInstance.maxSize 4000 in
theorem witness_MovesAndConversionsBookTheirResult_2 :
    Closes 6 p s ∧ w.wide = false ∧ w.mod = 0 ∧ w.b = 0 ∧ w.c = 0 := by
  unfold Closes
  decide +kernel
end MovesAndConversionsBookTheirResult2

namespace ScalarLoadsAndStoresBook1
def s : State := onCore { core with x := [(30, 0x7FFFFF), (31, 9)] }
def p := place
def w := wword 31 30 0 0 0 0xFFFFFFF9
def a := ((s.clu p.cl).xr w.a + w.imm.signExtend 64).toNat
set_option synthInstance.maxSize 4000 in
theorem witness_ScalarLoadsAndStoresBook_1 :
    (Closes 10 p s ∧ w.wide = true ∧ w.c = 0 ∧ w.mod = 0) ∧
    (s.armed = [] ∧ s.badWords = [] ∧ w.b = 0 ∧ a % 8 = 0 ∧ a + 8 ≤ 2 ^ 23) := by
  unfold Closes
  decide +kernel
end ScalarLoadsAndStoresBook1

namespace ScalarLoadsAndStoresBook2
def s : State := onCore { core with x := [(30, 0x7FFFFF), (31, 9)] }
def p := place
def w := wword 31 30 0 0 0 0xFFFFFFFD
def a := ((s.clu p.cl).xr w.a + w.imm.signExtend 64).toNat
set_option synthInstance.maxSize 4000 in
theorem witness_ScalarLoadsAndStoresBook_2 :
    (Closes 10 p s ∧ w.wide = true ∧ w.c = 0 ∧ w.mod = 0) ∧
    (s.armed = [] ∧ s.badWords = [] ∧ w.b = 0 ∧ a % 4 = 0 ∧ a + 4 ≤ 2 ^ 23) := by
  unfold Closes
  decide +kernel
end ScalarLoadsAndStoresBook2

namespace ScalarLoadsAndStoresBook3
def s : State := onCore { core with x := [(30, 0x7FFFFF), (31, 9)] }
def p := place
def w := wword 0 30 31 0 0 0xFFFFFFF9
def a := ((s.clu p.cl).xr w.a + w.imm.signExtend 64).toNat
set_option synthInstance.maxSize 4000 in
theorem witness_ScalarLoadsAndStoresBook_3 :
    (Closes 10 p s ∧ w.wide = true ∧ w.c = 0 ∧ w.mod = 0) ∧
    (s.armed = [] ∧ s.badWords = [] ∧ w.d = 0 ∧ a % 8 = 0 ∧ a + 8 ≤ 2 ^ 23) := by
  unfold Closes
  decide +kernel
end ScalarLoadsAndStoresBook3

namespace ScalarLoadsAndStoresBook4
def s : State := onCore { core with x := [(30, 0x7FFFFF), (31, 9)], f := [(31, 0x12345678)] }
def p := place
def w := wword 0 30 31 0 0 0xFFFFFFFD
def a := ((s.clu p.cl).xr w.a + w.imm.signExtend 64).toNat
set_option synthInstance.maxSize 4000 in
theorem witness_ScalarLoadsAndStoresBook_4 :
    (Closes 10 p s ∧ w.wide = true ∧ w.c = 0 ∧ w.mod = 0) ∧
    (s.armed = [] ∧ s.badWords = [] ∧ w.d = 0 ∧ a % 4 = 0 ∧ a + 4 ≤ 2 ^ 23) := by
  unfold Closes
  decide +kernel
end ScalarLoadsAndStoresBook4

namespace LaneOpsBookTheirResult1
def s : State := onCore { core with v := [(30, [(0, 0x3F800000), (511, 0x7F7FFFFF)]), (31, [(511, 0x7F7FFFFF)])], m := [(7, 1 <<< 511)] }
def p := place
def w := word 29 30 31 0 7
set_option synthInstance.maxSize 4000 in
theorem witness_LaneOpsBookTheirResult_1 :
    Closes 6 p s ∧ w.wide = false ∧ w.mod.toNat < 8 ∧ w.c = 0 := by
  unfold Closes
  decide +kernel
end LaneOpsBookTheirResult1

namespace LaneOpsBookTheirResult2
def s : State := onCore { core with f := [(30, 0x7F7FFFFF)], v := [(30, [(0, 0x3F800000), (511, 0x7F7FFFFF)]), (31, [(511, 0x7F7FFFFF)])], m := [(7, 1 <<< 511)] }
def p := place
def w := word 29 30 0 0 0
set_option synthInstance.maxSize 4000 in
theorem witness_LaneOpsBookTheirResult_2 :
    Closes 6 p s ∧ w.wide = false ∧ w.mod.toNat < 8 ∧ w.b = 0 ∧ w.c = 0 := by
  unfold Closes
  decide +kernel
end LaneOpsBookTheirResult2

namespace LaneOpsBookTheirResult3
def s : State := onCore { core with v := [(30, [(0, 0x3F800000), (511, 0x7F7FFFFF)]), (31, [(511, 0x7F7FFFFF)])], m := [(7, 1 <<< 511)] }
def p := place
def w := word 29 30 31 7 7
set_option synthInstance.maxSize 4000 in
theorem witness_LaneOpsBookTheirResult_3 :
    Closes 6 p s ∧ w.wide = false ∧ w.mod.toNat < 8 ∧ w.c.toNat < 8 := by
  unfold Closes
  decide +kernel
end LaneOpsBookTheirResult3

namespace MaskOpsBookTheirResult1
def s : State := onCore { core with v := [(30, [(511, 0x3F800000)])] }
def p := place
def w := word 7 30 31 5 7
set_option synthInstance.maxSize 4000 in
theorem witness_MaskOpsBookTheirResult_1 :
    Closes 6 p s ∧ w.wide = false ∧ w.d.toNat < 8 ∧ w.c.toNat ≤ 5 ∧ w.mod.toNat < 8 := by
  unfold Closes
  decide +kernel
end MaskOpsBookTheirResult1

namespace MaskOpsBookTheirResult2
def s : State := onCore { core with m := [(6, 5), (7, 3)] }
def p := place
def w := word 0 7 6 0 0
set_option synthInstance.maxSize 4000 in
theorem witness_MaskOpsBookTheirResult_2 :
    Closes 6 p s ∧ w.wide = false ∧ w.d.toNat < 8 ∧ w.mod = 0 ∧ w.c = 0 ∧ w.a.toNat < 8 ∧ w.b.toNat < 8 := by
  unfold Closes
  decide +kernel
end MaskOpsBookTheirResult2

namespace MaskOpsBookTheirResult3
def s : State := onCore { core with m := [(6, 5), (7, 3)] }
def p := place
def w := word 7 7 0 0 0
set_option synthInstance.maxSize 4000 in
theorem witness_MaskOpsBookTheirResult_3 :
    Closes 6 p s ∧ w.wide = false ∧ w.d.toNat < 8 ∧ w.mod = 0 ∧ w.c = 0 ∧ w.a.toNat < 8 ∧ w.b = 0 := by
  unfold Closes
  decide +kernel
end MaskOpsBookTheirResult3

namespace VectorLoadsAndStoresBook1
def s : State := { onCore { core with x := [(30, 8388224)] } with mem := [(sramAddr 255 8388224, 0x5A), (sramAddr 255 8388607, 0xA5)] }
def p := place
def w := word 31 30 0 2 0
def g := Fmt.hx6
def k := s.clu p.cl
def a := (k.xr w.a).toNat
set_option synthInstance.maxSize 4000 in
theorem witness_VectorLoadsAndStoresBook_1 :
    (Closes 6 p s ∧ w.wide = false ∧ w.mod.toNat < 8 ∧ Fmt.ofCode w.c.toNat = some g) ∧
    (s.armed = [] ∧ s.badWords = [] ∧ a % 64 = 0 ∧ a + g.bytes 512 ≤ 2 ^ 23 ∧ w.b = 0) := by
  unfold Closes
  decide +kernel
end VectorLoadsAndStoresBook1

namespace VectorLoadsAndStoresBook2
def s : State := onCore { core with x := [(30, 8386560)], v := [(31, [(511, 0xFFFFFFFF)])] }
def p := place
def w := word 0 30 31 6 7
def g := Fmt.b32
def k := s.clu p.cl
def a := (k.xr w.a).toNat
set_option synthInstance.maxSize 4000 in
theorem witness_VectorLoadsAndStoresBook_2 :
    (Closes 6 p s ∧ w.wide = false ∧ w.mod.toNat < 8 ∧ Fmt.ofCode w.c.toNat = some g) ∧
    (s.armed = [] ∧ s.badWords = [] ∧ a % 64 = 0 ∧ a + g.bytes 512 ≤ 2 ^ 23 ∧ w.d = 0) := by
  unfold Closes
  decide +kernel
end VectorLoadsAndStoresBook2

namespace VectorConversionsBook1
def s : State := onCore { core with x := [(28, 0x7F7F), (29, 3)], v := [(31, [(511, 0x3F812345)])], cx := ⟨1, 2, 3, 4⟩ }
def p := place
def w := wword 30 31 28 29 0 0x33
def k := s.clu p.cl
set_option synthInstance.maxSize 4000 in
theorem witness_VectorConversionsBook_1 :
    Closes 10 p s ∧ w.wide = true ∧ w.mod.toNat < 8 ∧ Fmt.ofCode (w.imm.toNat % 16) = some Fmt.hx8n ∧ w.imm.toNat % 16 ≤ 5 ∧ w.imm.toNat < 128 ∧ useCodeOk k.cx.use = true ∧ (w.imm.getLsbD 5 = true → w.imm.toNat % 16 = 3) := by
  unfold Closes
  decide +kernel
end VectorConversionsBook1

namespace VectorConversionsBook2
def s : State := onCore { core with x := [(28, 0x7F7F)], v := [(31, [(511, 0x3F812345)])] }
def p := place
def w := wword 30 31 28 0 7 0x45
def g := Fmt.hx16
set_option synthInstance.maxSize 4000 in
theorem witness_VectorConversionsBook_2 :
    (Closes 10 p s ∧ w.wide = true ∧ w.mod.toNat < 8 ∧ Fmt.ofCode (w.imm.toNat % 16) = some g) ∧
    (w.imm.toNat % 16 ≤ 5 ∧ w.imm.toNat < 128 ∧ w.c = 0 ∧ w.imm.getLsbD 4 = false ∧ w.imm.getLsbD 5 = false) := by
  unfold Closes
  decide +kernel
end VectorConversionsBook2

namespace VectorConversionsBook3
def s : State := onCore { core with v := [(31, [(511, 0x3F812345)])] }
def p := place
def w := word 29 31 0 0 0
set_option synthInstance.maxSize 4000 in
theorem witness_VectorConversionsBook_3 :
    Closes 6 p s ∧ w.wide = false ∧ w.mod.toNat < 8 ∧ w.b = 0 ∧ w.c = 0 ∧ w.d.toNat ≤ 29 := by
  unfold Closes
  decide +kernel
end VectorConversionsBook3

namespace VectorConversionsBook4
def s : State := onCore { core with v := [(31, [(511, 0x3F812345)])], m := [(7, 1 <<< 511)] }
def p := place
def w := word 31 31 0 3 7
set_option synthInstance.maxSize 4000 in
theorem witness_VectorConversionsBook_4 :
    Closes 6 p s ∧ w.wide = false ∧ w.mod.toNat < 8 ∧ w.b = 0 ∧ w.c.toNat ≤ 3 := by
  unfold Closes
  decide +kernel
end VectorConversionsBook4

namespace EmptyBundlesBranchesAndLoopsMove1
def s : State := { withJob { running plate with prog := [(3, { EntryProg.reset with running := true })] } with clusters := [(255, { core with impr := some ⟨7, 1, 0, 3, 0⟩ })] }
def i : ImprRef := ⟨7, 1, 0, 3, 0⟩
set_option synthInstance.maxSize 4000 in
theorem witness_EmptyBundlesBranchesAndLoopsMove_1 :
    s.quiet = true ∧ s.hasCluster 255 = true ∧ (s.clu 255).ready 2 = true ∧ Claims.Rising s ∧ (s.clu 255).impr = some i ∧ s.jobSlot i.job ≠ none ∧ (s.job i.job).proofRole = 0 ∧ 32#6 ≠ 0 := by
  unfold Claims.Rising
  decide +kernel
end EmptyBundlesBranchesAndLoopsMove1

namespace EmptyBundlesBranchesAndLoopsMove2
def s : State := onCore { core with pc := 20, loops := [⟨0, 18, 2⟩, ⟨0, 40, 1⟩], x := [(1, 1)] }
def p := place
def w := wword 0 0 0 0 0 20
def w1 := wword 0 1 0 0 0 20
def k := s.clu p.cl
set_option synthInstance.maxSize 4000 in
theorem witness_EmptyBundlesBranchesAndLoopsMove_2 :
    (Closes 10 p s ∧ w.wide = true ∧ w.d = 0 ∧ w.b = 0 ∧ w.c = 0) ∧
    (w.mod = 0 ∧ w.imm.toNat % 2 = 0 ∧ w.a = 0 ∧ k.xr w.a = 0 ∧ k.xr w1.a ≠ 0) := by
  unfold Closes
  decide +kernel
end EmptyBundlesBranchesAndLoopsMove2

namespace EmptyBundlesBranchesAndLoopsMove3
def s : State := { onCore { core with pc := 20, x := [(1, 1)], loops := [⟨30, 30, 5⟩, ⟨0, 40, 2⟩] } with mem := [(0x1F, 0xFF)], badWords := [0] }
def p := place
def w := wword 0 1 0 0 0 10
def w0 := wword 0 0 0 0 0 10
def k := s.clu p.cl
set_option synthInstance.maxSize 4000 in
theorem witness_EmptyBundlesBranchesAndLoopsMove_3 :
    (Closes 10 p s ∧ w.wide = true ∧ w.d = 0 ∧ w.b = 0 ∧ w.c = 0 ∧ w.mod = 0) ∧
    (w.imm.toNat % 2 = 0 ∧ k.loops.length < 4 ∧ 10 ≤ w.imm.toInt ∧ (∀ e ∈ k.loops.head?, e.first ≤ k.pc.toNat + 10 ∧ k.pc.toNat + w.imm.toNat ≤ e.last) ∧ k.xr w.a ≠ 0 ∧ k.xr w0.a = 0 ∧ (∀ b ∈ s.badWords, meets (k.codeBase.toNat + (k.pc.toNat + w0.imm.toNat)) 2 b (codeWord b) = false)) := by
  unfold Closes
  decide +kernel
end EmptyBundlesBranchesAndLoopsMove3

namespace WaitsIssueOrHoldAndEnd1
def s : State := { onCore { core with x := [(31, 0x100000005)] } with dies := [(3, { DieState.reset with counters := [(16383, ⟨7, 0, false, false, false, 5⟩)] })] }
def p := place
def w := wword 30 0 31 0 0 0x0001FFFF
def k := s.clu p.cl
def n : CounterName := w.imm.extractLsb' 0 16
def v := ((k.xr w.b).extractLsb' 0 32).toNat
set_option synthInstance.maxSize 4000 in
theorem witness_WaitsIssueOrHoldAndEnd_1 :
    (Closes 10 p s ∧ w.wide = true ∧ w.a = 0 ∧ w.c = 0) ∧
    (w.mod = 0 ∧ k.job ≠ 0 ∧ (s.counter n).job = k.job ∧ (s.counter n).orphaned = false ∧ v ≤ (s.counter n).value.toNat) := by
  unfold Closes
  decide +kernel
end WaitsIssueOrHoldAndEnd1

namespace WaitsIssueOrHoldAndEnd2
def s : State := { onCore { core with x := [(31, 6)] } with dies := [(3, { DieState.reset with counters := [(16383, ⟨7, 0, false, false, false, 5⟩)] })] }
def p := place
def w := wword 30 0 31 0 0 0x0001FFFF
def k := s.clu p.cl
def n : CounterName := w.imm.extractLsb' 0 16
def v := ((k.xr w.b).extractLsb' 0 32).toNat
set_option synthInstance.maxSize 4000 in
theorem witness_WaitsIssueOrHoldAndEnd_2 :
    (Closes 10 p s ∧ w.wide = true ∧ w.a = 0 ∧ w.c = 0 ∧ w.mod = 0) ∧
    (k.job ≠ 0 ∧ (s.counter n).job = k.job ∧ (s.counter n).orphaned = false ∧ (s.counter n).value.toNat < v ∧ k.waitDeadline = none) := by
  unfold Closes
  decide +kernel
end WaitsIssueOrHoldAndEnd2

namespace WaitsIssueOrHoldAndEnd3
def s : State := { withJob (running { plate with hatch := ⟨0, 4, [⟨2, 0x1F, 0⟩, ⟨2, 0x1F, 0⟩], 0⟩ }) with clusters := [(255, core)] }
def p := place
def w := wword 0 0 0 0 0 0
def w1 := wword 0 0 0 0 0 1
def k := s.clu p.cl
set_option synthInstance.maxSize 4000 in
theorem witness_WaitsIssueOrHoldAndEnd_3 :
    (Closes 10 p s ∧ w.wide = true ∧ w.a = 0 ∧ w.c = 0 ∧ w.mod = 0 ∧ w.d = 0) ∧
    (w.b = 0 ∧ w.imm.toNat < 4096 ∧ s.hasEntry k.job w.imm.toNat = true ∧ s.gateOpen k.job w.imm.toNat = true ∧ s.hasEntry k.job w1.imm.toNat = true ∧ s.gateOpen k.job w1.imm.toNat = false) := by
  unfold Closes
  decide +kernel
end WaitsIssueOrHoldAndEnd3

namespace WaitsIssueOrHoldAndEnd4
def w := wword 30 0 31 0 0 0x0001FFFF
def d := fun (v : Word) => [((3 : Nat), { DieState.reset with counters := [(16383, ⟨7, 0, false, false, false, v⟩)] })]
def s : State := { onCore { core with gstate := .held, fetchQ := [⟨[⟨0, 0x05, w⟩], 15, 0⟩], waitDone := some 0 } with dies := d 5 }
def s2 : State := { onCore { core with gstate := .held, fetchQ := [⟨[⟨0, 0x05, w⟩], 15, 0⟩], waitDeadline := some 256, x := [(31, 6)] } with dies := d 5 }
def u := s.advanceTo 256
def k := u.clu 255
def k0 : Cluster := { k with gstate := .running, fetchQ := [], waitDone := none }
def n : CounterName := w.imm.extractLsb' 0 16
def u2 := s2.advanceTo 256
def k2 := u2.clu 255
def k20 : Cluster := { k2 with gstate := .running, fetchQ := [], waitDone := none }
set_option synthInstance.maxSize 4000 in
theorem witness_WaitsIssueOrHoldAndEnd_4 :
    ((s.quiet = true ∧ s.hasCluster 255 = true ∧ w.wide = true ∧ w.a = 0 ∧ w.c = 0) ∧
    (w.mod = 0 ∧ k.gstate = .held ∧ k.fetchQ = [⟨[⟨0, 0x05, w⟩], 15, 0⟩] ∧ k0.ready 10 = true ∧ k.job ≠ 0 ∧ (u.counter n).job = k.job)) ∧
    ((k.waitDone = some 0 ∧ s2.quiet = true ∧ s2.hasCluster 255 = true ∧ k2.gstate = .held ∧ k2.fetchQ = [⟨[⟨0, 0x05, w⟩], 15, 0⟩]) ∧
    (k20.ready 10 = true ∧ k2.job ≠ 0 ∧ (u2.counter n).job = k2.job ∧ k2.waitDone = none ∧ k2.waitDeadline = some 256 ∧ 256 ≤ u2.time)) := by
  decide +kernel
end WaitsIssueOrHoldAndEnd4

namespace HaltEndsTheImpression1
def s : State := { withJob { running plate with prog := [(3, { EntryProg.reset with running := true })] } with clusters := [(255, { core with impr := some ⟨7, 1, 0, 3, 0⟩, x := [(4, 4)], f := [(5, 5)] })] }
def p := place
def w := wword 0 0 0 0 0 0xFFFF
set_option synthInstance.maxSize 4000 in
theorem witness_HaltEndsTheImpression_1 :
    Closes 10 p s ∧ w.wide = true ∧ w.d = 0 ∧ w.a = 0 ∧ w.b = 0 ∧ w.c = 0 ∧ w.mod = 0 ∧ w.imm.toNat < 2 ^ 16 := by
  unfold Closes
  decide +kernel
end HaltEndsTheImpression1

namespace HaltEndsTheImpression2
def s : State := { withJob { running plate with prog := [(3, { EntryProg.reset with running := true })] } with clusters := [(255, { core with ending := some (.halt 9), impr := some ⟨7, 1, 0, 3, 0⟩ })] }
def p := place
theorem witness_HaltEndsTheImpression_2 :
    s.quiet = true ∧ s.hasCluster p.cl = true ∧ (s.clu p.cl).ending ≠ none := by
  decide +kernel
end HaltEndsTheImpression2

namespace HaltEndsTheImpression3
def e : Ending := .halt 9
def cl : ClusterId := 255
def s : State := { withJob { running plate with prog := [(3, { EntryProg.reset with running := true })] } with clusters := [(255, { core with
      ending := some (.halt 9), impr := some ⟨7, 1, 0, 3, 0⟩, stepCount := 4, inflight := [⟨4, 1, [.x 9 99], NFlags.none⟩] })] }
def u := s.advanceTo 2000
def k := u.clu cl
def i : ImprRef := ⟨7, 1, 0, 3, 0⟩
set_option synthInstance.maxSize 4000 in
theorem witness_HaltEndsTheImpression_3 :
    (s.quiet = true ∧ s.hasCluster cl = true ∧ k.gstate = .running ∧ k.ending = some e ∧ k.tiles = [] ∧ k.dueFault = none) ∧
    (k.lastStepEnd + k.stepPs < 1000 * (u.time + 1) ∧ Claims.Rising u ∧ k.impr = some i ∧ u.jobSlot i.job ≠ none ∧ (u.job i.job).proofRole = 0 ∧ u.badWords = [] ∧ (∀ r ∈ k.inflight, r.land ≤ k.stepCount)) := by
  unfold Claims.Rising
  decide +kernel
end HaltEndsTheImpression3

namespace HaltEndsTheImpression4
def r : FaultRec := ⟨1, false, false, 1, 0x0104, 7, 1, 255, 4, 20, 2, 9⟩
def e : Ending := .fault r
def cl : ClusterId := 255
def s : State := { withJob { running plate with prog := [(3, { EntryProg.reset with running := true })] } with clusters := [(255, { core with
      ending := some e, impr := some ⟨7, 1, 0, 3, 0⟩, stepCount := 4 })] }
def s2 : State := { withJob { running plate with prog := [(3, { EntryProg.reset with running := true })] } with clusters := [(255, { core with
      ending := some e, impr := some ⟨7, 1, 0, 3, 0⟩, stepCount := 4, inflight := [⟨5, 1, [.x 9 99], NFlags.none⟩] })] }
def u := s.advanceTo 2000
def k := u.clu cl
def u2 := s2.advanceTo 2000
def k2 := u2.clu cl
def i : ImprRef := ⟨7, 1, 0, 3, 0⟩
set_option synthInstance.maxSize 4000 in
theorem witness_HaltEndsTheImpression_4 :
    ((s.quiet = true ∧ s.hasCluster cl = true ∧ k.gstate = .running ∧ k.ending = some e ∧ k.tiles = [] ∧ k.dueFault = none) ∧
    (k.lastStepEnd + k.stepPs < 1000 * (u.time + 1) ∧ Claims.Rising u ∧ k.impr = some i ∧ u.jobSlot i.job ≠ none ∧ (u.job i.job).proofRole = 0 ∧ u.badWords = [])) ∧
    ((k.inflight = [] ∧ s2.quiet = true ∧ s2.hasCluster cl = true ∧ k2.gstate = .running ∧ k2.ending = some e ∧ k2.tiles = []) ∧
    (k2.dueFault = none ∧ k2.lastStepEnd + k2.stepPs < 1000 * (u2.time + 1) ∧ k2.impr = some i ∧ u2.jobSlot i.job ≠ none ∧ (u2.job i.job).proofRole = 0 ∧ u2.badWords = [] ∧ (∃ q ∈ k2.inflight, k2.stepCount < q.land))) := by
  unfold Claims.Rising
  decide +kernel
end HaltEndsTheImpression4

namespace CacheFlagAndStatusReads1
def s : State := onCore { core with x := [(31, 257)] }
def p := place
def w := wword 0 31 0 0 0 0xFFFFFFFF
def k := s.clu p.cl
def line := (k.xr w.a + w.imm.signExtend 64).toNat / 128
set_option synthInstance.maxSize 4000 in
theorem witness_CacheFlagAndStatusReads_1 :
    Closes 10 p s ∧ w.wide = true ∧ w.d = 0 ∧ w.b = 0 ∧ w.c = 0 ∧ w.mod = 0 ∧ line ∉ k.iwait ∧ k.cached line = false := by
  unfold Closes
  decide +kernel
end CacheFlagAndStatusReads1

namespace CacheFlagAndStatusReads2
def s : State := onCore { core with flags := ⟨true, false, true⟩ }
def p := place
def w := word 31 0 0 0 0
set_option synthInstance.maxSize 4000 in
theorem witness_CacheFlagAndStatusReads_2 :
    Closes 6 p s ∧ w.wide = false ∧ w.a = 0 ∧ w.b = 0 ∧ w.c = 0 ∧ w.mod = 0 := by
  unfold Closes
  decide +kernel
end CacheFlagAndStatusReads2

namespace CacheFlagAndStatusReads3
def s : State := onCore { core with stepCount := 9, temp := 77, snap := (List.range 96).map fun i => BitVec.ofNat 8 (i + 1) }
def p := place
def w := wword 31 0 0 0 0 0x58
set_option synthInstance.maxSize 4000 in
theorem witness_CacheFlagAndStatusReads_3 :
    Closes 10 p s ∧ w.wide = true ∧ w.a = 0 ∧ w.b = 0 ∧ w.c = 0 ∧ w.mod = 0 ∧ w.imm.toNat % 8 = 0 ∧ w.imm.toNat ≤ 0x58 := by
  unfold Closes
  decide +kernel
end CacheFlagAndStatusReads3

namespace MoveJoinsTheOutstandingMoves1
def i : ImprRef := ⟨7, 0, 0, 0, 0⟩
def s : State := { onCore { core with impr := some i, x := [(29, 0x7FFFFFF0), (30, 0x0), (31, 16)] } with dies := [(3, { DieState.reset with counters := [(16383, ⟨7, 0, false, false, false, 5⟩)] })] }
def p := place
def w := wword 0 29 30 31 0 0x01FFFF
def k := s.clu p.cl
def src := k.xr w.a
def dst := k.xr w.b
def n := (k.xr w.c).toNat
def counter : CounterName := w.imm.extractLsb' 0 16
def inc : Byte := w.imm.extractLsb' 16 8
set_option synthInstance.maxSize 4000 in
theorem witness_MoveJoinsTheOutstandingMoves_1 :
    ((Closes 10 p s ∧ w.wide = true ∧ w.d = 0 ∧ w.mod = 0 ∧ w.imm.toNat < 2 ^ 24) ∧
    (k.impr = some i ∧ s.absentAt src = false ∧ s.absentAt dst = false ∧ src.toNat % 16 = 0 ∧ dst.toNat % 16 = 0 ∧ n % 16 = 0)) ∧
    ((16 ≤ n ∧ n ≤ 16777216 ∧ inSpace src n = true ∧ inSpace dst n = true ∧ inReserve src n = false ∧ inReserve dst n = false) ∧
    (meets src.toNat n dst.toNat n = false ∧ s.inCode dst.toNat n = false ∧ s.mirrorRange k.job dst.toNat n = none ∧ s.mirrorRange i.job dst.toNat n = none ∧ k.moves.length < 64 ∧ (inc = 0 ∨ (s.counter counter).job = k.job))) := by
  unfold Closes
  decide +kernel
end MoveJoinsTheOutstandingMoves1

namespace GranulesAreTakenAndFreed1
def s : State := { onCore { core with poolBase := 8372224 } with jobs := [(7, { running { plate with quotas := List.replicate 255 0 ++ [1] } with no := 7 })] }
def p := place
def w := wword 31 0 0 0 0 0
def k := s.clu p.cl
def u := p.cl.toNat
def g := (s.freeSram p.cl).getD 0
set_option synthInstance.maxSize 4000 in
theorem witness_GranulesAreTakenAndFreed_1 :
    (Closes 10 p s ∧ w.wide = true ∧ w.a = 0 ∧ w.b = 0 ∧ w.c = 0) ∧
    (w.mod = 0 ∧ w.imm = 0 ∧ (s.die p.cl.die).waiters = [] ∧ s.charged u false k.job < s.quota u false k.job ∧ s.freeSram p.cl = some g) := by
  unfold Closes
  decide +kernel
end GranulesAreTakenAndFreed1

namespace GranulesAreTakenAndFreed2
def s : State := (onCore { core with x := [(31, BitVec.ofNat 64 (255 * 2 ^ 23 + 511 * 16384))] }).setGran ⟨3, 63 * 512 + 511, false⟩ ⟨.held, 7, [3, 255]⟩
def p := place
def w := word 0 31 0 0 0
def k := s.clu p.cl
def u := p.cl.toNat
def g : Gran := ⟨3, 63 * 512 + 511, false⟩
set_option synthInstance.maxSize 4000 in
theorem witness_GranulesAreTakenAndFreed_2 :
    (Closes 6 p s ∧ w.wide = false ∧ w.d = 0 ∧ w.b = 0 ∧ w.c = 0) ∧
    (w.mod = 0 ∧ granuleAt (k.xr w.a) = some g ∧ g.dram = false ∧ (s.gran g).st = .held ∧ (s.gran g).owners.getLast? = some u) := by
  unfold Closes
  decide +kernel
end GranulesAreTakenAndFreed2

namespace SlaunchQueuesItsDescriptor1
def s : State := { onCore { core with x := [(31, 0x7FFFFF80)] } with mem := [(0x7FFFFF81, 9)] }
def p := place
def w := word 0 31 0 0 1
def k := s.clu p.cl
def a := k.xr w.a
def q := enginePort p.cl (w.mod.getLsbD 0)
set_option synthInstance.maxSize 4000 in
theorem witness_SlaunchQueuesItsDescriptor_1 :
    (Closes 6 p s ∧ w.wide = false ∧ w.d = 0 ∧ w.b = 0 ∧ w.c = 0 ∧ w.mod.toNat < 2) ∧
    (s.armed = [] ∧ s.badWords = [] ∧ s.hasPort q = true ∧ (s.eng q).queue.length < 64 ∧ a.toNat < 2 ^ 31 ∧ a.toNat % 128 = 0 ∧ s.absentAt a = false) := by
  unfold Closes
  decide +kernel
end SlaunchQueuesItsDescriptor1

namespace CountersAndBarriersCount1
def s : State := { onCore { core with x := [(31, 0x1FFFFFFFF)] } with dies := [(3, { DieState.reset with counters := [(16383, ⟨7, 0, false, false, false, 0x8000⟩)] })] }
def p := place
def w := wword 0 0 0 0 0 0x8000FFFF
def w2 := wword 0 0 31 0 0 0xFFFF
def k := s.clu p.cl
def n : CounterName := w.imm.extractLsb' 0 16
set_option synthInstance.maxSize 4000 in
theorem witness_CountersAndBarriersCount_1 :
    (Closes 10 p s ∧ w.wide = true ∧ w.d = 0 ∧ w.a = 0 ∧ w.c = 0 ∧ w.mod = 0 ∧ k.job ≠ 0 ∧ (s.counter n).job = k.job) ∧
    ((s.counter n).underflow = false ∧ (s.counter n).overflow = false ∧ (∀ e ∈ s.clusters, e.2.heldOn n = false) ∧ (∀ r ∈ s.shards, r.advance ≠ n) ∧ w.b = 0 ∧ ((s.counter n).value.toNat : Int) + (w.imm.extractLsb' 16 16).toInt = 0 ∧ w2.imm.toNat < 2 ^ 16 ∧ ((s.counter n).value.toNat : Int) + ((k.xr w2.b).extractLsb' 0 32).toInt = 0x7FFF) := by
  unfold Closes
  decide +kernel
end CountersAndBarriersCount1

namespace CountersAndBarriersCount2
def b : BarDef := ⟨63, 1, 2, 0, 5, [0], 0, 0⟩
def s : State := { withJob (running { plate with barriers := [b] }) with clusters := [(255, core)], bars := [(63, { Bar.reset with job := 7, floor := 1, part := [(1, 0, false), (2, 1, true)] })] }
def p := place
def w := wword 0 0 0 0 0 63
def k := s.clu p.cl
def x := s.bar b.slot.toNat
set_option synthInstance.maxSize 4000 in
theorem witness_CountersAndBarriersCount_2 :
    (Closes 10 p s ∧ w.wide = true ∧ w.d = 0 ∧ w.a = 0 ∧ w.c = 0) ∧
    (w.mod = 0 ∧ w.b = 0 ∧ w.imm.toNat < 64 ∧ s.barDef k.job w.imm.toNat = some b ∧ x.floor < x.gen.toNat + 2 ∧ (x.localAt x.floor).1 + 1 < b.local_) := by
  unfold Closes
  decide +kernel
end CountersAndBarriersCount2

namespace FaultyWordsHaltTheCore1
def s : State := { withJob { running plate with prog := [(3, { EntryProg.reset with running := true })] } with clusters := [(255, { core with impr := some ⟨7, 1, 0, 3, 0⟩ })] }
def i : ImprRef := ⟨7, 1, 0, 3, 0⟩
def p := place
def w := word 31 31 31 0 15
set_option synthInstance.maxSize 4000 in
theorem witness_FaultyWordsHaltTheCore_1 :
    w.wide = false ∧ Claims.Rising s ∧ (s.clu p.cl).impr = some i ∧ s.jobSlot i.job ≠ none ∧ (s.job i.job).proofRole = 0 ∧ Closes 6 p s ∧ w.mod ≠ 0 := by
  unfold Claims.Rising Closes
  decide +kernel
end FaultyWordsHaltTheCore1

namespace FaultyWordsHaltTheCore2
def p := place
def w := wword 0 30 0 0 0 10
def l : LoopEntry := ⟨0, 40, 1⟩
def k : Cluster := { core with loops := [l, l, l, l] }
def s : State := { withJob { running plate with prog := [(3, { EntryProg.reset with running := true })] } with clusters := [(255, { k with impr := some ⟨7, 1, 0, 3, 0⟩ })] }
def i : ImprRef := ⟨7, 1, 0, 3, 0⟩
set_option synthInstance.maxSize 4000 in
theorem witness_FaultyWordsHaltTheCore_2 :
    (Claims.Rising s ∧ (s.clu p.cl).impr = some i ∧ s.jobSlot i.job ≠ none ∧ (s.job i.job).proofRole = 0 ∧ w.wide = true ∧ Closes 10 p s ∧ w.d = 0) ∧
    (w.b = 0 ∧ w.c = 0 ∧ w.mod = 0 ∧ w.imm.toNat % 2 = 0 ∧ k.loops.length = 4 ∧ (∀ e ∈ k.loops.head?, e.first ≤ k.pc.toNat + 10 ∧ (k.pc.toNat : Int) + w.imm.toInt ≤ e.last) ∧ 10 ≤ w.imm.toInt) := by
  unfold Claims.Rising Closes
  decide +kernel
end FaultyWordsHaltTheCore2

namespace FaultyWordsHaltTheCore3
def p := place
def w := wword 0 30 0 0 0 10
def w8 := wword 0 30 0 0 0 8
def k : Cluster := { core with x := [(30, 1)], loops := [⟨0, 8, 1⟩] }
def i : ImprRef := ⟨7, 1, 0, 3, 0⟩
def s : State := { withJob { running plate with prog := [(3, { EntryProg.reset with running := true })] } with clusters := [(255, { k with impr := some i })] }
def s0 : State := { withJob { running plate with prog := [(3, { EntryProg.reset with running := true })] } with clusters := [(255, { core with impr := some i })] }
set_option synthInstance.maxSize 4000 in
theorem witness_FaultyWordsHaltTheCore_3 :
    ((Claims.Rising s ∧ (s.clu p.cl).impr = some i ∧ s.jobSlot i.job ≠ none ∧ (s.job i.job).proofRole = 0 ∧ w.wide = true) ∧
    (Closes 10 p s ∧ w.d = 0 ∧ w.b = 0 ∧ w.c = 0 ∧ w.mod = 0 ∧ w.imm.toNat % 2 = 0)) ∧
    ((k.loops.length < 4 ∧ (∃ e ∈ k.loops.head?, k.pc.toNat + 10 < e.first ∨ (e.last : Int) < k.pc.toNat + w.imm.toInt) ∧ (k.xr w.a ≠ 0) ∧ Claims.Rising s0 ∧ (s0.clu p.cl).impr = some i) ∧
    (s0.jobSlot i.job ≠ none ∧ (s0.job i.job).proofRole = 0 ∧ Closes 10 p s0 ∧ w8.imm.toInt < 10 ∧ (s0.clu p.cl).xr w8.a = 0 ∧ s0.badWords = [])) := by
  unfold Claims.Rising Closes
  decide +kernel
end FaultyWordsHaltTheCore3

namespace FaultyWordsHaltTheCore4
def p := place
def w := word 31 30 29 0 0
def k : Cluster := { core with inflight := [⟨3, 1, [.x w.a 99], NFlags.none⟩], stepCount := 2 }
def i : ImprRef := ⟨7, 1, 0, 3, 0⟩
def s : State := { withJob { running plate with prog := [(3, { EntryProg.reset with running := true })] } with clusters := [(255, { k with impr := some i })] }
set_option synthInstance.maxSize 4000 in
theorem witness_FaultyWordsHaltTheCore_4 :
    (w.wide = false ∧ Claims.Rising s ∧ (s.clu p.cl).impr = some i ∧ s.jobSlot i.job ≠ none ∧ (s.job i.job).proofRole = 0 ∧ Closes 6 p (s.setClu p.cl { k with inflight := [] })) ∧
    (k.inflight = [⟨3, 1, [.x w.a 99], NFlags.none⟩] ∧ w.c = 0 ∧ w.mod = 0 ∧ w.a ≠ 0 ∧ k.stepCount ≤ 3 ∧ 3 - k.stepCount + 1 < 2 ^ 30) := by
  unfold Claims.Rising Closes
  decide +kernel
end FaultyWordsHaltTheCore4

namespace ClusterStepEnds1
def s : State := onCore { core with stepCap := 85, lastStepEnd := 0, accesses := [[(0, 8)], [(0, 8)]] }
def cl : ClusterId := 255
def u := s.advanceTo 2
def k := u.clu cl
def period := (100000 + k.stepCap.toNat - 1) / max k.stepCap.toNat 1
def due := k.lastStepEnd + period
def s2 : State := onCore { core with gstate := .idle }
theorem witness_ClusterStepEnds_1 :
    (s.quiet = true ∧ s.hasCluster cl = true ∧ k.gstate = .running ∧ due < 1000 * (u.time + 1) ∧ k.inflight = [] ∧ k.tiles = [] ∧ k.dueFault = none) ∧
    (k.ending = none ∧ k.fetchQ = [] ∧ 1000 * ((s.advanceTo 0).time + 1) ≤ due ∧ s2.quiet = true ∧ (s2.clu cl).gstate ≠ .running ∧ (s2.clu cl).fetchQ = [] ∧ (s2.clu cl).inflight = []) := by
  decide +kernel
end ClusterStepEnds1

namespace ClusterStepEnds2
def x : Tile := ⟨3, 8, 0, 1, 1, [], [(1, 2)], [], NFlags.none, 0⟩
def s : State := onCore { core with stepCap := 85, stepCount := 4, tiles := [x] }
def cl : ClusterId := 255
def n := 2
def u := s.advanceTo 100
def k := u.clu cl
def period := (100000 + k.stepCap.toNat - 1) / max k.stepCap.toNat 1
def due := k.lastStepEnd + period
def u0 := s.advanceTo 1
theorem witness_ClusterStepEnds_2 :
    (s.quiet = true ∧ s.hasCluster cl = true ∧ k.gstate = .running ∧ k.inflight = [] ∧ k.dueFault = none ∧ k.ending = none ∧ k.fetchQ = []) ∧
    (k.tiles = [x] ∧ x.stalls = [(1, n)] ∧ x.issue + 1 = k.stepCount ∧ 0 < n ∧ k.stepCount < x.issue + x.len + 19 ∧ due + n * period < 1000 * (u.time + 1) ∧ 1000 * (u0.time + 1) ≤ due + n * period) := by
  decide +kernel
end ClusterStepEnds2

namespace ResultsLand1
def cl : ClusterId := 255
def st : Target → State := fun (x : Target) => onCore { core with inflight := [⟨9, 1, [x], ⟨true, false, false⟩⟩], stepCount := 9, nextIssue := 10, x := [(5, 5)] }
def en : BitVec 512 := 1 <<< 511
def xs : List Target := [.x 31 9, .x 0 9, .f 31 9, .v 31 (List.replicate 512 7) en, .m 7 en en, .m 0 en en, .cx ⟨1, 2, 3, 4⟩]
theorem witness_ResultsLand_1 :
    ∀ x ∈ xs, (st x).quiet = true ∧ (st x).hasCluster cl = true ∧ ((st x).clu cl).tiles = [] ∧ ((st x).clu cl).inflight = [⟨9, 1, [x], ⟨true, false, false⟩⟩] ∧ 9 ≤ ((st x).clu cl).landable := by
  decide +kernel
end ResultsLand1

namespace ResultsLand2
def cl : ClusterId := 255
def x : Target := .sram 0x7FFFF8 [1, 2, 3, 4, 5, 6, 7, 0]
def r : InFlight := ⟨9, 1, [x], NFlags.none⟩
def s : State := { onCore { core with inflight := [r], stepCount := 9, nextIssue := 10 } with mem := [(sramAddr 255 0x7FFFF7, 4), (sramAddr 255 0x7FFFFF, 9)] }
def k := s.clu cl
theorem witness_ResultsLand_2 :
    s.quiet = true ∧ s.hasCluster cl = true ∧ k.tiles = [] ∧ k.inflight = [r] ∧ r.land ≤ k.landable ∧ r.targets = [x] ∧ s.badWords = [] ∧ s.weakWords = [] := by
  decide +kernel
end ResultsLand2

namespace ResultsLand3
def cl : ClusterId := 255
def x : Target := .vst 8386560 6 (List.replicate 512 0xFFFFFFFF) (1 <<< 511)
def r : InFlight := ⟨9, 2, [x], NFlags.none⟩
def s : State := { onCore { core with inflight := [r], stepCount := 9, nextIssue := 10 } with mem := [(sramAddr 255 8386559, 4), (sramAddr 255 0x7FFFF0, 9)] }
def k := s.clu cl
def g := Fmt.b32
theorem witness_ResultsLand_3 :
    (s.quiet = true ∧ s.hasCluster cl = true ∧ k.tiles = [] ∧ k.inflight = [r] ∧ r.land ≤ k.landable) ∧
    (r.targets = [x] ∧ s.badWords = [] ∧ s.weakWords = [] ∧ Fmt.ofCode 6 = some g ∧ (List.replicate 512 (0xFFFFFFFF : Word)).all (fun y => decide (y.toNat < 2 ^ g.bits)) = true) := by
  decide +kernel
end ResultsLand3

namespace TilesWriteTheirRows1
def cl : ClusterId := 255
def x : Tile := ⟨5, 3, 0x7FFC00, 2, 2, [], [], [[1, 2], [3, 4]], ⟨true, false, false⟩, 0⟩
def i : ImprRef := ⟨7, 1, 0, 3, 0⟩
def s : State := { withJob (running plate) with clusters := [(255, { core with tiles := [x], lastTile := some x, stepCount := 27, nextIssue := 28, impr := some i })], mem := [(sramAddr 255 0x7FFC08, 4), (sramAddr 255 0x7FFE00, 9)] }
def k := s.clu cl
theorem witness_TilesWriteTheirRows_1 :
    (s.quiet = true ∧ s.hasCluster cl = true ∧ s.badWords = [] ∧ s.weakWords = [] ∧ k.impr = some i) ∧
    ((s.job i.job).proofRole = 0 ∧ k.tiles = [x] ∧ x.issue + x.len + 19 ≤ k.landable ∧ x.c.length = x.rows ∧ (∀ r ∈ x.c, r.length = x.cols) ∧ x.cols ≤ 128) := by
  decide +kernel
end TilesWriteTheirRows1

namespace CacheLinesFill1
def cl : ClusterId := 255
def s : State := onCore { core with iwait := [5], icacheRefetch := 0xFFFFFFFF }
def s1 : State := onCore core
def u := s.advanceTo 3
def k := u.clu cl
set_option synthInstance.maxSize 4000 in
theorem witness_CacheLinesFill_1 :
    (s.quiet = true ∧ s.hasCluster cl = true ∧ s.armed = [] ∧ s.badWords = [] ∧ s.weakWords = [] ∧ 5 ∈ k.iwait ∧ k.cached 5 = false ∧ k.fetchQ = []) ∧
    (s1.quiet = true ∧ s1.hasCluster cl = true ∧ s1.armed = [] ∧ s1.badWords = [] ∧ s1.weakWords = [] ∧ (s1.clu cl).fetchQ = [] ∧ (s1.clu cl).cached 1 = true ∧ (Table.get [] 1 (s1.clu cl).icache).Nodup) := by
  decide +kernel
end CacheLinesFill1

namespace SramIsReadWrittenAndScrubbed1
def cl : ClusterId := 255
def w1 := sramAddr cl 8
def w2 := sramAddr cl 16
def s : State := { onCore { core with sramCorrected := 0xFFFFFFFE } with mem := [(sramAddr 255 0x7FFFFF, 9)], badWords := [w1], weakWords := [w2, sramAddr cl 0x7FFFF8] }
set_option synthInstance.maxSize 4000 in
theorem witness_SramIsReadWrittenAndScrubbed_1 :
    (s.quiet = true ∧ s.hasCluster cl = true ∧ (∀ w ∈ s.badWords, meets (sramAddr cl 0x7FFFFE) 2 w (codeWord w) = false) ∧ s.pair.recovering = false ∧ s.pair.st ≠ .fenced) ∧
    (s.pair.lastTrig ≠ some s.time ∧ Claims.finds (sramAddr cl 0) .clean s = .clean ∧ Claims.finds w2 .clean s = .corrected ∧ Claims.finds (sramAddr cl 0) .corrected s = .corrected ∧ Claims.finds w1 .corrected s = .uncorrectable ∧ Claims.finds w2 .uncorrectable s = .uncorrectable) := by
  unfold Claims.finds
  decide +kernel
end SramIsReadWrittenAndScrubbed1

namespace JobStartClearsItsClusters1
def p : Plate := { plate with sched := [⟨0, 0xFFF, 255, 1, 0, 0, 0, 0⟩] }
def s : State := { withJob { Job.reset with st := .running, plate := some p } with clusters := [(255, { core with gstate := .idle, job := 0, x := [(5, 5)], f := [(4, 4)], v := [(3, [(0, 3)])], m := [(7, 1)], cx := ⟨1, 2, 3, 4⟩ })], mem := [(3, 3), (sramAddr 255 0x7FFFFF, 9), (2 ^ 62, 9)] }
def u := s.advanceTo 5
set_option synthInstance.maxSize 4000 in
theorem witness_JobStartClearsItsClusters_1 :
    s.quiet = true ∧ (u.job 7).st = .running ∧ (u.job 7).cleared = false ∧ (u.job 7).plate = some p ∧ Claims.Rising u ∧ (∀ c ∈ u.jobClusters 7, (u.clu c).gstate = .idle ∨ (u.clu c).gstate = .halted) ∧ (p.images.filter fun i => i.type == 0x11) = [] ∧ s.hub.waiting = [] := by
  unfold Claims.Rising
  decide +kernel
end JobStartClearsItsClusters1

namespace WaitingRequestsAreGranted1
def c : ClusterId := 255
def s : State := { onCore { core with poolBase := 8372224, gstate := .held, job := 7 } with jobs := [(7, { running { plate with quotas := List.replicate 255 0 ++ [1] } with no := 7 })], dies := [(3, { DieState.reset with waiters := [⟨255, false, 7, none⟩] })] }
def u := s.advanceTo 1
def g := 511
theorem witness_WaitingRequestsAreGranted_1 :
    s.quiet = true ∧ (u.die c.die).waiters = [⟨c.toNat, false, 7, none⟩] ∧ u.charged c.toNat false 7 < u.quota c.toNat false 7 ∧ u.freeSram c = some g ∧ (u.clu c).fetchQ = [] := by
  decide +kernel
end WaitingRequestsAreGranted1

namespace MovesCopyTheirBytes1
def cl : ClusterId := 255
def m : MoveOut := ⟨0x7FFFFFE0, 0, 32, 0xFFFF, 255, ⟨7, 0, 0, 0, 0⟩, 0, false, 0, false, []⟩
def s : State := { onCore { core with moves := [m] } with dies := [(3, { DieState.reset with counters := [(16383, ⟨7, 0, false, false, false, 0xFFFFFF00⟩)] })], mem := [(0, 9), (31, 9), (0x7FFFFFE1, 1), (0x7FFFFFFF, 2)] }
def u := s.advanceTo 1
set_option synthInstance.maxSize 4000 in
theorem witness_MovesCopyTheirBytes_1 :
    ((s.quiet = true ∧ s.hasCluster cl = true ∧ s.armed = [] ∧ s.badWords = [] ∧ s.weakWords = []) ∧
    ((u.job m.impr.job).proofRole = 0 ∧ (u.clu cl).moves = [m] ∧ m.copied = false ∧ m.mirrored = false ∧ m.src.toNat + m.len ≤ 2 ^ 31 ∧ m.dst.toNat + m.len ≤ 2 ^ 31)) ∧
    ((m.len % 16 = 0 ∧ m.dst.toNat % 16 = 0 ∧ meets m.src.toNat m.len m.dst.toNat m.len = false ∧ m.impr.job ≠ 0 ∧ (u.counter m.counter).job = m.impr.job) ∧
    ((u.counter m.counter).orphaned = false ∧ (u.counter m.counter).underflow = false ∧ (u.counter m.counter).overflow = false ∧ (u.counter m.counter).value.toNat + m.inc.toNat < 2 ^ 32 ∧ (∀ e ∈ u.clusters, e.2.heldOn m.counter = false) ∧ (∀ r ∈ u.shards, r.advance ≠ m.counter))) := by
  decide +kernel
end MovesCopyTheirBytes1

namespace MmaStartsItsTile1
def a := sramAddr 255 0x1000
def s : State := { onCore { core with x := [(31, 0x1000)] } with mem := [(a + 12, 1), (a + 28, 1), (a + 33, 0x40), (a + 36, 0x55)] }
def p := place
def w := word 0 31 0 0 1
def k := s.clu p.cl
def m := s.planMma p.cl (w.mod.getLsbD 0) (k.xr w.a) k.stepCount
def x := m.tile.getD ⟨0, 0, 0, 0, 0, [], [], [], NFlags.none, 0⟩
set_option synthInstance.maxSize 4000 in
theorem witness_MmaStartsItsTile_1 :
    (Closes 6 p s ∧ w.wide = false ∧ w.d = 0 ∧ w.b = 0 ∧ w.c = 0) ∧
    (w.mod.toNat < 2 ∧ s.armed = [] ∧ s.badWords = [] ∧ m.conds = [] ∧ m.tile = some x) := by
  unfold Closes
  decide +kernel
end MmaStartsItsTile1

namespace LaunchesEnterAndActivate1
def p : Port := 63
def q : QEntry := ⟨descr 5 1 0 0 0 0 0 0 [16], 0, 3, some 2⟩
def e : Engine := { Engine.reset with queue := List.replicate 63 q, pacorWait := [(q, 9), (q, 8)] }
def s : State := State.reset.setEng p e
def u := s.advanceTo 7
theorem witness_LaunchesEnterAndActivate_1 :
    s.quiet = true ∧ s.hasPort p = true ∧ (u.eng p).pacorWait = (q, 9) :: [(q, 8)] ∧ (u.eng p).queue.length < 64 := by
  decide +kernel
end LaunchesEnterAndActivate1

namespace LaunchesEnterAndActivate2
def p : Port := 63
def q : QEntry := ⟨descr 5 1 0 0 0 0x2000 0x3000 0 [16], 0, 3, some 2⟩
def e : Engine := { Engine.reset with queue := [q, q], ctxs := (List.range 15).map fun i => { context (descr 2 9 0 0 0 0 0 0 []) [] with id := i } }
def s : State := State.reset.setEng p e
def u := s.advanceTo 7
def c := Ctx.fresh 15 q u.time (u.ranksNamed q.desc)
def v := (u.modJob q.desc.job (Job.ledgerOpens q.step)).setEng p { e with queue := [q], lastGate := Table.set 0 0xFFF u.time e.lastGate, ctxs := e.ctxs ++ [c] }
set_option synthInstance.maxSize 4000 in
theorem witness_LaunchesEnterAndActivate_2 :
    (s.quiet = true ∧ s.hasPort p = true ∧ (u.eng p).queue = q :: [q] ∧ (∀ c ∈ e.ctxs, c.id ≠ 15) ∧ (∀ j ∈ List.range 15, ∃ c ∈ e.ctxs, c.id = j) ∧ (q.desc.op = 3 ∨ q.desc.op = 5) ∧ q.desc.startGate = 0xFFF ∧ q.desc.tensorAddr = 0) ∧
    (e.held = [] ∧ u.armed = [] ∧ u.badWords = [] ∧ u.weakWords = [] ∧ (Table.get EntryProg.reset 2 (u.job q.desc.job).prog).start ≤ u.time ∧ q.entry = some 2 ∧ checkCode ((v.tables q.desc).map (·.1) ++ v.plainChecks p c) = none ∧ checkCode (v.tableChecks p c) = none) := by
  decide +kernel
end LaunchesEnterAndActivate2

namespace LaunchesEnterAndActivate3
def p : Port := 63
def q : QEntry := ⟨descr 3 1 0 0 128 0x2000 0x3000 0 [2 + 65536, 0x5000], 0, 3, some 2⟩
def e : Engine := { Engine.reset with queue := [q] }
def s : State := { withJob (running plate) with engines := [(63, e)], mem := [(0x5002, 1)] }
def u := s.advanceTo 7
def c := Ctx.fresh 0 q u.time (u.ranksNamed q.desc)
def v := (u.modJob q.desc.job (Job.ledgerOpens q.step)).setEng p { e with queue := [], lastGate := Table.set 0 0xFFF u.time e.lastGate, ctxs := e.ctxs ++ [c] }
theorem witness_LaunchesEnterAndActivate_3 :
    (s.quiet = true ∧ s.hasPort p = true ∧ (u.eng p).queue = q :: [] ∧ (q.desc.op = 3 ∨ q.desc.op = 5) ∧ q.desc.startGate = 0xFFF ∧ q.desc.tensorAddr = 0 ∧ e.held = []) ∧
    (u.armed = [] ∧ u.badWords = [] ∧ u.weakWords = [] ∧ (Table.get EntryProg.reset 2 (u.job q.desc.job).prog).start ≤ u.time ∧ q.entry = some 2 ∧ checkCode ((v.tables q.desc).map (·.1) ++ v.plainChecks p c) = none ∧ checkCode (v.tableChecks p c) = none) := by
  decide +kernel
end LaunchesEnterAndActivate3

namespace ContributionsAreWrittenAndAdded1
def p : Port := 63
def d := descr 1 1 0 1 128 0 0 0 [0, 0x2000, 2 ^ 62, 128 + 2 ^ 32 * 128, 0x4000, 0, 0, 0]
def c := context d [3, 5]
def f : Frame := { frame with kind := 1, srcRank := 5, payload := List.replicate 127 0 ++ [8] }
def s : State := { onEngine c [f] with mem := [(0x207F, 1), (2 ^ 62 + 0xF0, 7)] }
def u := s.advanceTo 256
set_option synthInstance.maxSize 4000 in
theorem witness_ContributionsAreWrittenAndAdded_1 :
    ((s.quiet = true ∧ s.hasPort p = true ∧ Claims.Active p c u ∧ Claims.Comes (.engine p) f u ∧ d.op = 1) ∧
    (c.phase = .collecting ∧ f.kind = 1 ∧ u.contribCtx p f = some c ∧ f.detail.toNat / 2 ^ 32 = d.step.toNat ∧ u.time ≤ c.start + 256 * d.deadline)) ∧
    ((c.mask.idxOf f.srcRank.toNat = 1 ∧ 1 < c.mask.length ∧ c.hasArrived 1 = false ∧ f.offset.toNat % 128 = 0 ∧ f.payload.length % 128 = 0) ∧
    (f.offset.toNat + f.payload.length ≤ d.length ∧ (∀ x ∈ List.range ((f.offset.toNat + f.payload.length) / 128), f.offset.toNat / 128 ≤ x → (1, x) ∉ c.units) ∧ d.slotBase.toNat + (d.step.toNat % 2 * d.setStride + 1 * d.slotPitch + f.offset.toNat) + f.payload.length ≤ 2 ^ 62 ∧ 2 ^ 62 ≤ d.logBase.toNat ∧ u.inCode (d.slotBase.toNat + 384) 128 = false ∧ u.inCode (d.logBase.toNat + 128) 128 = false)) := by
  unfold Claims.Active Claims.Comes Claims.Takes
  decide +kernel
end ContributionsAreWrittenAndAdded1

namespace ContributionsAreWrittenAndAdded2
def p : Port := 63
def d := descr 1 1 0 1 128 0 0 0x6000 [0, 0x2000, 2 ^ 62, 128 + 2 ^ 32 * 256, 0x4000, 0, 0, 0]
def c := { context d [3, 5, 6] with units := [(0, 0), (1, 0)] }
def c1 := { c with added := 1 }
def m : Memory := [(0x2002, 0x80), (0x2003, 0x3F), (0x2082, 0x80), (0x2083, 0x3F), (0x4002, 0x80), (0x4003, 0x3F), (0x4004, 0x42), (0x4007, 0x77), (0x6004, 0x62), (0x6008, 1), (0x600C, 4)]
def s : State := { onEngine c [] with mem := m }
def s1 : State := { onEngine c1 [] with mem := m }
def t0 := s.tensor d
set_option synthInstance.maxSize 4000 in
theorem witness_ContributionsAreWrittenAndAdded_2 :
    (s.quiet = true ∧ s.hasPort p = true ∧ Claims.Active p c s ∧ d.op = 1 ∧ c.phase = .collecting ∧ c.hasArrived c.added = true) ∧
    (c.added + 1 < c.mask.length ∧ Fmt.ofCode t0.fmt = some .b32 ∧ s.inCode d.accBase.toNat (4 * t0.elems) = false ∧ Claims.Active p c1 s1 ∧ c1.hasArrived c1.added = true ∧ c1.added + 1 < c.mask.length) := by
  unfold Claims.Active Claims.Takes
  decide +kernel
end ContributionsAreWrittenAndAdded2

namespace StreamFramesAreDisposedOf1
def p : Port := 63
def d := descr 2 1 0 1 128 0 0x5000 0 []
def c := context d [3, 5, 6]
def f : Frame := { frame with kind := 2, srcRank := 6, ident := 1, payload := List.replicate 128 8 }
def s : State := onEngine c [f]
def u := s.advanceTo 256
set_option synthInstance.maxSize 4000 in
theorem witness_StreamFramesAreDisposedOf_1 :
    ((s.quiet = true ∧ s.hasPort p = true ∧ Claims.Active p c u ∧ Claims.Comes (.engine p) f u ∧ (f.kind = 2 ∨ f.kind = 3)) ∧
    (f.job = d.job ∧ f.ident = d.impr ∧ u.time ≤ c.start + 256 * d.deadline ∧ ((u.eng p).ctxs.find? fun x => x.desc.op != 1 && x.desc.job == f.job && x.desc.impr == f.ident && decide (2 ≤ x.desc.op ∧ x.desc.op ≤ 4)) = some c ∧ d.op = 2)) ∧
    ((d.serve = false ∧ f.kind = 2 ∧ c.mask.idxOf f.srcRank.toNat = 2 ∧ 2 < c.mask.length ∧ c.hasArrived 2 = false) ∧
    (f.offset.toNat % 128 = 0 ∧ f.payload.length % 128 = 0 ∧ f.offset.toNat + f.payload.length ≤ d.length ∧ c.arrived + 1 < c.mask.length ∧ c.units = [] ∧ u.inCode (d.dest.toNat + 2 * d.length + f.offset.toNat) f.payload.length = false)) := by
  unfold Claims.Active Claims.Comes Claims.Takes
  decide +kernel
end StreamFramesAreDisposedOf1

namespace StreamFramesAreDisposedOf2
def p : Port := 63
def d := descr 2 1 0 1 128 0 0 0 [1 + 2 ^ 32 * 9]
def c := context d []
def f : Frame := { frame with kind := 3, srcRank := 1, ident := 1, detail := 5 + 2 ^ 32 * 9 }
def e : RankEntry := ⟨1, 3, 7⟩
def r : Shard := ⟨9, 5, 7, 2, 0, 0, 0, 2 ^ 62, 128, [⟨4, true, false, false, 0⟩, ⟨5, true, false, false, 0⟩], [], [], 0⟩
def s : State := { onEngine c [f] with jobs := [(0, { running { plate with ranks := [⟨2, 0, 0⟩, e] } with no := 7 })], shards := [r], mem := [(2 ^ 62 + 128, 9)] }
def u := s.advanceTo 256
set_option synthInstance.maxSize 4000 in
theorem witness_StreamFramesAreDisposedOf_2 :
    ((s.quiet = true ∧ s.hasPort p = true ∧ Claims.Active p c u ∧ Claims.Comes (.engine p) f u ∧ (f.kind = 2 ∨ f.kind = 3)) ∧
    (f.job = d.job ∧ f.ident = d.impr ∧ u.time ≤ c.start + 256 * d.deadline ∧ ((u.eng p).ctxs.find? fun x => x.desc.op != 1 && x.desc.job == f.job && x.desc.impr == f.ident && decide (2 ≤ x.desc.op ∧ x.desc.op ≤ 4)) = some c ∧ d.op = 2)) ∧
    ((d.serve = true ∧ f.kind = 3 ∧ f.detail.toNat / 2 ^ 32 = d.shard8.toNat ∧ c.requests = [] ∧ c.serving = none) ∧
    (u.shards = [r] ∧ r.job = d.job ∧ r.shard = d.shard8 ∧ r.areaOf (f.detail.setWidth 32) = some 1 ∧ u.rankEntry d.job f.srcRank.toNat = some e ∧ d.length % 128 = 0)) := by
  unfold Claims.Active Claims.Comes Claims.Takes
  decide +kernel
end StreamFramesAreDisposedOf2

namespace StreamFramesAreDisposedOf3
def p : Port := 63
def d := descr 3 1 0 1 256 0 (2 ^ 63 + 0x100) 0 [3 + 65536, 0x5000]
def c := context d [1, 2, 0]
def f : Frame := { frame with kind := 2, srcRank := 2, ident := 1, payload := List.replicate 96 8, inc := 3, sig := true, counter := 7 }
def e : RankEntry := ⟨1, 3, 7⟩
def s : State := { onEngine c [f] with jobs := [(0, { running { plate with ranks := [e, ⟨2, 4, 0⟩, ⟨2, 0, 0⟩] } with no := 7 })], mem := [(0x5000, 1), (0x5002, 2)] }
def u := s.advanceTo 256
def ring := c.mask
def pos := ring.idxOf f.srcRank.toNat
def succ := ring.getD ((pos + d.ringK) % ring.length) 0
set_option synthInstance.maxSize 4000 in
theorem witness_StreamFramesAreDisposedOf_3 :
    (s.quiet = true ∧ s.hasPort p = true ∧ Claims.Active p c u ∧ Claims.Comes (.engine p) f u ∧ (f.kind = 2 ∨ f.kind = 3) ∧ f.job = d.job ∧ f.ident = d.impr ∧ u.time ≤ c.start + 256 * d.deadline) ∧
    ((((u.eng p).ctxs.find? fun x => x.desc.op != 1 && x.desc.job == f.job && x.desc.impr == f.ident && decide (2 ≤ x.desc.op ∧ x.desc.op ≤ 4)) = some c ∧ d.op = 3 ∧ f.kind = 2 ∧ pos < ring.length) ∧
    (f.offset.toNat % 32 = 0 ∧ f.offset.toNat + f.payload.length < d.length ∧ c.units = [] ∧ c.arrived < ring.length ∧ u.rankEntry d.job succ = some e)) := by
  unfold Claims.Active Claims.Comes Claims.Takes
  decide +kernel
end StreamFramesAreDisposedOf3

namespace StreamFramesAreDisposedOf4
def p : Port := 63
def d := descr 4 1 0 1 256 0 0x7000 0 [128 + 2 ^ 32 * 3, 0x5000, 0]
def c := context d []
def f : Frame := { frame with kind := 2, srcRank := 2, ident := 1, offset := 128, payload := List.replicate 128 8 }
def s : State := { onEngine c [f] with mem := [(0x707F, 1), (0x7100, 2)] }
def u := s.advanceTo 256
set_option synthInstance.maxSize 4000 in
theorem witness_StreamFramesAreDisposedOf_4 :
    ((s.quiet = true ∧ s.hasPort p = true ∧ Claims.Active p c u ∧ Claims.Comes (.engine p) f u ∧ (f.kind = 2 ∨ f.kind = 3)) ∧
    (f.job = d.job ∧ f.ident = d.impr ∧ u.time ≤ c.start + 256 * d.deadline ∧ ((u.eng p).ctxs.find? fun x => x.desc.op != 1 && x.desc.job == f.job && x.desc.impr == f.ident && decide (2 ≤ x.desc.op ∧ x.desc.op ≤ 4)) = some c ∧ d.op = 4)) ∧
    ((d.inPlace = false ∧ f.kind = 2 ∧ c.blocks = [] ∧ 0 < d.blockSize ∧ d.blockSize % 128 = 0) ∧
    (f.offset.toNat % d.blockSize = 0 ∧ f.payload.length = d.blockSize ∧ c.arrived + 1 < d.incoming ∧ u.mayWrite d.dest (d.dest.toNat + f.offset.toNat) d.blockSize = true ∧ u.inCode (d.dest.toNat + f.offset.toNat) d.blockSize = false ∧ (u.job d.job).mapOn = none)) := by
  unfold Claims.Active Claims.Comes Claims.Takes
  decide +kernel
end StreamFramesAreDisposedOf4

namespace StreamDeadlinesEndImpressions1
def p : Port := 63
def ctr : Table DieState := [(3, { DieState.reset with counters := [(16383, ⟨7, 0, false, false, false, 0xFFFFFF00⟩)] })]
def st : Ctx → State := fun c => { onEngine c [] with dies := ctr }
def d1 := descr 1 1 (0xFFFF + 65536 * 255) 1 128 0 0 0 [0, 0x2000, 2 ^ 62, 128 + 2 ^ 32 * 128, 0x4000, 0, 0, 0]
def d2 := descr 2 1 (0xFFFF + 65536 * 255) 1 128 0 0x5000 0 []
def d3 := descr 3 1 (0xFFFF + 65536 * 255) 1 128 0 0 0 [3 + 65536, 0x5000]
def d4 := descr 4 1 (0xFFFF + 65536 * 255) 1 128 0 0 0 [128 + 2 ^ 32 * 3, 0x5000, 0]
def d7 := descr 7 1 (0xFFFF + 65536 * 255) 1 128 0 0 0 []
def d2s := descr 2 1 (0xFFFF + 65536 * 255) 1 128 0 0 0 [1 + 2 ^ 32 * 9]
def c1 := { context d1 [3, 4095] with units := [(0, 0)], arrived := 1 }
def c2 := { context d2 [3, 4095] with units := [(0, 0)], arrived := 1 }
def c2s := context d2s []
def c2t := { context d2s [] with serving := some 1, phase := .sending }
def now := 257
set_option synthInstance.maxSize 4000 in
theorem witness_StreamDeadlinesEndImpressions_1 :
    (((∀ c ∈ [c1, c2, context d3 [], context d4 [], context d7 [], c2s, c2t], (st c).quiet = true ∧ (st c).hasPort p = true ∧ Claims.Active p c ((st c).advanceTo now) ∧ 0 < c.desc.deadline ∧ c.start + 256 * c.desc.deadline < ((st c).advanceTo now).time ∧
   Claims.Active p c ((st c).advanceTo 256) ∧ ((st c).advanceTo 256).time ≤ c.start + 256 * c.desc.deadline) ∧ d1.op = 1 ∧ c1.phase = .collecting ∧ c1.missing ≠ []) ∧
    (d2.op = 2 ∧ d2.serve = false ∧ c2.phase = .collecting ∧ c2.missing ≠ [] ∧ d3.op = 3)) ∧
    ((4 ≤ d4.op ∧ (context d4 []).granules = [] ∧ 4 ≤ d7.op ∧ d2s.serve = true ∧ c2s.readsDone = false) ∧
    (c2s.requests = [] ∧ c2s.serving = none ∧ c2t.readsDone = false ∧ c2t.requests = [] ∧ c2t.serving ≠ none)) := by
  unfold Claims.Active Claims.Takes
  decide +kernel
end StreamDeadlinesEndImpressions1

namespace StreamWorkCompletes1
def p : Port := 63
def d := descr 2 1 0 1 128 0 0 0 [1 + 2 ^ 32 * 9]
def c := { context d [] with serving := some 1, phase := .sending }
def r : Shard := ⟨9, 5, 7, 2, 0, 0, 0, 2 ^ 62, 128, [⟨4, true, false, false, 0⟩, ⟨5, true, false, false, 0⟩], [1, 0], [], 0⟩
def s : State := { onEngine c [] with shards := [r] }
def u := s.advanceTo 256
set_option synthInstance.maxSize 4000 in
theorem witness_StreamWorkCompletes_1 :
    (s.quiet = true ∧ s.hasPort p = true ∧ Claims.Active p c u ∧ d.op = 2 ∧ d.serve = true ∧ u.time ≤ c.start + 256 * d.deadline) ∧
    (c.serving = some 1 ∧ c.requests = [] ∧ u.shards = [r] ∧ r.job = d.job ∧ r.shard = d.shard8 ∧ r.relDue = []) := by
  unfold Claims.Active Claims.Takes
  decide +kernel
end StreamWorkCompletes1

namespace StreamWorkCompletes2
def p : Port := 63
def d := descr 4 1 0 1 256 0 0x7000 0 [128 + 2 ^ 32 * 3, 0x5000, 1]
def b : PBlock := ⟨1, 2, 0, List.replicate 128 5, [0]⟩
def c := { context d [] with blocks := [b], arrived := 2 }
def s : State := { onEngine c [] with mem := [(0x707F, 1), (0x7080, 2)] }
def u := s.advanceTo 256
set_option synthInstance.maxSize 4000 in
theorem witness_StreamWorkCompletes_2 :
    (s.quiet = true ∧ s.hasPort p = true ∧ Claims.Active p c u ∧ d.op = 4 ∧ u.time ≤ c.start + 256 * d.deadline) ∧
    (c.readsDone = false ∧ c.blocks = [b] ∧ d.blockSize / 128 ≤ b.units.length ∧ c.arrived < d.incoming ∧ u.inCode (d.dest.toNat + b.index * d.blockSize) b.bytes.length = false) := by
  unfold Claims.Active Claims.Takes
  decide +kernel
end StreamWorkCompletes2

namespace StreamWorkCompletes3
def p : Port := 63
def d := descr 5 1 0 0 32 0x2000 0x1040 0 [16]
def c := context d []
def s : State := { onEngine c [] with mem := [(0x2000, 9), (0x2001, 1), (0x2010, 3)] }
def u := s.advanceTo 256
set_option synthInstance.maxSize 4000 in
theorem witness_StreamWorkCompletes_3 :
    (s.quiet = true ∧ s.hasPort p = true ∧ Claims.Active p c u ∧ d.op = 5 ∧ d.bucketsN = 0 ∧ d.deadline = 0) ∧
    (DWord.target d.dest = .addr 0x1040 ∧ u.reaches 0x1040 d.length = true ∧ u.inCode 0x1040 d.length = false ∧ (0x1040 + d.length ≤ d.statusAddr.toNat ∨ d.statusAddr.toNat + 64 ≤ 0x1040) ∧ 0 < d.recSize ∧ d.length % d.recSize = 0) := by
  unfold Claims.Active Claims.Takes
  decide +kernel
end StreamWorkCompletes3

namespace StreamWorkCompletes4
def p : Port := 63
def d := descr 1 1 0 1 128 0 0 0x6000 [2 ^ 44 * 63 + 2 ^ 50, 0x2000, 2 ^ 62, 128 + 2 ^ 32 * 256, 0x4000, 0, 0, 0]
def b : BarDef := ⟨63, 1, 2, 0, 5, [0], 0, 0⟩
def m : Memory := [(0x2002, 0x80), (0x2003, 0x3F), (0x4002, 0x80), (0x4003, 0x3F), (0x6004, 0x62), (0x6005, 0x60), (0x6008, 1), (0x600C, 4), (0x6010, 0), (0x6011, 0x70), (2 ^ 62 + 2, 0x80), (2 ^ 62 + 3, 0x3F)]
def m4 : Memory := m.filter fun e => e.2 != 0
def st := fun (c : Ctx) (mode : BitVec 4) => ({ onEngine c [] with mem := m4, jobs := [(0, { running { plate with barriers := [b], ranks := [⟨2, 0, 0⟩] } with no := 7, mode := mode })], bars := [(63, { Bar.reset with job := 7 })] } : State)
def c0 := { context d [3] with phase := .summed, stages := 1 }
def c1 := { context d [3] with phase := .summed, stages := 0, added := 1 }
def rec_ : AbsRec := ⟨[(0x3F800000, 0)], 0, 0⟩
def c2 := { context d [3] with phase := .replay, stages := 4, rung := 6, absrec := some rec_, added := 1 }
def s0 := st c0 0
def s1 := st c1 1
def s2 := st c2 1
def t0 := s1.tensor d
def f := Fmt.b32
def acc := words32 t0.elems (s1.read d.accBase.toNat (4 * t0.elems))
def sum := (t0.decode f (s2.read (d.logBase.toNat + d.step.toNat % 2 * d.setStride) d.length)).map (·.1)
def k := s1.bar b.slot.toNat
def g := barVoteGen d.step k
set_option synthInstance.maxSize 4000 in
theorem witness_StreamWorkCompletes_4 :
    (((∀ x ∈ [(c0, s0), (c1, s1), (c2, s2)], x.2.quiet = true ∧ x.2.hasPort p = true ∧ Claims.Active p x.1 x.2) ∧ d.op = 1 ∧ d.vote = true ∧ s0.barDef d.job d.voteBarrier = some b ∧ s1.barDef d.job d.voteBarrier = some b ∧ s2.barDef d.job d.voteBarrier = some b) ∧
    (s1.inCode t0.absmax.toNat t0.tableBytes = false ∧ s1.inCode d.accBase.toNat (4 * t0.elems) = false ∧ k.gen.toNat ≤ g ∧ g < k.gen.toNat + 2 ∧ k.floor ≤ g ∧ (k.localAt g).1 + 1 < b.local_ ∧ Fmt.ofCode t0.deliv = some f)) ∧
    ((c0.phase = .summed ∧ ((s0.job d.job).modeAt d.step).toNat = 0 ∧ c0.stages &&& 0xB ≠ 0 ∧ c1.phase = .summed ∧ ((s1.job d.job).modeAt d.step).toNat ≠ 0 ∧ c2.phase = .replay ∧ c2.absrec = some rec_) ∧
    (Fmt.ofCode t0.fmt = some f ∧ c2.stages = 4 ∧ allFinite acc = true ∧ Fmt.ofCode c2.rung.toNat = some f ∧ c2.vote = false ∧ c2.mask = [c2.mask.headD 0] ∧ finiteOf sum (t0.convertAll f rec_.scales (s2.drawOf c2 t0) sum).2.2 = [])) := by
  unfold Claims.Active Claims.Takes
  decide +kernel
end StreamWorkCompletes4

namespace SignalsCount1
def d : Die := 3
def f : Frame := { frame with kind := 2, sig := true, sigDie := 3, srcRank := 4095, transfer := 0xFFFF, payload := [1, 2], inc := 0 }
def full : List PstEntry := (List.range 2047).map fun i => ⟨8, 0, BitVec.ofNat 16 i, 0, none, 0⟩
def s : State := { State.reset with dies := [(3, { DieState.reset with pst := full })], fab := { Fabric.reset with inbox := [(.die 3, queued f)] } }
def u := s.advanceTo 9
theorem witness_SignalsCount_1 :
    (s.quiet = true ∧ f.sig = true ∧ f.stomp = false ∧ ¬ (f.kind = 2 ∧ f.mc = true) ∧ u.behind (.die d) f = false) ∧
    (f.sigDie = d ∧ (u.die d).reports = [] ∧ (u.die d).pst.length < 2048 ∧ f.inc = 0 ∧ (∀ x ∈ allDies, ∀ e ∈ (u.die x).pst, ¬ (e.job = f.job ∧ e.rank = f.srcRank ∧ e.transfer = f.transfer))) := by
  decide +kernel
end SignalsCount1

namespace SignalsCount2
def d : Die := 3
def e : PstEntry := ⟨7, 4095, 0xFFFF, 0xFFFFFFFD, none, 0⟩
def f : Frame := { frame with kind := 2, sig := true, sigDie := 3, srcRank := 4095, transfer := 0xFFFF, payload := [1, 2], inc := 0xFFFF, counter := 0xFFFF, announced := 0xFFFFFFFF }
def s : State := { State.reset with dies := [(3, { DieState.reset with pst := [e], counters := [(16383, ⟨7, 0, false, false, false, 0xFFFF0000⟩)] })], fab := { Fabric.reset with inbox := [(.die 3, queued f)] } }
def u := s.advanceTo 9
set_option synthInstance.maxSize 4000 in
theorem witness_SignalsCount_2 :
    (s.quiet = true ∧ f.sig = true ∧ f.stomp = false ∧ ¬ (f.kind = 2 ∧ f.mc = true) ∧ u.behind (.die d) f = false ∧ f.sigDie = d ∧ (u.die d).reports = [] ∧ (u.die d).pst.length < 2048) ∧
    ((f.inc ≠ 0 ∧ (u.die d).pst = [e] ∧ e.job = f.job ∧ e.rank = f.srcRank) ∧
    (e.transfer = f.transfer ∧ (∀ x ∈ [(0 : Die), 1, 2], (u.die x).pst = []) ∧ f.counter.die = d ∧ e.tally + f.payload.length = f.announced.toNat ∧ Claims.Takes f.counter f.job f.inc.toNat u)) := by
  unfold Claims.Takes
  decide +kernel
end SignalsCount2

namespace SignalsCount3
def d : Die := 0
def f : Frame := { frame with kind := 2, sig := true, sigDie := 3, srcRank := 4095, transfer := 0xFFFF, payload := [1, 2], inc := 9, counter := 0xFFFF, announced := 4 }
def full : List PstEntry := (List.range 2048).map fun i => ⟨8, 0, BitVec.ofNat 16 i, 0, none, 0⟩
def s : State := { State.reset with fab := { Fabric.reset with inbox := [(.die 0, { queued f with ingress := some 63 })] } }
def s2 : State := { s with dies := [(3, { DieState.reset with pst := full })] }
def u := s.advanceTo 9
def u2 := s2.advanceTo 9
theorem witness_SignalsCount_3 :
    (s.quiet = true ∧ f.sig = true ∧ f.stomp = false ∧ ¬ (f.kind = 2 ∧ f.mc = true) ∧ u.behind (.die d) f = false ∧ f.sigDie ≠ d) ∧
    (u.pstFull f.sigDie f.job f.srcRank f.transfer = false ∧ s2.quiet = true ∧ u2.behind (.die d) f = false ∧ (∀ x ∈ allDies, ∀ e ∈ (u2.die x).pst, ¬ (e.job = f.job ∧ e.rank = f.srcRank ∧ e.transfer = f.transfer)) ∧ (u2.die f.sigDie).reports = [] ∧ 2048 ≤ (u2.die f.sigDie).pst.length) := by
  decide +kernel
end SignalsCount3

namespace SignalsCount4
def r : CommitReport := ⟨3, 7, 4095, 0xFFFF, 0xFFFFFFFF, none⟩
def report : CommitRep := ⟨7, 4095, 0xFFFF, 0xFFFFFFFF, none⟩
def s : State := { State.reset with dies := [(3, { DieState.reset with pstPeak := 5, reports := [report] })] }
def u := s.advanceTo 9
def s1 : State := State.reset
def u1 := s1.advanceTo 9
def s2 : State := { State.reset with dies := [(3, { DieState.reset with pst := [⟨7, 4095, 0xFFFF, 1, none, 0⟩], sigMismatch := 0xFFFFFFFF })] }
def u2 := s2.advanceTo 1000000
theorem witness_SignalsCount_4 :
    (s.quiet = true ∧ (0 : Die) ≠ r.dst ∧ r.tag = none ∧ report ∈ (u.die r.dst).reports ∧ (∀ x ∈ allDies, ∀ e ∈ (u.die x).pst, ¬ (e.job = r.job ∧ e.rank = r.rank ∧ e.transfer = r.transfer))) ∧
    (s1.quiet = true ∧ report ∉ (u1.die r.dst).reports ∧ s2.quiet = true ∧ (u2.die 3).pst = [⟨7, 4095, 0xFFFF, 1, none, 0⟩] ∧ 0 + 1000000 ≤ u2.time) := by
  decide +kernel
end SignalsCount4

namespace SignalsCount5
def f : Frame := { frame with kind := 5, inc := 0xFFFF, counter := 0xFFFF }
def g : Frame := { f with job := 8 }
def s : State := { State.reset with dies := [(3, { DieState.reset with sigDiscarded := 0xFFFFFFFF, counters := [(16383, ⟨7, 0, false, false, false, 0xFFFF0000⟩)] })], fab := { Fabric.reset with inbox := [(.die 3, queued f), (.die 3, { queued g with ingress := some 5 })] } }
def u := s.advanceTo 9
set_option synthInstance.maxSize 4000 in
theorem witness_SignalsCount_5 :
    s.quiet = true ∧ f.stomp = false ∧ f.inc ≠ 0 ∧ u.behind (.die f.counter.die) f = false ∧ u.behind (.die g.counter.die) g = false ∧ Claims.Takes f.counter f.job f.inc.toNat u ∧ (g.job = 0 ∨ (u.counter g.counter).job ≠ g.job) := by
  unfold Claims.Takes
  decide +kernel
end SignalsCount5

namespace SignalsCount6
def n : CounterName := 0xFFFF
def r : Shard := ⟨9, 0xFFFFFFFD, 7, 2, 63, n, 0, 2 ^ 62, 128, [⟨4, false, true, false, 9⟩, ⟨5, true, false, false, 0⟩], [0], [], 0⟩
def hs : List HeldSet := [⟨7, 9, 0, false⟩, ⟨7, 8, 0, false⟩]
def s : State := { State.reset with shards := [r], engines := [(5, { Engine.reset with heldSets := hs })], bars := [(63, { Bar.reset with gen := 77 })], dies := [(3, { DieState.reset with counters := [(16383, ⟨7, 0, false, false, false, 0xFFFFFFFE⟩)] })] }
def u := s.advanceTo 9
set_option synthInstance.maxSize 4000 in
theorem witness_SignalsCount_6 :
    (s.quiet = true ∧ u.shards = [r] ∧ r.job = (u.counter n).job ∧ r.advance = n ∧ (u.counter n).underflow = false ∧ (u.counter n).overflow = false ∧ (u.counter n).value.toNat + 1 < 2 ^ 32) ∧
    ((∀ e ∈ u.clusters, e.2.heldOn n = false) ∧ u.inProof r.job = false ∧ u.mirrorSource r.job r.shard = none ∧ r.isFilling = false ∧ r.st.toNat < 0xFFFFFFFE ∧ r.areas[(r.st.toNat + 1) % r.hold]? = some ⟨4, false, true, false, 9⟩ ∧ 1 < r.hold ∧ r.areas.length = r.hold) := by
  decide +kernel
end SignalsCount6

namespace BarriersComplete1
def b : BarDef := ⟨63, 1, 1, 0, 0xFFFF, [0, 1, 4095], 1, 0x1000⟩
def pl : Plate := { plate with barriers := [b], ranks := [⟨2, 0, 0⟩, ⟨1, 3, 7⟩] }
def f : Frame := { frame with kind := 4, srcRank := 1, ident := 63 + 64, detail := 5 }
def s : State := { State.reset with jobs := [(7, { running pl with no := 7 })], bars := [(63, { Bar.reset with job := 7, gen := 5, masks := ([0], [1]) })], fab := { Fabric.reset with inbox := [(.die 3, queued f)] } }
def u := s.advanceTo 9
def k := u.bar 63
theorem witness_BarriersComplete_1 :
    (s.quiet = true ∧ u.barDef f.job (f.ident.toNat % 64) = some b ∧ (u.job f.job).st = .running ∧ u.behind (.die b.done.die) f = false) ∧
    (u.ownRank f.job = some b.root ∧ f.detail.setWidth 32 = k.gen ∧ f.srcRank.toNat ∈ b.mask ∧ f.srcRank.toNat ∉ k.masks.1 ∧ (∃ r ∈ b.mask, r ≠ f.srcRank.toNat ∧ r ∉ k.masks.1)) := by
  decide +kernel
end BarriersComplete1

namespace BarriersComplete2
def b : BarDef := ⟨63, 1, 1, 1, 0xFFFF, [0, 1, 4095], 1, 0x1000⟩
def pl : Plate := { plate with barriers := [b], ranks := [⟨2, 0, 0⟩, ⟨1, 3, 7⟩] }
def f : Frame := { frame with kind := 4, srcRank := 1, ident := 63 + 256, detail := 5, payload := List.replicate 543 0 ++ [9] }
def s : State := { State.reset with jobs := [(7, { running pl with no := 7 })], bars := [(63, { Bar.reset with job := 7, gen := 5, part := [(0, 1, true)] })], fab := { Fabric.reset with inbox := [(.die 3, queued f)] }, mem := [(0x1001, 4)], dies := [(3, { DieState.reset with counters := [(16383, ⟨7, 0, false, false, false, 0xFFFFFFFE⟩)] })] }
def u := s.advanceTo 9
def k := u.bar 63
set_option synthInstance.maxSize 4000 in
theorem witness_BarriersComplete_2 :
    (s.quiet = true ∧ u.barDef f.job (f.ident.toNat % 64) = some b ∧ (u.job f.job).st = .running ∧ u.behind (.die b.done.die) f = false ∧ (u.job f.job).mapAt = none ∧ u.badWords = []) ∧
    (u.weakWords = [] ∧ (∀ e ∈ u.engines, ∀ c ∈ e.2.ctxs, c.phase ≠ .voting) ∧ f.ident.toNat / 256 % 256 = 1 ∧ ¬ (b.kind = 2 ∧ 1 = 0) ∧ k.gen.toNat ≤ f.detail.toNat % 2 ^ 32 ∧ f.payload.length = 544 ∧ Claims.Takes b.done f.job 1 u) := by
  unfold Claims.Takes
  decide +kernel
end BarriersComplete2

namespace BarriersComplete3
def b : BarDef := ⟨63, 1, 1, 0, 0xFFFF, [0, 1, 4095], 1, 0x1000⟩
def pl : Plate := { plate with barriers := [b], ranks := [⟨2, 0, 0⟩, ⟨1, 3, 7⟩] }
def s : State := { State.reset with jobs := [(7, { running pl with no := 7 })], bars := [(63, { Bar.reset with job := 7, gen := 5, part := [(0, 1, true)], masks := ([0], []), opened := some 0 })], dies := [(3, { DieState.reset with counters := [(16383, ⟨7, 0, false, false, false, 0xFFFFFFFE⟩)] })] }
def u := s.advanceTo 257
def k := u.bar 63
set_option synthInstance.maxSize 4000 in
theorem witness_BarriersComplete_3 :
    (s.quiet = true ∧ u.badWords = [] ∧ u.weakWords = [] ∧ (u.job k.job).proofRole ≠ 2 ∧ (u.job k.job).mapAt = none ∧ (∀ e ∈ u.engines, ∀ c ∈ e.2.ctxs, c.phase ≠ .voting) ∧ u.barDef k.job 63 = some b) ∧
    (b.slot = 63 ∧ (u.job k.job).st = .running ∧ u.ownRank k.job = some b.root ∧ k.opened = some 0 ∧ 0 < b.deadline ∧ 0 + 256 * b.deadline < u.time ∧ Claims.Takes b.done k.job 1 u ∧ (∃ r ∈ b.mask, r ∉ k.masks.2)) := by
  unfold Claims.Takes
  decide +kernel
end BarriersComplete3

namespace JobsStart1
def j : Job := { Job.reset with no := 7, st := .loaded, plate := some plate, digests := [(0, 5), (511, 4)] }
def s : State := { State.reset with jobs := [(3, { Job.reset with no := 9 }), (7, j)] }
def u := s.advanceTo 9
set_option synthInstance.maxSize 4000 in
theorem witness_JobsStart_1 :
    (7 : JobNo) ≠ 0 ∧ (u.job 7).plate = some plate ∧ Claims.Rising u ∧ u.hub.waiting = [] ∧ (u.modJob 7 fun j => { j with startMsg := none }).quiet = true ∧ (u.job 7).st = .loaded ∧ (u.job 7).startMsg = none ∧ (∀ x ∈ u.fab.inbox, x.1 ≠ .pair) := by
  unfold Claims.Rising
  decide +kernel
end JobsStart1

namespace JobsStart2
def p : Plate := { plate with ranks := [⟨2, 0, 0⟩, ⟨2, 511, 0⟩] }
def m := msg 7 0 [] []
def j : Job := { Job.reset with no := 7, st := .starting, plate := some p, startMsg := some m, startBegan := 0 }
def s : State := { State.reset with jobs := [(3, { Job.reset with no := 9 }), (7, j)] }
def u := s.advanceTo 10000000000
set_option synthInstance.maxSize 4000 in
theorem witness_JobsStart_2 :
    ((u.job 7).plate = some p ∧ Claims.Rising u ∧ u.hub.waiting = [] ∧ (u.modJob 7 fun j => { j with startMsg := none }).quiet = true ∧ (u.job 7).st = .starting) ∧
    ((u.job 7).startMsg = some m ∧ m.path = .internal ∧ (u.job 7).proofRole = 0 ∧ j.startBegan + 10000000000 ≤ u.time ∧ (∃ x ∈ u.startPeers 7, ∀ e ∈ j.digests, e.1 ≠ x)) := by
  unfold Claims.Rising
  decide +kernel
end JobsStart2

namespace JobsStart3
def p : Plate := { plate with ranks := [⟨2, 0, 0⟩, ⟨2, 511, 0⟩], mode := 3, counters := [⟨0xFFFF, 15, 4⟩], barriers := [⟨63, 1, 1, 0, 0, [0], 0, 0⟩] }
def m := msg 7 0 [] []
def j : Job := { Job.reset with no := 7, st := .starting, plate := some p, startMsg := some m, startBegan := 0, cleared := true, digests := [(0, 0)], startAt := 9 }
def s : State := { State.reset with jobs := [(3, { Job.reset with no := 9 }), (7, j)] }
def u := s.advanceTo 9
set_option synthInstance.maxSize 4000 in
theorem witness_JobsStart_3 :
    ((u.job 7).plate = some p ∧ Claims.Rising u ∧ u.hub.waiting = [] ∧ (u.modJob 7 fun j => { j with startMsg := none }).quiet = true ∧ (u.job 7).st = .starting ∧ (u.job 7).startMsg = some m ∧ m.path = .internal ∧ (u.job 7).cleared = true) ∧
    (((∀ x ∈ u.startPeers 7, ∃ e ∈ j.digests, e.1 = x) ∧ u.startPeers 7 = [0] ∧ (∀ b ∈ p.barriers, (u.bar b.slot.toNat).masks.1 = []) ∧ j.startAt ≠ 0) ∧
    (j.startAt ≤ u.time ∧ p.shardRecs = [] ∧ p.mirror = [] ∧ p.nextSwitch 0 0 = none ∧ (∀ c ∈ p.counters, ∀ x ∈ p.counters, x.name = c.name → x = c))) := by
  unfold Claims.Rising
  decide +kernel
end JobsStart3

namespace JobsRunTheirSteps1
def x : SchedEntry := ⟨0, 0xFFF, 255, 1, 0xABCD, 0x10000, 0x10001, 0x40⟩
def p : Plate := { plate with sched := [x], images := [⟨0x11, 255, 0x10, List.replicate 100 0⟩] }
def j := { running p with prog := [(0, { EntryProg.reset with next := 1 })], begun := some 5 }
def s : State := { withJob j with clusters := [(255, { Cluster.reset with x := [(1, 1)], stepCount := 77, flags := ⟨true, true, true⟩, haltCode := 5 })] }
def u := s.advanceTo 9
def g := Table.get EntryProg.reset 0 (u.job 7).prog
def step := x.first + g.next
set_option synthInstance.maxSize 4000 in
theorem witness_JobsRunTheirSteps_1 :
    (s.quiet = true ∧ (7 : JobNo) ≠ 0 ∧ (u.job 7).st = .running ∧ (u.job 7).plate = some p ∧ Claims.Rising u ∧ p.sched[0]? = some x ∧ (u.job 7).scalePend = [] ∧ (u.job 7).injPend = []) ∧
    ((x.startGate = 0xFFF ∧ x.mapping.toNat = (u.job 7).mapping ∧ g.running = false ∧ (x.last = 0xFFFFFFFF ∨ step ≤ x.last)) ∧
    (step < 2 ^ 32 ∧ u.pair.st ≠ .fenced ∧ x.kind = 1 ∧ (u.clu x.target).gstate = .idle ∧ (u.die (ClusterId.die x.target)).inReset = false)) := by
  unfold Claims.Rising
  decide +kernel
end JobsRunTheirSteps1

namespace JobsRunTheirSteps2
def x : SchedEntry := ⟨0, 0xFFF, 63, 2, 0xABCD, 0, 0xFFFFFFFF, 0x7FFFFF80⟩
def p : Plate := { plate with sched := [x] }
def j := { running p with prog := [(0, { EntryProg.reset with next := 1 })], begun := some 5 }
def s : State := { withJob j with mem := [(0x7FFFFF84, 0x55), (0x7FFFFF88, 1)] }
def u := s.advanceTo 9
def g := Table.get EntryProg.reset 0 (u.job 7).prog
def step := x.first + g.next
set_option synthInstance.maxSize 4000 in
theorem witness_JobsRunTheirSteps_2 :
    ((s.quiet = true ∧ (7 : JobNo) ≠ 0 ∧ (u.job 7).st = .running ∧ (u.job 7).plate = some p ∧ Claims.Rising u ∧ p.sched[0]? = some x) ∧
    ((u.job 7).scalePend = [] ∧ (u.job 7).injPend = [] ∧ x.startGate = 0xFFF ∧ x.mapping.toNat = (u.job 7).mapping ∧ g.running = false ∧ (x.last = 0xFFFFFFFF ∨ step ≤ x.last))) ∧
    ((step < 2 ^ 32 ∧ u.pair.st ≠ .fenced ∧ x.kind = 2 ∧ (u.die (Port.die (x.target.setWidth 6))).inReset = false ∧ u.armed = [] ∧ u.badWords = []) ∧
    (u.weakIn x.address.toNat 128 = [] ∧ x.address.toNat < 2 ^ 31 ∧ x.address.toNat % 128 = 0 ∧ u.absentAt x.address = false ∧ (u.eng (x.target.setWidth 6)).queue.length < 64 ∧ (u.eng (x.target.setWidth 6)).pacorWait = [])) := by
  unfold Claims.Rising
  decide +kernel
end JobsRunTheirSteps2

namespace JobsRunTheirSteps3
def h : Hatch := ⟨0, 4, [⟨2, 0x1F, 0⟩, ⟨2, 0x10, 0⟩], 2 ^ 63⟩
def p : Plate := { plate with hatch := h }
def s : State := { withJob (running p) with hatchJobs := [(7, 7)], clusters := [(3, { Cluster.reset with gstate := .held, holdCause := .gate, startGate := some 1, job := 7, impr := some ⟨7, 1, 1, 0, 0⟩ }), (4, { Cluster.reset with gstate := .held, holdCause := .gate, startGate := some 0, job := 7 })] }
def u := s.advanceTo 512
set_option synthInstance.maxSize 4000 in
theorem witness_JobsRunTheirSteps_3 :
    s.quiet = true ∧ (u.job 7).st = .running ∧ (u.job 7).plate = some p ∧ Claims.Rising u ∧ Table.get 0 7 u.hatchJobs = 7 ∧ Table.wf Cluster.reset u.clusters = true ∧ (∀ e ∈ u.clusters, e.1 < 256) ∧ (∀ e ∈ u.clusters, ¬ (e.2.job = 7 ∧ e.2.gstate = .held ∧ e.2.holdCause = .gate ∧ e.2.startGate = none)) := by
  unfold Claims.Rising
  decide +kernel
end JobsRunTheirSteps3

namespace JobsRunTheirSteps4
def x : SchedEntry := ⟨0, 0xFFF, 255, 1, 0, 0, 9, 0x40⟩
def p : Plate := { plate with sched := [x] }
def l : StepLedger := ⟨0, 0, 1, 77⟩
def j := { running p with prog := [(0, { EntryProg.reset with next := 1 })], begun := some 0, ledgerOpen := [l] }
def s := withJob j
def u := s.advanceTo 9
def k := u.job 7
set_option synthInstance.maxSize 4000 in
theorem witness_JobsRunTheirSteps_4 :
    (s.quiet = true ∧ k.st = .running ∧ k.plate = some p ∧ Claims.Rising u ∧ Job.nextClose p k = some 0) ∧
    (k.begun = some 0 ∧ 0 ≤ (0 : Word).toNat ∧ u.stepOpen 7 p 0 = false ∧ k.ledgerOpen = [l] ∧ l.step.toNat = 0) := by
  unfold Claims.Rising
  decide +kernel
end JobsRunTheirSteps4

namespace JobsRunTheirSteps5
def x : SchedEntry := ⟨0, 0xFFF, 255, 1, 0, 0, 0, 0x40⟩
def p : Plate := { plate with sched := [x] }
def j := { running p with prog := [(0, { EntryProg.reset with next := 1 })], begun := some 0 }
def s : State := { withJob j with meter := { Meter.reset with openJobs := [7, 8] } }
def u := s.advanceTo 9
set_option synthInstance.maxSize 4000 in
theorem witness_JobsRunTheirSteps_5 :
    s.quiet = true ∧ (u.job 7).st = .running ∧ (u.job 7).plate = some p ∧ Claims.Rising u ∧ (u.job 7).entryPast p x 0 = true ∧ p.sched.length = 1 ∧ u.imprsLeft 7 = false ∧ u.margin.hubOn = true := by
  unfold Claims.Rising
  decide +kernel
end JobsRunTheirSteps5

namespace JobsRunTheirSteps6
def a : Inject := ⟨Code.sramUncorrectable, 0, 3, 0, 5, 7⟩
def b : Inject := ⟨Code.injDropRank, 0, 3, 0, 6, 7⟩
def j := { running plate with begun := some 4, injPend := [a, b] }
def s := withJob j
def u := s.advanceTo 9
set_option synthInstance.maxSize 4000 in
theorem witness_JobsRunTheirSteps_6 :
    s.quiet = true ∧ (u.job 7).st = .running ∧ (u.job 7).plate = some plate ∧ Claims.Rising u ∧ (u.job 7).scalePend = [] ∧ (∀ i ∈ (u.job 7).injPend, i.code = Code.sramUncorrectable ∨ i.code = Code.dramUncorrectable ∨ i.code = Code.injOverflow ∨ i.code = Code.injDropRank) := by
  unfold Claims.Rising
  decide +kernel
end JobsRunTheirSteps6

namespace LinksTrain1
def p : Port := 63
def x : PortState := { PortState.reset with role := 1, lanes := [(0, { Lane.reset with locked := true }), (1, { Lane.reset with locked := true }), (2, { Lane.reset with locked := true })] }
def s := onPort63 x
def u := s.advanceTo 9
theorem witness_LinksTrain_1 :
    s.quiet = true ∧ s.hasPort p = true ∧ (u.port p).role ≠ 0 ∧ (u.port p).down = false ∧ (u.port p).phase = .detect := by
  decide +kernel
end LinksTrain1

namespace LinksTrain2
def p : Port := 63
def l : BitVec 3 := 7
def x : PortState := { PortState.reset with role := 1, phase := .equalise, lanes := [(7, { Lane.reset with readyRun := 15, tapM1 := -3 })] }
def w : TrainWords := ⟨0, 0xC0, true⟩
def s := onPort63 x
def u := s.advanceTo 9
def y := u.port p
theorem witness_LinksTrain_2 :
    s.quiet = true ∧ s.hasPort p = true ∧ y.role ≠ 0 ∧ y.down = false ∧ y.phase = .equalise ∧ (y.lane l.toNat).timedOut = false ∧ (∃ i ∈ List.range 8, i ≠ l.toNat ∧ (y.lane i).timedOut = false ∧ (y.lane i).readyRun < 16) ∧ w.control = 0 := by
  decide +kernel
end LinksTrain2

namespace LinksTrain3
def p : Port := 63
def l : BitVec 3 := 7
def x : PortState := { PortState.reset with role := 1, phase := .equalise, lanes := [(7, { Lane.reset with readyRun := 15, tapM1 := -3 })] }
def s := onPort63 x
def u := s.advanceTo 10000000
def y := u.port p
theorem witness_LinksTrain_3 :
    s.quiet = true ∧ s.hasPort p = true ∧ y.phase = .equalise ∧ (∃ i ∈ List.range 8, i ≠ l.toNat ∧ (y.lane i).timedOut = false ∧ (y.lane i).readyRun < 16) ∧ y.phaseAt + 10000000 ≤ u.time ∧ (y.lane l.toNat).timedOut = false ∧ (y.lane l.toNat).readyRun < 16 ∧ (s.advanceTo 9999999).time < ((s.advanceTo 9999999).port p).phaseAt + 10000000 := by
  decide +kernel
end LinksTrain3

namespace LinksTrain4
def p : Port := 63
def s := onPort63 { PortState.reset with role := 1, phase := .align, rxUsable := 0xFF, lanes := [(7, { Lane.reset with locked := true, cwLock := true })] }
def s2 := onPort63 { PortState.reset with role := 1, phase := .negotiate, rxUsable := 0xFF, txUnits := [⟨[], true, none⟩], lanes := [(7, { Lane.reset with locked := true, cwLock := true })] }
def u := s.advanceTo 1000000
def u2 := s2.advanceTo 1000000
theorem witness_LinksTrain_4 :
    (s.quiet = true ∧ s.hasPort p = true ∧ (u.port p).phaseAt + 1000000 ≤ u.time ∧ (u.port p).phase = .align) ∧
    (s2.quiet = true ∧ s2.hasPort p = true ∧ (u2.port p).phaseAt + 1000000 ≤ u2.time ∧ (u2.port p).phase = .negotiate ∧ (u2.port p).mismatch = false) := by
  decide +kernel
end LinksTrain4

namespace LinksTrain5
def p : Port := 63
def bs : List Byte := [4] ++ List.replicate 31 0 ++ alignMarker ++ List.replicate 592 0
def lanes := fun (n : Nat) => (List.range n).map fun i => (i, { Lane.reset with cwLock := true })
def st := fun (n : Nat) => onPort63 { PortState.reset with role := 6, phase := .align, rxUsable := 0xFF, fecCorr := 5, lanes := lanes n }
def s := st 7
def x := s.port p
theorem witness_LinksTrain_5 :
    s.quiet = true ∧ s.hasPort p = true ∧ x.phase = .align ∧ x.role ≠ 0 ∧ (bs.drop 32).take 16 = alignMarker ∧ bs.head? = some 4 := by
  decide +kernel
end LinksTrain5

namespace LinksTrain6
def p : Port := 63
def bs := sealed 213889308 ([5] ++ List.replicate 27 0) ([1, 1, 0xFF, 0, 0x82, 0, 0, 0, 9, 9, 9, 9, 9, 9, 9, 9] ++ List.replicate 592 0)
def c := capsOf bs
def s := onPort63 { PortState.reset with role := 1, phase := .negotiate, rxUsable := 0xFF, peerCaps := some c, peerRun := 2, trainSent := 7 }
def u := s.advanceTo 9
def x := u.port p
def run := if x.peerCaps = some c then x.peerRun + 1 else 1
theorem witness_LinksTrain_6 :
    (s.quiet = true ∧ s.hasPort p = true ∧ x.phase = .negotiate ∧ x.role = 1 ∧ blockCrcOk bs = true) ∧
    (blockField bs 0 1 % 16 = 5 ∧ x.trainSent < 8 ∧ 3 ≤ run ∧ c.version = 1 ∧ c.role = 1 ∧ x.peerOk = false) := by
  decide +kernel
end LinksTrain6

namespace LinksTrain7
def p : Port := 63
def l : BitVec 3 := 7
def st := fun (n : Nat) => onPort63 { PortState.reset with role := 1, phase := .active, rxUsable := 0x7F, txLanes := 0x3F, lanes := [(7, { Lane.reset with retrain := true, rxReady := true, readyRun := n, retrainAt := 9, laneState := 2 })] }
def s := st 16
def s2 := st 15
def u := s.advanceTo 20000008
def u2 := s2.advanceTo 20000009
def u3 := s2.advanceTo 20000008
def x := u.port p
def x2 := u2.port p
set_option synthInstance.maxSize 4000 in
theorem witness_LinksTrain_7 :
    (s.quiet = true ∧ s.hasPort p = true ∧ x.phase = .active ∧ (x.lane l.toNat).retrain = true ∧ u.pair.recUnits = [] ∧ (x.lane l.toNat).rxReady = true ∧ 16 ≤ (x.lane l.toNat).readyRun ∧ s2.quiet = true) ∧
    ((s2.hasPort p = true ∧ x2.phase = .active ∧ (x2.lane l.toNat).retrain = true ∧ u2.pair.recUnits = []) ∧
    (¬ (16 ≤ (x2.lane l.toNat).readyRun) ∧ x2.lane l.toNat = (u3.port p).lane l.toNat ∧ 20000009 ≤ u2.time ∧ u3.time < 20000009 ∧ (x2.lane l.toNat).retrainAt = 9)) := by
  decide +kernel
end LinksTrain7

namespace LinksTrain8
def p : Port := 63
def st := fun (ph : LinkPhase) => onPort63 { PortState.reset with role := 1, phase := ph, rxUsable := 0x7F, txLanes := 0x3F, retryBuf := [⟨3, []⟩], disable := ph == .disabled, lanes := [(7, { Lane.reset with locked := true, cwLock := true })] }
set_option synthInstance.maxSize 4000 in
theorem witness_LinksTrain_8 :
    (∀ ph ∈ [LinkPhase.disabled, .detect, .equalise, .align, .negotiate, .active], (st ph).quiet = true ∧ (st ph).hasPort p = true) ∧ (let s := { PortState.reset with role := 0, phase := .disabled, disable := true }; (onPort63 s).quiet = true ∧ (onPort63 s).hasPort p = true ∧ s.phase = .disabled ∧ s.role = 0) ∧ ((st .active).advanceTo 9).port p ≠ PortState.reset ∧ (((st .active).advanceTo 9).port p).rxUid = none ∧ Claims.Calm ((st .active).advanceTo 9) := by
  unfold Claims.Calm
  decide +kernel
end LinksTrain8

namespace LinkBlocksMove1
def p : Port := 63
def ctl := fun (t : Byte) (seq : Byte) => [t, 0, seq, 0, 2, 0, 0, 0, 5, 0, 0, 0, 0, 0, 0, 0, 7, 0, 0, 0, 0xFF, 0, 0, 0, 0, 0, 0, 0]
def z : List Byte := List.replicate 608 0
def s := onPort63 { PortState.reset with role := 1, phase := .active, rxUsable := 0xFF, txLanes := 0xFF, peerReq := 0xFF, lastRx := 4, rxExpect := 9, lastAckIn := 0xFFFF, retryBuf := [⟨2, [2]⟩, ⟨3, [3]⟩], credits := [(0, 9)] }
def u := s.advanceTo 9
def x := u.port p
def b1 := sealed 3075493457 (ctl 1 9) z
def b1n := sealed 3877846402 (ctl 1 8) z
def b2 := sealed 3626235977 (ctl 2 0) z
def b3 := sealed 3827868873 (ctl 3 0) ([4, 0, 0, 0, 0, 0, 0, 0, 0, 0, 0, 0, 0, 0, 0, 0] ++ List.replicate 592 0)
def b3e := sealed 2519347334 (ctl 3 0) ([4, 0, 0, 0, 0, 0, 0, 0, 1, 0, 0, 0, 0, 0, 0, 0, 3, 0, 0, 0] ++ List.replicate 588 0)
set_option synthInstance.maxSize 4000 in
theorem witness_LinkBlocksMove_1 :
    (s.quiet = true ∧ s.hasPort p = true ∧ x.phase = .active ∧ (∀ b ∈ [b1, b1n, b2, b3, b3e], blockCrcOk b = true ∧ blockField b 6 1 % 2 = 0 ∧ BitVec.ofNat 8 (blockField b 0x14 1) = x.peerReq) ∧ blockField b1 0 1 % 16 = 1 ∧ blockField b1 2 2 = x.rxExpect.toNat ∧ x.rxUnits = [] ∧ b1.drop 32 = List.replicate 608 0) ∧
    (blockField b1n 0 1 % 16 = 1 ∧ blockField b1n 2 2 ≠ x.rxExpect.toNat ∧ blockField b2 0 1 % 16 = 2 ∧ blockField b3 0 1 % 16 = 3 ∧ x.rtts = [] ∧ blockField b3 0x28 8 = 0 ∧ blockField b3e 0 1 % 16 = 3 ∧ blockField b3e 0x28 8 ≠ 0) := by
  decide +kernel
end LinkBlocksMove1

namespace LinkBlocksMove2
def p : Port := 63
def s := onPort63 { PortState.reset with role := 1, phase := .active, rxUsable := 0xFF, txLanes := 0xF0, streamPos := 3, timeDue := true, timeSent := 9000, lanes := [(4, { Lane.reset with txCount := 16384 }), (5, { Lane.reset with txCount := 16384 })] }
def u := s.advanceTo 9999
def x := u.port p
theorem witness_LinkBlocksMove_2 :
    (s.quiet = true ∧ s.hasPort p = true ∧ x.phase = .active ∧ x.role ≠ 0) ∧
    ((∀ i ∈ List.range 8, (x.lane i).retrain = false) ∧ x.alignDue = 0 ∧ (x.timeDue = false ∨ u.time < x.timeSent + 1000) ∧ x.replayPos = none ∧ x.txUnits = []) := by
  decide +kernel
end LinkBlocksMove2

namespace LinkBlocksMove3
def p : Port := 63
def l : BitVec 3 := 7
def s := onPort63 { PortState.reset with role := 1, phase := .active, rxUsable := 0xE3, txLanes := 0xF0, lastRx := 9, retryBuf := [⟨0xFFFF, []⟩], replayN := 6, replaySeq := 0xFFFF, replays := 0xFFFFFFFF }
def u := s.advanceTo 100009
def x := u.port p
set_option synthInstance.maxSize 4000 in
theorem witness_LinkBlocksMove_3 :
    (s.quiet = true ∧ s.hasPort p = true ∧ x.phase = .active ∧ 9999 < 10000 * 1 ∧ Claims.Calm u ∧ x.rxUsable.getLsbD l.toNat = true) ∧
    (5 ≤ (lanesOf x.rxUsable).length ∧ x.retryBuf = ⟨0xFFFF, []⟩ :: [] ∧ x.ackAdv + 20000 ≤ u.time ∧ x.replayN < 7 ∧ x.lastRx + 100000 ≤ u.time ∧ x.rxUid = none) := by
  unfold Claims.Calm
  decide +kernel
end LinkBlocksMove3

namespace FramesAreForwarded1
def p : Port := 63
def f : Frame := { frame with kind := 1, cls := 1, dstModule := 0x1FF, dstPort := 62, plen := 4, ttl := 0 }
def l : Lookup := ⟨5, f, 2, true, false, []⟩
def s : State := { (onPort63 { PortState.reset with role := 1, phase := .active, lookups := [l], rxLanes := 0x3F }).setPort 62 { PortState.reset with role := 1, phase := .active } with fab := { Fabric.reset with module := 0x1FF } }
def u := s.advanceTo 42
def x := u.port p
theorem witness_FramesAreForwarded_1 :
    (s.quiet = true ∧ s.hasPort p = true ∧ x.lookups = [l] ∧ l.looked = false ∧ l.since + 40 ≤ u.time ∧ x.role ≠ 6 ∧ l.f.mc = false) ∧
    (l.f.dstModule = u.fab.module ∧ l.f.dstPort = 62 ∧ u.hasPort 62 = true ∧ (u.port 62).role = 1 ∧ (u.job l.f.job).proofRole ≠ 2 ∧ l.f.cls.toNat < 2 ∧ l.f.kind ≠ 4) := by
  decide +kernel
end FramesAreForwarded1

namespace FramesAreForwarded2
def p : Port := 63
def f : Frame := { frame with kind := 4, cls := 1, dstModule := 0x1FF, dstPort := 62, plen := 0, payload := [], inc := 0xFFF0, counter := 0x1234 }
def l : Lookup := ⟨5, f, 2, true, false, []⟩
def y : Queued := ⟨4, { f with inc := 0xF, srcRank := 9 }, 1, false, none, true, false, none, false, 8, false⟩
def s : State := { (onPort63 { PortState.reset with role := 1, phase := .active, lookups := [l], rxLanes := 0x3F }).setPort 62 { PortState.reset with role := 1, phase := .active, egress := { Egress.reset with queues := [(1, [y])] } } with fab := { Fabric.reset with module := 0x1FF } }
def u := s.advanceTo 42
def x := u.port p
set_option synthInstance.maxSize 4000 in
theorem witness_FramesAreForwarded_2 :
    ((s.quiet = true ∧ s.hasPort p = true ∧ x.lookups = [l] ∧ l.looked = false ∧ l.since + 40 ≤ u.time ∧ x.role ≠ 6 ∧ l.f.mc = false ∧ l.f.dstModule = u.fab.module) ∧
    ((l.f.dstPort = 62 ∧ u.hasPort 62 = true ∧ (u.port 62).role = 1 ∧ (u.job l.f.job).proofRole ≠ 2) ∧
    (l.f.kind = 4 ∧ l.f.cls = 1 ∧ l.whole = true ∧ l.f.inc ≠ 0 ∧ l.f.announced = 0))) ∧
    (((y.f.announced = 0 ∧ l.f.echo = false ∧ l.f.payload = [] ∧ (u.port 62).egress.queue 1 = [y]) ∧
    (y.uid ≠ l.uid ∧ y.f.kind = 4 ∧ y.f.cls = 1 ∧ y.f.mc = false ∧ y.f.echo = false)) ∧
    ((y.f.payload = [] ∧ y.whole = true ∧ y.again = false ∧ y.f.inc ≠ 0) ∧
    (y.f.job = l.f.job ∧ y.f.dstModule = l.f.dstModule ∧ y.f.dstPort = l.f.dstPort ∧ y.f.counter = l.f.counter ∧ y.f.inc.toNat + l.f.inc.toNat < 65536))) := by
  decide +kernel
end FramesAreForwarded2

namespace FramesAreForwarded3
def p : Port := 63
def f : Frame := { frame with kind := 9, cls := 4, dstModule := 0, dstPort := 0x3F, plen := 13 }
def l : Lookup := ⟨5, f, 2, true, false, []⟩
def s : State := onPort63 { PortState.reset with role := 1, phase := .active, lookups := [l], rxBase := 5, rxLanes := 0x3F }
def u := s.advanceTo 42
def x := u.port p
theorem witness_FramesAreForwarded_3 :
    (s.quiet = true ∧ s.hasPort p = true ∧ x.lookups = [l] ∧ l.looked = false ∧ l.since + 40 ≤ u.time ∧ x.role ≠ 6) ∧
    (l.f.mc = false ∧ l.f.dstModule = u.fab.module ∧ l.f.dstPort = 0x3F ∧ l.f.kind = 9 ∧ l.f.cls = 4 ∧ l.whole = true) := by
  decide +kernel
end FramesAreForwarded3

namespace FramesAreForwarded4
def p : Port := 63
def f : Frame := { frame with kind := 2, cls := 3, plen := 4, counter := 0xFFFF }
def y : Queued := ⟨9, f, 3, false, some p, true, false, none, false, 8, false⟩
def s : State := { onPort63 { PortState.reset with role := 1, phase := .active, rxBase := 5 } with fab := { Fabric.reset with inbox := [(.die 3, y)] } }
def u := s.advanceTo 42
def x := u.port p
theorem witness_FramesAreForwarded_4 :
    s.quiet = true ∧ s.hasPort p = true ∧ u.fab.inbox = [(.die y.f.counter.die, y)] ∧ y.ingress = some p ∧ y.f.inc = 0 ∧ x.rxUid ≠ some y.uid ∧ x.rxBase ≤ y.uid ∧ ({ u with fab := { u.fab with inbox := [] } } : State).stands y.uid = false := by
  decide +kernel
end FramesAreForwarded4

namespace FramesAreForwarded5
def p : Port := 63
def f : Frame := { frame with kind := 1, cls := 0, dstModule := 0, dstPort := 63, plen := 1, payload := List.replicate 32 7 }
def q : Queued := ⟨5, f, 2, false, none, true, false, none, false, 8, false⟩
def s : State := onPort63 { PortState.reset with role := 1, phase := .active, txLanes := 0xFF, rxUsable := 0xFF, credits := [(0, 3)], txUnits := List.replicate 18 ⟨List.replicate 32 1, false, none⟩, egress := { Egress.reset with queues := [(0, [q, q])] } }
def u := s.advanceTo 42
def x := u.port p
theorem witness_FramesAreForwarded_5 :
    (s.quiet = true ∧ s.hasPort p = true ∧ x.phase = .active ∧ x.egress.sending = none ∧ x.txUnits.length < 19 ∧ x.egress.queue 0 = q :: [q]) ∧
    ((∀ c ∈ ([1, 2, 3, 4] : List Nat), x.egress.queue c = []) ∧ q.f.cls = 0 ∧ q.f.mc = false ∧ q.ingress = none ∧ q.whole = true ∧ u.eligible p 0 q = true ∧ 1000 * ((q.f.plen.toNat + 2) * 32) ≤ min 12288000 (x.egress.b0 + (125000 * weightOf x.egress.weights 0 * (u.time - x.egress.b0Filled) + x.egress.b0Rem) / max 1 (weightSum x.egress.weights))) := by
  decide +kernel
end FramesAreForwarded5

namespace FramesAreForwarded6
def p : Port := 63
def f : Frame := { frame with kind := 1, cls := 0, dstModule := 0, dstPort := 63, plen := 1, payload := List.replicate 32 7 }
def q : Queued := ⟨5, f, 2, false, some 62, false, false, none, false, 8, false⟩
def s : State := (onPort63 { PortState.reset with role := 1, phase := .active, txLanes := 0xFF, rxUsable := 0xFF, stompTx := 0xFFFFFFFF, egress := { Egress.reset with sending := some q, queues := [(0, [q])] } }).setPort 62 { PortState.reset with role := 1, phase := .active, retrySince := some 3 }
def u := s.advanceTo 42
def x := u.port p
theorem witness_FramesAreForwarded_6 :
    s.quiet = true ∧ s.hasPort p = true ∧ x.egress.sending = some q ∧ q.ingress = some 62 ∧ (u.port 62).retrySince.isSome = true ∧ x.txUnits.length < 19 := by
  decide +kernel
end FramesAreForwarded6

namespace FramesAreForwarded7
def q : Queued := ⟨5, { frame with kind := 2, ident := 9 }, 2, false, none, true, false, none, false, 8, false⟩
def s : State := { State.reset with fab := { Fabric.reset with heldStream := [q] } }
def u := s.advanceTo 100002
theorem witness_FramesAreForwarded_7 :
    ({ s with fab := { s.fab with heldStream := [] } } : State).quiet = true ∧ u.fab.heldStream = [q] ∧ q.f.job = 7 ∧ q.f.ident = 9 ∧ q.born + 100000 ≤ u.time ∧ q.ingress = none := by
  decide +kernel
end FramesAreForwarded7

namespace CongestionIsAnswered1
def e0 : EcnRate := { EcnRate.reset with rate := 1500, reduced := 1000 }
def e1 : EcnRate := { EcnRate.reset with rate := 124000, lastEcho := 9000, raised := 9000, reduced := 9000 }
def k := 7 * 4096 + 4095
def s : State := { State.reset with fab := { Fabric.reset with ecn := [(k, e0)] } }
def s1 : State := { State.reset with fab := { Fabric.reset with ecn := [(k, e1)] } }
theorem witness_CongestionIsAnswered_1 :
    s.quiet = true ∧ s1.quiet = true ∧ e0.reduced + 8000 ≤ (s.advanceTo 9000).time ∧ e1.reduced ≠ 0 ∧ (s1.advanceTo 16999).time < e1.reduced + 8000 ∧ e1.lastEcho + 1000000 ≤ (s1.advanceTo 1009000).time ∧ (s1.advanceTo 29000).time < e1.lastEcho + 1000000 ∧ e1.raised + 20000 ≤ (s1.advanceTo 29000).time := by
  decide +kernel
end CongestionIsAnswered1

namespace CongestionIsAnswered2
def p : Port := 63
def q : Queued := ⟨5, { frame with kind := 1, cls := 2, plen := 255 }, 2, false, none, true, false, none, false, 8, false⟩
def s : State := onPort63 { PortState.reset with role := 1, egress := { Egress.reset with period := 0, queues := [(2, [q])], qs := [(2, ⟨1, 2, 3, 4, 5⟩)] } }
def u := s.advanceTo 256
theorem witness_CongestionIsAnswered_2 :
    s.quiet = true ∧ s.hasPort p = true ∧ u.time % (256 * max 1 (u.port p).egress.period.toNat) = 0 ∧ (s.advanceTo 257).time % (256 * max 1 (u.port p).egress.period.toNat) ≠ 0 := by
  decide +kernel
end CongestionIsAnswered2

namespace CongestionIsAnswered3
def s : State := { onPort63 { PortState.reset with role := 2, retryBuf := [⟨3, []⟩] } with fab := { Fabric.reset with st := .draining } }
def s0 : State := { State.reset with fab := { Fabric.reset with st := .draining } }
def u := s.advanceTo 10000000
theorem witness_CongestionIsAnswered_3 :
    s.quiet = true ∧ s0.quiet = true ∧ u.fab.st = .draining ∧ u.fab.drainTold = false ∧ u.fab.drainAt + 10000000 ≤ u.time ∧ (∀ p ∈ allPorts, 2 ≤ (s0.port p).role.toNat → (∀ c ∈ List.range 5, (s0.port p).egress.queue c = []) ∧ (s0.port p).egress.sending = none ∧ (s0.port p).txUnits = [] ∧ (s0.port p).retryBuf = []) ∧ (∀ p ∈ allPorts, (s0.port p).lookups = []) := by
  decide +kernel
end CongestionIsAnswered3

namespace RegistersReadBack1
def s : State := { State.reset with dies := [(3, { DieState.reset with done := 0xFFFF, mbx := [(15, { Mailbox.reset with status := 9 })] })] }
theorem witness_RegistersReadBack_1 :
    s.quiet = true ∧ s.hasPort 63 = true ∧ (Table.get Mailbox.reset 15 (s.die 3).mbx).status ≠ Code.busy ∧ (s.die 3).inReset = false := by
  decide +kernel
end RegistersReadBack1

namespace RegistersReadBack2
def s : State := { State.reset with fuse := { State.reset.fuse with portOff := 1 <<< 63 } }
theorem witness_RegistersReadBack_2 :
    s.quiet = true ∧ s.hasPort 63 = false := by
  decide +kernel
end RegistersReadBack2

namespace RequestsAreServed1
def d : Die := 3
def pl : Plate := { plate with ranks := [⟨2, 0, 0⟩, ⟨2, 3, 0⟩] }
def w : Window := ⟨0xFFF, 7, true, true, false, 2 ^ 62 + 0x1000, 256⟩
def wc : Window := { w with combine := true }
def rd : Frame := { frame with kind := 6, cls := 2, srcRank := 1, offset := 128, detail := 0x1FFF }
def wr : Frame := { rd with detail := 0x2FFF, plen := 4, payload := List.replicate 128 5 }
def st := fun (w : List Window) (f : Frame) => ({ withJob (running pl) with windows := w, mem := [(2 ^ 62 + 0x1080, 9)], fab := { Fabric.reset with inbox := [(.mem 3, queued f)] } } : State)
def coded : State := { st [w] wr with jobs := [(7, { running { pl with images := [⟨0x10, 255, 2 ^ 62 + 0x10FF, [1]⟩] } with no := 7 })] }
def held1 : State := { st [w] rd with fab := { Fabric.reset with inbox := [(.mem 3, queued { rd with ident := 9 }), (.mem 3, queued rd)] } }
def sg : Frame := { wr with sig := true, sigDie := 2, inc := 1, transfer := 0xFFFF }
def held2 : State := { st [w] sg with dies := [(2, { DieState.reset with pst := (List.range 2048).map fun i => ⟨8, 0, BitVec.ofNat 16 i, 0, none, 0⟩ })] }
set_option synthInstance.maxSize 4000 in
theorem witness_RequestsAreServed_1 :
    (((∀ x ∈ [(w, rd), (wc, rd), (w, wr)], (st [x.1] x.2).quiet = true ∧ (st [x.1] x.2).behind (.mem d) x.2 = false ∧ (st [x.1] x.2).pstHolds x.2 = false ∧ (st [x.1] x.2).memNoRanks x.2.job = false ∧ (st [x.1] x.2).weakWords = [] ∧ ((st [x.1] x.2).job x.2.job).proofRole = 0 ∧ (st [x.1] x.2).rankEntry x.2.job x.2.srcRank.toNat = some ⟨2, 3, 0⟩ ∧
     (st [x.1] x.2).window (memWindow x.2) = some x.1 ∧ x.1.job = x.2.job ∧ x.2.offset.toNat + 128 ≤ x.1.size ∧ x.2.offset.toNat % 128 = 0 ∧ x.2.fmt = 0) ∧ rd.detail.toNat / 2 ^ 12 % 16 = 1 ∧ rd.plen = 0 ∧ rd.inc = 0 ∧ wr.detail.toNat / 2 ^ 12 % 16 = 2 ∧ wr.plen = 4 ∧ w.rd = true) ∧
    (w.combine = false ∧ wc.combine = true ∧ ((st [wc] rd).die d).combines = [] ∧ w.wr = true ∧ ((st [w] wr).job 7).st ≠ .stopped ∧ (st [w] wr).pair.st ≠ .fenced ∧ wr.payload.length = 128 ∧ (st [w] wr).inCode (2 ^ 62 + 0x1080) 128 = false)) ∧
    ((((st [w] wr).die d).combines = [] ∧ (st [] rd).pstHolds rd = false ∧ (st [] wr).pstHolds wr = false ∧ coded.quiet = true ∧ coded.behind (.mem d) wr = false ∧ coded.pstHolds wr = false ∧ coded.memNoRanks 7 = false ∧ (coded.job 7).proofRole = 0) ∧
    (coded.rankEntry 7 1 = some ⟨2, 3, 0⟩ ∧ coded.window 0xFFF = some w ∧ wr.sig = false ∧ coded.inCode (2 ^ 62 + 0x1080) 128 = true ∧ held1.quiet = true ∧ held1.behind (.mem d) rd = true ∧ held2.quiet = true ∧ held2.pstHolds sg = true)) := by
  decide +kernel
end RequestsAreServed1

namespace RequestsAreServed2
def d : Die := 3
def pl : Plate := { plate with ranks := [⟨2, 0, 0⟩, ⟨2, 3, 0⟩] }
def w : Window := ⟨0xFFF, 7, true, true, true, 2 ^ 62 + 0x1000, 256⟩
def rd : Frame := { frame with kind := 6, cls := 2, srcRank := 1, offset := 128, detail := 0x1FFF, ident := 4 }
def c : Combine := ⟨7, 0xFFF, 128, [rd, { rd with ident := 5 }], 75⟩
def s : State := { withJob (running pl) with windows := [w], mem := [(2 ^ 62 + 0x1080, 9)], dies := [(3, { DieState.reset with combines := [c] })] }
def u := s.advanceTo 75
theorem witness_RequestsAreServed_2 :
    (s.quiet = true ∧ u.window 0xFFF = some w ∧ (u.die d).combines = [c] ∧ c.job = w.job ∧ c.window = w.number) ∧
    (c.offset = 128 ∧ c.closes ≤ u.time ∧ u.armed = [] ∧ u.badWords = [] ∧ u.weakWords = [] ∧ (∀ r ∈ c.readers, (u.job r.job).proofRole = 0 ∧ (u.rankEntry r.job r.srcRank.toNat).isSome = true)) := by
  decide +kernel
end RequestsAreServed2

namespace RequestsAreServed3
def d : Die := 3
def m := msg 7 7 [] []
def x : RemoteOut := ⟨0xC0000001, false, 16, m, 0x0066, 5⟩
def f : Frame := { frame with kind := 7, ident := 0xC0000001, payload := List.replicate 128 5 }
def s : State := { State.reset with dies := [(3, { DieState.reset with remote := [x] })], fab := { Fabric.reset with inbox := [(.die 3, queued f)] } }
def u := s.advanceTo 1000005
def y : RemoteOut := { x with mbx := 15 }
def s2 : State := { s with dies := [(3, { DieState.reset with remote := [y], busy := 0xC000, done := 1, mbx := [(15, { Mailbox.reset with owned := true, status := Code.busy, res := [(31, 4)] })] })] }
def u2 := s2.advanceTo 1000005
set_option synthInstance.maxSize 4000 in
theorem witness_RequestsAreServed_3 :
    (s2.quiet = true ∧ (u2.die d).remote = [y] ∧ (u2.die d).going = [] ∧ y.mbx < 16 ∧ u2.behind (.die d) f = false ∧ Msg.die m = d ∧ s.quiet = true) ∧
    ((u.die d).remote = [x] ∧ (u.die d).going = [] ∧ x.mbx = 16 ∧ x.msg.path = .internal ∧ actsOnDies x.code = false ∧ u.behind (.die d) f = false ∧ f.ident = x.tag ∧ x.sent + 1000000 ≤ u.time) := by
  decide +kernel
end RequestsAreServed3

namespace RefreshSlotsScrub1
def stack : BitVec 5 := 31
def st := fun (w : Nat) (h : Bool) => ({ State.reset with time := 9000, dies := [(3, { DieState.reset with stk := [(7, { Stack.reset with scrubNext := [(255, 17)], uncorrectable := 0xFFFFFFFF, hot := h, slotLast := [(255, 6001), (254, w)] })] })] } : State)
def s := st 8758 false
def now := 9900
def u := s.advanceTo now
def k := stack.toNat
def key := 255
def line := Table.get 0 key (u.stack k).scrubNext
def o := dramOffset 15 (line / 16 * 32768 + 15 * 2048 + line % 16 * 128)
def a := 2 ^ 62 + k * 2 ^ 37 + o
def row := ((dramMap o).1 * 16 + (dramMap o).2.1) * 262144 + (dramMap o).2.2.1
def spent := fun (u : State) (n gap : Nat) => decide (Table.get 0 n (u.stack k).slotLast = 0 ∨ Table.get 0 n (u.stack k).slotLast - 1 + gap ≤ u.time)
def due := fun (u : State) => let gap := if (u.stack k).hot then 1950 else 3900; spent u key gap && (List.range 16).all fun b => spent u (240 + b) (gap / 16)
set_option synthInstance.maxSize 4000 in
theorem witness_RefreshSlotsScrub_1 :
    (s.quiet = true ∧ due u = true ∧ due (s.advanceTo 9899) = false ∧ due ((st 9002 true).advanceTo 9121) = false ∧ due ((st 9002 true).advanceTo 9122) = true ∧ line + 1 < bankLines 15 ∧ (u.stack k).passes.length < 256) ∧
    (a + 64 ∉ u.badWords ∧ a + 64 ∉ u.weakWords ∧ a ∉ u.badWords ∧ a ∉ u.weakWords ∧ Table.get 0 row (u.stack k).rowCounts + 1 < 16 ∧ Claims.Calm u ∧ line = 17) := by
  unfold Claims.Calm
  decide +kernel
end RefreshSlotsScrub1

namespace SignaturesAreCompared1
def d : Die := 3
def s := clock 0
def u := s.advanceTo 9
def x := u.die d
theorem witness_SignaturesAreCompared_1 :
    s.quiet = true ∧ x.sigPartner = [] := by
  decide +kernel
end SignaturesAreCompared1

namespace SignaturesAreCompared2
def d : Die := 3
def e := sigEntry 1
def o : SigHeld := ⟨e, 7, 0, true, false⟩
def s : State := { withJob { running plate with cleanCmp := 0xFFFFFFFF, proofRole := 2 } with dies := [(3, { DieState.reset with sigOwn := [o] })] }
def u := s.advanceTo 9
def x := u.die d
def j := u.job o.job
set_option synthInstance.maxSize 4000 in
theorem witness_SignaturesAreCompared_2 :
    (((s.setDie d { s.die d with sigOwn := [] }) : State).quiet = true ∧ x.sigOwn = [o] ∧ o.sent = true ∧ x.sigPartner = [] ∧ o.e.key = e.key) ∧
    (o.e.object = e.object ∧ o.e.crc = e.crc ∧ o.e.bytes = e.bytes ∧ Claims.Rising u ∧ o.job ≠ 0 ∧ j.no = o.job) := by
  unfold Claims.Rising
  decide +kernel
end SignaturesAreCompared2

namespace SignaturesAreCompared3
def d : Die := 3
def e := sigEntry 1
def k := { sigEntry 3 with key := ⟨1, 0xFF, 5, 6, 8⟩ }
def o : SigHeld := ⟨sigEntry 2, 7, 0, true, true⟩
def s : State := { withJob { running plate with cleanCmp := 0xFFFFFFFF, proofRole := 2 } with dies := [(3, { DieState.reset with sigOwn := [o] })], fab := mapped }
def u := s.advanceTo 10000000
def x := u.die d
set_option synthInstance.maxSize 4000 in
theorem witness_SignaturesAreCompared_3 :
    (((s.setDie d { s.die d with sigOwn := [] }) : State).quiet = true ∧ x.sigOwn = [o] ∧ o.sent = true ∧ x.sigPartner = [] ∧ o.e.key = e.key ∧ ¬ (o.e.object = e.object ∧ o.e.crc = e.crc ∧ o.e.bytes = e.bytes)) ∧
    (u.partner = some 1 ∧ Claims.Alone o.job u ∧ o.e.key ≠ k.key ∧ o.time + 10000000 ≤ u.time ∧ (s.advanceTo 9999999).time < o.time + 10000000 ∧ (u.job o.job).proofRole ≠ 0 ∧ (∀ q, q ≠ d → (u.die q).sigOwn = [])) := by
  unfold Claims.Alone Claims.Rising
  decide +kernel
end SignaturesAreCompared3

namespace SignaturesAreCompared4
def s : State := withJob { running plate with proofRole := 1, cleanCmp := 0xFFFFFFFF }
def u := s.advanceTo 9
set_option synthInstance.maxSize 4000 in
theorem witness_SignaturesAreCompared_4 :
    s.quiet = true ∧ (u.job 7).proofRole ≠ 0 ∧ (∀ q, (u.die q).sigOwn = []) ∧ Claims.Alone 7 u := by
  unfold Claims.Alone Claims.Rising
  decide +kernel
end SignaturesAreCompared4

namespace SignaturesAreCompared5
def p : Port := 63
def f : Frame := { frame with kind := 4, cls := 1, job := 7, counter := 0xFFFF }
def s : State := { withJob (running plate) with fab := { Fabric.reset with inbox := [(.pair, queued f)] } }
def s2 : State := { withJob { running plate with proofRole := 2 } with fab := { Fabric.reset with inbox := [(.pair, queued f)] } }
def u := s.advanceTo 9
def u2 := s2.advanceTo 9
def b2 := u2.unbox .pair f
theorem witness_SignaturesAreCompared_5 :
    (s.quiet = true ∧ s2.quiet = true ∧ (u.job 7).proofRole = 0 ∧ s.hasPort p = true ∧ s2.hasPort p = true ∧ u.behind .pair f = false) ∧
    (u2.behind .pair f = false ∧ (u.job f.job).proofRole ≠ 2 ∧ (u2.job f.job).proofRole = 2 ∧ f.kind = 4 ∧ f.cls = 1 ∧ f.ecn = false ∧ (∀ y ∈ b2.fab.inbox, y.1 ≠ .die f.counter.die)) := by
  decide +kernel
end SignaturesAreCompared5

namespace MirroredUpdatesReachThePartner1
def f : Frame := { frame with kind := 8, job := 7, detail := 0xFFFFFFFF00000005, offset := 64, payload := List.replicate 32 3 }
def s : State := { withJob (running plate) with pair := { Pair.reset with st := .fenced }, fab := { Fabric.reset with inbox := [(.pair, queued f)] } }
def u := s.advanceTo 9
theorem witness_MirroredUpdatesReachThePartner_1 :
    ({ s with pair := { s.pair with seals := [] } } : State).quiet = true ∧ s.badWords = [] ∧ s.weakWords = [] ∧ s.armed = [] ∧ u.behind .pair f = false ∧ u.pair.st = .fenced ∧ u.pair.restoring = false ∧ u.pair.resyncLeft = [] := by
  decide +kernel
end MirroredUpdatesReachThePartner1

namespace MirroredUpdatesReachThePartner2
def f : Frame := { frame with kind := 8, job := 7, detail := 0xFFFFFFFF00000005, offset := 64, payload := List.replicate 32 3 }
def h : HoldRange := ⟨7, 5, 2 ^ 62 + 0x1000, 1048576, 8, [(0xFFFFFFFF, 96, List.replicate 32 6)], [2 ^ 62 + 1048576]⟩
def s : State := { withJob (running plate) with pair := { Pair.reset with st := .recovering, holds := [h] }, fab := { mapped with inbox := [(.pair, queued f)] } }
def u := s.advanceTo 9
theorem witness_MirroredUpdatesReachThePartner_2 :
    (({ s with pair := { s.pair with seals := [] } } : State).quiet = true ∧ s.badWords = [] ∧ s.weakWords = [] ∧ s.armed = [] ∧ u.behind .pair f = false ∧ u.pair.st ≠ .fenced) ∧
    (u.pair.seals = [] ∧ u.partner = some 1 ∧ u.pair.holds = [h] ∧ h.job = f.job ∧ h.shard = f.detail.setWidth 32 ∧ (h.staged.map fun e => e.2.2.length).sum + f.payload.length ≤ 1048576 * h.grans.length ∧ h.staged = [((f.detail >>> 32).setWidth 32, 96, List.replicate 32 6)]) := by
  decide +kernel
end MirroredUpdatesReachThePartner2

namespace MirroredUpdatesReachThePartner3
def f : Frame := { frame with kind := 8, job := 7, detail := 0xFFFFFFFF00000005 }
def m : MirrorEntry := ⟨true, 7, 5, 2 ^ 62 + 0x1000, 96, 0xFFFF⟩
def p := { plate with mirror := [m] }
def s : State := { withJob { Job.reset with no := 7, st := .loaded, plate := some p } with fab := { mapped with inbox := [(.pair, queued f)] } }
def u := s.advanceTo 9
theorem witness_MirroredUpdatesReachThePartner_3 :
    (({ s with pair := { s.pair with seals := [] } } : State).quiet = true ∧ s.badWords = [] ∧ s.weakWords = [] ∧ s.armed = [] ∧ u.behind .pair f = false ∧ u.pair.st ≠ .fenced) ∧
    (u.pair.seals = [] ∧ u.partner = some 1 ∧ u.pair.holds = [] ∧ (u.job f.job).plate = some p ∧ p.mirrorOf (f.detail.setWidth 32) = some m ∧ m.hold = true) := by
  decide +kernel
end MirroredUpdatesReachThePartner3

namespace MirroredUpdatesReachThePartner4
def f : Frame := { frame with kind := 8, job := 7, detail := 0xFFFFFFFF00000005, offset := 64, payload := List.replicate 32 3 }
def m : MirrorEntry := ⟨true, 7, 5, 2 ^ 62 + 0x1000, 96, 0xFFFF⟩
def p := { plate with mirror := [m] }
def s : State := { withJob (running p) with pair := { Pair.reset with st := .paired }, fab := { mapped with inbox := [(.pair, queued f)] } }
def u := s.advanceTo 9
theorem witness_MirroredUpdatesReachThePartner_4 :
    (({ s with pair := { s.pair with seals := [] } } : State).quiet = true ∧ s.badWords = [] ∧ s.weakWords = [] ∧ s.armed = [] ∧ u.behind .pair f = false) ∧
    (u.pair.st ≠ .fenced ∧ u.pair.seals = [] ∧ (u.job f.job).plate = some p ∧ p.mirrorOf (f.detail.setWidth 32) = some m ∧ f.offset.toNat + f.payload.length ≤ m.length ∧ m.hold = true) := by
  decide +kernel
end MirroredUpdatesReachThePartner4

namespace MirroredUpdatesReachThePartner5
def f : Frame := { frame with kind := 8, job := 7, detail := 0xFFFFFFFF00000005 }
def m : MirrorEntry := ⟨false, 7, 5, 2 ^ 62 + 0x1000, 96, 0xFFFF⟩
def p := { plate with mirror := [m] }
def s : State := ({ withJob (running p) with pair := { Pair.reset with st := .paired, seals := [⟨7, 5, 0xFFFFFFFF⟩] }, fab := { mapped with inbox := [(.pair, queued f)] } } : State).modCounter 0xFFFF fun _ => { Counter.reset with job := 7, value := 0xFFFFFFFE }
def u := s.advanceTo 9
set_option synthInstance.maxSize 4000 in
theorem witness_MirroredUpdatesReachThePartner_5 :
    (({ s with pair := { s.pair with seals := [] } } : State).quiet = true ∧ s.badWords = [] ∧ s.weakWords = [] ∧ s.armed = []) ∧
    (u.behind .pair f = false ∧ u.pair.st = .paired ∧ u.pair.seals = [⟨f.job, f.detail.setWidth 32, (f.detail >>> 32).setWidth 32⟩] ∧ u.mirrorSource f.job (f.detail.setWidth 32) = some m ∧ Claims.Takes m.sealed f.job 1 u) := by
  unfold Claims.Takes
  decide +kernel
end MirroredUpdatesReachThePartner5

namespace MirroredUpdatesReachThePartner6
def f : Frame := { frame with kind := 8, job := 7, detail := 0xFFFFFFFF00000005 }
def s : State := { withJob (running plate) with pair := { Pair.reset with st := .resync, resyncLeft := [5] }, fab := { mapped with inbox := [(.pair, queued f)] } }
def u := s.advanceTo 9
theorem witness_MirroredUpdatesReachThePartner_6 :
    (({ s with pair := { s.pair with seals := [] } } : State).quiet = true ∧ s.badWords = [] ∧ s.weakWords = [] ∧ s.armed = []) ∧
    (u.behind .pair f = false ∧ u.pair.st = .resync ∧ u.pair.seals = [] ∧ u.pair.shadows = [] ∧ u.pair.resyncLeft = [f.detail.setWidth 32]) := by
  decide +kernel
end MirroredUpdatesReachThePartner6

namespace MirroredUpdatesReachThePartner7
def f : Frame := { frame with kind := 8, job := 7, detail := 5, offset := 4096 }
def m : MoveOut := ⟨2 ^ 62, 2 ^ 62 + 0x1000, 32, 0xFFFF, 255, ⟨7, 0, 0, 0, 0⟩, 1, true, 5, true, [4096]⟩
def st := fun (m : MoveOut) => (({ withJob (running plate) with clusters := [(255, { Cluster.reset with moves := [m] })], pair := { Pair.reset with st := .paired }, fab := { mapped with inbox := [(.pair, queued f)] } } : State).modCounter 0xFFFF fun _ => { Counter.reset with job := 7, value := 0xFFFFFF00 })
def s := st m
def m2 := { m with acksDue := [4096, 8192] }
def u := s.advanceTo 9
def s2 := st m2
def u2 := s2.advanceTo 9
set_option synthInstance.maxSize 4000 in
theorem witness_MirroredUpdatesReachThePartner_7 :
    ((({ s with pair := { s.pair with seals := [] } } : State).quiet = true ∧ s.badWords = [] ∧ s.weakWords = [] ∧ s.armed = [] ∧ u.behind .pair f = false ∧ u.pair.st = .paired ∧ u.pair.seals = []) ∧
    ((u.clu 255).moves = [m] ∧ (∀ q, q ≠ 255 → (u.clu q).moves = []) ∧ Table.wf Cluster.reset u.clusters = true ∧ (∀ e ∈ u.clusters, e.1 < 256) ∧ m.mirrored = true ∧ m.copied = true ∧ m.impr.job = f.job)) ∧
    ((m.shard = f.detail.setWidth 32 ∧ m.acksDue = [f.offset.toNat] ∧ Claims.Takes m.counter f.job m.inc.toNat u ∧ ({ s2 with pair := { s2.pair with seals := [] } } : State).quiet = true ∧ u2.pair.st = .paired ∧ (u2.clu 255).moves = [m2] ∧ (∀ q, q ≠ 255 → (u2.clu q).moves = [])) ∧
    (Table.wf Cluster.reset u2.clusters = true ∧ (∀ e ∈ u2.clusters, e.1 < 256) ∧ m2.mirrored = true ∧ m2.copied = true ∧ m2.impr.job = f.job ∧ m2.shard = f.detail.setWidth 32 ∧ m2.acksDue = [f.offset.toNat, 8192])) := by
  unfold Claims.Takes
  decide +kernel
end MirroredUpdatesReachThePartner7

namespace PairStatesMove1
def f : Frame := { frame with kind := 8, detail := 0xFF }
def st := fun (x : Pair) (h : HbSt) => ({ State.reset with pair := x, margin := { Margin.reset with hbSt := h }, fab := { mapped with inbox := [(.pair, queued f)] } } : State)
def s := st { Pair.reset with suspect := true } .alive
def s2 := st { Pair.reset with st := .partnerLost, suspect := true, injNotice := true } .lost
def s3 := st { Pair.reset with suspect := true } .lost
def u := s.advanceTo 9
def u2 := s2.advanceTo 9
def u3 := s3.advanceTo 9
theorem witness_PairStatesMove_1 :
    (s.quiet = true ∧ s2.quiet = true ∧ s3.quiet = true ∧ u.behind .pair f = false ∧ u2.behind .pair f = false ∧ u3.behind .pair f = false) ∧
    (u.pair.st = .unpaired ∧ u.margin.hbSt = .alive ∧ u2.pair.st = .partnerLost ∧ (∀ e ∈ u2.clusters, ∀ m ∈ e.2.moves, m.mirrored = false) ∧ u3.pair.st ≠ .partnerLost ∧ (u3.pair.st ≠ .unpaired ∨ u3.margin.hbSt ≠ .alive)) := by
  decide +kernel
end PairStatesMove1

namespace PairStatesMove2
def f : Frame := { frame with kind := 8, detail := 0x66 }
def s : State := { State.reset with pair := { Pair.reset with st := .resync }, fab := { mapped with inbox := [(.pair, queued f)] } }
def u := s.advanceTo 1000000
def u2 := s.advanceTo 999999
theorem witness_PairStatesMove_2 :
    s.quiet = true ∧ u.behind .pair f = false ∧ u.partner = some 1 ∧ u.pair.helloAt + 1000000 ≤ u.time ∧ u2.time < u2.pair.helloAt + 1000000 := by
  decide +kernel
end PairStatesMove2

namespace PairStatesMove3
def s : State := { State.reset with time := 5, pair := { Pair.reset with st := .paired, hbLostAt := some 0 }, margin := { Margin.reset with hbSt := .lost } }
def s2 : State := { s with pair := { s.pair with recUnits := [3] } }
def u := s.advanceTo 10000000
def u2 := s2.advanceTo 10000000
set_option synthInstance.maxSize 4000 in
theorem witness_PairStatesMove_3 :
    (s.quiet = true ∧ s2.quiet = true ∧ u.pair.st = .paired ∧ u2.pair.st = .paired ∧ u.margin.hbSt = .lost ∧ u.pair.hbLostAt = some 0 ∧ 0 + 10000000 ≤ u.time ∧ u.pair.lastPair + 10000000 ≤ u.time) ∧
    (((∀ p : Port, (u.port p).role ≠ 6) ∧ (∀ e ∈ u.jobs, e.2.proofRole = 0) ∧ Claims.Calm u ∧ u2.margin.hbSt = .lost) ∧
    (u2.pair.hbLostAt = some 0 ∧ u2.pair.lastPair + 10000000 ≤ u2.time ∧ (∀ p : Port, (u2.port p).role ≠ 6) ∧ u2.pair.recovering = true ∧ u2.jobs = [])) := by
  unfold Claims.Calm
  decide +kernel
end PairStatesMove3

namespace PairStatesMove4
def s : State := { State.reset with pair := { Pair.reset with st := .recovering, hbLostAt := some 1 }, margin := { Margin.reset with hbSt := .lost } }
def s2 : State := { s with pair := { s.pair with hbLostAt := some 0, lastPair := 1 } }
def u := s.advanceTo 10000000
def u2 := s2.advanceTo 10000000
def s3 : State := { s with margin := Margin.reset, pair := { s.pair with lastPair := 1 } }
def u3 := s3.advanceTo 10000000
set_option synthInstance.maxSize 4000 in
theorem witness_PairStatesMove_4 :
    (s.quiet = true ∧ s2.quiet = true ∧ s3.quiet = true ∧ u.pair.st = .recovering ∧ u2.pair.st = .recovering ∧ u.pair.hbLostAt = some 1 ∧ ¬ (1 + 10000000 ≤ u.time) ∧ u.pair.lastPair + 10000000 ≤ u.time) ∧
    (((∀ p : Port, (u.port p).role ≠ 6) ∧ u.pair.suspect = false ∧ u2.margin.hbSt = .lost ∧ u2.pair.hbLostAt = some 0) ∧
    (0 + 10000000 ≤ u2.time ∧ ¬ (u2.pair.lastPair + 10000000 ≤ u2.time) ∧ u2.pair.suspect = false ∧ u3.margin.hbSt ≠ .lost ∧ ¬ (u3.pair.lastPair + 10000000 ≤ u3.time))) := by
  decide +kernel
end PairStatesMove4

namespace PairStatesMove5
def s : State := { State.reset with pair := { Pair.reset with st := .takeover } }
def s2 : State := onPort63 { PortState.reset with recovery := some 1, phase := .detect }
def s3 : State := { s2 with pair := { Pair.reset with st := .recovering, recUnits := [63] } }
def u := s.advanceTo 9
def u2 := s2.advanceTo 9
def u3 := s3.advanceTo 50000000
def u4 := s3.advanceTo 49999999
theorem witness_PairStatesMove_5 :
    (s.quiet = true ∧ s2.quiet = true ∧ s3.quiet = true ∧ u.pair.st = .takeover ∧ u.jobs = [] ∧ u.pair.shadows = []) ∧
    ((∀ e ∈ u.clusters, ∀ m ∈ e.2.moves, m.mirrored = false) ∧ u2.pair.st ≠ .takeover ∧ s3.hasPort 63 = true ∧ u3.pair.recUnits = [63] ∧ u3.pair.recoverAt + 50000000 ≤ u3.time ∧ u4.pair.recUnits = [63] ∧ u4.time < u4.pair.recoverAt + 50000000) := by
  decide +kernel
end PairStatesMove5

namespace PairStatesMove6
def e : Event := { (State.reset.event Code.failoverDone clsModule 0 0 0) with seq := 1 }
def ws : List Word := [0xFFFF, 0x01020304]
def s0 : State := { State.reset with hub := { Hub.reset with settings := [{ Settings.reset with fmAddr := some ws }, Settings.reset] } }
def s : State := { s0 with hub := { s0.hub with events := [e] } }
def u := s.advanceTo 9
def u1 := s0.advanceTo 100000000
def u2 := s0.advanceTo 99999999
theorem witness_PairStatesMove_6 :
    (s.quiet = true ∧ s0.quiet = true ∧ u.settings.fmAddr = some ws ∧ u1.settings.fmAddr = some ws ∧ u2.settings.fmAddr = some ws ∧ u.margin.hubOn = true) ∧
    (u.margin.hubHeld = false ∧ u.hub.recovery = false ∧ (u.hub.events.filter fun e => u.pair.pushedSeq < e.seq).take 3 ≠ [] ∧ u1.pair.lastPush + 100000000 ≤ u1.time ∧ (u2.hub.events.filter fun e => u2.pair.pushedSeq < e.seq).take 3 = [] ∧ u2.time < u2.pair.lastPush + 100000000) := by
  decide +kernel
end PairStatesMove6

namespace PairStatesMove7
def s : State := { onPort63 { PortState.reset with role := 6, phase := .disabled, down := true } with pair := { Pair.reset with injectLoss := some 9 } }
def u := s.advanceTo 9
def u2 := s.advanceTo 8
theorem witness_PairStatesMove_7 :
    s.quiet = true ∧ u.pair.injectLoss = some 9 ∧ 9 ≤ u.time ∧ u2.time < 9 := by
  decide +kernel
end PairStatesMove7

namespace SamplesAreJudged1
def m : Sample := ⟨6200, 10000, [900, 900, 900, 900], List.replicate 32 680, 879, 0, true⟩
def s : State := { State.reset with margin := { Margin.reset with power := .on, vset := [850, 950, 900, 900], powerCap := 100, pins := List.replicate 10 59000000, coolRun := 99, capUpWait := 9, hbEdges := 7 :: List.replicate 99 0, hbLost := 0xFFFFFFFF, capMax := [145, 90, 145, 145], ramps := [(2, 900)] } }
def s2 : State := { s with margin := { s.margin with running := false } }
def u := s.advanceTo 9
def u2 := s2.advanceTo 9
def edges : List Nat := (u.margin.hbEdges ++ [m.hbEdges]).drop (u.margin.hbEdges.length - 108)
def last := edges.reverse.take 100
set_option synthInstance.maxSize 4000 in
theorem witness_SamplesAreJudged_1 :
    (s.quiet = true ∧ s2.quiet = true ∧ u2.margin.running = false ∧ u.margin.running = true ∧ u.margin.power = .on) ∧
    (Claims.Inside m u ∧ u.jobs = [] ∧ last.length = 100 ∧ (∀ e ∈ last, e = 0) ∧ edges.length = 101) := by
  unfold Claims.Inside
  decide +kernel
end SamplesAreJudged1

namespace SamplesAreJudged2
def m : Sample := ⟨5000, 12000, [], List.replicate 32 680, 879, 21, true⟩
def s : State := { State.reset with margin := { Margin.reset with power := .on, vset := [0, 50, 50, 50], powerCap := 100, pins := List.replicate 10 60000000 } }
def u := s.advanceTo 9
set_option synthInstance.maxSize 4000 in
theorem witness_SamplesAreJudged_2 :
    s.quiet = true ∧ u.margin.running = true ∧ u.margin.power = .on ∧ Claims.Inside m u ∧ u.jobs = [] ∧ 20 < (((u.margin.hbEdges ++ [m.hbEdges]).drop (u.margin.hbEdges.length - 108)).reverse.take 10).foldl (· + ·) 0 := by
  unfold Claims.Inside
  decide +kernel
end SamplesAreJudged2

namespace SamplesAreJudged3
def m : Sample := ⟨5000, 16000, [], List.replicate 32 680, 879, 0, true⟩
def m2 : Sample := ⟨6201, 0, [], List.replicate 32 680, 879, 0, true⟩
def s : State := { withJob (running plate) with jobs := [(3, { Job.reset with no := 3, st := .loading }), (7, { running plate with no := 7 })], mem := [(5, 5)], clusters := [(255, { core with temp := 700 })], dies := [(3, { DieState.reset with busy := 1, mbx := [(0, { Mailbox.reset with owned := true })] })], margin := { Margin.reset with power := .on, downCause := 9 } }
def s3 : State := { s with margin := { Margin.reset with power := .tripped, tripOn := 3 } }
def u := s.advanceTo 9
def u3 := s3.advanceTo 9
set_option synthInstance.maxSize 4000 in
theorem witness_SamplesAreJudged_3 :
    (s.quiet = true ∧ s3.quiet = true ∧ u.margin.running = true ∧ u.margin.power ≠ .tripped ∧ 800 * 100000 ≤ m.vin * m.iin ∧ ¬ (800 * 100000 ≤ m2.vin * m2.iin)) ∧
    (6200 < m2.vin ∧ Claims.Rising u ∧ (u.job 7).st = .running ∧ u3.margin.running = true ∧ u3.margin.power = .tripped ∧ u3.margin.tripConds = [] ∧ u3.pair.st = .unpaired) := by
  unfold Claims.Rising
  decide +kernel
end SamplesAreJudged3

namespace SamplesAreJudged4
def m : Sample := ⟨4699, 10000, [], [], 0, 0, true⟩
def s : State := { State.reset with margin := { Margin.reset with power := .powering, lowRun := 9, pfRun := 98 } }
def u := s.advanceTo 9
theorem witness_SamplesAreJudged_4 :
    (s.quiet = true ∧ u.margin.running = true ∧ u.margin.power = .powering ∧ u.margin.pfRun < 99 ∧ m.vin * m.iin < 800 * 100000) ∧
    (m.vin < 4700 ∧ 9 ≤ u.margin.lowRun ∧ u.jobs = [] ∧ (∀ n ∈ u.margin.vcoreRun, n < 9) ∧ (∀ n ∈ u.margin.thermRun, n < 2) ∧ (∀ d : Die, (u.die d).going = [] ∧ (u.die d).remote = [])) := by
  decide +kernel
end SamplesAreJudged4

namespace SamplesAreJudged5
def s : State := { State.reset with margin := { Margin.reset with hbEdges := 1 :: List.replicate 100 0, hbSt := .alive } }
def s2 : State := { State.reset with margin := { Margin.reset with hbEdges := List.replicate 99 0, hbSt := .alive } }
def u := s.advanceTo 9
def u2 := s2.advanceTo 9
def s3 : State := { State.reset with margin := { Margin.reset with hbEdges := 1 :: List.replicate 99 0, hbSt := .alive } }
theorem witness_SamplesAreJudged_5 :
    (s3.quiet = true ∧ (∃ e ∈ s3.margin.hbEdges.reverse.take 100, e ≠ 0) ∧ s.quiet = true ∧ s2.quiet = true ∧ 100 ≤ u.margin.hbEdges.length) ∧
    ((∀ e ∈ u.margin.hbEdges.reverse.take 100, e = 0) ∧ u.margin.hbSt ≠ .lost ∧ u2.margin.hbEdges.length < 100 ∧ u.pair.st ≠ .paired ∧ u.pair.st ≠ .recovering) := by
  decide +kernel
end SamplesAreJudged5

namespace TimeUnitFollowsItsInputs1
def s : State := { State.reset with margin := { Margin.reset with ppsLast := some 1, ppsRun := 2, ptpHere := true, ppsTold := some 1, ppsAccept := 0xFFFFFFFF, ppsReject := 0xFFFFFFFF } }
def u := s.advanceTo 999000001
def u2 := s.advanceTo 500000000
def s3 : State := { s with margin := { s.margin with ppsTold := none } }
def u3 := s3.advanceTo 500000000
def s4 : State := { State.reset with margin := { Margin.reset with startedAt := 5, timeSt := .free } }
def u4 := s4.advanceTo 1500000005
def u5 := s4.advanceTo 1500000004
set_option synthInstance.maxSize 4000 in
theorem witness_TimeUnitFollowsItsInputs_1 :
    ((s.quiet = true ∧ s3.quiet = true ∧ u.margin.ppsLast = some 1 ∧ ¬ (u.time < 1 + 500000000)) ∧
    (u2.margin.ppsLast = some 1 ∧ u2.time < 1 + 500000000 ∧ u2.margin.ppsTold = some 1 ∧ u3.margin.ppsTold = none ∧ u3.margin.ppsLast = some 1)) ∧
    ((u3.time < 1 + 500000000 ∧ s4.quiet = true ∧ u4.margin.ppsGone = false ∧ u4.margin.ppsLast = none) ∧
    (u4.margin.ppsLast.getD u4.margin.startedAt + 1500000000 ≤ u4.time ∧ u4.margin.timeSt ≠ .holdover ∧ u4.margin.ptpHere = false ∧ u4.margin.lockedOnce = false ∧ u5.time < u5.margin.ppsLast.getD u5.margin.startedAt + 1500000000)) := by
  decide +kernel
end TimeUnitFollowsItsInputs1

namespace TimeUnitFollowsItsInputs2
def st := fun (h ptp once : Bool) (z : TimeSt) (n : Nat) => (({ State.reset with margin := { Margin.reset with ppsLast := some 1, ppsRun := 2, ppsHere := h, ptpHere := ptp, ptpLast := some 1, lockedOnce := once, timeSt := z } } : State).advanceTo n)
theorem witness_TimeUnitFollowsItsInputs_2 :
    (∀ h ∈ [true, false], ∀ ptp ∈ [true, false], ∀ once ∈ [true, false], ∀ z ∈ [TimeSt.free, .holdover], (st h ptp once z 0).quiet = true ∧ (st h ptp once z 0).margin.ppsGone = false) ∧ (st true true true .free 1500000001).margin.ppsLast = some 1 ∧ 1 + 1500000000 ≤ (st true true true .free 1500000001).time ∧ (st true true true .free 1500000000).time < 1 + 1500000000 ∧ 1 + 3000000000 ≤ (st true true true .free 3000000001).time ∧ (st true true true .free 3000000000).time < 1 + 3000000000 := by
  decide +kernel
end TimeUnitFollowsItsInputs2

namespace PowerSequencesRun1
def st := fun (x : Margin) => ({ withJob (running plate) with margin := x, mem := [(5, 5)], fab := { Fabric.reset with module := 0x1FF }, hub := { Hub.reset with rollMin := 7 } } : State)
def s := st { Margin.reset with power := .on, running := false, boots := 7, rstLow := true }
def u := s.advanceTo 9
def s2 := st { Margin.reset with power := .on }
theorem witness_PowerSequencesRun_1 :
    s.quiet = true ∧ u.margin.running = false ∧ s2.quiet = true ∧ s2.margin.running = true := by
  decide +kernel
end PowerSequencesRun1

namespace PowerSequencesRun2
def st := fun (x : Margin) => ({ withJob (running plate) with margin := x, mem := [(5, 5)], fab := { Fabric.reset with module := 0x1FF }, hub := { Hub.reset with rollMin := 7 } } : State)
def s := st { Margin.reset with power := .standby, hubOn := false, goodRun := 100, lockedOnce := true, timeSt := .locked, opStage := true }
def s2 := st { Margin.reset with power := .hubUp, hubHeld := true, goodRun := 99 }
def s3 := st { Margin.reset with power := .hubUp, hubHeld := true, goodRun := 100, timeSt := .locked }
def u := s.advanceTo 9
def u2 := s2.advanceTo 9
def u3 := s3.advanceTo 9
set_option synthInstance.maxSize 4000 in
theorem witness_PowerSequencesRun_2 :
    ((s.quiet = true ∧ s2.quiet = true ∧ s3.quiet = true ∧ u.margin.running = true) ∧
    (100 ≤ u.margin.goodRun ∧ u.margin.rstLow = false ∧ u.margin.rstVirtual = false ∧ u.margin.latch = false ∧ u.margin.power = .standby)) ∧
    ((u.margin.hubOn = false ∧ u2.margin.goodRun = 99 ∧ u3.margin.running = true ∧ 100 ≤ u3.margin.goodRun) ∧
    (u3.margin.rstLow = false ∧ u3.margin.rstVirtual = false ∧ u3.margin.latch = false ∧ u3.margin.power = .hubUp ∧ u3.margin.hubHeld = true)) := by
  decide +kernel
end PowerSequencesRun2

namespace PowerSequencesRun3
def st := fun (x : Margin) => ({ withJob (running plate) with margin := x, mem := [(5, 5)] } : State)
def s := st { Margin.reset with power := .hubUp, bootDone := true, opStage := true, downCause := Code.vinLow, goodRun := 100 }
def s2 := st { Margin.reset with power := .hubUp, bootDone := true, opStage := true, downCause := Code.vinLow, goodRun := 99 }
def s3 := st { s.margin with seqStep := 1 }
def s4 := st { s2.margin with seqStep := 1 }
def u := s.advanceTo 9
def u2 := s2.advanceTo 9
def u3 := s3.advanceTo 2000000
def u4 := s4.advanceTo 2000000
theorem witness_PowerSequencesRun_3 :
    (s3.quiet = true ∧ s4.quiet = true ∧ u.margin.seqStep ≠ 1 ∧ u3.time ≤ u3.margin.railAt + 2000000 ∧ u4.time ≤ u4.margin.railAt + 2000000 ∧ s.quiet = true ∧ s2.quiet = true) ∧
    (u.margin.power = .hubUp ∧ u.margin.hubOn = true ∧ u.margin.hubHeld = false ∧ u.margin.bootDone = true ∧ u.margin.opStage = true ∧ (u.margin.downCause = Code.vinLow → 100 ≤ u.margin.goodRun ∧ u.margin.rstLow = false ∧ u.margin.rstVirtual = false ∧ u.margin.latch = false) ∧ ¬ (u2.margin.downCause = Code.vinLow → 100 ≤ u2.margin.goodRun ∧ u2.margin.rstLow = false ∧ u2.margin.rstVirtual = false ∧ u2.margin.latch = false)) := by
  decide +kernel
end PowerSequencesRun3

namespace PowerSequencesRun4
def st := fun (n : Nat) => ({ withJob (running plate) with margin := { Margin.reset with seqStep := n, power := .powering, released := 3 }, mem := [(5, 5)] } : State)
def u := fun (n : Nat) (t : Nat) => (st n).advanceTo t
theorem witness_PowerSequencesRun_4 :
    (∀ n ∈ List.range 5, (st n).quiet = true ∧ ((st n).advanceTo 9).margin.seqStep = n ∧ (u n 1999999).time < (u n 1999999).margin.railAt + 2000000 ∧ (u n 2000000).margin.railAt + 2000000 ≤ (u n 2000000).time ∧ (u n 2000000).margin.power ≠ .tripped ∧ (u n 2000001).margin.railAt + 2000000 < (u n 2000001).time ∧ (u n 9).time ≤ (u n 9).margin.railAt + 2000000) := by
  decide +kernel
end PowerSequencesRun4

namespace PowerSequencesRun5
def held : DieState := { DieState.reset with inReset := true, held := true }
def st := fun (n : Nat) => ({ withJob (running plate) with margin := { Margin.reset with seqStep := 4, power := .powering, released := n }, mem := [(5, 5)], dies := [(0, held), (2, held), (3, held)] } : State)
def u := fun (n : Nat) (t : Nat) => (st n).advanceTo t
theorem witness_PowerSequencesRun_5 :
    (∀ d : Die, (st d.toNat).quiet = true ∧ ((st d.toNat).advanceTo 10000).margin.seqStep = 4 ∧ (u d.toNat 10000).margin.released = d.toNat ∧ (u d.toNat 10000).margin.railAt + 10000 ≤ (u d.toNat 10000).time) := by
  decide +kernel
end PowerSequencesRun5

namespace PowerSequencesRun6
def st := fun (x : Margin) => ({ withJob (running plate) with margin := x, mem := [(5, 5)], clusters := [(255, { core with temp := 700 })], fab := { Fabric.reset with module := 0x1FF }, hub := { Hub.reset with rollMin := 7 } } : State)
def s := st { Margin.reset with power := .poweringDown, downTo := .hubUp, dramOn := true, coreOn := true }
def s2 := st { Margin.reset with power := .poweringDown, downTo := .standby, dramOn := true, coreOn := true, opStage := true }
def s3 := st { Margin.reset with power := .on }
def u := s.advanceTo 9
def u2 := s2.advanceTo 9
def u3 := s3.advanceTo 9
theorem witness_PowerSequencesRun_6 :
    (s.quiet = true ∧ s2.quiet = true ∧ s3.quiet = true ∧ u.margin.power = .poweringDown) ∧
    (u.margin.downTo = .hubUp ∧ (∀ d : Die, (u.die d).going = [] ∧ (u.die d).remote = []) ∧ u2.margin.power = .poweringDown ∧ u2.margin.downTo = .standby ∧ u3.margin.power ≠ .poweringDown) := by
  decide +kernel
end PowerSequencesRun6

namespace PowerSequencesRun7
def d : Die := 3
def s : State := { State.reset with margin := { Margin.reset with ramps := [(3, 1100)], capMax := [145, 90, 145, 145], powerCap := 100 } }
def u := s.advanceTo 9
theorem witness_PowerSequencesRun_7 :
    s.quiet = true ∧ u.margin.ramps = [(d.toNat, 1100)] := by
  decide +kernel
end PowerSequencesRun7

namespace PowerSequencesRun8
def st := fun (p : PowerSt) (run : Bool) (code : BitVec 16) (hot : BitVec 16) => ({ State.reset with margin := { Margin.reset with power := p, running := run, latch := true, tripOn := code, rstGlitch := 0xFFFFFFFF }, dies := [(0, { DieState.reset with stk := [(0, { Stack.reset with temp := hot })] })] } : State)
def u := fun (p : PowerSt) (run : Bool) (code : BitVec 16) (hot : BitVec 16) => (st p run code hot).advanceTo 9
theorem witness_PowerSequencesRun_8 :
    (∀ p ∈ [PowerSt.on, .powering, .standby, .hubUp, .poweringDown, .tripped], ∀ run ∈ [true, false], (st p run Code.tripThermal 680).quiet = true ∧ (u p run Code.tripThermal 680).margin.running = run ∧ (u p run Code.tripThermal 680).margin.power = p) ∧ (u .on true 0 0).jobs = [] ∧ (u .tripped true Code.tripThermal 679).tripStays = false ∧ (u .tripped true Code.tripThermal 680).tripStays = true ∧ (∀ d : Die, ((u .on true 0 0).die d).going = [] ∧ ((u .on true 0 0).die d).remote = []) ∧ (u .on true 0 0).ports = [] := by
  decide +kernel
end PowerSequencesRun8

namespace PowerSequencesRun9
def s : State := { State.reset with margin := { Margin.reset with rstVirtual := true }, clusters := [(255, { Cluster.reset with pc := 4, stepCount := 9 }), (0, { Cluster.reset with pc := 4 })], engines := [(63, { Engine.reset with stray := 4 })], ports := [(63, { PortState.reset with role := 1, stompTx := 5, phase := .active, fecCorr := 3 })], dies := [(3, { DieState.reset with inReset := true, caches := [(1, [1])], memReads := 4 })] }
def u := s.advanceTo 1000000
def u2 := s.advanceTo 999999
def d : Die := 3
def st2 : State := { State.reset with dies := [(2, { DieState.reset with inReset := true, held := true })] }
theorem witness_PowerSequencesRun_9 :
    (s.quiet = true ∧ u.margin.rstVirtual = true ∧ u.margin.virtualAt + 1000000 ≤ u.time ∧ u2.time < u2.margin.virtualAt + 1000000) ∧
    ((u.die d).inReset = true ∧ (u.die d).held = false ∧ (st2.die 2).held = true ∧ st2.quiet = true ∧ ((s.advanceTo 100000).die d).resetAt + 100000 ≤ (s.advanceTo 100000).time) := by
  decide +kernel
end PowerSequencesRun9

namespace HubCommandsAct1
def m := msg 7 0 [0x10010, 32, 0xFFFF] []
def m2 := msg 7 0 [0x10010, 33, 0xFFFF] []
def m3 := msg 7 0 [0x2FFFC, 1, 0xFFFF] []
def s := withJob (running plate)
set_option synthInstance.maxSize 4000 in
theorem witness_HubCommandsAct_1 :
    Claims.Hub m s ∧ Claims.Hub m2 s ∧ Claims.Hub m3 s ∧ reachable 0 0x10010 32 = true ∧ reachable 0 0x2FFFC 1 = true := by
  unfold Claims.Hub
  decide +kernel
end HubCommandsAct1

namespace HubCommandsAct2
def m := msg 7 0 [3999999872, 0] [1, 2]
def m2 := msg 7 0 [3999999872, 0] (List.replicate 129 1)
def m3 := msg 7 0 [127, 0] []
def s := withJob (running plate)
set_option synthInstance.maxSize 4000 in
theorem witness_HubCommandsAct_2 :
    Claims.Hub m s ∧ Claims.Hub m2 s ∧ Claims.Hub m3 s ∧ 3999999872 % 128 = 0 ∧ 3999999872 + m.data.length ≤ 4000000000 ∧ 4000000000 < 3999999872 + m2.data.length ∧ 127 % 128 ≠ 0 := by
  unfold Claims.Hub
  decide +kernel
end HubCommandsAct2

namespace HubCommandsAct3
def m := msg 7 0 [0xFF00] []
def m1 := msg 7 0 [0x0100] []
def s : State := { State.reset with staging := partHeader 0 255 0x18 }
def s1 : State := { State.reset with staging := partHeader 0 1 0x40 }
def s2 : State := { State.reset with jobs := [(0, { Job.reset with no := 1, st := .loading })] }
def s3 : State := { State.reset with staging := partHeader 1 255 0x18 }
def s4 : State := { s1 with jobs := [(0, { Job.reset with no := 1, st := .loading })] }
def bs := s.stagedPart
def bs1 := s1.stagedPart
set_option synthInstance.maxSize 4000 in
theorem witness_HubCommandsAct_3 :
    ((Claims.Hub m s ∧ Claims.Hub m1 s1 ∧ Claims.Hub m s2 ∧ Claims.Hub m s3 ∧ Claims.Hub m1 s4 ∧ Claims.Rising s4 ∧ (s4.job 7).st = .none) ∧
    ((∃ k ∈ List.range 8, (Table.get Job.reset k s4.jobs).no = 0) ∧ (∀ e ∈ s4.jobs, e.2.no ≠ 7) ∧ (∃ e ∈ s4.jobs, e.2.st = .loading) ∧ 1 = ((m1.args.getD 0 0).toNat / 256 % 256) ∧ 1 < ((m.args.getD 0 0).toNat / 256 % 256) ∧ Claims.Rising s ∧ Claims.Rising s1 ∧ Claims.Rising s2)) ∧
    (((s.job 7).st = .none ∧ (s1.job 7).st = .none ∧ (s2.job 7).st = .none ∧ (s3.job 7).st = .none ∧ (∀ x ∈ [s, s1, s3], (∀ e ∈ x.jobs, e.2.st ≠ .loading) ∧ (∃ k ∈ List.range 8, (Table.get Job.reset k x.jobs).no = 0) ∧ (∀ e ∈ x.jobs, e.2.no ≠ 7)) ∧ leNat ((bs.drop 5).take 1) = 0 ∧ leNat ((bs.drop 6).take 1) = 255) ∧
    (leNat ((bs.drop 8).take 2) = 7 ∧ BitVec.ofNat 9 (leNat ((bs.drop 10).take 2)) = s.ownModule ∧ leNat ((bs1.drop 5).take 1) = 0 ∧ leNat ((bs1.drop 6).take 1) = 1 ∧ leNat ((bs1.drop 8).take 2) = 7 ∧ BitVec.ofNat 9 (leNat ((bs1.drop 10).take 2)) = s1.ownModule ∧ leNat ((s3.stagedPart.drop 5).take 1) ≠ 0 ∧ (∃ e ∈ s2.jobs, e.2.st = .loading))) := by
  unfold Claims.Hub Claims.Rising
  decide +kernel
end HubCommandsAct3

namespace HubCommandsAct4
def m := msg 7 0 [0xFF01] []
def s : State := { withJob { Job.reset with st := .loading, partsN := 255, parts := [[1]] } with staging := partHeader 1 255 0x18 }
def s2 : State := { withJob { Job.reset with st := .loaded, plate := some plate } with hatchJobs := [(2, 7), (3, 8)] }
def bs := s.stagedPart
def j := s.job m.job
set_option synthInstance.maxSize 4000 in
theorem witness_HubCommandsAct_4 :
    (Claims.Hub m s ∧ Claims.Hub m s2 ∧ Claims.Rising s ∧ Claims.Rising s2 ∧ j.st = .loading ∧ leNat ((bs.drop 5).take 1) = 1) ∧
    (leNat ((bs.drop 6).take 1) = 255 ∧ leNat ((bs.drop 8).take 2) = 7 ∧ BitVec.ofNat 9 (leNat ((bs.drop 10).take 2)) = s.ownModule ∧ j.parts.length = 1 ∧ j.partsN = 255 ∧ (s2.job 7).st = .loaded ∧ s2.jobSlot 7 = some 7) := by
  unfold Claims.Hub Claims.Rising
  decide +kernel
end HubCommandsAct4

namespace HubCommandsAct5
def m := msg 7 0 [0, 0] []
def s : State := { State.reset with staging := [(0, 1), (4, 2), (5, 1), (64, 1), (67, 1), (72, 1), (73, 1), (4160, 6), (4161, 6), (4162, 6), (4163, 6), (4164, 1), (4165, 2)] }
def bs := Memory.readN 0 4224 s.staging
def x : FabricMap := ⟨1, 2, 1, [(0, ⟨true, 0, 0, 1, false, false, false, false⟩), (1, ⟨true, 1, 0, 0, false, false, false, false⟩)], [6, 6, 6, 6, 1, 2] ++ List.replicate 58 0⟩
set_option synthInstance.maxSize 4000 in
theorem witness_HubCommandsAct_5 :
    Claims.Hub m s ∧ (x.nx = 2 ∧ x.ny = 1 ∧ (x.entries.map fun (e : Nat × MapEntry) => (e.1, e.2.valid, e.2.x, e.2.y, e.2.partner)) = [(0, true, 0, 0, 1), (1, true, 1, 0, 0)] ∧ (∀ e ∈ x.entries, x.linkAgrees true e.2 = true ∧ x.linkAgrees false e.2 = true)) ∧ s.rolesGood bs = true ∧ s.routeInUse x = false ∧ Claims.Hub m State.reset ∧ s.fab.st = .active ∧ (parseMap (Memory.readN 0 4224 [])).good 0 (Memory.readN 0 4224 []) = false := by
  unfold Claims.Hub
  decide +kernel
end HubCommandsAct5

namespace HubCommandsAct6
def m := msg 7 0 [] []
def x : FabricMap := ⟨1, 1, 1, [], List.replicate 62 1 ++ [0, 0]⟩
def st := fun (r : RouteSt) => ({ State.reset with fab := { Fabric.reset with st := r, staged := some x }, ports := [(62, { PortState.reset with phase := .detect }), (63, { PortState.reset with role := 6 })] } : State)
set_option synthInstance.maxSize 4000 in
theorem witness_HubCommandsAct_6 :
    (∀ r ∈ [RouteSt.active, .draining, .drained, .swapped], Claims.Hub m (st r) ∧ (st r).fab.st = r ∧ (st r).fab.waiting = []) ∧ (st .drained).fab.staged = some x ∧ (∀ p : Port, ((st .drained).port p).phase ≠ .active) := by
  unfold Claims.Hub
  decide +kernel
end HubCommandsAct6

namespace JobCommandsAct1
def m := msg 7 0 [0, 0xFFFFFFFF, 0xFFFFFFFF] []
def p := { plate with module := 0x1FF, images := [⟨0x10, 255, 0, []⟩], barriers := [⟨63, 0, 1, 0x1FF, 0xFFFF, [], 0, 0⟩], ranks := [⟨2, 0x1FF, 0⟩, ⟨2, 5, 0⟩] }
def pm := { p with mirror := [⟨false, 7, 5, 0, 96, 0⟩] }
def st := fun (p : Plate) (t : TimeSt) (x : ModSt) => ({ withJob { running p with st := .loaded } with margin := { Margin.reset with timeSt := t }, pair := { Pair.reset with st := x } } : State)
def s := st p .free .unpaired
def s1 := st p .locked .fenced
def s2 := st pm .locked .recovering
def s3 := st p .holdover .unpaired
def s4 : State := { s3 with dies := [(3, { DieState.reset with inReset := true })] }
set_option synthInstance.maxSize 4000 in
theorem witness_JobCommandsAct_1 :
    (((Claims.Hub m s4 ∧ Claims.Rising s4 ∧ (s4.job 7).plate = some p ∧ (s4.job 7).st = .loaded ∧ s4.margin.timeSt ≠ .free ∧ s4.pair.st ≠ .fenced ∧ (s4.die 3).inReset = true ∧ s4.usesDie 7 3 = true ∧ (∀ q : Die, q.toNat < 3 → (s4.die q).inReset = false) ∧ (∀ d, (s3.die d).inReset = false)) ∧ (Claims.Hub m s ∧ Claims.Hub m s1 ∧ Claims.Hub m s2 ∧ Claims.Hub m s3) ∧ (Claims.Rising s ∧ Claims.Rising s1 ∧ Claims.Rising s2 ∧ Claims.Rising s3) ∧ ((s.job 7).plate = some p ∧ (s1.job 7).plate = some p ∧ (s2.job 7).plate = some pm ∧ (s3.job 7).plate = some p) ∧ (s.job 7).st = .loaded) ∧
    ((s1.job 7).st = .loaded ∧ (s2.job 7).st = .loaded ∧ (s3.job 7).st = .loaded ∧ s.margin.timeSt = .free ∧ s1.margin.timeSt ≠ .free ∧ s2.margin.timeSt ≠ .free)) ∧
    ((s3.margin.timeSt ≠ .free ∧ s1.pair.st = .fenced ∧ s2.pair.st ≠ .fenced ∧ s2.pair.st ≠ .paired ∧ s3.pair.st ≠ .fenced ∧ pm.module = s2.ownModule) ∧
    (p.module = s3.ownModule ∧ pm.mirror ≠ [] ∧ p.mirror = [] ∧ (s3.job 7).digests = [] ∧ s3.jobClusters 7 ≠ [] ∧ (s3.job 7).proofRole = 0)) := by
  unfold Claims.Hub Claims.Rising
  decide +kernel
end JobCommandsAct1

namespace JobCommandsAct2
def m := msg 7 0 [1] []
def st := fun (x : JobSt) => withJob { running plate with st := x }
set_option synthInstance.maxSize 4000 in
theorem witness_JobCommandsAct_2 :
    (∀ x ∈ [JobSt.loaded, .loading, .stopped, .running], Claims.Hub m (st x) ∧ Claims.Rising (st x) ∧ ((st x).job 7).plate = some plate ∧ ((st x).job 7).st = x) ∧ m.job ≠ 0 ∧ Claims.Alone m.job (st .running) ∧ (st .running).pair.st ≠ .partnerLost := by
  unfold Claims.Alone Claims.Hub Claims.Rising
  decide +kernel
end JobCommandsAct2

namespace JobCommandsAct3
def m := msg 7 0 [1] []
def s : State := (({ withJob { running plate with st := .done } with armed := [⟨0, 0, 0, 0, 0, 7⟩, ⟨0, 0, 0, 0, 0, 8⟩], windows := [⟨1, 7, true, true, false, 0, 0⟩, ⟨2, 8, true, true, false, 0, 0⟩], pair := { Pair.reset with holds := [⟨7, 5, 0, 96, 0, [], []⟩], shadows := [⟨8, 0, 0, 0, [], 0, []⟩] } } : State).modCounter 0xFFFF fun _ => { Counter.reset with job := 7, value := 5 }).modCounter 0 fun _ => { Counter.reset with job := 8, value := 5 }
set_option synthInstance.maxSize 4000 in
theorem witness_JobCommandsAct_3 :
    Claims.Hub m s ∧ Claims.Rising s ∧ (s.job 7).plate = some plate ∧ (s.job 7).st = .done ∧ (s.counter 0xFFFF).job = m.job ∧ (∀ d, Table.wf Counter.reset (s.die d).counters = true ∧ ∀ e ∈ (s.die d).counters, e.1 < 16384) ∧ (s.counter 0).job ≠ m.job := by
  unfold Claims.Hub Claims.Rising
  decide +kernel
end JobCommandsAct3

namespace JobCommandsAct4
def m := msg 7 0 [3, 9, 5, 6] []
def mi := msg 7 0 [Code.injOverflow.setWidth 32, 0xC000F, 9, 0] []
def p := { plate with mappingsN := 4 }
def j := { running p with begun := some 8, cmdLog := List.replicate 1023 ⟨1, 1, [], 0⟩, modePend := [(8, 1), (9, 2)] }
def s := withJob j
def s2 := withJob { j with begun := some 9, cmdLog := [] }
def s3 := withJob { j with cmdLog := List.replicate 1024 ⟨1, 1, [], 0⟩ }
set_option synthInstance.maxSize 4000 in
theorem witness_JobCommandsAct_4 :
    ((Claims.Hub m s ∧ Claims.Hub mi s ∧ Claims.Hub m s2 ∧ Claims.Hub m s3 ∧ Claims.Rising s) ∧
    (Claims.Rising s2 ∧ Claims.Rising s3 ∧ (s.job 7).plate = some p ∧ (s2.job 7).plate = some p ∧ (s3.job 7).plate = some p ∧ (s.job 7).st = .running)) ∧
    (((s2.job 7).st = .running ∧ (s3.job 7).st = .running ∧ (s.job 7).begun = some 8 ∧ (s2.job 7).begun = some 9 ∧ (s3.job 7).begun = some 8 ∧ (s.job 7).cmdLog.length < 1024 + (s.job 7).logFrom) ∧
    (1024 + (s3.job 7).logFrom ≤ (s3.job 7).cmdLog.length ∧ s.pair.st ≠ .takeover ∧ (s.job 7).mapHere = false ∧ (s.job 7).mapOn = none ∧ (s.job 7).mapAt = none ∧ s.injectOk Code.injOverflow 0xC 0xF 0 = true)) := by
  unfold Claims.Hub Claims.Rising
  decide +kernel
end JobCommandsAct4

namespace ReadCommandsAnswer1
def m := msg 7 0 [1] []
def ov : Overrun := ⟨1, 2, 3, 1, 5, 6, 7, 8, 9⟩
def s := withJob { running plate with overruns := [ov, ov], rankWait := [(4095, 5)], idle := [1, 2, 3, 4, 5, 6, 7], unitsN := 9, ledger := [⟨1, 2, 3⟩, ⟨2, 2, 3⟩], cmdLog := [⟨1, 2, [3, 4, 5, 6], 7⟩] }
def s2 := withJob { Job.reset with st := .starting }
def j := s.job 7
def j2 := s2.job 7
set_option synthInstance.maxSize 4000 in
theorem witness_ReadCommandsAnswer_1 :
    Claims.Hub m s ∧ Claims.Hub m s2 ∧ m.job ≠ 0 ∧ j.started = true ∧ j2.started = false := by
  unfold Claims.Hub
  decide +kernel
end ReadCommandsAnswer1

namespace ReadCommandsAnswer2
def m := msg 7 7 [255] []
def m2 := msg 7 7 [191] []
def d : Die := 3
def fr : FaultRec := ⟨3, false, true, 5, Code.laneFailed, 7, 8, 255, 5, 6, 7, 8⟩
def s : State := { withJob (running plate) with clusters := [(255, { Cluster.reset with gstate := .halted, faultRec := some fr, job := 7, holdCause := .fetch, fetchBad := [3] })] }
def s2 : State := { withJob (running plate) with clusters := [(255, { Cluster.reset with gstate := .running })] }
set_option synthInstance.maxSize 4000 in
theorem witness_ReadCommandsAnswer_2 :
    (Claims.AtDie m d s ∧ Claims.AtDie m d s2 ∧ Claims.AtDie m2 d s ∧ ClusterId.die 255 = d) ∧
    (ClusterId.die 191 ≠ d ∧ s.hasCluster 255 = true ∧ (s.clu 255).gstate = .halted ∧ s2.hasCluster 255 = true ∧ (s2.clu 255).gstate ≠ .halted) := by
  unfold Claims.AtDie
  decide +kernel
end ReadCommandsAnswer2

namespace ReadCommandsAnswer3
def d : Die := 3
def k := 31
def o := 79999999936
def a := dramAddr k o
def w := BitVec.ofNat 64 a
def m := msg 7 7 [w.setWidth 32, (w >>> 32).setWidth 32, 2, 0] []
def s : State := { withJob (running plate) with dies := [(3, { DieState.reset with done := 0x8000, statRings := [(a, [(7, 1), (8, 0), (7, 2), (7, 0)])], memFaults := [⟨1, 31, 15, 15, true, false, 5, 6, 7, 8, 9, 10⟩] })], mem := [(a + 32, 5)] }
set_option synthInstance.maxSize 4000 in
theorem witness_ReadCommandsAnswer_3 :
    (Claims.AtDie m d s ∧ o < 80000000000 ∧ k / 8 = d.toNat ∧ m.job ≠ 0 ∧ (s.job 7).started = true) ∧
    (s.badWords = [] ∧ s.weakWords = [] ∧ s.armed = [] ∧ Msg.arg64 0 m = BitVec.ofNat 64 (dramAddr k o) ∧ o + 32 * 2 ≤ 80000000000) := by
  unfold Claims.AtDie
  decide +kernel
end ReadCommandsAnswer3

namespace ReadCommandsAnswer4
def d : Die := 3
def k := 24
def o := 128
def a := dramAddr k o
def w := BitVec.ofNat 64 a
def m := msg 7 7 [0x1FF, 0xFFF, 0xFFFFFF80, w.setWidth 32, (w >>> 32).setWidth 32] []
def s : State := { withJob (running plate) with dies := [(3, { DieState.reset with remoteSeq := 2 ^ 30 - 1 })], mem := [(a + 32, 5)], fab := { Fabric.reset with transfers := [(0x1FF, 0xFFFF)] } }
set_option synthInstance.maxSize 4000 in
theorem witness_ReadCommandsAnswer_4 :
    (Claims.AtDie m d s ∧ m.job ≠ 0 ∧ (s.job 7).proofRole ≠ 2 ∧ s.badWords = [] ∧ s.weakWords = []) ∧
    (s.armed = [] ∧ (s.job 7).st = .running ∧ o + 128 ≤ 80000000000 ∧ k / 8 = d.toNat ∧ Msg.arg64 3 m = BitVec.ofNat 64 (dramAddr k o)) := by
  unfold Claims.AtDie
  decide +kernel
end ReadCommandsAnswer4

namespace FirmwareAndKeysAreKept1
def x : AgentSeq := ⟨9, 7, [], [1, 2, 3, 4], 5, none⟩
def m : Msg := { msg 0 0 [268435456] [] with path := .service 9 3 }
def s : State := { State.reset with hub := { Hub.reset with agentSeqs := [x] } }
set_option synthInstance.maxSize 4000 in
theorem witness_FirmwareAndKeysAreKept_1 :
    Claims.Serviced m x s ∧ s.hub.slots.length = 2 ∧ s.hub.booted < 2 ∧ Claims.Only [0, 1] m ∧ (1 : Nat) ≤ 268435456 ∧ (s.slot s.hub.booted).st ≠ .trial := by
  unfold Claims.Serviced Claims.Only
  decide +kernel
end FirmwareAndKeysAreKept1

namespace FirmwareAndKeysAreKept2
def x : AgentSeq := ⟨9, 7, [], [1, 2, 3, 4], 5, none⟩
def m : Msg := { msg 0 0 [512] (List.replicate 114 3) with path := .service 9 3 }
def m2 : Msg := { msg 0 0 [640] [1, 2, 3] with path := .service 9 3 }
def md : Msg := { msg 0 0 [] [] with path := .service 9 3 }
def y : FwSlot := { FwSlot.reset with st := .writing, length := 642, agent := 9, written := [5, 4, 3, 2, 1, 0], image := [(0, 0x48), (1, 0x4E), (2, 0x49), (3, 0x4D), (4, 1), (5, 2), (8, 0xFF), (0x10, 16)], failure := 7 }
def st := fun (y : FwSlot) => ({ State.reset with hub := { Hub.reset with agentSeqs := [x], rollMin := 2, booted := 1, slots := [y, { FwSlot.reset with st := .confirmed }] } } : State)
def s := st y
def y2 := { y with image := [] }
def s2 := st y2
set_option synthInstance.maxSize 4000 in
theorem witness_FirmwareAndKeysAreKept_2 :
    ((Claims.Serviced m x s ∧ Claims.Serviced m2 x s ∧ Claims.Serviced md x s ∧ Claims.Serviced md x s2 ∧ s.hub.slots.length = 2) ∧
    (s.hub.booted = 1 ∧ s.slot 0 = y ∧ s2.slot 0 = y2 ∧ y.st = .writing ∧ y.agent = x.agent)) ∧
    (((s.slot 1).st ≠ .writing ∧ (s.slot 1).st ≠ .staged ∧ Claims.Only [0, 1] m ∧ Claims.Only [0, 1] m2 ∧ Claims.Only [] md) ∧
    (512 + m.data.length ≤ y.length ∧ y.length < 640 + m2.data.length ∧ s.hub.recovery = false ∧ y.finishFault s.hub.rollMin = none ∧ y.factory = false ∧ y2.finishFault s.hub.rollMin = some Code.fwMalformed)) := by
  unfold Claims.Serviced Claims.Only
  decide +kernel
end FirmwareAndKeysAreKept2

namespace FirmwareAndKeysAreKept3
def m := msg 7 0 [] []
def y : FwSlot := { FwSlot.reset with st := .trial, length := 642, rollback := 3, version := 0x123456789, failure := 5 }
def z : FwSlot := { FwSlot.reset with st := .confirmed, length := 642, rollback := 1, version := 0xABCDEF0123, failure := 6 }
def s : State := { State.reset with hub := { Hub.reset with rollMin := 2, booted := 1, slots := [z, y] } }
set_option synthInstance.maxSize 4000 in
theorem witness_FirmwareAndKeysAreKept_3 :
    Claims.Hub m s ∧ Claims.Only [] m ∧ (∀ k ∈ List.range 2, (s.slot k).st ≠ .empty ∧ (s.slot k).st ≠ .writing ∧ (s.slot k).factory = false) ∧ s.hub.slots.length = 2 ∧ s.hub.booted < 2 ∧ (s.slot s.hub.booted).st = .trial := by
  unfold Claims.Hub Claims.Only
  decide +kernel
end FirmwareAndKeysAreKept3

namespace FirmwareAndKeysAreKept4
def m := msg 7 0 [] []
def s : State := { State.reset with hub := { Hub.reset with slots := [{ FwSlot.reset with st := .confirmed, rollback := 3 }, { FwSlot.reset with st := .trial }] } }
set_option synthInstance.maxSize 4000 in
theorem witness_FirmwareAndKeysAreKept_4 :
    Claims.Hub m s ∧ Claims.Only [] m ∧ s.hub.booted < 2 ∧ (s.slot s.hub.booted).st ≠ .trial := by
  unfold Claims.Hub Claims.Only
  decide +kernel
end FirmwareAndKeysAreKept4

namespace FirmwareAndKeysAreKept5
def key : List Byte := List.replicate 57 0xAB
def m := msg 7 0 ([0xFFFFFFFF, 1, 3] ++ List.replicate 14 0xABABABAB ++ [0xAB]) []
def m1 := msg 7 0 [0xFFFFFFFF, 1] []
def id : DWord := 0x1FFFFFFFF
def st := fun (l : List Agent) => ({ State.reset with hub := { Hub.reset with inUse := 1, settings := [Settings.reset, { Settings.reset with agents := l }] } } : State)
def s := st [⟨id, 1, []⟩, ⟨5, 3, key⟩]
def s2 := st (List.replicate 63 ⟨5, 3, key⟩)
def s3 := st (List.replicate 64 ⟨5, 3, key⟩)
def s4 := st [⟨id, 3, []⟩, ⟨5, 2, key⟩]
set_option synthInstance.maxSize 4000 in
theorem witness_FirmwareAndKeysAreKept_5 :
    ((Claims.Hub m s ∧ Claims.Hub m s2 ∧ Claims.Hub m s3 ∧ Claims.Hub m1 s ∧ Claims.Hub m1 s2 ∧ Claims.Hub m1 s4) ∧
    (s.hub.inUse < s.hub.settings.length ∧ Msg.arg64 0 m = id ∧ Msg.arg64 0 m1 = id ∧ id ≠ 0 ∧ 1 ≤ (m.args.getD 2 0).toNat ∧ (m.args.getD 2 0).toNat ≤ 3)) ∧
    ((key.length = 57 ∧ bytesOf (Msg.argList 3 15 m) = key ++ [0, 0, 0] ∧ Claims.Only (List.range 18) m ∧ Claims.Only [0, 1] m1 ∧ (s.settings.agents.any fun x => x.id == id) = true ∧ (s2.settings.agents.any fun x => x.id == id) = false) ∧
    (s2.settings.agents.length < 64 ∧ (s3.settings.agents.any fun x => x.id == id) = false ∧ 64 ≤ s3.settings.agents.length ∧ (∃ x ∈ s.settings.agents, x.id ≠ id ∧ x.right = 3) ∧ (∃ x ∈ s4.settings.agents, x.id = id ∧ x.right = 3) ∧ (∀ x ∈ s4.settings.agents, x.right = 3 → x.id = id))) := by
  unfold Claims.Hub Claims.Only
  decide +kernel
end FirmwareAndKeysAreKept5

namespace FirmwareAndKeysAreKept6
def m := msg 7 0 [0, 1, 2, 3, 4, 5, 6, 7, 8] []
def m2 := msg 7 0 [1, 1, 2, 3, 4, 5, 6, 7, 8] []
def mk := msg 7 0 [1] []
def key : List Byte := List.replicate 57 0xAB
def y : FwSlot := { FwSlot.reset with st := .confirmed, length := 64, image := [(5, 5)] }
def s : State := { withJob { Job.reset with st := .loaded, ended := true } with hub := { Hub.reset with slots := [y, FwSlot.reset], settings := [{ Settings.reset with agents := [⟨5, 3, key⟩, ⟨6, 1, key⟩] }, Settings.reset] } }
set_option synthInstance.maxSize 4000 in
theorem witness_FirmwareAndKeysAreKept_6 :
    (Claims.Hub m s ∧ Claims.Hub m2 s ∧ Claims.Hub mk s ∧ Claims.Only [0] mk ∧ Claims.Only (List.range 9) m) ∧
    (Claims.Only (List.range 9) m2 ∧ (s.slot s.hub.booted).factory = false ∧ (s.slot s.hub.booted).st ≠ .empty ∧ m.job ≠ 0 ∧ (s.job m.job).started = true) := by
  unfold Claims.Hub Claims.Only
  decide +kernel
end FirmwareAndKeysAreKept6

namespace ModuleCommandsAct1
def m := msg 7 0 [4, 145] []
def m1 := msg 7 0 [3, 85] []
def m2 := msg 7 0 [5, 85] []
def mv := msg 7 0 [3, 700] []
def mv2 := msg 7 0 [3, 805] []
def s : State := { State.reset with margin := { Margin.reset with coreOn := true, ramps := [(3, 750), (0, 705)] } }
def s2 : State := { State.reset with margin := { Margin.reset with coreOn := false } }
def s3 : State := { s with margin := { s.margin with powerCap := 100, throttleP := false } }
def s4 : State := { s with margin := { s.margin with throttleT := true, capThermal := [90, 145, 145, 145] } }
set_option synthInstance.maxSize 4000 in
theorem witness_ModuleCommandsAct_1 :
    (Claims.Hub m s3 ∧ Claims.Hub m s4 ∧ s3.margin.powerCap < 145 ∧ s3.margin.throttleP = false ∧ s4.margin.throttleT = true ∧ Claims.Hub m s ∧ Claims.Hub m1 s ∧ Claims.Hub m2 s) ∧
    (Claims.Hub mv s ∧ Claims.Hub mv2 s ∧ Claims.Only [0, 1] m ∧ Claims.Only [0, 1] m1 ∧ Claims.Only [0, 1] mv ∧ s.margin.coreOn = true ∧ Claims.Hub mv s2 ∧ s2.margin.coreOn = false) := by
  unfold Claims.Hub Claims.Only
  decide +kernel
end ModuleCommandsAct1

namespace ModuleCommandsAct2
def m1 := msg 7 0 [1] []
def m0 := msg 7 0 [0] []
def mn := msg 7 0 [] []
def st := fun (p : PowerSt) (code : BitVec 16) (hot : BitVec 16) => ({ State.reset with margin := { Margin.reset with power := p, bootDone := true, opStage := true, tripOn := code }, dies := [(0, { DieState.reset with stk := [(0, { Stack.reset with temp := hot })] })] } : State)
set_option synthInstance.maxSize 4000 in
theorem witness_ModuleCommandsAct_2 :
    (∀ p ∈ [PowerSt.on, .powering, .standby, .hubUp, .poweringDown, .tripped], Claims.Hub m1 (st p Code.tripThermal 680) ∧ Claims.Hub m0 (st p Code.tripThermal 680) ∧ Claims.Hub mn (st p Code.tripThermal 679) ∧ (st p Code.tripThermal 680).margin.power = p ∧ (st p Code.tripThermal 680).margin.bootDone = true ∧ (st p Code.tripThermal 680).margin.opStage = true ∧ (st p Code.tripThermal 680).margin.downCause ≠ Code.vinLow) ∧ Claims.Only [0] m1 ∧ Claims.Only [0] m0 ∧ Claims.Only [] mn ∧ (st .on Code.tripThermal 680).jobs = [] ∧ ((∀ d : Die, ((st .on Code.tripThermal 680).die d).going = [] ∧ ((st .on Code.tripThermal 680).die d).remote = []) ∧ (st .on Code.tripThermal 680).ports = [] ∧ (st .hubUp Code.tripThermal 680).margin.seqStep ≠ 1 ∧ (st .tripped Code.tripThermal 679).margin.seqStep ≠ 1) ∧ (st .tripped Code.tripThermal 680).tripStays = true ∧ (st .tripped Code.tripThermal 679).tripStays = false := by
  unfold Claims.Hub Claims.Only
  decide +kernel
end ModuleCommandsAct2

namespace ModuleCommandsAct3
def m1 := msg 7 0 [1] []
def mn := msg 7 0 [] []
def st := fun (p : PowerSt) (boot op : Bool) => ({ State.reset with margin := { Margin.reset with power := p, bootDone := boot, opStage := op, tripOn := Code.tripOvercurrent, seqStep := if boot && op then 1 else 0 } } : State)
set_option synthInstance.maxSize 4000 in
theorem witness_ModuleCommandsAct_3 :
    (∀ p ∈ [PowerSt.hubUp, .tripped], ∀ b ∈ [(true, false), (false, true), (true, true)], Claims.Hub m1 (st p b.1 b.2) ∧ Claims.Hub mn (st p b.1 b.2) ∧ ((st p b.1 b.2).margin.bootDone = false ∨ (st p b.1 b.2).margin.opStage = false ∨ (st p b.1 b.2).margin.seqStep = 1) ∧ (st p b.1 b.2).tripStays = false) ∧ Claims.Only [0] m1 ∧ Claims.Only [] mn := by
  unfold Claims.Hub Claims.Only
  decide +kernel
end ModuleCommandsAct3

namespace ModuleCommandsAct4
def d : Die := 3
def m := msg 7 0 [3] []
def s : State := { State.reset with dies := [(3, { DieState.reset with done := 5, busy := 3, queue := [(1, msg 7 7 [] [])] })], ports := [(63, { PortState.reset with role := 1 })], margin := { Margin.reset with trips := [⟨Code.tripVcore, 3, 0, 1, 5, 6, 7, 8⟩] } }
set_option synthInstance.maxSize 4000 in
theorem witness_ModuleCommandsAct_4 :
    Claims.Hub m s ∧ Claims.Only [0] m ∧ m.args.getD 0 0 = d.setWidth 32 ∧ s.jobs = [] ∧ (s.die d).counters = [] ∧ (s.die d).going = [] ∧ (s.die d).remote = [] ∧ (∀ p : Port, Port.die p = d → (s.port p).phase ≠ .active) := by
  unfold Claims.Hub Claims.Only
  decide +kernel
end ModuleCommandsAct4

namespace ModuleCommandsAct5
def m := msg 7 0 [] []
def mf := msg 7 0 [0x1FFFF, 1, 2, 3, 4] []
def mo := msg 7 0 [0, 3, 0xFFFFFFFF] []
def st := fun (p : ModSt) => ({ State.reset with pair := { Pair.reset with st := p, solo := true, restoring := p == .fenced }, fab := mapped, jobs := [(0, { Job.reset with no := 1, st := .loaded })], hub := { Hub.reset with settings := [Settings.reset, Settings.reset] } } : State)
def s2 : State := { st .partnerLost with jobs := [] }
def s3 : State := { st .fenced with jobs := [(0, { Job.reset with no := 1, st := .stopped })] }
set_option synthInstance.maxSize 4000 in
theorem witness_ModuleCommandsAct_5 :
    ((∀ p ∈ [ModSt.unpaired, .paired, .solo, .fenced, .partnerLost, .recovering, .takeover, .resync], Claims.Hub m (st p) ∧ Claims.Hub mf (st p) ∧ Claims.Hub mo (st p) ∧ (st p).pair.st = p ∧ (st p).partner = some 1) ∧ Claims.Hub mo s2 ∧ s2.pair.st = .partnerLost ∧ s2.jobs = [] ∧ s2.pair.holds = [] ∧ Claims.Only [] m ∧ Claims.Only [0, 1, 2, 3, 4] mf ∧ Claims.Only [1, 2] mo) ∧
    ((mf.args.getD 0 0).toNat < 2 ^ 17 ∧ (mo.args.getD 1 0).toNat ≤ 3 ∧ (∀ e ∈ (st .fenced).jobs, e.2.st = .none ∨ e.2.st = .loaded) ∧ Claims.Hub m s3 ∧ s3.pair.st = .fenced ∧ (∃ e ∈ s3.jobs, e.2.st ≠ .none ∧ e.2.st ≠ .loaded) ∧ Claims.Calm (st .paired) ∧ (∀ e ∈ (st .paired).jobs, e.2.proofRole = 0)) := by
  unfold Claims.Hub Claims.Only Claims.Calm
  decide +kernel
end ModuleCommandsAct5

namespace ModuleCommandsAct6
def m := msg 7 0 [] []
def mr := msg 7 0 [0, 0xFFFFFFFF] []
def y : Shadow := ⟨7, 5, 2 ^ 62, 4096, [2 ^ 62 + 1048576], 9, []⟩
def h : HoldRange := ⟨7, 6, 2 ^ 62 + 0x1000, 4096, 8, [], []⟩
def s : State := { withJob { running plate with st := .stopped } with pair := { Pair.reset with st := .solo, shadows := [y] }, fab := mapped, mem := [(2 ^ 62 + 1048576, 7)] }
def s2 : State := { s with pair := { s.pair with partnerSt := 1 } }
def s3 : State := { s with pair := { Pair.reset with st := .fenced, holds := [h] } }
def s4 : State := { s with pair := { Pair.reset with st := .solo } }
set_option synthInstance.maxSize 4000 in
theorem witness_ModuleCommandsAct_6 :
    ((Claims.Hub m s ∧ Claims.Hub m s2 ∧ Claims.Hub mr s3 ∧ Claims.Hub mr s4 ∧ Claims.Only [] m ∧ Claims.Only [1] mr ∧ s.pair.st = .solo) ∧
    (s.pair.partnerSt = 0 ∧ s.pair.shadows = [y] ∧ y.copy = [2 ^ 62 + 1048576] ∧ s.partner = some 1 ∧ 0 < y.length ∧ y.length ≤ 4096 ∧ (s.badWords = [] ∧ s.weakWords = [] ∧ s.armed = []))) ∧
    (((s3.badWords = [] ∧ s3.weakWords = [] ∧ s3.armed = []) ∧ s2.pair.st = .solo ∧ s2.pair.partnerSt ≠ 0 ∧ s3.pair.st = .fenced ∧ mr.job ≠ 0 ∧ (s3.job mr.job).st = .stopped ∧ s3.pair.holds = [h]) ∧
    (h.job = mr.job ∧ mr.args.getD 1 0 = 0xFFFFFFFF ∧ 0 < h.length ∧ h.length ≤ 4096 ∧ s3.partner = some 1 ∧ s4.pair.st ≠ .paired ∧ s4.pair.st ≠ .fenced)) := by
  unfold Claims.Hub Claims.Only
  decide +kernel
end ModuleCommandsAct6

namespace ModuleCommandsAct7
def m := msg 7 0 [] []
def mr := msg 7 0 [0xFFFFFFFF, 0xFFFFFFFF, 1] []
def mc := msg 7 0 [4] []
def s := State.reset
set_option synthInstance.maxSize 4000 in
theorem witness_ModuleCommandsAct_7 :
    Claims.Hub m s ∧ Claims.Hub mr s ∧ Claims.Hub mc s ∧ Claims.Only [] m ∧ Claims.Only [0, 1, 2] mr ∧ Claims.Only [0] mc ∧ (mr.args.getD 2 0).toNat < 2 := by
  unfold Claims.Hub Claims.Only
  decide +kernel
end ModuleCommandsAct7

namespace MeterRecordsAndAnswers1
def m := measured 60999
def rs := List.replicate 8192 (record 1 3)
def st := fun (x : Meter) => ({ State.reset with meter := x } : State)
def s := st { Meter.reset with nextSeq := 8192, records := rs, label := some (5, 58999), lastTotal := 7, lastMs := 9, lastMin := some 0 }
def s2 := st { s.meter with broken := true, label := some (5, 58998), lastMin := some 60 }
def s3 := st { s.meter with up := false }
def s4 := st { s.meter with ms := 61000, energy := 0xFFFFFFFFFFFFFFFF }
set_option synthInstance.maxSize 4000 in
theorem witness_MeterRecordsAndAnswers_1 :
    (s.quiet = true ∧ s2.quiet = true ∧ s3.quiet = true ∧ s4.quiet = true ∧ s.meter.up = true ∧ s2.meter.up = true ∧ s3.meter.up = false) ∧
    (s4.meter.up = true ∧ m.ms / 1000 % 60 = 0 ∧ max s.meter.ms m.ms = m.ms ∧ s.meter.lastMin ≠ some (m.ms / 1000) ∧ s2.meter.lastMin = some (m.ms / 1000) ∧ max s4.meter.ms m.ms / 1000 % 60 ≠ 0 ∧ s.meter.broken = false ∧ s2.meter.broken = true) := by
  decide +kernel
end MeterRecordsAndAnswers1

namespace MeterRecordsAndAnswers2
def st := fun (x : Meter) => ({ State.reset with meter := x } : State)
def s := st { Meter.reset with ms := 61000, energy := 3, toldAt := some 9 }
def s2 := st { s.meter with up := false, toldAt := none }
def u := s.advanceTo 1000000009
def u2 := s2.advanceTo 9
def u3 := s.advanceTo 1000000008
theorem witness_MeterRecordsAndAnswers_2 :
    (s.quiet = true ∧ s2.quiet = true ∧ s.hub.waiting = [] ∧ s2.hub.waiting = [] ∧ u.margin.hubOn = true ∧ u.meter.toldAt = some 9) ∧
    (9 + 1000000000 ≤ u.time ∧ u.meter.up = true ∧ u2.margin.hubOn = true ∧ u2.meter.toldAt = none ∧ u2.meter.up = false ∧ u3.meter.toldAt = some 9 ∧ u3.time < 9 + 1000000000) := by
  decide +kernel
end MeterRecordsAndAnswers2

namespace MeterRecordsAndAnswers3
def r := record 4 (2 ^ 64 - 1)
def r1 := record 1 0
def st := fun (lost : Bool) => ({ State.reset with meter := { Meter.reset with lost := lost, records := [r1, r] } } : State)
def s := st false
def s2 := st true
def u := s.advanceTo 9
def u2 := s2.advanceTo 9
theorem witness_MeterRecordsAndAnswers_3 :
    (s.quiet = true ∧ s2.quiet = true ∧ s.hub.waiting = [] ∧ s2.hub.waiting = [] ∧ u.meter.lost = false ∧ u2.meter.lost = true) ∧
    (r ∈ u2.meter.records ∧ r1 ∈ u2.meter.records ∧ (∀ q ∈ u2.meter.records, q.seq = r.seq → q = r) ∧ (∀ q ∈ u2.meter.records, q.seq = r1.seq → q = r1) ∧ r.kind = 4 ∧ r1.kind ≠ 4 ∧ u2.meter.waiting = none) := by
  decide +kernel
end MeterRecordsAndAnswers3

namespace MeterRecordsAndAnswers4
def r := record 4 8
def r1 := record 1 5
def m := msg 0 0 [8, 0, 0] []
def m1 := msg 0 0 [5, 0, 1] []
def m2 := msg 0 0 [9, 0, 1] []
def m3 := msg 0 0 [4, 0, 1] []
def st := fun (code : BitVec 16) (m : Msg) => ({ State.reset with meter := { Meter.reset with serial := 0x123456789, firmware := 7, broken := true, lost := true, records := [r1, r], nextSeq := 9, waiting := some (code, m, 9) } } : State)
def u := fun (code : BitVec 16) (m : Msg) (n : Nat) => (st code m).advanceTo n
theorem witness_MeterRecordsAndAnswers_4 :
    ((∀ c ∈ ([0xA0, 0xA1, 0xA2, 0xA3] : List Nat), ∀ q ∈ [m, m1, m2, m3], (st (BitVec.ofNat 16 c) q).quiet = true ∧ (st (BitVec.ofNat 16 c) q).hub.waiting = [] ∧ (u (BitVec.ofNat 16 c) q 9).meter.waiting = some (BitVec.ofNat 16 c, q, 9) ∧ q.path = .internal) ∧ (u 0xA0 m 9).meter.records.head? = some r1 ∧ (u 0xA0 m 9).meter.records.getLast? = some r ∧ (u 0xA1 m 9).meter.records.find? (fun r => r.seq == Msg.arg64 0 m) = some r ∧ m.args.getD 2 0 = 0 ∧ (u 0xA1 m1 9).meter.records.find? (fun r => r.seq == Msg.arg64 0 m1) = some r1 ∧ m1.args.getD 2 0 ≠ 0) ∧
    ((∀ r ∈ (u 0xA1 m2 9).meter.records, r.seq ≠ Msg.arg64 0 m2) ∧ (u 0xA1 m2 9).meter.nextSeq ≤ (Msg.arg64 0 m2).toNat ∧ (∀ r ∈ (u 0xA1 m3 9).meter.records, r.seq ≠ Msg.arg64 0 m3) ∧ (Msg.arg64 0 m3).toNat < (u 0xA1 m3 9).meter.nextSeq ∧ 9 + 100000000 ≤ (u 0xA0 m 100000009).time ∧ (u 0xA0 m 100000009).meter.lost = true ∧ (u 0xA0 m 100000008).time < 9 + 100000000) := by
  decide +kernel
end MeterRecordsAndAnswers4

namespace DatagramsAndBoot1
def g : Datagram := ⟨request 1 9 0x1FF 7 false, [1, 2, 3, 4], 5, 7460⟩
def bad : Datagram := ⟨request 1 9 0x1FF 7 true, [1, 2, 3, 4], 5, 7460⟩
def gs : Datagram := { g with dstPort := 7461 }
def s := State.reset
def u := s.advanceTo 9
def off : State := { State.reset with margin := { Margin.reset with hubOn := false } }
theorem witness_DatagramsAndBoot_1 :
    (s.quiet = true ∧ off.quiet = true ∧ u.margin.hubOn = true ∧ u.margin.hubHeld = false ∧ u.hub.recovery = false ∧ (∀ l ∈ [[0x0020#16], [0x0020#16, 0x0072#16]], wellFormedDg false l bad.bytes = false ∧ wellFormedDg false l g.bytes = true)) ∧
    (g.dstPort = u.settings.mgmtPort ∧ gs.dstPort = u.settings.svcPort ∧ gs.dstPort ≠ u.settings.mgmtPort ∧ g.dstPort ≠ u.settings.svcPort ∧ u.signer g.bytes = none ∧ u.bootstraps g.bytes = false ∧ (off.advanceTo 9).margin.hubOn = false) := by
  decide +kernel
end DatagramsAndBoot1

namespace DatagramsAndBoot2
def bs := request 1 9 0x1FF 7 true
def f : Frame := { frame with kind := 9, payload := bs ++ List.replicate 14 0, detail := 5 }
def fb : Frame := { f with payload := List.replicate 416 0 }
def x : RelayOut := ⟨5, 9, [1, 2, 3, 4], 6, 9, request 1 9 5 0 false, 9⟩
def rep : Frame := { frame with kind := 9, payload := request 1 9 5 0 false ++ List.replicate 14 0 }
def rep2 : Frame := { rep with payload := request 1 9 5 0 false ++ List.replicate 14 0 |>.set 8 7 }
def st := fun (f : Frame) => ({ State.reset with hub := { Hub.reset with relays := [x] }, fab := { Fabric.reset with inbox := [(.hub, queued f)] } } : State)
def s := st f
def ub := (st fb).advanceTo 9
def ur := (st rep).advanceTo 9
def u := s.advanceTo 9
def u1 := s.advanceTo 2000000009
def u2 := s.advanceTo 2000000008
set_option synthInstance.maxSize 4000 in
theorem witness_DatagramsAndBoot_2 :
    (((∀ g ∈ [f, fb, rep], (st g).quiet = true ∧ ((st g).advanceTo 9).hub.relays = [x]) ∧ (∀ g ∈ [f, fb, rep], ((st g).advanceTo 9).margin.hubOn = true ∧ ((st g).advanceTo 9).margin.hubHeld = false ∧ ((st g).advanceTo 9).hub.recovery = false) ∧ wellFormedDg true [] (fb.payload.take 402) = false ∧ wellFormedDg true [] (f.payload.take 402) = true) ∧
    ((parseDg (withRelayed false (f.payload.take 402))).module = u.ownModule.toNat ∧ u.hub.agentSeqs = [] ∧ (parseDg (withRelayed false (f.payload.take 402))).msg.target = 4#4 + (3 : Die).setWidth 4 ∧ (u.die 3).queue.length < 256 ∧ u.hub.relays = [x])) ∧
    ((x.target.toNat = (parseDg (rep.payload.take 402)).module ∧ x.agent = (parseDg (rep.payload.take 402)).agent ∧ x.seq = (parseDg (rep.payload.take 402)).msg.seq ∧ x.agent ≠ (parseDg (rep2.payload.take 402)).agent ∧ u.behind .hub f = false) ∧
    (ub.behind .hub fb = false ∧ ur.behind .hub rep = false ∧ u.behind .hub rep2 = false ∧ x.sent + 2000000000 ≤ u1.time ∧ u2.time < x.sent + 2000000000)) := by
  decide +kernel
end DatagramsAndBoot2

namespace DatagramsAndBoot3
def d : Die := 3
def m := msg 7 7 [] []
def s : State := { State.reset with dies := [(3, { DieState.reset with queue := [(1, m), (2, m)] })] }
def x := s.die d
theorem witness_DatagramsAndBoot_3 :
    (s.quiet = true ∧ x.inReset = false ∧ x.busy = 0 ∧ (Table.get Mailbox.reset 0 x.mbx).owned = false) ∧
    (x.queue = [(0x0001, m), (2, m)] ∧ x.remote = [] ∧ m.path = .internal ∧ s.hub.recovery = false ∧ (s.die 2).queue = []) := by
  decide +kernel
end DatagramsAndBoot3

namespace DatagramsAndBoot4
def y : FwSlot := { FwSlot.reset with factory := true, st := .confirmed, version := 5, setFmt := 1 }
def st := fun (l : List FwSlot) => ({ State.reset with hub := { Hub.reset with slots := l } } : State)
def s0 := st [{ FwSlot.reset with st := .writing }, { FwSlot.reset with st := .failed }]
def s1 := st [{ FwSlot.reset with st := .failed }, y]
def s2 := st [y, { y with st := .staged, setFmt := 2, version := 6 }]
def s3 := st [y, { FwSlot.reset with st := .staged, length := 640 }]
def u0 := s0.advanceTo 9
def u1 := s1.advanceTo 9
def u2 := s2.advanceTo 9
def u3 := s3.advanceTo 9
set_option synthInstance.maxSize 4000 in
theorem witness_DatagramsAndBoot_4 :
    ((∀ s ∈ [s0, s1, s2, s3], s.quiet = true ∧ (s.advanceTo 9).margin.power = .hubUp ∧ (s.advanceTo 9).margin.hubOn = true ∧ (s.advanceTo 9).margin.hubHeld = false ∧ (s.advanceTo 9).margin.bootDone = false ∧ (s.advanceTo 9).hub.recovery = false ∧ (s.advanceTo 9).hub.slots.length = 2 ∧ (s.advanceTo 9).meter.openJobs = [] ∧ (∀ k ∈ List.range 32, ∀ e ∈ ((s.advanceTo 9).stack k).rowCounts, e.2 < 16)) ∧ (∀ k ∈ List.range 2, (u0.slot k).st ≠ .staged ∧ (u0.slot k).st ≠ .confirmed ∧ (u0.slot k).st ≠ .trial) ∧ (u1.slot 1).st = .confirmed ∧ (u1.slot 0).st = .failed ∧ (u1.slot 1).verify u1.hub.rollMin matches .ok [] ∧ u1.settings.fmt = (u1.slot 1).setFmt ∧ (u2.slot 1).st = .staged ∧ (u2.slot 0).st = .confirmed) ∧
    ((u2.slot 1).verify u2.hub.rollMin matches .ok [] ∧ u2.hub.inUse < 2 ∧ u2.hub.settings.length = 2 ∧ (u3.slot 1).st = .staged ∧ (u3.slot 0).st = .confirmed ∧ (u3.slot 1).verify u3.hub.rollMin matches .error _ ∧ (u3.slot 0).verify u3.hub.rollMin matches .ok [] ∧ u3.settings.fmt = (u3.slot 0).setFmt) := by
  decide +kernel
end DatagramsAndBoot4

namespace DatagramsAndBoot5
def g : Datagram := ⟨request 1 9 0x1FF 7 false, [1, 2, 3, 4], 5, 7460⟩
def p := parseDg g.bytes
def agent : Agent := ⟨9, 3, [1]⟩
def st := fun (l : List AgentSeq) (n : Nat) => ({ State.reset with hub := { Hub.reset with agentSeqs := l, settings := [{ Settings.reset with agents := [agent] }, Settings.reset] }, dies := [(3, { DieState.reset with queue := List.replicate n (1, msg 0 7 [] []) })] } : State)
def q := fun (seq : Nat) => (⟨9, BitVec.ofNat 16 seq, [1], [], 0, none⟩ : AgentSeq)
def u := fun (l : List AgentSeq) (n : Nat) => (st l n).advanceTo 9
set_option synthInstance.maxSize 4000 in
theorem witness_DatagramsAndBoot_5 :
    ((∀ l ∈ [[], [q 9], [q 10], [q 8], [q 32778]], (st l 0).quiet = true ∧ (u l 0).margin.hubOn = true ∧ (u l 0).margin.hubHeld = false ∧ (u l 0).hub.recovery = false ∧ (u l 0).hub.agentSeqs = l ∧ p.module = (u l 0).ownModule.toNat) ∧ (q 9).agent = p.agent ∧ p.msg.seq = (q 9).seq ∧ (q 9).reply ≠ [] ∧ 32767 < (p.msg.seq - (q 10).seq).toNat ∧ 1 ≤ (p.msg.seq - (q 8).seq).toNat ∧ (p.msg.seq - (q 32778).seq).toNat ≤ 32767) ∧
    (p.msg.target = 4#4 + (3 : Die).setWidth 4 ∧ ((u [] 255).die 3).queue.length < 256 ∧ 256 ≤ ((u [] 256).die 3).queue.length ∧ p.agent = agent.id ∧ wellFormedDg false [0x0020] g.bytes = true ∧ wellFormedDg false [0x0020, 0x0072] g.bytes = true ∧ (g.dstPort = (u [] 0).settings.mgmtPort ∧ { g with dstPort := 7461 }.dstPort = (u [] 0).settings.svcPort) ∧ ((u [] 0).settings.agents.find? fun (a : Agent) => a.id == (parseDg g.bytes).agent) = some agent) := by
  decide +kernel
end DatagramsAndBoot5

namespace DatagramsAndBoot6
def g : Datagram := ⟨request 1 9 1 7 false, [1, 2, 3, 4], 5, 7460⟩
def gd : Datagram := ⟨(request 0x20 9 1 0 false).set 6 1 ++ [7], [1, 2, 3, 4], 5, 7460⟩
def gx : Datagram := ⟨request 1 9 2 7 false, [1, 2, 3, 4], 5, 7460⟩
def agent : Agent := ⟨9, 3, [1]⟩
def s : State := { State.reset with fab := mapped, hub := { Hub.reset with settings := [{ Settings.reset with agents := [agent] }, Settings.reset] } }
def u := s.advanceTo 9
def known := fun (g : Datagram) => u.settings.agents.find? fun (a : Agent) => a.id == (parseDg g.bytes).agent
def table := u.fab.map.getD ⟨0, 0, 0, [], []⟩
set_option synthInstance.maxSize 4000 in
theorem witness_DatagramsAndBoot_6 :
    ((s.quiet = true ∧ u.margin.hubOn = true ∧ u.margin.hubHeld = false ∧ u.hub.recovery = false ∧ wellFormedDg false [0x0020] g.bytes = true) ∧
    (wellFormedDg false [0x0020] gd.bytes = true ∧ wellFormedDg false [0x0020] gx.bytes = true ∧ (parseDg g.bytes).module ≠ u.ownModule.toNat ∧ (parseDg gd.bytes).module ≠ u.ownModule.toNat ∧ (parseDg gx.bytes).module ≠ u.ownModule.toNat ∧ (parseDg gd.bytes).dataLen ≠ 0)) ∧
    (((parseDg g.bytes).dataLen = 0 ∧ (parseDg gx.bytes).dataLen = 0 ∧ u.fab.map = some table ∧ (table.entry (parseDg gx.bytes).module).valid = false ∧ (table.entry (parseDg g.bytes).module).valid = true) ∧
    (g.dstPort = u.settings.mgmtPort ∧ gd.dstPort = u.settings.mgmtPort ∧ gx.dstPort = u.settings.mgmtPort ∧ known g = some agent ∧ known gd = some agent ∧ known gx = some agent)) := by
  decide +kernel
end DatagramsAndBoot6

namespace DatagramsAndBoot7
def g : Datagram := ⟨(request 0x76 9 0x1FF 0 false).set 56 3, [1, 2, 3, 4], 5, 7460⟩
def s := State.reset
def u := s.advanceTo 9
def p := parseDg g.bytes
theorem witness_DatagramsAndBoot_7 :
    (s.quiet = true ∧ u.margin.hubOn = true ∧ u.margin.hubHeld = false ∧ u.hub.recovery = false) ∧
    (g.dstPort = u.settings.mgmtPort ∧ wellFormedDg false [0x0020] g.bytes = true ∧ (u.settings.agents.find? fun (a : Agent) => a.id == p.agent) = none ∧ p.module = u.ownModule.toNat ∧ (!(u.settings.agents.any fun (a : Agent) => a.right == 3#2 || a.id == p.agent) && p.code == 0x0076#16 && p.msg.target == 0#4 && Msg.argN 2 p.msg == 3) = true) := by
  decide +kernel
end DatagramsAndBoot7

namespace EveryCommandTakesEffect1
def cl : ClusterId := 255
def s : State := { State.reset with fuse := { State.reset.fuse with clusterOff := 2 ^ 255 } }
theorem witness_EveryCommandTakesEffect_1 :
    State.reset.hasCluster cl = true ∧ s.hasCluster cl = false := by
  decide +kernel
end EveryCommandTakesEffect1

/-- A request of agent 9 in the three cases above: its signer is the agent exactly where the signature check accepts (R471). -/
theorem signer_is_the_check (s : State) (bs : List Byte) (a : Agent)
    (h : (s.settings.agents.find? fun (x : Agent) => x.id == (parseDg bs).agent) = some a) :
    s.signer bs = if dgSigned a.key bs then some a else none := by
  unfold State.signer
  rw [h]

/-- A KEY_ENROL while no admin is enrolled: the bootstrap rule holds exactly where the signature check accepts (R541). -/
theorem bootstrap_is_the_check (s : State) (bs : List Byte)
    (h : (!(s.settings.agents.any fun (a : Agent) => a.right == 3#2 || a.id == (parseDg bs).agent) && (parseDg bs).code == 0x0076#16 &&
      (parseDg bs).msg.target == 0#4 && Msg.argN 2 (parseDg bs).msg == 3) = true) :
    s.bootstraps bs = dgSigned ((bytesOf (Msg.argList 3 15 (parseDg bs).msg)).take 57) bs := by
  simp only [State.bootstraps, h, Bool.true_and]

/-- A command at the front of the queue, and an empty queue. -/
theorem witness_StepTakesTheFrontCommand : ({ State.reset with pending := [.ptpSync 5] } : State).pending = .ptpSync 5 :: [] ∧ State.reset.pending = [] := by
  decide

/-- A state of the invariant with bytes listed, a job in the table, and a step that stores. -/
theorem witness_EveryStepKeepsTheCanonicalForm :
    (Memory.wf [(5, 1), (2 ^ 62, 2)] = true ∧ Memory.wf (partHeader 1 2 3) = true ∧ (withJob (running plate)).jobs.Pairwise (fun a b => a.1 < b.1)) ∧
      (after (step { withJob (running plate) with mem := [(5, 1), (2 ^ 62, 2)], staging := partHeader 1 2 3, pending := [.nop (msg 7 0 [] [])] })
        (fun t => t.outbox.length)) = some 1 := by
  decide +kernel

end Sys2Proof.Tests
end

section
/-! SUPPORT. How a command becomes an outcome: every command answers the state that its effect makes, finished; on a quiet module, nothing
follows an effect that keeps it quiet. -/

namespace Sys2Proof.Machine

/-! ## What every outcome keeps -/

@[simp] theorem State.finish_pending (s t : State) (now : Nat) : (s.finish now t).pending = s.pending := by simp only [State.finish]

@[simp] theorem State.finish_fuse (s t : State) (now : Nat) : (s.finish now t).fuse = s.fuse := by simp only [State.finish]

@[simp] theorem State.finish_time (s t : State) (now : Nat) : (s.finish now t).time = max s.time now := by simp only [State.finish]

/-- The outcome of a command is a finished state. -/
def State.Completes (s : State) (o : Host.Outcome State Fault Refusal) : Prop := ∃ now t, o = .next (s.finish now t)

theorem State.completes_happens (s : State) (now : Nat) (e : State → State) : s.Completes (s.happens now e) := ⟨now, _, rfl⟩

theorem exec_sramExternalAccess_enabled {s : State} {cl : ClusterId} (a : ExtAccess) (h : s.hasCluster cl = true) :
    exec (.sramExternalAccess cl a) s = s.onCluster cl s.time (fun s => s.external cl a) := if_pos h

theorem exec_sramExternalAccess_disabled {s : State} {cl : ClusterId} (a : ExtAccess) (h : s.hasCluster cl = false) :
    exec (.sramExternalAccess cl a) s = .fault .absentEngine := if_neg (by simp [h])

/-- Every arm of exec but one is an event of the module, a cluster or a port, whatever its operands; an access to an SRAM is one where
its cluster is enabled. -/
theorem exec_completes (i : Instr) (s : State) (h : ∀ cl a, i = .sramExternalAccess cl a → s.hasCluster cl = true) :
    s.Completes (exec i s) := by
  cases i with
  | sramExternalAccess cl a =>
    rw [exec_sramExternalAccess_enabled a (h cl a rfl)]
    exact s.completes_happens _ _
  | _ => exact ⟨_, _, rfl⟩

/-! ## Tables -/

theorem Table.mem_put {α : Type} {k : Nat} {v : α} {t : Table α} {e : Nat × α} (h : e ∈ Table.put k v t) : e = (k, v) ∨ e ∈ t := by
  induction t with
  | nil => exact .inl (by simpa [Table.put] using h)
  | cons x t ih =>
    obtain ⟨j, w⟩ := x
    simp only [Table.put] at h
    split at h
    · simpa using h
    · rcases List.mem_cons.mp h with rfl | h
      · exact .inr (by simp)
      · exact (ih h).imp_right (List.mem_cons_of_mem _)

theorem Table.mem_set {α : Type} [DecidableEq α] {d v : α} {k : Nat} {t : Table α} {e : Nat × α} (h : e ∈ Table.set d k v t) :
    e = (k, v) ∨ e ∈ t := by
  unfold Table.set at h
  split at h
  · exact .inr (List.mem_of_mem_filter h)
  · exact (Table.mem_put h).imp_right List.mem_of_mem_filter

/-- Updating the keys of a list, each from its own entry: an updated entry where the key is listed, the old one elsewhere. -/
theorem Table.get_foldl_update {α : Type} [DecidableEq α] (d : α) (g : Nat → α → α) (j : Nat) {ks : List Nat} (hk : ks.Nodup) (t : Table α) :
    Table.get d j (ks.foldl (fun t k => Table.set d k (g k (Table.get d k t)) t) t) =
      if j ∈ ks then g j (Table.get d j t) else Table.get d j t := by
  induction ks generalizing t with
  | nil => simp
  | cons k ks ih =>
    obtain ⟨hn, hk⟩ := List.nodup_cons.mp hk
    rw [List.foldl_cons, ih hk, Table.get_set]
    by_cases hj : j = k
    · subst hj; simp [hn]
    · simp [hj]

/-! ## Effects that leave the module quiet -/

/-- v is quiet, with the queue, the fuses and the network time of u. -/
def State.StaysQuiet (u v : State) : Prop := v.quiet = true ∧ v.pending = u.pending ∧ v.fuse = u.fuse ∧ v.time = u.time

theorem State.StaysQuiet.refl {u : State} (h : u.quiet = true) : u.StaysQuiet u := ⟨h, rfl, rfl, rfl⟩

/-- Ports and the hub are no part of what follows a command. -/
theorem State.StaysQuiet.portsHub {u v : State} (h : u.StaysQuiet v) (ps : Table PortState) (b : Hub) :
    u.StaysQuiet { v with ports := ps, hub := b } :=
  ⟨State.quiet_congr h.1 rfl rfl rfl rfl rfl rfl, h.2⟩

theorem State.StaysQuiet.modPort {u v : State} (h : u.StaysQuiet v) (p : Port) (g : PortState → PortState) :
    u.StaysQuiet (v.modPort p g) := h.portsHub _ _

/-- A change of the fabric that touches no frame of the module's own. -/
theorem State.StaysQuiet.modFab {u v : State} (h : u.StaysQuiet v) (g : Fabric → Fabric)
    (hg : ∀ b, (g b).selfEgress = b.selfEgress ∧ (g b).heldStream = b.heldStream ∧ (g b).unitHeld = b.unitHeld) :
    u.StaysQuiet (v.modFab g) := by
  obtain ⟨hq, h⟩ := h
  obtain ⟨h1, h2, h3⟩ := hg v.fab
  rw [State.quiet_iff] at hq
  exact ⟨(State.quiet_iff _).mpr (by simpa [State.modFab, h1, h2, h3] using hq), h⟩

/-- A change of a die that adds no signature of its own. -/
theorem State.StaysQuiet.modDie {u v : State} (h : u.StaysQuiet v) (d : Die) (g : DieState → DieState)
    (hg : (g (v.die d)).sigOwn = (v.die d).sigOwn) : u.StaysQuiet (v.modDie d g) := by
  obtain ⟨hq, h⟩ := h
  have hd := hg.trans (State.quiet_sigOwn hq d)
  refine ⟨?_, h⟩
  rw [State.quiet_iff] at hq ⊢
  obtain ⟨hj, hds, hrest⟩ := hq
  refine ⟨hj, fun e he => ?_, hrest⟩
  rcases Table.mem_set he with rfl | he
  · exact hd
  · exact hds e he

theorem State.StaysQuiet.happens {s : State} {now : Nat} {e : State → State}
    (h : (s.advanceTo now).StaysQuiet (e (s.advanceTo now))) : s.happens now e = .next (e (s.advanceTo now)) := by
  obtain ⟨hq, hp, hf, ht⟩ := h
  exact State.happens_quiet hq (by simp [hp]) (by simp [hf]) (by simp [ht])

theorem State.hasPort_advanceTo (p : Port) (now : Nat) (s : State) : (s.advanceTo now).hasPort p = s.hasPort p := by
  simp [State.hasPort]

theorem State.StaysQuiet.onPort {s : State} {p : Port} {now : Nat} {e : State → State} (hp : s.hasPort p = true)
    (h : (s.advanceTo now).StaysQuiet (e (s.advanceTo now))) : s.onPort p now e = .next (e (s.advanceTo now)) := by
  have hp' := (State.hasPort_advanceTo p now s).trans hp
  rw [State.onPort, State.StaysQuiet.happens (by rwa [if_pos hp']), if_pos hp']

theorem State.StaysQuiet.acts {s : State} {e : State → State} (h : s.StaysQuiet (e s)) : s.acts e = .next (e s) := by
  obtain ⟨hq, hp, hf, ht⟩ := h
  exact State.acts_quiet hq hp hf ht

end Sys2Proof.Machine

open Sys2Proof Sys2Proof.Machine

/-- Settles O59: exec answers a finished state, which has the queue and the fuses of the state before and no earlier time. -/
theorem everyCommandTakesEffect : Obligations.EveryCommandTakesEffect := by
  refine ⟨fun i s h => ?_, fun s cl a h => exec_sramExternalAccess_disabled a h⟩
  obtain ⟨now, t, e⟩ := exec_completes i s h
  exact ⟨s.finish now t, e, s.finish_pending t now, s.finish_fuse t now, by rw [s.finish_time]; exact Nat.le_max_left ..⟩
end

section
/-! SUPPORT. The congestion response, queue samples, policers and drains on a quiet module (14 R387, R390; 15 R405, R410, R413). -/

namespace Sys2Proof.Machine

/-! ## Congestion response (R387) -/

/-- The congestion response toward a rank, its bucket filled until now. -/
def State.filledEcn (no : JobNo) (r : Rank) (u : State) : EcnRate :=
  (Table.get EcnRate.reset (ecnKey no r) u.fab.ecn).fill (u.lineTo no r) u.time

theorem EcnRate.halve_due {e : EcnRate} {line now : Nat} (h : e.reduced = 0 ∨ e.reduced + 8000 ≤ now) :
    e.halve line now = { e with rate := max (min e.rate line / 2) 1000, reduced := now, lastEcho := now, raised := now } := if_pos h

theorem EcnRate.halve_recent {e : EcnRate} {line now : Nat} (h0 : e.reduced ≠ 0) (h : now < e.reduced + 8000) :
    e.halve line now = { e with lastEcho := now, raised := now } := if_neg (not_or.mpr ⟨h0, Nat.not_le.mpr h⟩)

theorem EcnRate.raise_long {e : EcnRate} {line now : Nat} (h : e.lastEcho + 1000000 ≤ now) :
    e.raise line now = { e with rate := line, raised := now } := if_pos h

theorem EcnRate.raise_step {e : EcnRate} {line now : Nat} (h : now < e.lastEcho + 1000000) (hr : e.raised + 20000 ≤ now) :
    e.raise line now = { e with rate := min (e.rate + 2500) line, raised := now } :=
  (if_neg (Nat.not_le.mpr h)).trans (if_pos hr)

/-- The module with another congestion response toward a rank and n more echoes received. -/
def State.withEcn (no : JobNo) (r : Rank) (n : Nat) (e : EcnRate) (u : State) : State :=
  { u with fab := { u.fab with ecn := Table.set EcnRate.reset (ecnKey no r) e u.fab.ecn, echoRx := u.fab.echoRx + n } }

theorem State.StaysQuiet.withEcn {u v : State} (h : u.StaysQuiet v) (no : JobNo) (r : Rank) (n : Nat) (e : EcnRate) :
    u.StaysQuiet (v.withEcn no r n e) := h.modFab _ fun _ => ⟨rfl, rfl, rfl⟩

theorem State.echoFrom_eq (no : JobNo) (r : Rank) (u : State) :
    u.echoFrom no r = u.withEcn no r 1 ((u.filledEcn no r).halve (u.lineTo no r) u.time) := by rfl

theorem exec_ecnEcho {s : State} (hq : s.quiet = true) (no : JobNo) (r : Rank) (now : Nat) :
    let u := s.advanceTo now
    exec (.ecnEcho no r now) s = .next (u.withEcn no r 1 ((u.filledEcn no r).halve (u.lineTo no r) u.time)) := by
  have e : exec (.ecnEcho no r now) s = s.happens now fun u => u.echoFrom no r := by rfl
  have h := (State.StaysQuiet.refl (State.advanceTo_quiet now hq)).withEcn no r 1
  rw [e, State.StaysQuiet.happens (by rw [State.echoFrom_eq]; exact h _), State.echoFrom_eq]

theorem exec_ecnRateStep {s : State} (hq : s.quiet = true) (no : JobNo) (r : Rank) (now : Nat) :
    let u := s.advanceTo now
    exec (.ecnRateStep no r now) s = .next (u.withEcn no r 0 ((u.filledEcn no r).raise (u.lineTo no r) u.time)) := by
  have e : exec (.ecnRateStep no r now) s =
      s.happens now fun u => u.withEcn no r 0 ((u.filledEcn no r).raise (u.lineTo no r) u.time) := by rfl
  rw [e]
  exact State.StaysQuiet.happens ((State.StaysQuiet.refl (State.advanceTo_quiet now hq)).withEcn ..)

/-! ## Queue samples (R410) -/

/-- An egress whose queues are sampled. -/
def Egress.sampled (now : Nat) (e : Egress) : Egress :=
  { e with qs := (List.range 5).foldl (fun t c => Table.set ⟨0, 0, 0, 0, 0⟩ c (e.sample now c) t) e.qs }

theorem Egress.get_sampled (now : Nat) (e : Egress) {c : Nat} (hc : c < 5) :
    Table.get ⟨0, 0, 0, 0, 0⟩ c (e.sampled now).qs = e.sample now c :=
  (Table.get_foldl_update _ (fun c _ => e.sample now c) c List.nodup_range e.qs).trans (if_pos (List.mem_range.mpr hc))

/-- A port that samples its queues when its period is over. -/
def PortState.sampled (now : Nat) (x : PortState) : PortState :=
  if now % (256 * max 1 x.egress.period.toNat) = 0 then { x with egress := x.egress.sampled now } else x

theorem exec_queueSample {s : State} (hq : s.quiet = true) {p : Port} (hp : s.hasPort p = true) (now : Nat) :
    let u := s.advanceTo now
    exec (.queueSample p now) s = .next (u.setPort p ((u.port p).sampled u.time)) := by
  have e : exec (.queueSample p now) s = s.onPort p now fun u => u.modPort p fun x => x.sampled u.time := by rfl
  rw [e]
  exact State.StaysQuiet.onPort hp ((State.StaysQuiet.refl (State.advanceTo_quiet now hq)).modPort ..)

/-! ## Policers (R405, R413) -/

/-- q' is the policer q after a write of v to a parameter: that parameter alone has changed, and both buckets are full. The effective rate
follows from all policers of the port. -/
def Policer.Written (par : PolicerParam) (v : Word) (now : Nat) (q q' : Policer) : Prop :=
  q'.cir = (if par = .cir then v else q.cir) ∧ q'.pir = (if par = .pir then v else q.pir) ∧ q'.cbs = (if par = .cbs then v else q.cbs) ∧
    q'.pbs = (if par = .pbs then v else q.pbs) ∧ q'.tc = 1000 * q'.cbs.toNat ∧ q'.tp = 1000 * q'.pbs.toNat ∧ q'.filled = now

/-- Full buckets stay full, for a fill at the instant of the write changes nothing. -/
theorem Policer.fill_put (par : PolicerParam) (v : Word) (now : Nat) (q : Policer) : (q.put par v now).fill now = q.put par v now := by
  simp [Policer.fill, fillBucket, Policer.put]

theorem Policer.written_put (par : PolicerParam) (v eff : Word) (now : Nat) (q : Policer) :
    q.Written par v now { (q.put par v now).fill now with eff := eff } := by
  rw [Policer.fill_put]
  cases par <;> simp [Policer.Written, Policer.put]

/-- Events of the classes l of a port, with their configured and effective rates. -/
def State.sayRates (p : Port) (code : BitVec 16) (conf eff : Nat → Nat) (l : List Nat) (s : State) : State :=
  l.foldl (fun s i => s.sayRate p code i (conf i) (eff i)) s

/-- Events change the hub alone. -/
theorem State.sayRates_hub (p : Port) (code : BitVec 16) (conf eff : Nat → Nat) (l : List Nat) (s : State) :
    ∃ h, s.sayRates p code conf eff l = { s with hub := h } := by
  induction l generalizing s with
  | nil => exact ⟨s.hub, by simp only [State.sayRates, List.foldl_nil]⟩
  | cons i l ih =>
    obtain ⟨h, e⟩ := ih (s.sayRate p code i (conf i) (eff i))
    refine ⟨h, ?_⟩
    rw [State.sayRates, List.foldl_cons, ← State.sayRates, e]
    simp only [State.sayRate, State.log, State.append, State.modHub]

/-- An egress with its yielded classes y and its effective rates eff; the buckets have filled until now at the old ones. -/
def Egress.rated (now : Nat) (y : List Nat) (eff : Nat → Nat) (e : Egress) : Egress :=
  { e with
    yielded := y
    policers := [0, 1, 2].foldl (fun t i =>
      Table.set Policer.reset i { (Table.get Policer.reset i t).fill now with eff := BitVec.ofNat 32 (eff i) } t) e.policers }

theorem Egress.get_rated (now : Nat) (y : List Nat) (eff : Nat → Nat) (e : Egress) {i : Nat} (hi : i < 3) :
    Table.get Policer.reset i (e.rated now y eff).policers =
      { (Table.get Policer.reset i e.policers).fill now with eff := BitVec.ofNat 32 (eff i) } :=
  (Table.get_foldl_update Policer.reset (fun i q => { q.fill now with eff := BitVec.ofNat 32 (eff i) }) i (by decide) e.policers).trans
    (if_pos (by simp; omega))

/-- The module with the rated egress of a port. -/
def State.rated (p : Port) (y : List Nat) (eff : Nat → Nat) (s : State) : State :=
  s.modPort p fun x => { x with egress := x.egress.rated s.time y eff }

/-- The effective rates of a port follow, and each class that yields or is restored has its event. -/
theorem State.rates_eq (p : Port) (s : State) : ∃ (y : List Nat) (conf eff : Nat → Nat) (l₁ l₂ : List Nat),
    s.rates p = ((s.rated p y eff).sayRates p Code.rateYielded conf eff l₁).sayRates p Code.rateRestored conf eff l₂ := by
  unfold State.rates
  exact ⟨_, _, _, _, _, rfl⟩

/-- The effective rates change the egress of the port and the hub alone. -/
theorem State.rates_rated (p : Port) (s : State) : ∃ y eff h, s.rates p = { s.rated p y eff with hub := h } := by
  obtain ⟨y, conf, eff, l₁, l₂, e⟩ := State.rates_eq p s
  obtain ⟨h₁, e₁⟩ := State.sayRates_hub p Code.rateYielded conf eff l₁ (s.rated p y eff)
  obtain ⟨h₂, e₂⟩ := State.sayRates_hub p Code.rateRestored conf eff l₂ { s.rated p y eff with hub := h₁ }
  exact ⟨y, eff, h₂, by rw [e, e₁, e₂]⟩

/-- A port with a parameter of a policer written. -/
def PortState.putPolicer (i : Nat) (par : PolicerParam) (v : Word) (now : Nat) (x : PortState) : PortState :=
  let t := Table.set Policer.reset i ((Table.get Policer.reset i x.egress.policers).put par v now) x.egress.policers
  { x with egress := { x.egress with policers := t } }

theorem State.policerWrite_eq (p : Port) (i : Nat) (par : PolicerParam) (v : Word) (s : State) :
    s.policerWrite p i par v = (s.modPort p (PortState.putPolicer i par v s.time)).rates p := by rfl

/-- A write of a policer's parameter changes the egress of the port, in which that policer is written, and the hub. -/
theorem State.policerWrite_written (p : Port) {i : Nat} (hi : i < 3) (par : PolicerParam) (v : Word) (s : State) :
    ∃ x h, s.policerWrite p i par v = { s.setPort p x with hub := h } ∧
      Policer.Written par v s.time (Table.get Policer.reset i (s.port p).egress.policers) (Table.get Policer.reset i x.egress.policers) := by
  rw [State.policerWrite_eq]
  obtain ⟨y, eff, h, e⟩ := State.rates_rated p (s.modPort p (PortState.putPolicer i par v s.time))
  refine ⟨_, h, by rw [e, State.rated, State.modPort, State.modPort, State.setPort_setPort], ?_⟩
  rw [Egress.get_rated _ _ _ _ hi, State.port_setPort_same]
  simp only [PortState.putPolicer, Table.get_set_same]
  exact Policer.written_put par v _ s.time _

theorem State.port_setPort_hub (p : Port) (x : PortState) (h : Hub) (s : State) :
    State.port p { s.setPort p x with hub := h } = x := State.port_setPort_same p x s

theorem PolicedClass.index_lt (cls : PolicedClass) : PolicedClass.index cls < 3 := by cases cls <;> decide

theorem exec_policerParamWrite {s : State} (hq : s.quiet = true) (p : Port) (cls : PolicedClass) (par : PolicerParam) (v : Word) (now : Nat) :
    let u := s.advanceTo now
    ∃ x h, exec (.policerParamWrite p cls par v now) s = .next { u.setPort p x with hub := h } ∧
      Policer.Written par v u.time (Table.get Policer.reset (PolicedClass.index cls) (u.port p).egress.policers)
        (Table.get Policer.reset (PolicedClass.index cls) x.egress.policers) := by
  have e : exec (.policerParamWrite p cls par v now) s = s.happens now fun u => u.policerWrite p (PolicedClass.index cls) par v := by rfl
  obtain ⟨x, h, hw, hx⟩ := State.policerWrite_written p (PolicedClass.index_lt cls) par v (s.advanceTo now)
  have hs := (State.StaysQuiet.refl (State.advanceTo_quiet now hq)).portsHub ((s.advanceTo now).setPort p x).ports h
  exact ⟨x, h, by rw [e, State.StaysQuiet.happens (by rw [hw]; exact hs), hw], hx⟩

/-! ## Drains (R390) -/

theorem State.drainedNow_of {u : State}
    (hempty : ∀ p : Port, 2 ≤ (u.port p).role.toNat → (∀ c < 5, (u.port p).egress.queue c = []) ∧ (u.port p).egress.sending = none ∧
      (u.port p).txUnits = [] ∧ (u.port p).retryBuf = [])
    (hway : ∀ p, ∀ l ∈ (u.port p).lookups, l.looked = false → ∀ q, Dest.port q ∈ u.dests (some p) l.f → (u.port q).role.toNat < 2) :
    u.drainedNow = true := by
  unfold State.drainedNow
  simp only [List.all_eq_true, Bool.and_eq_true]
  intro p _
  constructor
  · simp only [Bool.not_eq_true', List.any_eq_false, Bool.and_eq_true, List.any_eq_true, not_and, not_exists]
    intro l hl hlooked d hd
    cases d with
    | port q =>
      have hq := hway p l hl (by simpa using hlooked) q hd
      exact fun h => absurd (of_decide_eq_true h) (Nat.not_le.mpr hq)
    | _ => simp
  · by_cases hr : 2 ≤ (u.port p).role.toNat
    · obtain ⟨hq, hs, ht, hb⟩ := hempty p hr
      simp only [hs, ht, hb]
      simpa using .inr hq
    · have h01 : (u.port p).role = 0 ∨ (u.port p).role = 1 := by
        have h2 := Nat.lt_of_not_le hr
        bv_omega
      rcases h01 with h | h <;> simp [h]

theorem exec_drained {s : State} {now : Nat} (hq : s.quiet = true) (hst : (s.advanceTo now).fab.st = .draining)
    (hd : (s.advanceTo now).drainedNow = true) :
    exec (.drained now) s = .next ((s.advanceTo now).modFab fun b => { b with st := .drained }) := by
  have e : exec (.drained now) s = s.happens now fun s =>
    if s.fab.st = .draining ∧ s.drainedNow then s.modFab fun b => { b with st := .drained } else s := by rfl
  have h := (State.StaysQuiet.refl (State.advanceTo_quiet now hq)).modFab (fun b => { b with st := .drained }) fun _ => ⟨rfl, rfl, rfl⟩
  rw [e, State.StaysQuiet.happens (by rwa [if_pos ⟨hst, hd⟩]), if_pos ⟨hst, hd⟩]

theorem State.StaysQuiet.log {u v : State} (h : u.StaysQuiet v) (code : BitVec 16) (cls : BitVec 4) (unit : BitVec 16) (job : JobNo)
    (detail : Word) : u.StaysQuiet (v.log code cls unit job detail) := h.portsHub v.ports _

/-- The last record of the event log is the one just written. -/
theorem State.log_getLast? (code : BitVec 16) (cls : BitVec 4) (unit : BitVec 16) (job : JobNo) (detail : Word) (s : State) :
    (s.log code cls unit job detail).hub.events.getLast? = some (s.event code cls unit job detail) := by
  have e : (s.log code cls unit job detail).hub.events = pushRing 1024 (s.event code cls unit job detail) s.hub.events := by
    simp only [State.log, State.append]
  rw [e, pushRing, List.getLast?_drop, if_neg (by simp), List.getLast?_concat]

theorem exec_drainTimeout {s : State} {now : Nat} (hq : s.quiet = true) (hst : (s.advanceTo now).fab.st = .draining)
    (htold : (s.advanceTo now).fab.drainTold = false) (hat : (s.advanceTo now).fab.drainAt + 10000000 ≤ (s.advanceTo now).time) :
    exec (.drainTimeout now) s =
      .next (((s.advanceTo now).modFab fun b => { b with drainTold := true }).log Code.drainTimeout clsModule 0 0 0) := by
  have e : exec (.drainTimeout now) s = s.happens now fun s =>
    if s.fab.st = .draining ∧ !s.fab.drainTold ∧ s.fab.drainAt + 10000000 ≤ s.time then
      (s.modFab fun b => { b with drainTold := true }).log Code.drainTimeout clsModule 0 0 0
    else s := by rfl
  have h := ((State.StaysQuiet.refl (State.advanceTo_quiet now hq)).modFab (fun b => { b with drainTold := true })
    fun _ => ⟨rfl, rfl, rfl⟩).log Code.drainTimeout clsModule 0 0 0
  have hc : (s.advanceTo now).fab.st = .draining ∧ (!(s.advanceTo now).fab.drainTold) = true ∧
    (s.advanceTo now).fab.drainAt + 10000000 ≤ (s.advanceTo now).time := ⟨hst, by simp [htold], hat⟩
  rw [e, State.StaysQuiet.happens (by rwa [if_pos hc]), if_pos hc]

end Sys2Proof.Machine

open Sys2Proof Sys2Proof.Machine

/-- Settles O40: on a quiet module nothing follows the effect of a command, so its outcome is that effect; the clauses are then the cases of
the effects of the six commands. -/
theorem congestionIsAnswered : Obligations.CongestionIsAnswered := by
  intro s now hq
  refine ⟨fun no rank => ⟨?_, ?_, ?_, ?_⟩, fun p hp => ⟨?_, ?_⟩, fun p cls par v => ?_, fun hst => ⟨?_, ?_⟩⟩
  · intro hdue
    rw [exec_ecnEcho hq, EcnRate.halve_due (e := State.filledEcn no rank _) hdue]
    rfl
  · intro h0 hrecent
    rw [exec_ecnEcho hq, EcnRate.halve_recent (e := State.filledEcn no rank _) h0 hrecent]
    rfl
  · intro hlong
    rw [exec_ecnRateStep hq, EcnRate.raise_long (e := State.filledEcn no rank _) hlong]
    rfl
  · intro hshort hraise
    rw [exec_ecnRateStep hq, EcnRate.raise_step (e := State.filledEcn no rank _) hshort hraise]
    rfl
  · intro hper
    refine ⟨_, exec_queueSample hq hp now, ?_, fun c hc => ?_⟩
    · rw [State.port_setPort_same, PortState.sampled, if_pos hper]
      rfl
    · rw [State.port_setPort_same, PortState.sampled, if_pos hper]
      exact Egress.get_sampled _ _ hc
  · intro hper
    rw [exec_queueSample hq hp, PortState.sampled, if_neg hper]
  · obtain ⟨x, h, e, hx⟩ := exec_policerParamWrite hq p cls par v now
    refine ⟨_, e, by rw [State.port_setPort_hub], ?_⟩
    rw [State.port_setPort_hub]
    cases cls <;> exact hx
  · intro hempty hway
    exact exec_drained hq hst (State.drainedNow_of hempty hway)
  · intro htold hat
    refine ⟨_, exec_drainTimeout hq hst htold hat, ?_, ?_, ?_⟩
    · rfl
    · rfl
    · rw [State.log_getLast?]
      rfl

end

section
/-! SUPPORT. Register addresses, and what a read of a register returns after a write (18 R452 to R454; 14 R392; 15 R414; 13 R366). -/

namespace Sys2Proof.Machine

/-! ## Addresses (R452) -/

/-- The region of die n begins at 0x1000_0000 (n + 1). -/
theorem blockOf_die {n o : Nat} (hn : n < 4) (ho : o < 0x10000000) : blockOf (0x10000000 * (n + 1) + o) =
    if o < 0x1000 then some (.mbx (BitVec.ofNat 2 n) (o / 256), o % 256)
    else if o < 0x1008 then some (.mbxSum (BitVec.ofNat 2 n), o - 0x1000)
    else if o < 0x100000 then none
    else if o < 0x200000 then some (.syn (BitVec.ofNat 2 n), o - 0x100000)
    else if o < 0x300000 then some (.bpm (BitVec.ofNat 2 n), o - 0x200000)
    else if o < 0x300040 then some (.mem (BitVec.ofNat 2 n), o - 0x300000)
    else if o < 0x400000 then none
    else if o < 0x401000 then some (.wz (BitVec.ofNat 6 (16 * n + (o - 0x400000) / 256)), o % 256)
    else if o < 0x500000 then none
    else if o < 0x502000 then some (.tc (BitVec.ofNat 6 (16 * n + (o - 0x500000) / 512)), o % 512)
    else none := by
  have hdiv : (0x10000000 * (n + 1) + o) / 0x10000000 - 1 = n := by omega
  have hmod : (0x10000000 * (n + 1) + o) % 0x10000000 = o := by omega
  unfold blockOf
  rw [if_neg (by omega), if_neg (by omega), if_neg (by omega), if_neg (by omega), if_neg (by omega), hdiv, hmod]

theorem blockOf_mbx (d : Die) {k o : Nat} (hk : k < 16) (ho : o < 256) :
    blockOf (0x10000000 * (d.toNat + 1) + 256 * k + o) = some (.mbx d k, o) := by
  have hdiv : (256 * k + o) / 256 = k := by omega
  have hmod : (256 * k + o) % 256 = o := by omega
  rw [Nat.add_assoc, blockOf_die d.isLt (by omega), if_pos (by omega), hdiv, hmod, BitVec.ofNat_toNat, BitVec.setWidth_eq]

theorem blockOf_mbxDone (d : Die) : blockOf (0x10000000 * (d.toNat + 1) + 0x1000) = some (.mbxSum d, 0) := by
  rw [blockOf_die d.isLt (by omega), if_neg (by omega), if_pos (by omega), BitVec.ofNat_toNat, BitVec.setWidth_eq]

theorem blockOf_wz (p : Port) {o : Nat} (ho : o < 256) :
    blockOf (0x10000000 * (p.toNat / 16 + 1) + 0x400000 + 256 * (p.toNat % 16) + o) = some (.wz p, o) := by
  have hp : 16 * (p.toNat / 16) + (0x400000 + 256 * (p.toNat % 16) + o - 0x400000) / 256 = p.toNat := by omega
  have hmod : (0x400000 + 256 * (p.toNat % 16) + o) % 256 = o := by omega
  rw [Nat.add_assoc, Nat.add_assoc, ← Nat.add_assoc 0x400000, blockOf_die (by omega) (by omega)]
  simp (disch := omega) only [if_neg, if_pos, hp, hmod, BitVec.ofNat_toNat, BitVec.setWidth_eq]

/-- Where the FAB_TC registers of a port begin. -/
def tcBase (p : Port) : Nat := 0x10000000 * (p.toNat / 16 + 1) + 0x500000 + 512 * (p.toNat % 16)

theorem blockOf_tc (p : Port) {o : Nat} (ho : o < 512) :
    blockOf (tcBase p + o) = some (.tc p, o) := by
  have hp : 16 * (p.toNat / 16) + (0x500000 + 512 * (p.toNat % 16) + o - 0x500000) / 512 = p.toNat := by omega
  have hmod : (0x500000 + 512 * (p.toNat % 16) + o) % 512 = o := by omega
  rw [tcBase, Nat.add_assoc, Nat.add_assoc, ← Nat.add_assoc 0x500000, blockOf_die (by omega) (by omega)]
  simp (disch := omega) only [if_neg, if_pos, hp, hmod, BitVec.ofNat_toNat, BitVec.setWidth_eq]

/-! ## Writes and reads by block -/

/-- A write of a word of a block outside the mailboxes. -/
theorem State.registerWrite_block {a o : Nat} {b : Block} (ha : a % 4 = 0) (hb : blockOf a = some (b, o)) (hm : ∀ d k, b ≠ .mbx d k)
    (v : Word) (s : State) : s.registerWrite a v = s.writeReg a v := by
  rw [State.registerWrite, if_neg (by simp [ha]), hb]
  split
  · rename_i h
    exact absurd (congrArg Prod.fst (Option.some.inj h)) (hm _ _)
  · rfl

theorem exec_registerWrite {s t : State} {a : BitVec 32} {v : Word} (hw : s.registerWrite a.toNat v = t) (ht : s.StaysQuiet t) :
    exec (.registerWrite a v) s = .next t := by
  have e : exec (.registerWrite a v) s = s.acts fun s => s.registerWrite a.toNat v := by rfl
  rw [e, State.StaysQuiet.acts (by rw [hw]; exact ht), hw]

/-- A write of v at a changes the fabric, the ports, the dies and the hub alone, and a read of a then returns shown. -/
def State.ReadsBack (s : State) (v : Word) (a : BitVec 32) (shown : Word) : Prop :=
  ∃ t, exec (.registerWrite a v) s = .next t ∧
    t = { s with fab := t.fab, ports := t.ports, dies := t.dies, hub := t.hub } ∧ t.readReg a.toNat = shown

theorem State.readsBack_of_block {s t : State} {v : Word} {a : BitVec 32} {shown : Word} {b : Block} {o : Nat} (ha : a.toNat % 4 = 0)
    (hb : blockOf a.toNat = some (b, o)) (hm : ∀ d k, b ≠ .mbx d k) (hw : s.writeReg a.toNat v = t) (ht : s.StaysQuiet t)
    (hf : t = { s with fab := t.fab, ports := t.ports, dies := t.dies, hub := t.hub }) (hr : t.readReg a.toNat = shown) :
    s.ReadsBack v a shown :=
  ⟨t, exec_registerWrite ((State.registerWrite_block ha hb hm v s).trans hw) ht, hf, hr⟩

/-! ### The fields of registers -/

/-- A field of the n low bits of a register word. -/
theorem setWidth_setWidth32 (v : Word) {n : Nat} (hn : n ≤ 32) : (v.setWidth n).setWidth 32 = v &&& BitVec.ofNat 32 (2 ^ n - 1) := by
  have hpow : 2 ^ n ≤ 2 ^ 32 := Nat.pow_le_pow_right (by decide) hn
  have hpos : 0 < 2 ^ n := Nat.two_pow_pos n
  apply BitVec.eq_of_toNat_eq
  rw [BitVec.toNat_setWidth, BitVec.toNat_setWidth, BitVec.toNat_and, BitVec.toNat_ofNat, Nat.mod_eq_of_lt (a := 2 ^ n - 1) (by omega),
    Nat.and_two_pow_sub_one_eq_mod, Nat.mod_eq_of_lt ((Nat.mod_lt _ hpos).trans_le hpow)]

theorem w32_b2n_getLsbD_zero (v : Word) : w32 (b2n (v.getLsbD 0)) = v &&& 1 := by
  apply BitVec.eq_of_toNat_eq
  have h : (v &&& 1).toNat = v.toNat % 2 := (BitVec.toNat_and v 1).trans (Nat.and_one_is_mod v.toNat)
  rw [h, w32, b2n, BitVec.toNat_ofNat, BitVec.getLsbD, Nat.testBit_zero]
  by_cases hv : v.toNat % 2 = 1
  · simp [hv]
  · simp [Nat.mod_two_ne_one.mp hv]

/-- The low half of a drop profile reads back as it was written. -/
theorem RedProf.reg_put_low (v : Word) (r : RedProf) : w32 (RedProf.reg (r.put false v)) = v := by
  apply BitVec.eq_of_toNat_eq
  simp only [w32, RedProf.reg, RedProf.put, Bool.false_eq_true, if_false, BitVec.toNat_ofNat, BitVec.toNat_setWidth,
    BitVec.toNat_ushiftRight, Nat.shiftRight_eq_div_pow]
  omega

/-! ### The fabric (R392) -/

theorem State.StaysQuiet.writeFab {s : State} (hq : s.quiet = true) (o : Nat) (v : Word) : s.StaysQuiet (s.writeFab o v) := by
  refine (State.StaysQuiet.refl hq).modFab _ fun b => ?_
  split_ifs <;> exact ⟨rfl, rfl, rfl⟩

theorem State.readsBack_fab {s : State} (hq : s.quiet = true) {v : Word} {a : BitVec 32} {shown : Word} {o : Nat} (ha : a.toNat % 4 = 0)
    (hb : blockOf a.toNat = some (.fab, o)) (hr : (s.writeFab o v).fabReg o = shown) : s.ReadsBack v a shown := by
  have hw : s.writeReg a.toNat v = s.writeFab o v := by rw [State.writeReg, hb]
  exact State.readsBack_of_block ha hb (by simp) hw (.writeFab hq o v) rfl (by rw [State.readReg, hb]; exact hr)

/-! ### Ports (R366, R414) -/

theorem State.writeTc_period (p : Port) (v : Word) (s : State) : s.writeTc p 0x14 v =
    { s.setPort p { s.port p with egress := { (s.port p).egress with period := v.setWidth 16 } } with hub := s.hub } := by rfl

theorem State.tcReg_period (p : Port) (s : State) : s.tcReg p 0x14 = (s.port p).egress.period.setWidth 32 := by rfl

theorem State.writeTc_wexp (p : Port) (v : Word) (s : State) : s.writeTc p 0x90 v =
    { s.setPort p { s.port p with egress := { (s.port p).egress with wexp := v.setWidth 8 } } with hub := s.hub } := by rfl

theorem State.tcReg_wexp (p : Port) (s : State) : s.tcReg p 0x90 = (s.port p).egress.wexp.setWidth 32 := by rfl

/-- A write of the low half of the first drop profile. -/
def PortState.putRedLow (v : Word) (x : PortState) : PortState :=
  let t := Table.set RedProf.reset 0 ((Table.get RedProf.reset 0 x.egress.red).put false v) x.egress.red
  { x with egress := { x.egress with red := t } }

theorem State.writeTc_red (p : Port) (v : Word) (s : State) :
    s.writeTc p 0x60 v = { s.setPort p ((s.port p).putRedLow v) with hub := s.hub } := by rfl

theorem State.tcReg_red (p : Port) (s : State) :
    s.tcReg p 0x60 = w32 (RedProf.reg (Table.get RedProf.reset 0 (s.port p).egress.red)) := by rfl

theorem State.readsBack_tc {s : State} (hq : s.quiet = true) {v : Word} (p : Port) {o : BitVec 32} {shown : Word} (ho : o.toNat < 512)
    (h4 : o.toNat % 4 = 0) {x : PortState} {h : Hub} (hw : s.writeTc p o.toNat v = { s.setPort p x with hub := h })
    {reg : PortState → Word} (hr : ∀ t : State, t.tcReg p o.toNat = reg (t.port p)) (hx : reg x = shown) :
    s.ReadsBack v (BitVec.ofNat 32 (tcBase p) + o) shown := by
  have ha : (BitVec.ofNat 32 (tcBase p) + o).toNat =
      tcBase p + o.toNat := by
    rw [BitVec.toNat_add, BitVec.toNat_ofNat, tcBase]
    omega
  have hb := (congrArg blockOf ha).trans (blockOf_tc p ho)
  refine State.readsBack_of_block (by rw [ha, tcBase]; omega) hb (by simp) (by rw [State.writeReg, hb]; exact hw)
    ((State.StaysQuiet.refl hq).portsHub _ h) rfl ?_
  rw [State.readReg, hb]
  exact (hr _).trans ((congrArg reg (State.port_setPort_hub p x h s)).trans hx)

/-- A parameter of a policer. -/
def Policer.param (par : PolicerParam) (q : Policer) : Word :=
  match par with
  | .cir => q.cir
  | .pir => q.pir
  | .cbs => q.cbs
  | .pbs => q.pbs

theorem Policer.Written.param {par : PolicerParam} {v : Word} {now : Nat} {q q' : Policer} (h : q.Written par v now q') :
    q'.param par = v := by
  obtain ⟨hcir, hpir, hcbs, hpbs, -⟩ := h
  cases par with
  | cir => exact hcir
  | pir => exact hpir
  | cbs => exact hcbs
  | pbs => exact hpbs

theorem State.readsBack_policer {s : State} (hq : s.quiet = true) {v : Word} (p : Port) {o : BitVec 32} {i : Nat} {par : PolicerParam}
    (ho : o.toNat < 512) (h4 : o.toNat % 4 = 0) (hi : i < 3) (hw : s.writeTc p o.toNat v = s.policerWrite p i par v)
    (hr : ∀ t : State, t.tcReg p o.toNat = (Table.get Policer.reset i (t.port p).egress.policers).param par) :
    s.ReadsBack v (BitVec.ofNat 32 (tcBase p) + o) v := by
  obtain ⟨x, h, e, hx⟩ := State.policerWrite_written p hi par v s
  exact State.readsBack_tc hq p ho h4 (hw.trans e)
    (reg := fun x => (Table.get Policer.reset i x.egress.policers).param par) hr hx.param

theorem State.readsBack_wz {s : State} (hq : s.quiet = true) {v : Word} {p : Port} (hp : s.hasPort p = false) :
    s.ReadsBack v (BitVec.ofNat 32 (0x10000000 * (p.toNat / 16 + 1) + 0x400004 + 256 * (p.toNat % 16))) (v &&& 1) := by
  have ha : (BitVec.ofNat 32 (0x10000000 * (p.toNat / 16 + 1) + 0x400004 + 256 * (p.toNat % 16))).toNat =
      0x10000000 * (p.toNat / 16 + 1) + 0x400000 + 256 * (p.toNat % 16) + 4 := by
    rw [BitVec.toNat_ofNat]
    omega
  have hb := (congrArg blockOf ha).trans (blockOf_wz p (by omega))
  have hw : s.writeWz p 4 v = s.modPort p fun x => { x with disable := v.getLsbD 0 } := by simp [State.writeWz, hp]
  refine State.readsBack_of_block (by rw [ha]; omega) hb (by simp) (by rw [State.writeReg, hb]; exact hw)
    ((State.StaysQuiet.refl hq).modPort ..) rfl ?_
  rw [State.readReg, hb]
  have hr : ∀ t : State, t.wzReg p 4 = w32 (b2n (t.port p).disable) := fun t => by simp [State.wzReg]
  exact (hr _).trans (by rw [State.port_modPort_same]; exact w32_b2n_getLsbD_zero v)

/-! ### Mailboxes and dies (R453, R454) -/

/-- The module with an argument of a mailbox written. -/
def State.putArg (d : Die) (k i : Nat) (v : Word) (s : State) : State :=
  let x := Table.get Mailbox.reset k (s.die d).mbx
  s.modDie d fun z => { z with mbx := Table.set Mailbox.reset k { x with args := Table.set 0 i v x.args } z.mbx }

theorem State.writeMailbox_arg {d : Die} {k i : Nat} (hi : i < 28) {s : State}
    (hbusy : (Table.get Mailbox.reset k (s.die d).mbx).status ≠ Code.busy) (hreset : (s.die d).inReset = false) (v : Word) :
    s.writeMailbox d k (0x10 + 4 * i) v = s.putArg d k i v := by
  have hdiv : (0x10 + 4 * i - 0x10) / 4 = i := by omega
  rw [State.writeMailbox]
  simp only
  rw [if_neg (by simp [hbusy, hreset]), if_neg (by omega), if_neg (by omega), if_pos (by omega), hdiv]
  rfl

theorem State.readsBack_arg {s : State} (hq : s.quiet = true) {v : Word} {d : Die} {k i : Nat} (hk : k < 16) (hi : i < 28)
    (hbusy : (Table.get Mailbox.reset k (s.die d).mbx).status ≠ Code.busy) (hreset : (s.die d).inReset = false) :
    s.ReadsBack v (BitVec.ofNat 32 (0x10000000 * (d.toNat + 1) + 256 * k + 0x10 + 4 * i)) v := by
  have hd := d.isLt
  have ha : (BitVec.ofNat 32 (0x10000000 * (d.toNat + 1) + 256 * k + 0x10 + 4 * i)).toNat =
      0x10000000 * (d.toNat + 1) + 256 * k + (0x10 + 4 * i) := by
    rw [BitVec.toNat_ofNat]
    omega
  have hb := (congrArg blockOf ha).trans (blockOf_mbx d hk (by omega))
  have hdiv : (0x10 + 4 * i - 0x10) / 4 = i := by omega
  refine ⟨s.putArg d k i v, exec_registerWrite ?_ ((State.StaysQuiet.refl hq).modDie d _ rfl), rfl, ?_⟩
  · rw [State.registerWrite, if_neg (by rw [ha]; omega), hb]
    exact State.writeMailbox_arg hi hbusy hreset v
  · rw [State.readReg, hb]
    simp only [State.putArg, State.die_modDie_same, Table.get_set_same]
    rw [Mailbox.reg, if_neg (by omega), if_neg (by omega), if_neg (by omega), if_neg (by omega), if_pos (by omega), hdiv,
      Table.get_set_same]

theorem State.StaysQuiet.clearDoneBits {s : State} (hq : s.quiet = true) (d : Die) (mask : BitVec 16) :
    s.StaysQuiet (s.clearDoneBits d mask) := (State.StaysQuiet.refl hq).modDie d _ rfl

theorem exec_mbxDoneClear {s : State} (hq : s.quiet = true) (d : Die) (mask : BitVec 16) :
    exec (.mbxDoneClear d mask) s = .next (s.clearDoneBits d mask) := by
  have e : exec (.mbxDoneClear d mask) s = s.acts fun s => s.clearDoneBits d mask := by rfl
  rw [e, State.StaysQuiet.acts (.clearDoneBits hq d mask)]

theorem exec_registerWrite_mbxDone {s : State} (hq : s.quiet = true) (d : Die) (mask : BitVec 16) :
    exec (.registerWrite (BitVec.ofNat 32 (0x10000000 * (d.toNat + 1) + 0x1000)) (mask.setWidth 32)) s =
      .next (s.clearDoneBits d mask) := by
  have hd := d.isLt
  have ha : (BitVec.ofNat 32 (0x10000000 * (d.toNat + 1) + 0x1000)).toNat = 0x10000000 * (d.toNat + 1) + 0x1000 := by
    rw [BitVec.toNat_ofNat]
    omega
  have hb := (congrArg blockOf ha).trans (blockOf_mbxDone d)
  have hw : ((mask.setWidth 32).setWidth 16 : BitVec 16) = mask := by simp
  refine exec_registerWrite ?_ (.clearDoneBits hq d mask)
  rw [State.registerWrite_block (by rw [ha]; omega) hb (by simp), State.writeReg, hb]
  exact congrArg (fun m => s.clearDoneBits d m) hw

theorem blockOf_readOnly {a : Nat} (ha : a < 0x10000 ∨ (0x20000 ≤ a ∧ a < 0x40000)) :
    ∃ b o, blockOf a = some (b, o) ∧ (b = .fuse ∨ b = .hat ∨ b = .mgn) := by
  unfold blockOf
  by_cases h1 : a < 0x10000
  · exact ⟨.fuse, a, if_pos h1, .inl rfl⟩
  · rw [if_neg h1, if_neg (by omega)]
    by_cases h2 : a < 0x30000
    · exact ⟨.hat, _, if_pos h2, .inr (.inl rfl)⟩
    · rw [if_neg h2, if_pos (by omega)]
      exact ⟨.mgn, _, rfl, .inr (.inr rfl)⟩

/-- The blocks FUSE, HAT and MGN are read-only (R11, R415, R492). -/
theorem exec_registerWrite_readOnly {s : State} (hq : s.quiet = true) (v : Word) {a : BitVec 32}
    (ha : a.toNat < 0x10000 ∨ (0x20000 ≤ a.toNat ∧ a.toNat < 0x40000)) : exec (.registerWrite a v) s = .next s := by
  refine exec_registerWrite ?_ (.refl hq)
  by_cases h4 : a.toNat % 4 = 0
  · obtain ⟨b, o, hb, hro⟩ := blockOf_readOnly ha
    rcases hro with rfl | rfl | rfl <;> rw [State.registerWrite_block h4 hb (by simp), State.writeReg, hb]
  · rw [State.registerWrite, if_pos h4]

end Sys2Proof.Machine

open Sys2Proof Sys2Proof.Machine

/-- Settles O41: block by block, a write reaches its field, and the read of the same address shows that field. -/
theorem registersReadBack : Obligations.RegistersReadBack := by
  intro s v hq
  refine ⟨?_, ?_, ?_, ?_, fun p hp => State.readsBack_wz hq hp, fun p => ⟨?_, ?_, ?_, ?_, ?_⟩,
    fun a ha => exec_registerWrite_readOnly hq v ha, fun d k i hk hi hbusy hreset => State.readsBack_arg hq hk hi hbusy hreset,
    fun d mask => ⟨exec_mbxDoneClear hq d mask, exec_registerWrite_mbxDone hq d mask⟩⟩
  · exact ⟨s.writeFab 0x10 v, exec_registerWrite rfl (.writeFab hq 0x10 v), rfl, rfl⟩
  · exact State.readsBack_fab hq (o := 0x14) rfl rfl (setWidth_setWidth32 v (n := 16) (by decide))
  · exact State.readsBack_fab hq (o := 0x18) rfl rfl (setWidth_setWidth32 v (n := 16) (by decide))
  · exact State.readsBack_fab hq (o := 0x1C) rfl rfl (setWidth_setWidth32 v (n := 16) (by decide))
  · exact State.readsBack_tc hq p (by decide) (by decide) (State.writeTc_period p v s) (reg := fun x => x.egress.period.setWidth 32)
      (State.tcReg_period p) (setWidth_setWidth32 v (n := 16) (by decide))
  · exact State.readsBack_tc hq p (by decide) (by decide) (State.writeTc_wexp p v s) (reg := fun x => x.egress.wexp.setWidth 32)
      (State.tcReg_wexp p) (setWidth_setWidth32 v (n := 8) (by decide))
  · exact State.readsBack_policer hq p (i := 0) (par := .cir) (by decide) (by decide) (by decide) rfl fun _ => rfl
  · exact State.readsBack_policer hq p (i := 2) (par := .pbs) (by decide) (by decide) (by decide) rfl fun _ => rfl
  · refine State.readsBack_tc hq p (by decide) (by decide) (State.writeTc_red p v s)
      (reg := fun x => w32 (RedProf.reg (Table.get RedProf.reset 0 x.egress.red))) (State.tcReg_red p) ?_
    simp only [PortState.putRedLow, Table.get_set_same]
    exact RedProf.reg_put_low v _
end

section
/-! SUPPORT. The end of a cluster's step under its pace limiter (06 R139, R141, R145, R161; 04 R110 to R112). -/

namespace Sys2Proof.Machine

/-! ## Events of clusters that leave the module quiet -/

theorem State.hasCluster_advanceTo (c : ClusterId) (now : Nat) (s : State) : (s.advanceTo now).hasCluster c = s.hasCluster c := by
  simp [State.hasCluster]

/-- Clusters are no part of what follows a command. -/
theorem State.StaysQuiet.setClu {u v : State} (h : u.StaysQuiet v) (c : ClusterId) (k : Cluster) : u.StaysQuiet (v.setClu c k) := by
  obtain ⟨hq, h⟩ := h
  exact ⟨State.quiet_congr hq rfl rfl rfl rfl rfl rfl, h⟩

theorem State.StaysQuiet.onCluster {s : State} {c : ClusterId} {now : Nat} {e : State → State} (hc : s.hasCluster c = true)
    (h : (s.advanceTo now).StaysQuiet (e (s.advanceTo now))) : s.onCluster c now e = .next (e (s.advanceTo now)) := by
  have hc' := (State.hasCluster_advanceTo c now s).trans hc
  rw [State.onCluster, State.StaysQuiet.happens (by rwa [if_pos hc']), if_pos hc']

/-! ## Stall steps and the pace limiter (R110 to R112, R141) -/

theorem Cluster.stallsAt_noTile {k : Cluster} (h : k.tiles = []) (t : Nat) : k.stallsAt t = 0 := by
  rw [Cluster.stallsAt, h, List.foldl_nil]

/-- A tile whose one entry of stall steps is for step t adds them in that step. -/
theorem Cluster.stallsAt_oneTile {k : Cluster} {x : Tile} {j n t : Nat} (h : k.tiles = [x]) (hs : x.stalls = [(j, n)])
    (ht : x.issue + j = t) : k.stallsAt t = n := by
  simp [Cluster.stallsAt, h, hs, ht]

/-- The limiter's instant: a period for the step itself, and one for each of its stall steps. -/
theorem Cluster.paceEnd_eq (k : Cluster) : k.paceEnd = k.lastStepEnd + k.stepPs + k.stallsAt k.stepCount * k.stepPs :=
  Nat.add_right_comm ..

theorem Cluster.paceEnd_noTile {k : Cluster} (h : k.tiles = []) : k.paceEnd = k.lastStepEnd + k.stepPs := by
  rw [Cluster.paceEnd_eq, Cluster.stallsAt_noTile h, Nat.zero_mul, Nat.add_zero]

theorem Cluster.paceEnd_oneTile {k : Cluster} {x : Tile} {j n : Nat} (h : k.tiles = [x]) (hs : x.stalls = [(j, n)])
    (hj : x.issue + j = k.stepCount) : k.paceEnd = k.lastStepEnd + k.stepPs + n * k.stepPs := by
  rw [Cluster.paceEnd_eq, Cluster.stallsAt_oneTile h hs hj]

theorem Cluster.mayEnd_iff (now : Nat) (k : Cluster) : k.mayEnd now = true ↔ k.gstate = .running ∧ k.paceEnd < 1000 * (now + 1) := by
  simp [Cluster.mayEnd]

theorem Cluster.accessesAt_idle {k : Cluster} (hi : k.inflight = []) (ht : k.tiles = []) (t : Nat) : k.accessesAt t = k.accesses := by
  simp [Cluster.accessesAt, hi, ht]

/-- A step without a tile has no stall steps, and its accesses are those so far. -/
theorem Cluster.endStep_noTile {k : Cluster} (hi : k.inflight = []) (ht : k.tiles = []) (now cap : Nat) :
    k.endStep now cap = { k with
      stepCount := k.stepCount + 1, stepCap := BitVec.ofNat 16 cap, accesses := []
      conflict := k.conflict + (if bankClash k.accesses then 1 else 0)
      lastStepEnd := max (k.lastStepEnd + k.stepPs) (1000 * now) } := by
  simp [Cluster.endStep, Cluster.paceEnd_noTile ht, Cluster.stallsAt_noTile ht, Cluster.accessesAt_idle hi ht, ht]

/-- A step with stall steps of its tile counts them, and no bank conflict. -/
theorem Cluster.endStep_stalled {k : Cluster} {x : Tile} {j n : Nat} (ht : k.tiles = [x]) (hs : x.stalls = [(j, n)])
    (hj : x.issue + j = k.stepCount) (hn : 0 < n) (now cap : Nat) :
    k.endStep now cap = { k with
      stepCount := k.stepCount + 1, stepCap := BitVec.ofNat 16 cap, accesses := []
      arrayStall := k.arrayStall + n, imprStall := k.imprStall + n, tiles := [{ x with stalls := [] }]
      lastStepEnd := max (k.lastStepEnd + k.stepPs + n * k.stepPs) (1000 * now) } := by
  simp [Cluster.endStep, Cluster.paceEnd_oneTile ht hs hj, Cluster.stallsAt_oneTile ht hs hj, ht, hs, hj, hn.ne']

/-! ## The end of a step (R139, R161, R176) -/

/-- Where no result is in flight and no tile is due, nothing lands. -/
theorem State.landDue_none {c : ClusterId} {k : Cluster} {n : Nat} (u : State) (hi : k.inflight = []) (ht : ∀ x ∈ k.tiles, n < x.land) :
    (u.setClu c k).landDue c n = (u.setClu c k, none) := by
  have hdue : k.tiles.filter (fun t => decide (t.land ≤ n)) = [] := by
    simpa [List.filter_eq_nil_iff] using ht
  have hlater : k.tiles.filter (fun t => decide (n < t.land)) = k.tiles := by
    simpa [List.filter_eq_self] using ht
  have hd : dueBefore n k.inflight = [] := by rw [hi]; rfl
  simp only [State.landDue, State.clu_setClu_same, hdue, List.foldl_nil]
  rw [hd]
  simp only [List.foldl_nil, State.modClu, State.clu_setClu_same, State.setClu_setClu, hlater, hi, List.filter_nil]
  rw [← hi]

theorem State.endIfLanded_runs {c : ClusterId} {s : State} (h : (s.clu c).ending = none) : s.endIfLanded c = s := by
  simp only [State.endIfLanded, h]

theorem State.tryIssue_noBundle {c : ClusterId} {s : State} (h : (s.clu c).fetchQ = []) : s.tryIssue c = s := by
  simp only [State.tryIssue, h, ite_self]

theorem State.stepEnd_waits {c : ClusterId} {s : State} (h : (s.clu c).mayEnd s.time = false) : s.stepEnd c = s :=
  if_neg (by simp [h])

/-- A cluster whose step ends now, under the cap that its die applies. -/
def State.endedStep (c : ClusterId) (u : State) : Cluster :=
  (u.clu c).endStep u.time (u.margin.capApplied.getD c.die.toNat 85)

/-- A step that may end, with nothing to land, no fault, no ending impression and no bundle to issue: its counts, and the snapshot for the
step that begins. -/
theorem State.stepEnd_ends {c : ClusterId} {u : State} (hm : (u.clu c).mayEnd u.time = true) (hi : (u.clu c).inflight = [])
    (ht : ∀ x ∈ (u.clu c).tiles, (u.clu c).stepCount < x.land) (hd : (u.clu c).dueFault = none) (he : (u.clu c).ending = none)
    (hf : (u.clu c).fetchQ = []) :
    u.stepEnd c = u.setClu c { u.endedStep c with snap := (u.setClu c (u.endedStep c)).statusBlock c } := by
  have hi' : (u.endedStep c).inflight = [] := hi
  have hd' : (u.endedStep c).dueFault = none := hd
  have ht' : ∀ x ∈ (u.endedStep c).tiles, (u.clu c).stepCount < x.land := by
    intro x hx
    obtain ⟨y, hy, rfl⟩ := List.mem_map.mp hx
    exact ht y hy
  have hland : (u.setClu c (u.endedStep c)).landDue c (u.clu c).stepCount = (u.setClu c (u.endedStep c), none) :=
    State.landDue_none u hi' ht'
  have hsnap : (u.setClu c (u.endedStep c)).snapshot c =
      u.setClu c { u.endedStep c with snap := (u.setClu c (u.endedStep c)).statusBlock c } := by
    simp only [State.snapshot, State.modClu, State.clu_setClu_same, State.setClu_setClu]
  have hstep : u.stepEnd c = (((u.setClu c (u.endedStep c)).snapshot c).endIfLanded c).tryIssue c := by
    rw [State.endedStep] at hland hd' ⊢
    rw [State.stepEnd, if_pos hm, hland]
    simp only [State.clu_setClu_same, hd']
  rw [hstep, hsnap, State.endIfLanded_runs, State.tryIssue_noBundle]
  · rw [State.clu_setClu_same]; exact hf
  · rw [State.clu_setClu_same]; exact he

/-! ## CLUSTER_STEP_END (R21) -/

theorem exec_clusterStepEnd (cl : ClusterId) (now : Nat) (s : State) :
    exec (.clusterStepEnd cl now) s = s.onCluster cl now fun s => s.stepEnd cl := by rfl

theorem exec_clusterStepEnd_waits {s : State} (hq : s.quiet = true) {cl : ClusterId} (hc : s.hasCluster cl = true) {now : Nat}
    (h : ((s.advanceTo now).clu cl).mayEnd (s.advanceTo now).time = false) :
    exec (.clusterStepEnd cl now) s = .next (s.advanceTo now) := by
  have hw := State.stepEnd_waits h
  rw [exec_clusterStepEnd, State.StaysQuiet.onCluster hc (by rw [hw]; exact .refl (State.advanceTo_quiet now hq)), hw]

theorem exec_clusterStepEnd_ends {s : State} (hq : s.quiet = true) {cl : ClusterId} (hc : s.hasCluster cl = true) {now : Nat} {u : State}
    (hu : s.advanceTo now = u) {k' : Cluster} (hk : u.endedStep cl = k') (hm : (u.clu cl).mayEnd u.time = true)
    (hi : (u.clu cl).inflight = []) (ht : ∀ x ∈ (u.clu cl).tiles, (u.clu cl).stepCount < x.land) (hd : (u.clu cl).dueFault = none)
    (he : (u.clu cl).ending = none) (hf : (u.clu cl).fetchQ = []) :
    exec (.clusterStepEnd cl now) s = .next (u.setClu cl { k' with snap := (u.setClu cl k').statusBlock cl }) := by
  subst hu hk
  have hs := State.stepEnd_ends hm hi ht hd he hf
  have hquiet := (State.StaysQuiet.refl (State.advanceTo_quiet now hq)).setClu cl
    { (s.advanceTo now).endedStep cl with snap := ((s.advanceTo now).setClu cl ((s.advanceTo now).endedStep cl)).statusBlock cl }
  rw [exec_clusterStepEnd, State.StaysQuiet.onCluster hc (by rw [hs]; exact hquiet), hs]

end Sys2Proof.Machine

open Sys2Proof Sys2Proof.Machine

/-- Settles O20: by whether the core runs and the limiter's instant has come; where the step ends, its counts are those of endStep, without a
tile and with one that stalls. -/
theorem clusterStepEnds : Obligations.ClusterStepEnds := by
  intro s cl now hq hc u k period due ends base hi hd he hf
  have waits : (k.gstate = .running → 1000 * (u.time + 1) ≤ k.paceEnd) → exec (.clusterStepEnd cl now) s = .next u := fun h =>
    exec_clusterStepEnd_waits hq hc <| Bool.eq_false_iff.mpr fun hm =>
      have ⟨hg, hlt⟩ := (Cluster.mayEnd_iff u.time k).mp hm
      Nat.not_lt.mpr (h hg) hlt
  refine ⟨fun hg hdue ht => ?_, fun x j n hg ht hs hj hn hlate => ?_, fun h => waits fun hg => ?_⟩
  · have hm : k.mayEnd u.time = true := (Cluster.mayEnd_iff ..).mpr ⟨hg, (Cluster.paceEnd_noTile ht).trans_lt hdue⟩
    have hland : ∀ y ∈ k.tiles, k.stepCount < y.land := fun y hy => absurd (ht ▸ hy) List.not_mem_nil
    exact exec_clusterStepEnd_ends hq hc rfl (Cluster.endStep_noTile hi ht ..) hm hi hland hd he hf
  · have hpace : k.paceEnd = due + n * period := Cluster.paceEnd_oneTile ht hs hj
    refine ⟨fun hdue => ?_, fun hdue => waits fun _ => hdue.trans_eq hpace.symm⟩
    have hm : k.mayEnd u.time = true := (Cluster.mayEnd_iff ..).mpr ⟨hg, hpace.trans_lt hdue⟩
    have hland : ∀ y ∈ k.tiles, k.stepCount < y.land := by
      rw [ht]
      exact List.forall_mem_singleton.mpr hlate
    exact exec_clusterStepEnd_ends hq hc rfl (Cluster.endStep_stalled ht hs hj hn ..) hm hi hland hd he hf
  · calc 1000 * (u.time + 1) ≤ due := h.resolve_left (not_not_intro hg)
      _ ≤ due + k.stallsAt k.stepCount * k.stepPs := Nat.le_add_right ..
      _ = k.paceEnd := k.paceEnd_eq.symm
end

section
/-! SUPPORT. A step of the module: the command at the front of the queue, or a tick of the clock (01 R25; log entry 5). -/

namespace Sys2Proof.Machine

theorem step_command {s : State} {c : Instr} {cs : List Instr} (h : s.pending = c :: cs) : step s = exec c { s with pending := cs } := by
  rw [step, h]

theorem step_tick {s : State} (h : s.pending = []) : step s = s.tick := by
  rw [step, h]

/-- A tick answers the module finished 1 ns later. -/
theorem State.tick_eq (s : State) : s.tick = .next (s.finish (s.time + 1) (s.advanceTo (s.time + 1)).hubGo) := by rfl

end Sys2Proof.Machine

open Sys2Proof Sys2Proof.Machine

/-- Settles O57: a finished state has the queue of the state before and the later of the two instants. -/
theorem stepTakesTheFrontCommand : Obligations.StepTakesTheFrontCommand := by
  refine ⟨fun c cs s h => step_command h, fun s h => ?_⟩
  refine ⟨_, (step_tick h).trans s.tick_eq, ?_, ?_⟩
  · rw [State.finish_pending, h]
  · rw [State.finish_time]
    exact Nat.max_eq_right (Nat.le_succ s.time)
end

section
/-! SUPPORT. Words that only compute, on a ready cluster: the binary32 operations of the scalar slot and the conversions and the reduction of the
vector slot (03 R95 to R99; 07 R177, R182, R192). -/

namespace Sys2Proof.Machine

open Sys2Proof.Claims

/-! ## Plans that only compute -/

/-- A plan whose one effect is its results: it meets no condition, waits for nothing, acts on nothing, and reads no SRAM. -/
def Plan.OnlyComputes (P : Plan) : Prop :=
  P.conds = [] ∧ P.gap ≤ 6 ∧ P.hold = .none ∧ P.fail = none ∧ P.act = .none ∧ P.tile = none ∧ P.conf = []

/-- A closing word on a ready cluster books the results of its plan, where the plan only computes and the fetch of the bundle does not change
it. -/
theorem State.books_of_plan {i : Instr} {s : State} {p : Place} {slot : Nat} {op : Byte} {w : Fields} {n : Nat} (P : Cluster → Plan)
    (hi : exec i s = s.slotWord p slot op w)
    (hp : (s.atIssue p n (oneWord p slot op w)).plan p.cl (oneWord p slot op w) ⟨slot, op, w⟩ =
      P ((s.atIssue p n (oneWord p slot op w)).clu p.cl))
    (hfetch : ∀ b, P ((s.clu p.cl).fetched n b) = P (s.clu p.cl)) (hs : slot ≠ 0) (hl : (⟨slot, op, w⟩ : SlotWord).legal = true)
    (hn : (if w.wide then 10 else 6) = n) (hcl : Closes n p s) (hP : (P (s.clu p.cl)).OnlyComputes) (hT : (P (s.clu p.cl)).targets ≠ []) :
    Books i n slot (P (s.clu p.cl)).lat (P (s.clu p.cl)).targets (P (s.clu p.cl)).flags p s := by
  obtain ⟨hc, hg, hh, hf, ha, ht, hv⟩ := hP
  rw [State.clu_atIssue, hfetch] at hp
  exact State.slotWord_books hi hcl hn hl hs (by rw [hp]; exact ⟨hc, hg, hh, hf, ha, ht, hv, rfl, rfl, rfl⟩) hT

/-- A word is legal where its opcode has a form whose conditions its fields meet (R167). -/
theorem SlotWord.legal_of_form {slot : Nat} {op : Byte} {w : Fields} {u : Form} (hu : form slot op.toNat = some u) (hw : w.wide = u.wide)
    (hd : u.d = true ∨ w.d = 0) (ha : u.a = true ∨ w.a = 0) (hb : u.b = true ∨ w.b = 0) (hc : u.c = true ∨ w.c = 0)
    (hm : w.mod.toNat < max u.md 1) (hok : u.ok w = true) : (⟨slot, op, w⟩ : SlotWord).legal = true := by
  simp only [SlotWord.legal, hu, Bool.and_eq_true, Bool.or_eq_true, beq_iff_eq, decide_eq_true_eq]
  exact ⟨⟨⟨⟨⟨⟨hw, hd⟩, ha⟩, hb⟩, hc⟩, hm⟩, hok⟩

/-! ## Binary32 operations of the scalar slot (R95, R177) -/

theorem planF1_fetched (n : Nat) (b : Bundle) (k : Cluster) (w : Fields) (g : Word → Word × NFlags) :
    planF1 (k.fetched n b) w g = planF1 k w g := by
  obtain ⟨-, hf, -⟩ := Cluster.fetched_regs n b k
  simp only [planF1, hf]

theorem planF2_fetched (n : Nat) (b : Bundle) (k : Cluster) (w : Fields) (g : Word → Word → Word × NFlags) :
    planF2 (k.fetched n b) w g = planF2 k w g := by
  obtain ⟨-, hf, -⟩ := Cluster.fetched_regs n b k
  simp only [planF2, hf]

theorem planFfma_fetched (n : Nat) (b : Bundle) (k : Cluster) (w : Fields) : planFfma (k.fetched n b) w = planFfma k w := by
  obtain ⟨-, hf, -⟩ := Cluster.fetched_regs n b k
  simp only [planFfma, hf]

section
variable {i : Instr} {s : State} {p : Place} {op : Byte} {w : Fields} {lat grp gap : Nat}

/-- An operation of one register books its result and its flags after its latency. -/
theorem State.books_f1 (g : Word → Word × NFlags) (hi : exec i s = s.slotWord p 1 op w)
    (hplan : ∀ (t : State) c k, t.scalarPlan c k ⟨1, op, w⟩ = { planF1 k w g with lat := lat, group := grp, gap := gap })
    (hform : form 1 op.toNat = some { wide := false, d := true, a := true }) (hgap : gap ≤ 6) (hcl : Closes 6 p s) (hw : w.wide = false)
    (hm : w.mod = 0) (hb : w.b = 0) (hc : w.c = 0) :
    let r := g ((s.clu p.cl).fr w.a)
    Books i 6 1 lat [.f w.d r.1] r.2 p s :=
  State.books_of_plan (fun k => { planF1 k w g with lat := lat, group := grp, gap := gap }) hi (hplan ..)
    (fun b => by rw [planF1_fetched]) one_ne_zero
    (SlotWord.legal_of_form hform hw (.inl rfl) (.inl rfl) (.inr hb) (.inr hc) (by simp [hm]) rfl) (by simp [hw]) hcl
    ⟨rfl, hgap, rfl, rfl, rfl, rfl, rfl⟩ (by simp [planF1])

/-- An operation of two registers books its result and its flags after its latency. -/
theorem State.books_f2 (g : Word → Word → Word × NFlags) (hi : exec i s = s.slotWord p 1 op w)
    (hplan : ∀ (t : State) c k, t.scalarPlan c k ⟨1, op, w⟩ = { planF2 k w g with lat := lat, group := grp, gap := gap })
    (hform : form 1 op.toNat = some { wide := false, d := true, a := true, b := true }) (hgap : gap ≤ 6) (hcl : Closes 6 p s)
    (hw : w.wide = false) (hm : w.mod = 0) (hc : w.c = 0) :
    let r := g ((s.clu p.cl).fr w.a) ((s.clu p.cl).fr w.b)
    Books i 6 1 lat [.f w.d r.1] r.2 p s :=
  State.books_of_plan (fun k => { planF2 k w g with lat := lat, group := grp, gap := gap }) hi (hplan ..)
    (fun b => by rw [planF2_fetched]) one_ne_zero
    (SlotWord.legal_of_form hform hw (.inl rfl) (.inl rfl) (.inl rfl) (.inr hc) (by simp [hm]) rfl) (by simp [hw]) hcl
    ⟨rfl, hgap, rfl, rfl, rfl, rfl, rfl⟩ (by simp [planF2])

/-- FFMA books the sum of a product and a third register, rounded once. -/
theorem State.books_ffma (hcl : Closes 6 p s) (hw : w.wide = false) (hm : w.mod = 0) :
    let r := f32fma ((s.clu p.cl).fr w.a) ((s.clu p.cl).fr w.b) ((s.clu p.cl).fr w.c)
    Books (.ffma p w) 6 1 4 [.f w.d r.1] r.2 p s :=
  State.books_of_plan (slot := 1) (op := 0x23) (planFfma · w) rfl rfl (fun b => planFfma_fetched ..) one_ne_zero
    (SlotWord.legal_of_form (slot := 1) (op := 0x23) (u := { wide := false, d := true, a := true, b := true, c := true }) rfl hw
      (.inl rfl) (.inl rfl) (.inl rfl) (.inl rfl) (by simp [hm]) rfl)
    (by simp [hw]) hcl ⟨rfl, by simp [planFfma], rfl, rfl, rfl, rfl, rfl⟩ (by simp [planFfma])

end

/-! ## Conversions and the reduction of the vector slot (R96 to R99, R182) -/

theorem enOf_fetched (n : Nat) (b : Bundle) (k : Cluster) (w : Fields) : enOf (k.fetched n b) w = enOf k w := by
  obtain ⟨-, -, -, hm, -⟩ := Cluster.fetched_regs n b k
  exact hm _

theorem State.planVcvt_fetched (n off : Nat) (b : Bundle) (k : Cluster) (w : Fields) (s : State) :
    s.planVcvt (k.fetched n b) off w = s.planVcvt k off w := by
  obtain ⟨hx, -, hv, -, hcx, hj, -⟩ := Cluster.fetched_regs n b k
  simp only [State.planVcvt, planV, enOf_fetched, scaleOperand, hx, hv, hcx, hj]

theorem State.planVcvt_atIssue (p : Place) (n off : Nat) (b : Bundle) (k : Cluster) (w : Fields) (s : State) :
    (s.atIssue p n b).planVcvt k off w = s.planVcvt k off w := by
  simp only [State.planVcvt, State.atIssue_plate]

theorem planVdec_fetched (n : Nat) (b : Bundle) (k : Cluster) (w : Fields) : planVdec (k.fetched n b) w = planVdec k w := by
  obtain ⟨hx, -, hv, -⟩ := Cluster.fetched_regs n b k
  simp only [planVdec, planV, enOf_fetched, scaleOperand, hx, hv]

theorem planVsplit3_fetched (n : Nat) (b : Bundle) (k : Cluster) (w : Fields) : planVsplit3 (k.fetched n b) w = planVsplit3 k w := by
  obtain ⟨-, -, hv, -⟩ := Cluster.fetched_regs n b k
  unfold planVsplit3
  rw [enOf_fetched, hv]

theorem planVred_fetched (n : Nat) (b : Bundle) (k : Cluster) (w : Fields) : planVred (k.fetched n b) w = planVred k w := by
  obtain ⟨-, -, hv, -⟩ := Cluster.fetched_regs n b k
  unfold planVred
  rw [enOf_fetched, hv]

/-- What VCVT computes of a lane: the conversion into g, with its scale, its rounding, and the draw of the lane's element. -/
def State.vcvtLane (k : Cluster) (w : Fields) (g : Fmt) (s : State) (l : Nat) : Word × NFlags :=
  let i := ((k.xr w.c).toNat + l) % 2 ^ 64
  let seed := ((s.plate k.job).map (·.seed)).getD 0
  let rd := if w.imm.getLsbD 4 then Rounding.draw (drawWord seed i k.cx.tensor k.cx.step k.cx.rank k.cx.use) else .nearest
  let r := convert g rd (w.imm.getLsbD 5) (scaleOperand k w (k.vr w.b) l) (laneOf (k.vr w.a) l)
  (BitVec.ofNat 32 r.1, r.2)

theorem State.planVcvt_eq {k : Cluster} {w : Fields} {g : Fmt} (hg : Fmt.ofCode (w.imm.toNat % 16) = some g)
    (huse : useCodeOk k.cx.use = true) (off : Nat) (s : State) :
    s.planVcvt k off w = planV k w [.v w.a, scaleReg w, .x w.c, .cx] (lanes (enOf k w) (s.vcvtLane k w g)) 8 16 := by
  simp only [State.planVcvt, hg, huse, if_true, planV]
  unfold State.vcvtLane
  rfl

/-- What VDEC computes of a lane: the scaled decode of the code in its low bits. -/
def vdecLane (k : Cluster) (w : Fields) (g : Fmt) (l : Nat) : Word × NFlags :=
  decodeScaled g (scaleOperand k w (k.vr w.b) l) ((laneOf (k.vr w.a) l).toNat % 2 ^ g.bits)

theorem planVdec_eq {k : Cluster} {w : Fields} {g : Fmt} (hg : Fmt.ofCode (w.imm.toNat % 16) = some g) :
    planVdec k w = planV k w [.v w.a, scaleReg w] (lanes (enOf k w) (vdecLane k w g)) 6 17 := by
  simp only [planVdec, hg]
  unfold vdecLane
  rfl

theorem planV_onlyComputes (k : Cluster) (w : Fields) (reads : List Reg) (r : List Word × NFlags) (lat grp : Nat) :
    (planV k w reads r lat grp).OnlyComputes := ⟨rfl, by simp [planV], rfl, rfl, rfl, rfl, rfl⟩

/-- The codes of the formats begin at 1 (R114). -/
theorem Fmt.one_le_of_ofCode {n : Nat} {g : Fmt} (h : Fmt.ofCode n = some g) : 1 ≤ n := by
  rcases n with _ | n
  · exact absurd h (by simp [Fmt.ofCode])
  · omega

/-- The immediate of a conversion word with a format that its code names (R182). -/
theorem cvtImm_of {dec : Bool} {w : Fields} {g : Fmt} (hg : Fmt.ofCode (w.imm.toNat % 16) = some g) (h5 : w.imm.toNat % 16 ≤ 5)
    (h128 : w.imm.toNat < 128) (h4 : dec = true → w.imm.getLsbD 4 = false)
    (hsat : w.imm.getLsbD 5 = true → dec = false ∧ w.imm.toNat % 16 = 3) : cvtImm dec w = true := by
  have h1 := Fmt.one_le_of_ofCode hg
  simp only [cvtImm, Bool.and_eq_true, Bool.or_eq_true, decide_eq_true_eq, Bool.not_eq_true', beq_iff_eq]
  refine ⟨⟨⟨⟨h1, h5⟩, h128⟩, ?_⟩, ?_⟩
  · cases dec
    · exact .inl rfl
    · exact .inr (h4 rfl)
  · cases hs : w.imm.getLsbD 5
    · exact .inl rfl
    · exact .inr (hsat hs)

section
variable {s : State} {p : Place} {w : Fields} {g : Fmt}

theorem State.books_vcvt (hcl : Closes 10 p s) (hw : w.wide = true) (hm : w.mod.toNat < 8) (hg : Fmt.ofCode (w.imm.toNat % 16) = some g)
    (hok : cvtImm false w = true) (huse : useCodeOk (s.clu p.cl).cx.use = true) :
    let k := s.clu p.cl
    let r := lanes (enOf k w) (s.vcvtLane k w g)
    Books (.vcvt p w) 10 2 8 [.v w.d r.1 (enOf k w)] r.2 p s := by
  have hplan := State.planVcvt_eq hg huse ((oneWord p 2 0x12 w).offset 2) s
  have h := State.books_of_plan (i := .vcvt p w) (slot := 2) (op := 0x12) (s.planVcvt · ((oneWord p 2 0x12 w).offset 2) w) rfl
    (State.planVcvt_atIssue ..) (fun b => State.planVcvt_fetched ..) two_ne_zero
    (SlotWord.legal_of_form rfl hw (.inl rfl) (.inl rfl) (.inl rfl) (.inl rfl) hm hok) (by simp [hw]) hcl
    (by rw [hplan]; exact planV_onlyComputes ..) (by rw [hplan]; simp [planV])
  simpa only [hplan, planV] using h

theorem State.books_vdec (hcl : Closes 10 p s) (hw : w.wide = true) (hm : w.mod.toNat < 8) (hg : Fmt.ofCode (w.imm.toNat % 16) = some g)
    (hok : cvtImm true w = true) (hc : w.c = 0) :
    let k := s.clu p.cl
    let r := lanes (enOf k w) (vdecLane k w g)
    Books (.vdec p w) 10 2 6 [.v w.d r.1 (enOf k w)] r.2 p s := by
  have hplan := planVdec_eq (k := s.clu p.cl) hg
  have h := State.books_of_plan (i := .vdec p w) (slot := 2) (op := 0x13) (planVdec · w) rfl rfl
    (fun b => planVdec_fetched ..) two_ne_zero
    (SlotWord.legal_of_form rfl hw (.inl rfl) (.inl rfl) (.inl rfl) (.inr hc) hm hok) (by simp [hw]) hcl
    (by rw [hplan]; exact planV_onlyComputes ..) (by rw [hplan]; simp [planV])
  simpa only [hplan, planV] using h

theorem State.books_vsplit3 (hcl : Closes 6 p s) (hw : w.wide = false) (hm : w.mod.toNat < 8) (hb : w.b = 0) (hc : w.c = 0)
    (hd : w.d.toNat ≤ 29) :
    let k := s.clu p.cl
    let en := enOf k w
    let r := (List.range 512).map fun l => if en.getLsbD l then split3 (laneOf (k.vr w.a) l) else ((0, 0, 0), NFlags.none)
    Books (.vsplit3 p w) 6 2 10
      [ .v w.d (r.map fun x => BitVec.ofNat 32 x.1.1) en, .v (w.d + 1) (r.map fun x => BitVec.ofNat 32 x.1.2.1) en
      , .v (w.d + 2) (r.map fun x => BitVec.ofNat 32 x.1.2.2) en ] (orFlags (r.map (·.2))) p s := by
  have h := State.books_of_plan (i := .vsplit3 p w) (slot := 2) (op := 0x14) (planVsplit3 · w) rfl rfl (fun b => planVsplit3_fetched ..)
    two_ne_zero (SlotWord.legal_of_form rfl hw (.inl rfl) (.inl rfl) (.inr hb) (.inr hc) hm (decide_eq_true hd)) (by simp [hw]) hcl
    ⟨rfl, by simp [planVsplit3], rfl, rfl, rfl, rfl, rfl⟩ (by simp [planVsplit3])
  simpa only [planVsplit3] using h

theorem State.books_vred (hcl : Closes 6 p s) (hw : w.wide = false) (hm : w.mod.toNat < 8) (hb : w.b = 0) (hc : w.c.toNat ≤ 3) :
    let k := s.clu p.cl
    let en := enOf k w
    let r := reduceLanes w.c.toNat ((List.range 512).map fun l => (laneOf (k.vr w.a) l, en.getLsbD l))
    Books (.vred p w) 6 2 14 [.f w.d r.1] r.2 p s := by
  have h := State.books_of_plan (i := .vred p w) (slot := 2) (op := 0x15) (planVred · w) rfl rfl (fun b => planVred_fetched ..) two_ne_zero
    (SlotWord.legal_of_form rfl hw (.inl rfl) (.inl rfl) (.inr hb) (.inl rfl) hm (decide_eq_true hc)) (by simp [hw]) hcl
    ⟨rfl, by simp [planVred], rfl, rfl, rfl, rfl, rfl⟩ (by simp [planVred])
  simpa only [planVred] using h

end

end Sys2Proof.Machine

open Sys2Proof Sys2Proof.Machine

/-- Settles O3: by the operations of two registers, of one, and of three. -/
theorem floatOpsBookTheirResult : Obligations.FloatOpsBookTheirResult := by
  intro s p w hcl hw hm
  refine ⟨fun e he hc => ?_, fun e he hb hc => ?_, ?_⟩
  · simp only [Claims.f2Ops, List.mem_cons, List.not_mem_nil, or_false] at he
    rcases he with rfl | rfl | rfl | rfl | rfl | rfl <;>
      exact State.books_f2 _ rfl (fun _ _ _ => rfl) rfl (by decide) hcl hw hm hc
  · simp only [Claims.f1Ops, List.mem_cons, List.not_mem_nil, or_false] at he
    rcases he with rfl | rfl | rfl | rfl <;>
      exact State.books_f1 _ rfl (fun _ _ _ => rfl) rfl (by decide) hcl hw hm hb hc
  · intro r
    exact State.books_ffma hcl hw hm

/-- Settles O9: the conversions are legal with an immediate of R182, and each of the four words books what its plan computes. -/
theorem vectorConversionsBook : Obligations.VectorConversionsBook := by
  intro s p w k en a scale
  refine ⟨fun g hcl hw hm hg h5 h128 => ⟨fun huse hsat => ?_, fun hc h4 hs => ?_⟩, fun hcl hw hm hb => ⟨fun hc hd => ?_, fun hc => ?_⟩⟩
  · exact State.books_vcvt hcl hw hm hg (cvtImm_of hg h5 h128 (by simp) fun h => ⟨rfl, hsat h⟩) huse
  · exact State.books_vdec hcl hw hm hg (cvtImm_of hg h5 h128 (fun _ => h4) fun h => absurd h (Bool.eq_false_iff.mp hs)) hc
  · exact State.books_vsplit3 hcl hw hm hb hc hd
  · exact State.books_vred hcl hw hm hb hc
end

section
/-! SUPPORT. A tile of C in memory: little-endian words in rows 512 bytes apart (02 R52; 03 R75, R86; 07 R192, R193). -/

namespace Sys2Proof.Machine

/-! ## Little-endian numbers (R52) -/

@[simp] theorem leBytes_length (n v : Nat) : (leBytes n v).length = n := by
  induction n generalizing v with
  | zero => rfl
  | succ n ih => simp [leBytes, ih]

theorem leNat_leBytes (n v : Nat) : leNat (leBytes n v) = v % 256 ^ n := by
  induction n generalizing v with
  | zero => simp [leBytes, leNat, Nat.mod_one]
  | succ n ih =>
    rw [leBytes, leNat, ih, BitVec.toNat_ofNat, Nat.pow_succ' (m := 256), Nat.mod_mul]

theorem leNat_leBytes_word (w : Word) : leNat (leBytes 4 w.toNat) = w.toNat :=
  (leNat_leBytes 4 _).trans (Nat.mod_eq_of_lt w.isLt)

/-- A read of as many bytes as a list has gives the list, where each byte of the memory is that of the list. -/
theorem Memory.readN_eq {a : Nat} {bs : List Byte} {m : Memory} (h : ∀ i < bs.length, Memory.read (a + i) m = bs.getD i 0) :
    Memory.readN a bs.length m = bs := by
  induction bs generalizing a with
  | nil => rfl
  | cons b bs ih =>
    rw [List.length_cons, Memory.readN, ih]
    · exact congrArg (· :: bs) (h 0 (Nat.zero_lt_succ _))
    · intro i hi
      rw [Nat.add_right_comm, Nat.add_assoc]
      exact h (i + 1) (Nat.succ_lt_succ hi)

/-- The binary32 word whose little-endian bytes stand at an address. -/
theorem State.readLe_word {s : State} {a : Nat} {w : Word} (h : ∀ i < 4, Memory.read (a + i) s.mem = (leBytes 4 w.toNat).getD i 0) :
    s.readLe a 4 = w.toNat := by
  have hr : Memory.readN a 4 s.mem = leBytes 4 w.toNat := by
    rw [← leBytes_length 4 w.toNat]
    exact Memory.readN_eq (by rwa [leBytes_length])
  rw [State.readLe, State.read, hr, leNat_leBytes_word]

/-! ## The rows of a tile (R86, R193) -/

theorem cRowBytes_cons (w : Word) (row : List Word) : cRowBytes (w :: row) = leBytes 4 w.toNat ++ cRowBytes row := rfl

@[simp] theorem cRowBytes_length (row : List Word) : (cRowBytes row).length = 4 * row.length := by
  induction row with
  | nil => rfl
  | cons w row ih => rw [cRowBytes_cons, List.length_append, leBytes_length, ih, List.length_cons]; omega

/-- Byte i of element n of a row. -/
theorem cRowBytes_getD {row : List Word} {n i : Nat} (hn : n < row.length) (hi : i < 4) :
    (cRowBytes row).getD (4 * n + i) 0 = (leBytes 4 (row.getD n 0).toNat).getD i 0 := by
  induction row generalizing n with
  | nil => simp at hn
  | cons w row ih =>
    rw [cRowBytes_cons]
    cases n with
    | zero => rw [List.getD_append _ _ _ _ (by rw [leBytes_length]; omega)]; simp
    | succ n =>
      rw [List.getD_append_right _ _ _ _ (by rw [leBytes_length]; omega), leBytes_length,
        show 4 * (n + 1) + i - 4 = 4 * n + i by omega, ih (Nat.lt_of_succ_lt_succ hn), List.getD_cons_succ]

/-- Memory with rows of words written 512 bytes apart. -/
def Memory.writeRows (a : Nat) : List (List Word) → Memory → Memory
  | [], m => m
  | r :: rs, m => Memory.writeRows (a + 512) rs (Memory.writeN a (cRowBytes r) m)

/-- A byte outside all rows is kept. -/
theorem Memory.read_writeRows_outside {a b : Nat} {rows : List (List Word)} {m : Memory}
    (h : ∀ j < rows.length, ¬ (a + 512 * j ≤ b ∧ b < a + 512 * j + 4 * (rows.getD j []).length)) :
    Memory.read b (Memory.writeRows a rows m) = Memory.read b m := by
  induction rows generalizing a m with
  | nil => rfl
  | cons r rs ih =>
    have h0 := h 0 (Nat.zero_lt_succ _)
    rw [Memory.writeRows, ih, Memory.read_writeN, cRowBytes_length, if_neg (by simpa using h0)]
    intro j hj
    have hj' := h (j + 1) (Nat.succ_lt_succ hj)
    rw [List.getD_cons_succ] at hj'
    omega

/-- A byte of a row is that of the row, for a row ends before the next one begins. -/
theorem Memory.read_writeRows_row {a j i : Nat} {rows : List (List Word)} {m : Memory} (hlen : ∀ r ∈ rows, r.length ≤ 128)
    (hj : j < rows.length) (hi : i < 4 * (rows.getD j []).length) :
    Memory.read (a + 512 * j + i) (Memory.writeRows a rows m) = (cRowBytes (rows.getD j [])).getD i 0 := by
  induction rows generalizing a j m with
  | nil => simp at hj
  | cons r rs ih =>
    have hr : r.length ≤ 128 := hlen r List.mem_cons_self
    rw [Memory.writeRows]
    cases j with
    | zero =>
      rw [List.getD_cons_zero] at hi ⊢
      rw [Memory.read_writeRows_outside (by omega), Memory.read_writeN, cRowBytes_length, if_pos (by omega),
        show a + 512 * 0 + i - a = i by omega]
    | succ j =>
      rw [List.getD_cons_succ] at hi ⊢
      rw [show a + 512 * (j + 1) + i = a + 512 + 512 * j + i by omega]
      exact ih (fun r hr => hlen r (List.mem_cons_of_mem _ hr)) (Nat.lt_of_succ_lt_succ hj) hi

/-! ## A tile that lands (R150, R192) -/

/-- Where no word of the memory has an error, a write stores its bytes and does nothing else. -/
theorem State.write_clean (a : Nat) (bs : List Byte) {s : State} (hb : s.badWords = []) (hw : s.weakWords = []) :
    s.write a bs = { s with mem := Memory.writeN a bs s.mem } := by
  cases s
  simp only at hb hw
  subst hb hw
  simp only [State.write, State.spoiled, List.filter_nil, writeSkip_nil]

/-- Where no word of the memory has an error, a store of the cluster itself merges nothing. -/
theorem State.merge_clean (c : ClusterId) (off : Nat) (bs : List Byte) {s : State} (hb : s.badWords = []) (hw : s.weakWords = []) :
    s.merge c off bs = ({ s with mem := Memory.writeN (sramAddr c off) bs s.mem }, none) := by
  simp [State.merge, State.spoiled, State.weakIn, State.corrects, hb, hw, State.write_clean]

theorem sramAddr_add (c : ClusterId) (off n : Nat) : sramAddr c (off + n) = sramAddr c off + n := (Nat.add_assoc ..).symm

/-- The merges of the rows of a tile, from row k on, write the rows. -/
theorem State.mergeRows_clean (c : ClusterId) (a : Nat) (rows : List (List Word)) (k : Nat) {s : State} (hb : s.badWords = [])
    (hw : s.weakWords = []) :
    ((List.range' k rows.length).zip rows).foldl (fun acc mr =>
      let r := State.merge c (a + 512 * mr.1) (cRowBytes mr.2) acc.1
      (r.1, acc.2.orElse fun _ => r.2.map fun w => (w, 3))) (s, none) =
    ({ s with mem := Memory.writeRows (sramAddr c a + 512 * k) rows s.mem }, (none : Option (Nat × Nat))) := by
  induction rows generalizing k s with
  | nil => rfl
  | cons r rs ih =>
    simp only [List.length_cons, List.range'_succ, List.zip_cons_cons, List.foldl_cons, State.merge_clean c _ _ hb hw, Option.map_none,
      Option.orElse_none, sramAddr_add]
    rw [ih]
    · rw [Memory.writeRows, Nat.mul_succ, Nat.add_assoc]
    · exact hb
    · exact hw

/-- A job that is not in proof mode signs nothing (R323). -/
theorem State.sign_plain {s : State} {no : JobNo} (h : (s.job no).proofRole = 0) (d : Die) (unitKind unit : Byte) (object : BitVec 4)
    (impr step seq state : Word) (inj : Bool) (bs : List Byte) : s.sign d no unitKind unit object impr step seq state inj bs = s := by
  simp [State.sign, State.inProof, h]

/-- A tile of a cluster that signs nothing lands: its flags gather, and its rows are written. -/
theorem State.landTile_clean {c : ClusterId} {x : Tile} {s : State} (hb : s.badWords = []) (hw : s.weakWords = [])
    (hp : ∀ i, (s.clu c).impr = some i → (s.job i.job).proofRole = 0) (hc : x.c.length = x.rows) :
    s.landTile c x =
      ({ s.modClu c (fun k => { k with flags := k.flags.or x.flags }) with mem := Memory.writeRows (sramAddr c x.cAddr) x.c s.mem }, none) := by
  have hrows := State.mergeRows_clean c x.cAddr x.c 0 (s := s.modClu c fun k => { k with flags := k.flags.or x.flags }) hb hw
  rw [State.landTile, List.range_eq_range', ← hc]
  simp only [hrows, State.clu_modClu_same, Nat.mul_zero, Nat.add_zero]
  split
  · rename_i i hi
    rw [State.sign_plain]
    · rfl
    · exact hp i hi
  · rfl

/-! ## MMA_TILE_COMPLETE (R192) -/

/-- The cluster after its one tile has landed. -/
def Cluster.tileLanded (x : Tile) (k : Cluster) : Cluster :=
  { k with tiles := [], flags := k.flags.or x.flags, accesses := k.accesses ++ [cRows x.cAddr x.rows x.cols] }

theorem State.tileComplete_clean {c : ClusterId} {x : Tile} {s : State} (hb : s.badWords = []) (hw : s.weakWords = [])
    (hp : ∀ i, (s.clu c).impr = some i → (s.job i.job).proofRole = 0) (hc : x.c.length = x.rows) (ht : (s.clu c).tiles = [x])
    (hdue : x.land ≤ (s.clu c).landable) :
    s.tileComplete c =
      { s.setClu c ((s.clu c).tileLanded x) with mem := Memory.writeRows (sramAddr c x.cAddr) x.c s.mem } := by
  have hx : (s.clu c).tileDue (s.clu c).landable = some x := by simp [Cluster.tileDue, ht, hdue]
  rw [State.tileComplete]
  simp only [hx, ht, List.erase_cons_head]
  rw [State.landTile_clean]
  · simp only [failLate, State.modClu, State.clu_setClu_same, State.setClu_setClu, Cluster.tileLanded]
    rfl
  · exact hb
  · exact hw
  · intro i hi
    rw [State.clu_setClu_same] at hi
    exact hp i hi
  · exact hc

theorem exec_mmaTileComplete {c : ClusterId} {x : Tile} {s : State} (hq : s.quiet = true) (hcl : s.hasCluster c = true)
    (hb : s.badWords = []) (hw : s.weakWords = []) (hp : ∀ i, (s.clu c).impr = some i → (s.job i.job).proofRole = 0)
    (hc : x.c.length = x.rows) (ht : (s.clu c).tiles = [x]) (hdue : x.land ≤ (s.clu c).landable) :
    exec (.mmaTileComplete c) s =
      .next { s.setClu c ((s.clu c).tileLanded x) with mem := Memory.writeRows (sramAddr c x.cAddr) x.c s.mem } := by
  have e : exec (.mmaTileComplete c) s = s.onCluster c s.time fun s => s.tileComplete c := by rfl
  have hn : s.advanceTo s.time = s := State.advanceTo_past (Nat.le_refl _)
  have hdone := State.tileComplete_clean hb hw hp hc ht hdue
  rw [e, State.StaysQuiet.onCluster hcl]
  · rw [hn, hdone]
  · rw [hn, hdone]
    exact ⟨State.quiet_congr hq rfl rfl rfl rfl rfl rfl, rfl, rfl, rfl⟩

end Sys2Proof.Machine

open Sys2Proof Sys2Proof.Machine

/-- Settles O22: the tile's rows are written and its cluster has no tile in progress; the rows are disjoint, so each word of a row is read back,
and a byte outside the rows is kept. -/
theorem tilesWriteTheirRows : Obligations.TilesWriteTheirRows := by
  intro s cl x hq hcl hb hw k hp ht hdue hc hcols h128
  have hlen : ∀ m < x.rows, (x.c.getD m []).length = x.cols := fun m hm => by
    rw [List.getD_eq_getElem _ _ (hc ▸ hm)]
    exact hcols _ (List.getElem_mem _)
  refine ⟨_, exec_mmaTileComplete hq hcl hb hw hp hc ht hdue, ?_, fun m n hm hn => ?_, fun b hout => ?_⟩
  · simp only [State.clu, State.setClu, Table.get_set_same]
    rfl
  · refine State.readLe_word fun i hi => ?_
    rw [← cRowBytes_getD (by rwa [hlen m hm]) hi, sramAddr_add, sramAddr_add, Nat.add_assoc]
    refine Memory.read_writeRows_row (fun r hr => (hcols r hr).trans_le h128) (hc ▸ hm) ?_
    rw [hlen m hm]
    omega
  · refine Memory.read_writeRows_outside fun j hj => ?_
    have hj : j < x.rows := hc ▸ hj
    rw [hlen j hj, ← sramAddr_add]
    exact hout j hj
end

section
/-! SUPPORT. A contribution to the last step that 32 bits count, which the module takes for one of a later step (08 R219). -/

namespace Sys2Proof.Machine.LastStep

/-- The descriptor of a REDUCE of job 7 for step 0xFFFF_FFFF: its contributions have 128 bytes, and its deadline is 256 ns after its start. -/
def desc : Desc :=
  ⟨[ BitVec.ofNat 64 (1 + 7 * 2 ^ 16), 0x1000, BitVec.ofNat 64 (0xFFF * 2 ^ 32), BitVec.ofNat 64 (1 + 128 * 2 ^ 32), 0, 0, 0, 0, 0xFFFFFFFF
   , 0x2000, BitVec.ofNat 64 (2 ^ 62), BitVec.ofNat 64 (128 + 128 * 2 ^ 32), 0x4000, 0, 0, 0 ]⟩

/-- Its context, which collects from rank 5 since the instant 0. -/
def ctx : Ctx := Ctx.fresh 0 ⟨desc, 0, 0, none⟩ 0 [5]

/-- The contribution of rank 5 to that step. -/
def frame : Frame :=
  { Frame.blank with kind := 1, job := 7, srcRank := 5, detail := 0xFFFFFFFF00000000, payload := List.replicate 128 0 }

/-- The engine of the context. -/
def engine : Port := 0

/-- The module after reset with that context. -/
def state : State := State.reset.setEng engine { Engine.reset with ctxs := [ctx] }

/-- How many frames the context has counted as stray, in what a command leaves. -/
def strays (o : Host.Outcome State Fault Refusal) : Option Nat :=
  match o with
  | .next t => (t.ctx engine ctx.id).map (·.stray)
  | _ => none

/-- The context collects, and may be written and signalled as every statement about contexts supposes. -/
theorem active : Claims.Active engine ctx (state.advanceTo 0) := by
  unfold Claims.Active Claims.Takes
  decide +kernel

theorem frame_comes : Claims.Comes (.engine engine) frame (state.advanceTo 0) := by
  unfold Claims.Comes
  decide +kernel

/-- The frame is one of the context's own step, yet one more than that step is 0 in 32 bits, and the frame's step is above it. -/
theorem frame_step : (state.advanceTo 0).contribCtx engine frame = some ctx ∧ contribStep frame = desc.step ∧
    desc.step + 1 < contribStep frame := by decide +kernel

/-- So the module counts it under the fourth row of R219. -/
theorem frame_is_stray : strays (exec (.contrib engine frame 0) state) = some 1 := by decide +kernel

end Sys2Proof.Machine.LastStep

open Sys2Proof Sys2Proof.Machine

/-- Refutes O29: a contribution to step 0xFFFF_FFFF, on time and in order, is not taken. The module compares its step with the context's step + 1
in 32 bits, which is 0, and counts the frame as stray. -/
theorem not_contributionsAreWrittenAndAdded : ¬ Obligations.ContributionsAreWrittenAndAdded := by
  intro h
  obtain ⟨hcontrib, -⟩ := h LastStep.state LastStep.engine 0 LastStep.ctx (by decide +kernel) (by decide +kernel) LastStep.active
    (by decide +kernel) rfl
  obtain ⟨t, c, he, -, hc, -, -, -, -, hstray, -⟩ := hcontrib LastStep.frame 0 LastStep.frame_comes rfl LastStep.frame_step.1
    (by decide +kernel) (by decide +kernel) (by decide +kernel) (by decide +kernel) (by decide +kernel) (by decide +kernel)
    (by decide +kernel) (by decide +kernel) (fun x _ _ => List.not_mem_nil) (by decide +kernel) (by decide +kernel) (by decide +kernel)
    (by decide +kernel)
  have hone := LastStep.frame_is_stray
  rw [he] at hone
  simp only [LastStep.strays, hc, Option.map_some, hstray] at hone
  exact absurd hone (by decide)
end

section
/-! SUPPORT. A PERMUTE in place whose destination lies in a DRAM bank that a refresh slot blocks: the write of its waiting block holds the
engine until the slot ends (08 R238; 17 R440). -/

namespace Sys2Proof.Machine.BlockedBank

/-- The descriptor of a PERMUTE of job 7 in place: two incoming blocks of 128 bytes for the first bytes of stack 0, its status record at 0x1000. -/
def desc : Desc :=
  ⟨[ BitVec.ofNat 64 (4 + 7 * 2 ^ 16), 0x1000, BitVec.ofNat 64 (0xFFF * 2 ^ 32), 0, 0, BitVec.ofNat 64 (dramAddr 0 0), 0, 0
   , BitVec.ofNat 64 (128 + 2 * 2 ^ 32), 0, 1, 0, 0, 0, 0, 0 ]⟩

/-- The block for destination 0, which has come whole from rank 5. -/
def block : PBlock := ⟨0, 5, 0, List.replicate 128 0, [0]⟩

/-- Its context: one block has come and waits for the outgoing reads. -/
def ctx : Ctx := { Ctx.fresh 0 ⟨desc, 0, 0, none⟩ 0 [] with blocks := [block], arrived := 1 }

/-- The engine of the context. -/
def engine : Port := 0

/-- The module after reset with that context, in a refresh slot of channel 0, bank 0 of stack 0 that lasts until 120 ns. -/
def state : State :=
  (State.reset.setEng engine { Engine.reset with ctxs := [ctx] }).modStack 0 fun t => { t with blocked := [(0, 120)] }

/-- Until when the engine is held, in what a command leaves. -/
def heldTill (o : Host.Outcome State Fault Refusal) : Option Nat :=
  match o with
  | .next t => some (t.eng engine).refreshTill
  | _ => none

theorem active : Claims.Active engine ctx (state.advanceTo 0) := by
  unfold Claims.Active Claims.Takes
  decide +kernel

/-- Once the outgoing reads are done, the write of the waiting block holds the engine until the slot ends. -/
theorem engine_waits : heldTill (exec (.permuteReadsDone engine ctx.id 0) state) = some 120 := by decide +kernel

/-- The engines as the statement has them: the context knows that its reads are done, and nothing holds the engine. -/
theorem engine_free : ((state.advanceTo 0).setCtx engine { ctx with readsDone := true }).engines =
    [(0, { Engine.reset with ctxs := [{ ctx with readsDone := true }] })] := by decide +kernel

end Sys2Proof.Machine.BlockedBank

open Sys2Proof Sys2Proof.Machine

/-- Refutes O32: where a refresh slot blocks the bank of its destination, an in_place PERMUTE that writes its waiting block also holds its
engine until the slot ends (R440), which the statement's frame of memory and dies leaves out. -/
theorem not_streamWorkCompletes : ¬ Obligations.StreamWorkCompletes := by
  intro h
  obtain ⟨-, hpermute, -⟩ := h BlockedBank.state BlockedBank.engine 0 BlockedBank.ctx (by decide +kernel) (by decide +kernel)
    BlockedBank.active
  obtain ⟨t, hexec, hframe, -⟩ := hpermute BlockedBank.block (by decide +kernel) (.inl (by decide +kernel)) rfl rfl (by decide +kernel)
    (by decide +kernel) (by decide +kernel)
  have hengines : t.engines = _ := (congrArg State.engines hframe).trans BlockedBank.engine_free
  have hwaits := BlockedBank.engine_waits
  rw [hexec] at hwaits
  simp only [BlockedBank.heldTill, State.eng, hengines] at hwaits
  exact absurd hwaits (by decide +kernel)
end

section
/-! SUPPORT. Counters, the pending-signal table and shard advances on a quiet module (10 R273 to R283; 11 R307). -/

namespace Sys2Proof.Machine

/-! ## Effects and the state they leave -/

/-- A command whose effect is a state that stays quiet answers that state. -/
theorem State.StaysQuiet.happens_eq {s v : State} {now : Nat} {e : State → State} (he : e (s.advanceTo now) = v)
    (hv : (s.advanceTo now).StaysQuiet v) : s.happens now e = .next v := by
  subst he
  exact hv.happens

/-- Clusters are no part of what follows a command. -/
theorem State.StaysQuiet.clusters {u v : State} (h : u.StaysQuiet v) (cs : Table Cluster) : u.StaysQuiet { v with clusters := cs } :=
  ⟨State.quiet_congr h.1 rfl rfl rfl rfl rfl rfl, h.2⟩

/-! ## Frames that a unit takes (R18, R360) -/

/-- A unit that takes a frame changes what waits in the fabric's boxes and the units that ports have freed. -/
theorem State.unbox_eq (w : LocalUnit) (f : Frame) (s : State) :
    ∃ ib ps, s.unbox w f = { s with fab := { s.fab with inbox := ib }, ports := ps } := by
  unfold State.unbox State.takeOut
  cases s.boxed w f with
  | none => exact ⟨s.fab.inbox, s.ports, rfl⟩
  | some q =>
    simp only [State.release]
    cases q.ingress with
    | none => exact ⟨_, _, rfl⟩
    | some p =>
      dsimp only
      split
      · exact ⟨_, _, rfl⟩
      · exact ⟨_, _, rfl⟩

@[simp] theorem State.unbox_frame (w : LocalUnit) (f : Frame) (s : State) :
    (s.unbox w f).dies = s.dies ∧ (s.unbox w f).clusters = s.clusters ∧ (s.unbox w f).shards = s.shards ∧ (s.unbox w f).time = s.time := by
  obtain ⟨ib, ps, e⟩ := s.unbox_eq w f
  simp [e]

@[simp] theorem State.die_unbox (w : LocalUnit) (f : Frame) (d : Die) (s : State) : (s.unbox w f).die d = s.die d := by simp [State.die]

theorem State.StaysQuiet.unbox {u v : State} (h : u.StaysQuiet v) (w : LocalUnit) (f : Frame) : u.StaysQuiet (v.unbox w f) := by
  obtain ⟨ib, ps, e⟩ := v.unbox_eq w f
  rw [e]
  exact (h.modFab (fun b => { b with inbox := ib }) fun _ => ⟨rfl, rfl, rfl⟩).portsHub ps v.hub

/-! ## Counters (R273, R276, R283) -/

/-- A name is its die and its index there. -/
theorem CounterName.ext_die {m n : CounterName} (hd : CounterName.die m = CounterName.die n) (hi : m.toNat % 16384 = n.toNat % 16384) : m = n := by
  have h := congrArg BitVec.toNat hd
  simp only [CounterName.die, BitVec.extractLsb'_toNat, Nat.shiftRight_eq_div_pow] at h
  have hm := m.isLt
  have hn := n.isLt
  exact BitVec.eq_of_toNat_eq (by omega)

theorem State.counter_modCounter (n m : CounterName) (g : Counter → Counter) (s : State) :
    (s.modCounter n g).counter m = if m = n then g (s.counter n) else s.counter m := by
  by_cases h : m = n
  · subst h; simp
  · rw [if_neg h]
    by_cases hd : CounterName.die m = CounterName.die n
    · have hi : m.toNat % 16384 ≠ n.toNat % 16384 := fun hi => h (CounterName.ext_die hd hi)
      simp only [State.counter, State.modCounter, State.modDie, hd, State.die_setDie_same]
      exact Table.get_set_other _ _ _ hi
    · simp only [State.counter, State.modCounter, State.modDie, State.die_setDie, if_neg hd]

theorem State.StaysQuiet.modCounter {u v : State} (h : u.StaysQuiet v) (n : CounterName) (g : Counter → Counter) :
    u.StaysQuiet (v.modCounter n g) := h.modDie _ _ rfl

/-- A change of a die that keeps its counters keeps every counter. -/
theorem State.counter_modDie {d : Die} {g : DieState → DieState} {s : State} (h : (g (s.die d)).counters = (s.die d).counters) (n : CounterName) :
    (s.modDie d g).counter n = s.counter n := by
  simp only [State.counter, State.modDie, State.die_setDie]
  split
  · rename_i hd; rw [hd, h]
  · rfl

@[simp] theorem State.counter_unbox (w : LocalUnit) (f : Frame) (n : CounterName) (s : State) : (s.unbox w f).counter n = s.counter n := by
  simp [State.counter]

/-- A counter risen by inc. -/
def Counter.raised (inc : Nat) (k : Counter) : Counter := { k with value := BitVec.ofNat 32 (k.value.toNat + inc) }

/-- Where no cluster waits for a counter, its waits change nothing. -/
theorem State.wake_none {n : CounterName} {s : State} (h : ∀ e ∈ s.clusters, e.2.heldOn n = false) : s.wake n = s := by
  refine congrArg (fun cs => { s with clusters := cs }) ((List.map_congr_left fun e he => ?_).trans (List.map_id _))
  exact if_neg (by simp [h e he])

/-- An addition that no limit and no wait meets raises the counter; then it advances the counter's shard. -/
theorem State.addCounter_raises {n : CounterName} {inc : Nat} {src : AddSrc} {s : State} (hu : (s.counter n).underflow = false)
    (ho : (s.counter n).overflow = false) (hv : (s.counter n).value.toNat + inc < 2 ^ 32) (hw : ∀ e ∈ s.clusters, e.2.heldOn n = false) :
    s.addCounter n inc src =
      let v := s.modCounter n (Counter.raised inc)
      match v.advances n with
      | some r => v.shardAdvance r inc n
      | none => v := by
  have hneg : ¬ ((s.counter n).value.toNat : Int) + (inc : Int) < 0 := by omega
  have hbig : ¬ (0xFFFFFFFF : Int) < ((s.counter n).value.toNat : Int) + (inc : Int) := by omega
  have hnat : (((s.counter n).value.toNat : Int) + (inc : Int)).toNat = (s.counter n).value.toNat + inc := by omega
  have hwake : ∀ g, (s.modCounter n g).wake n = s.modCounter n g := fun g => State.wake_none (by simpa using hw)
  simp only [State.addCounter, hu, ho, Bool.or_self, Bool.false_eq_true, if_false, if_neg hneg, if_neg hbig, hnat, hwake]
  rfl

/-- A signal that a counter takes raises it and does nothing else. -/
theorem State.signal_takes {n : CounterName} {no : JobNo} {inc : Nat} {src : AddSrc} {u s : State} (h : Claims.Takes n no inc u) (hinc : inc ≠ 0)
    (hk : s.counter n = u.counter n) (hcl : s.clusters = u.clusters) (hsh : s.shards = u.shards) :
    s.signal n no inc src = s.modCounter n (Counter.raised inc) := by
  obtain ⟨hno, hjob, horph, hun, hov, hv, hheld, hadv⟩ := h
  have hnone : (s.modCounter n (Counter.raised inc)).advances n = none := by
    simp only [State.advances, List.find?_eq_none, Bool.and_eq_true, beq_iff_eq, not_and]
    intro r hr _
    exact hadv r (hsh ▸ by simpa using hr)
  rw [← hk] at hjob horph hun hov hv
  have hlive : ¬ ((s.counter n).job = 0 ∨ (s.counter n).job ≠ no ∨ (s.counter n).orphaned ∨ (s.counter n).underflow ∨ (s.counter n).overflow) := by
    simpa [hjob, horph, hun, hov] using hno
  rw [State.signal, if_neg hinc, if_neg hlive, State.addCounter_raises hun hov hv (by rwa [hcl])]
  simp only [hnone]

/-- The counters after a signal that a counter has taken. -/
theorem State.counted_raised {n : CounterName} {inc : Nat} {u s : State} (hk : ∀ m, s.counter m = u.counter m) :
    Claims.Counted n inc u (s.modCounter n (Counter.raised inc)) := by
  intro m
  rw [State.counter_modCounter, hk n, hk m]
  rfl

/-- A signal for a counter without an owner or of another job is counted as discarded (R283). -/
theorem State.signal_discarded {n : CounterName} {no : JobNo} {inc : Nat} {src : AddSrc} {s : State} (hinc : inc ≠ 0)
    (h : no = 0 ∨ (s.counter n).job ≠ no) :
    s.signal n no inc src = s.modDie n.die fun d => { d with sigDiscarded := min (d.sigDiscarded + 1) 0xFFFFFFFF } := by
  have hd : (s.counter n).job = 0 ∨ (s.counter n).job ≠ no ∨ (s.counter n).orphaned ∨ (s.counter n).underflow ∨ (s.counter n).overflow := by
    rcases h with rfl | h
    · exact (em ((s.counter n).job = 0)).imp_right .inl
    · exact .inr (.inl h)
  rw [State.signal, if_neg hinc, if_pos hd]
  rfl

/-! ## The pending-signal table (R280 to R282) -/

/-- No die has an entry of a transfer. -/
def State.FreshTransfer (no : JobNo) (r : Rank) (x : BitVec 16) (s : State) : Prop :=
  ∀ d, ∀ e ∈ (s.die d).pst, ¬ (e.job = no ∧ e.rank = r ∧ e.transfer = x)

theorem PstEntry.isFor_iff {no : JobNo} {r : Rank} {x : BitVec 16} {e : PstEntry} :
    e.isFor no r x = true ↔ e.job = no ∧ e.rank = r ∧ e.transfer = x := by
  simp [PstEntry.isFor, and_assoc]

/-- The table of die d with one more entry, and its peak. -/
def State.opens (d : Die) (e : PstEntry) (v : State) : State :=
  v.modDie d fun x => { x with pst := x.pst ++ [e], pstPeak := max x.pstPeak (x.pst.length + 1) }

section FreshTransfer
variable {no : JobNo} {r : Rank} {x : BitVec 16} {s : State} (h : s.FreshTransfer no r x)
include h

theorem State.FreshTransfer.isFor (d : Die) : ∀ e ∈ (s.die d).pst, e.isFor no r x = false := fun e he =>
  Bool.eq_false_iff.mpr fun hf => h d e he (PstEntry.isFor_iff.mp hf)

theorem State.FreshTransfer.pstEntry (d : Die) : s.pstEntry d no r x = none :=
  List.find?_eq_none.mpr fun e he => by simp [h.isFor d e he]

theorem State.FreshTransfer.pstElsewhere (d : Die) : s.pstElsewhere d no r x = none := by
  simp [State.pstElsewhere, h.pstEntry]

/-- Committed bytes of a transfer without an entry open one; without a tag, nothing more (R280). -/
theorem State.FreshTransfer.pstUpdate (d : Die) (n : Nat) :
    s.pstUpdate d no r x n none = s.opens d ⟨no, r, x, n, none, s.time⟩ := by
  have hf : (s.die d).pst.filter (fun y => !y.isFor no r x) = (s.die d).pst :=
    List.filter_eq_self.mpr fun e he => by simp [h.isFor d e he]
  simp [State.pstUpdate, h.pstElsewhere, h.pstEntry, State.pstJudge, State.opens, State.modDie, hf]

/-- The table is full for a transfer without an entry or a report where it holds 2,048 entries (R282). -/
theorem State.FreshTransfer.pstFull {d : Die} (hr : (s.die d).reports = []) (hn : 2048 ≤ (s.die d).pst.length) :
    s.pstFull d no r x = true := by
  simp [State.pstFull, h.pstEntry, hr]
  omega

end FreshTransfer

/-- With no report on its way and fewer than 2,048 entries, a table takes any transfer (R282). -/
theorem State.pstFull_room {d : Die} {s : State} (hr : (s.die d).reports = []) (hn : (s.die d).pst.length < 2048) (no : JobNo) (r : Rank)
    (x : BitVec 16) : s.pstFull d no r x = false := by
  simp [State.pstFull, State.pstComing, hr, hn]

theorem State.StaysQuiet.opens {u v : State} (h : u.StaysQuiet v) (d : Die) (e : PstEntry) : u.StaysQuiet (v.opens d e) := h.modDie _ _ rfl

/-- The entry of the one transfer in the table of a die. -/
theorem State.pstEntry_one {d : Die} {e : PstEntry} {s : State} (h : (s.die d).pst = [e]) : s.pstEntry d e.job e.rank e.transfer = some e := by
  simp [State.pstEntry, h, PstEntry.isFor]

/-! ## SIGNALLED_FRAME_COMMIT (R280 to R282) -/

theorem exec_signalledFrameCommit (d : Die) (f : Frame) (now : Nat) (s : State) :
    exec (.signalledFrameCommit d f now) s = s.happens now fun s => s.frameCommits d f := by rfl

section Commit
variable {s : State} {d : Die} {f : Frame} {now : Nat} (hq : s.quiet = true) (hsig : f.sig = true) (hst : f.stomp = false)
  (hmc : ¬ (f.kind = 2 ∧ f.mc = true)) (hb : (s.advanceTo now).behind (.die d) f = false)
include hsig hst hmc

theorem Frame.signals_true : Frame.signals f = true := by
  simp only [Frame.signals, hsig, hst, Bool.not_false, Bool.true_and, Bool.not_eq_true']
  exact Bool.eq_false_iff.mpr (by simpa using hmc)

include hb in
/-- A frame on the die of its counter, whose table takes its transfer, updates the entry. -/
theorem State.frameCommits_here (hd : f.sigDie = d) (hf : (s.advanceTo now).pstFull d f.job f.srcRank f.transfer = false) :
    (s.advanceTo now).frameCommits d f =
      ((s.advanceTo now).unbox (.die d) f).pstUpdate d f.job f.srcRank f.transfer f.payload.length (frameTag f) := by
  have hs := Frame.signals_true hsig hst hmc
  simp [State.frameCommits, hs, hb, State.pstHolds, hd, hf]

include hq

/-- The first frame of a transfer for which the table is full stays where it waits. -/
theorem exec_signalledFrameCommit_full (hf : (s.advanceTo now).pstFull f.sigDie f.job f.srcRank f.transfer = true) :
    exec (.signalledFrameCommit d f now) s = .next (s.advanceTo now) := by
  have hs := Frame.signals_true hsig hst hmc
  refine State.StaysQuiet.happens_eq ?_ (.refl (State.advanceTo_quiet now hq))
  simp [State.frameCommits, hs, State.pstHolds, hf]

include hb

/-- A frame on another die than that of its counter leaves its report. -/
theorem exec_signalledFrameCommit_away (hd : f.sigDie ≠ d) (hf : (s.advanceTo now).pstFull f.sigDie f.job f.srcRank f.transfer = false) :
    exec (.signalledFrameCommit d f now) s =
      .next (((s.advanceTo now).unbox (.die d) f).modDie f.sigDie fun x => { x with reports := x.reports ++ [frameReport f] }) := by
  have hs := Frame.signals_true hsig hst hmc
  refine State.StaysQuiet.happens_eq ?_ (((State.StaysQuiet.refl (State.advanceTo_quiet now hq)).unbox _ _).modDie _ _ rfl)
  simp [State.frameCommits, hs, hb, State.pstHolds, hf, hd]

end Commit

theorem State.FreshTransfer.unbox {no : JobNo} {r : Rank} {x : BitVec 16} {s : State} (h : s.FreshTransfer no r x) (w : LocalUnit) (f : Frame) :
    (s.unbox w f).FreshTransfer no r x := fun d => by rw [State.die_unbox]; exact h d

/-- A die with an entry in the place of any other one of its transfer. -/
def DieState.putEntry (e : PstEntry) (y : DieState) : DieState :=
  let pst := (y.pst.filter fun z => !z.isFor e.job e.rank e.transfer) ++ [e]
  { y with pst := pst, pstPeak := max y.pstPeak pst.length }

/-- A die without the entry of a transfer. -/
def DieState.dropEntry (e : PstEntry) (y : DieState) : DieState :=
  { y with pst := y.pst.filter fun z => !z.isFor e.job e.rank e.transfer }

/-- An entry that has taken n more bytes and a tag at an instant. -/
def PstEntry.tagged (n : Nat) (t : SigTag) (now : Nat) (e : PstEntry) : PstEntry := { e with tally := e.tally + n, tag := some t, updated := now }

theorem PstEntry.isFor_tagged (n : Nat) (t : SigTag) (now : Nat) (e : PstEntry) : e.isFor e.job e.rank e.transfer = true ∧
    (e.tagged n t now).isFor e.job e.rank e.transfer = true := by
  simp [PstEntry.isFor, PstEntry.tagged]

theorem DieState.putEntry_dropEntry {e : PstEntry} {n : Nat} {t : SigTag} {now : Nat} {y : DieState} (h : y.pst = [e]) :
    ((y.putEntry (e.tagged n t now)).dropEntry e).pst = [] := by
  obtain ⟨he, ht⟩ := PstEntry.isFor_tagged n t now e
  have hf : (fun z : PstEntry => !z.isFor (e.tagged n t now).job (e.tagged n t now).rank (e.tagged n t now).transfer) =
      fun z => !z.isFor e.job e.rank e.transfer := rfl
  simp [DieState.dropEntry, DieState.putEntry, h, hf, he, ht]

/-- A die whose entry has been completed by n bytes and a tag. -/
def State.closesEntry (d : Die) (e : PstEntry) (n : Nat) (t : SigTag) (s : State) : State :=
  s.modDie d fun y => (y.putEntry (e.tagged n t s.time)).dropEntry e

theorem State.counter_closesEntry (d : Die) (e : PstEntry) (n : Nat) (t : SigTag) (s : State) (m : CounterName) :
    (s.closesEntry d e n t).counter m = s.counter m := State.counter_modDie rfl m

theorem State.closesEntry_clusters (d : Die) (e : PstEntry) (n : Nat) (t : SigTag) (s : State) : (s.closesEntry d e n t).clusters = s.clusters := rfl

theorem State.closesEntry_shards (d : Die) (e : PstEntry) (n : Nat) (t : SigTag) (s : State) : (s.closesEntry d e n t).shards = s.shards := rfl

theorem State.StaysQuiet.closesEntry {u v : State} (h : u.StaysQuiet v) (d : Die) (e : PstEntry) (n : Nat) (t : SigTag) :
    u.StaysQuiet (v.closesEntry d e n t) := h.modDie _ _ rfl

theorem State.modDie_modDie (d : Die) (f g : DieState → DieState) (s : State) : (s.modDie d f).modDie d g = s.modDie d fun y => g (f y) := by
  simp [State.modDie]

/-- The tag that brings the announced total: the entry is gone, and the increment goes to the counter (R280). -/
theorem State.pstUpdate_completes {d : Die} {e : PstEntry} {n : Nat} {t : SigTag} {s : State} (hp : (s.die d).pst = [e])
    (ho : ∀ x, x ≠ d → (s.die x).pst = []) (hd : t.counter.die = d) (ht : e.tally + n = t.announced.toNat) :
    s.pstUpdate d e.job e.rank e.transfer n (some t) =
      (s.closesEntry d e n t).signal t.counter e.job t.inc.toNat (srcRank e.rank.toNat) := by
  have helse : s.pstElsewhere d e.job e.rank e.transfer = none := by
    simp only [State.pstElsewhere, List.findSome?_eq_none_iff]
    intro x _
    split
    · rfl
    · rename_i hx
      simp [State.pstEntry, ho x hx]
  have htag : ((some t).orElse fun _ => e.tag) = some t := rfl
  have hkeep : ¬ (t.counter.die ≠ d ∨ t.announced.toNat < e.tally + n) := by simp [hd, ht]
  simp only [State.pstUpdate, helse, State.pstEntry_one hp, Option.getD_some, htag, State.pstJudge, if_neg hkeep, if_pos ht, State.pstDrop,
    State.modDie_modDie]
  rfl

/-- The frame whose tag brings the announced total: the entry of its transfer is gone, and the counter has risen (R280). -/
theorem State.pstUpdate_raises {u : State} {d : Die} {f : Frame} {e : PstEntry} (hinc : f.inc ≠ 0) (hp : (u.die d).pst = [e])
    (hj : e.job = f.job) (hr : e.rank = f.srcRank) (hx : e.transfer = f.transfer) (ho : ∀ x, x ≠ d → (u.die x).pst = [])
    (hc : f.counter.die = d) (ht : e.tally + f.payload.length = f.announced.toNat) (hk : Claims.Takes f.counter f.job f.inc.toNat u) (w : LocalUnit) :
    (u.unbox w f).pstUpdate d f.job f.srcRank f.transfer f.payload.length (frameTag f) =
      ((u.unbox w f).closesEntry d e f.payload.length ⟨f.counter, f.inc, f.announced⟩).modCounter f.counter (Counter.raised f.inc.toNat) := by
  have hinc' : f.inc.toNat ≠ 0 := fun h => hinc (BitVec.eq_of_toNat_eq h)
  have hp' : ((u.unbox w f).die d).pst = [e] := by rw [State.die_unbox, hp]
  have ho' : ∀ x, x ≠ d → ((u.unbox w f).die x).pst = [] := fun x hx => by rw [State.die_unbox, ho x hx]
  have hup := State.pstUpdate_completes (t := ⟨f.counter, f.inc, f.announced⟩) hp' ho' hc ht
  rw [hj, hr, hx] at hup
  rw [frameTag, if_neg hinc, hup]
  refine State.signal_takes hk hinc' ?_ ?_ ?_
  · rw [State.counter_closesEntry, State.counter_unbox]
  · rw [State.closesEntry_clusters, (State.unbox_frame w f u).2.1]
  · rw [State.closesEntry_shards, (State.unbox_frame w f u).2.2.1]

/-- SIGNALLED_FRAME_COMMIT with the tag that brings the announced total. -/
theorem exec_signalledFrameCommit_completes {s : State} {d : Die} {f : Frame} {now : Nat} {e : PstEntry} (hq : s.quiet = true)
    (hsig : f.sig = true) (hst : f.stomp = false) (hmc : ¬ (f.kind = 2 ∧ f.mc = true)) (hb : (s.advanceTo now).behind (.die d) f = false)
    (hd : f.sigDie = d) (hf : (s.advanceTo now).pstFull d f.job f.srcRank f.transfer = false) (hinc : f.inc ≠ 0)
    (hp : ((s.advanceTo now).die d).pst = [e]) (hj : e.job = f.job) (hr : e.rank = f.srcRank) (hx : e.transfer = f.transfer)
    (ho : ∀ x, x ≠ d → ((s.advanceTo now).die x).pst = []) (hc : f.counter.die = d) (ht : e.tally + f.payload.length = f.announced.toNat)
    (hk : Claims.Takes f.counter f.job f.inc.toNat (s.advanceTo now)) :
    ∃ t, exec (.signalledFrameCommit d f now) s = .next t ∧ t = { (s.advanceTo now).unbox (.die d) f with dies := t.dies } ∧
      (t.die d).pst = [] ∧ Claims.Counted f.counter f.inc.toNat (s.advanceTo now) t := by
  have hcommit := (State.frameCommits_here hsig hst hmc hb hd hf).trans (State.pstUpdate_raises hinc hp hj hr hx ho hc ht hk _)
  have hw := (((State.StaysQuiet.refl (State.advanceTo_quiet now hq)).unbox (.die d) f).closesEntry d e f.payload.length
    ⟨f.counter, f.inc, f.announced⟩).modCounter f.counter (Counter.raised f.inc.toNat)
  refine ⟨_, (exec_signalledFrameCommit ..).trans (State.StaysQuiet.happens_eq hcommit hw), rfl, ?_, State.counted_raised fun m => ?_⟩
  · rw [State.modCounter, hc, State.die_modDie_same, State.closesEntry, State.die_modDie_same, State.die_unbox]
    exact DieState.putEntry_dropEntry hp
  · rw [State.counter_closesEntry, State.counter_unbox]

/-! ## Reports and time limits (R280, R281) -/

theorem exec_dieCommitReport (src : Die) (r : CommitReport) (now : Nat) (s : State) :
    exec (.dieCommitReport src r now) s = s.happens now fun s => s.commitReport src r := by rfl

/-- A report that never set out does nothing. -/
theorem exec_dieCommitReport_unknown {s : State} (hq : s.quiet = true) (src : Die) (r : CommitReport) (now : Nat)
    (h : repOf r ∉ ((s.advanceTo now).die r.dst).reports) : exec (.dieCommitReport src r now) s = .next (s.advanceTo now) := by
  refine State.StaysQuiet.happens_eq ?_ (.refl (State.advanceTo_quiet now hq))
  simp [State.commitReport, h]

/-- The first report of a transfer opens its entry. -/
theorem exec_dieCommitReport_opens {s : State} (hq : s.quiet = true) {src : Die} {r : CommitReport} {now : Nat} (hsrc : src ≠ r.dst)
    (htag : (repOf r).tag = none) (h : repOf r ∈ ((s.advanceTo now).die r.dst).reports)
    (hnew : (s.advanceTo now).FreshTransfer r.job r.rank r.transfer) :
    exec (.dieCommitReport src r now) s = .next (((s.advanceTo now).modDie r.dst fun x => { x with reports := x.reports.erase (repOf r) }).opens
      r.dst ⟨r.job, r.rank, r.transfer, r.bytes.toNat, none, (s.advanceTo now).time⟩) := by
  have hnew' : ((s.advanceTo now).modDie r.dst fun x => { x with reports := x.reports.erase (repOf r) }).FreshTransfer r.job r.rank r.transfer := by
    intro d
    rw [State.modDie, State.die_setDie]
    split
    · exact hnew r.dst
    · exact hnew d
  refine State.StaysQuiet.happens_eq ?_ (((State.StaysQuiet.refl (State.advanceTo_quiet now hq)).modDie _ _ rfl).opens _ _)
  have hgo : ¬ (src = r.dst ∨ !((s.advanceTo now).die r.dst).reports.contains (repOf r)) := by simp [hsrc, h]
  rw [State.commitReport, if_neg hgo, htag, hnew'.pstUpdate]
  rfl

/-- An entry that nothing has updated for 1 ms is discarded and counted, with an event (R281). -/
theorem exec_pendingSignalTimeout {s : State} (hq : s.quiet = true) {d : Die} {e : PstEntry} {now : Nat}
    (hp : ((s.advanceTo now).die d).pst = [e]) (ht : e.updated + 1000000 ≤ (s.advanceTo now).time) :
    ∃ n, exec (.pendingSignalTimeout d e.job e.rank e.transfer now) s = .next
      (((s.advanceTo now).modDie d fun x => { x with pst := [], sigMismatch := min (x.sigMismatch + 1) 0xFFFFFFFF }).log
        Code.signalMismatch clsRank (e.rank.setWidth 16) e.job n) := by
  have hdrop : ((s.advanceTo now).die d).dropEntry e = { (s.advanceTo now).die d with pst := [] } := by
    simp [DieState.dropEntry, hp, PstEntry.isFor]
  have hexec : exec (.pendingSignalTimeout d e.job e.rank e.transfer now) s =
      s.happens now fun s => s.pstTimeout d e.job e.rank e.transfer := by rfl
  obtain ⟨n, hn⟩ : ∃ n, (s.advanceTo now).pstTimeout d e.job e.rank e.transfer =
      ((s.advanceTo now).modDie d fun x => { x with pst := [], sigMismatch := min (x.sigMismatch + 1) 0xFFFFFFFF }).log
        Code.signalMismatch clsRank (e.rank.setWidth 16) e.job n := by
    have hset : (s.advanceTo now).pstDrop d e = (s.advanceTo now).setDie d (((s.advanceTo now).die d).dropEntry e) := rfl
    rw [State.pstTimeout, State.pstEntry_one hp]
    simp only [if_pos ht, State.pstMismatch, hset, hdrop, State.modDie, State.die_setDie_same, State.setDie_setDie]
    exact ⟨_, rfl⟩
  exact ⟨n, hexec.trans (State.StaysQuiet.happens_eq hn (((State.StaysQuiet.refl (State.advanceTo_quiet now hq)).modDie d _ rfl).log _ _ _ _ _))⟩

/-! ## SIGNAL (R278, R283) -/

/-- A signal-only frame in its order: its unit takes it, and its increment goes to its counter. -/
theorem exec_signal {s : State} {f : Frame} {now : Nat} (hst : f.stomp = false) (hb : (s.advanceTo now).behind (.die f.counter.die) f = false)
    {v : State} (hv : (s.advanceTo now).StaysQuiet v)
    (h : ((s.advanceTo now).unbox (.die f.counter.die) f).signal f.counter f.job f.inc.toNat (srcRank f.srcRank.toNat) = v) :
    exec (.signal f now) s = .next v := by
  have hexec : exec (.signal f now) s = execSignal f now s := by rfl
  rw [hexec, execSignal]
  refine State.StaysQuiet.happens_eq ?_ hv
  simp only [hst, hb, Bool.or_self, Bool.false_eq_true, if_false]
  exact h

/-! ## SHARD_ADVANCE (R129, R307) -/

theorem State.StaysQuiet.one_advances {u v : State} {r r' : Shard} (h : u.StaysQuiet v) (hr : v.shards = [r]) (ha : r'.advDue = r.advDue)
    (g : List HeldSet → List HeldSet) :
    u.StaysQuiet { v with shards := [r'], engines := v.engines.map fun e => (e.1, { e.2 with heldSets := g e.2.heldSets }) } := by
  obtain ⟨hq, h⟩ := h
  obtain ⟨hj, hd, hs, he, hrest⟩ := (State.quiet_iff v).mp hq
  refine ⟨(State.quiet_iff _).mpr ⟨hj, hd, ?_, ?_, hrest⟩, h⟩
  · simpa [ha] using hs r (by simp [hr])
  · intro e hm
    obtain ⟨y, hy, rfl⟩ := List.mem_map.mp hm
    exact he y hy

/-- The sets that an advance frees leave the rest of an engine as it is (R129, R224). -/
theorem State.eng_freeSets (no : JobNo) (shard : Word) (p : Port) (s : State) :
    (s.freeSets no shard).eng p = { s.eng p with heldSets := dropOldest no shard (s.eng p).heldSets [] } := by
  simp only [State.eng, State.freeSets]
  induction s.engines with
  | nil => rfl
  | cons e t ih =>
    rw [List.map_cons, Table.get, Table.get]
    split
    · rfl
    · exact ih

/-- The areas of a shard after an advance. -/
theorem Shard.advanceTo_areas (gen : Word) (r : Shard) {i : Nat} {y : Area} (h : r.areas[i]? = some y) :
    (r.advanceTo gen).areas[i]? = some (
      if i = r.st.toNat % r.hold then { y with retired := true, gen := gen }
      else if i = (r.st.toNat + 1) % r.hold then ⟨r.st + 1, true, false, false, 0⟩ else y) := by
  obtain ⟨hi, rfl⟩ := List.getElem?_eq_some_iff.mp h
  simp [Shard.advanceTo, hi]

/-- A shard of one on the module whose next area is free advances: it installs the next state, retires the current one, and frees the oldest
sets (R307). -/
theorem State.advanceShard_one {r : Shard} {x : Area} {s : State} (hs : s.shards = [r]) (hf : r.isFilling = false)
    (hst : r.st.toNat < 0xFFFFFFFE) (hx : r.areas[(r.st.toNat + 1) % r.hold]? = some x) (hv : x.valid = false)
    (hm : s.mirrorSource r.job r.shard = none) :
    s.advanceShard r = ({ s with shards := [r.advanceTo (s.bar r.relSlot.toNat).gen] } : State).freeSets r.job r.shard := by
  have hmod : s.modShard r.job r.shard (Shard.advanceTo (s.bar r.relSlot.toNat).gen) =
      { s with shards := [r.advanceTo (s.bar r.relSlot.toNat).gen] } := by
    simp [State.modShard, hs]
  have hm' : (({ s with shards := [r.advanceTo (s.bar r.relSlot.toNat).gen] } : State).freeSets r.job r.shard).mirrorSource r.job r.shard =
      none := hm
  rw [State.advanceShard, if_neg (by simp [hf]), if_neg (by omega)]
  simp only [hx, hv, Bool.false_eq_true, if_false, hmod, State.sendSeal, hm']

section OneShard
variable {u : State} {n : CounterName} {r : Shard} {x : Area} (hs : u.shards = [r]) (hj : r.job = (u.counter n).job) (ha : r.advance = n)
  (hun : (u.counter n).underflow = false) (hov : (u.counter n).overflow = false) (hv : (u.counter n).value.toNat + 1 < 2 ^ 32)
  (hw : ∀ e ∈ u.clusters, e.2.heldOn n = false) (hp : u.inProof r.job = false) (hm : u.mirrorSource r.job r.shard = none)
  (hf : r.isFilling = false) (hst : r.st.toNat < 0xFFFFFFFE) (hx : r.areas[(r.st.toNat + 1) % r.hold]? = some x) (hxv : x.valid = false)

/-- The one shard of the module after its advance: its advance counter has risen by 1, and the oldest sets are free. -/
def State.advancedOne (n : CounterName) (r : Shard) (u : State) : State :=
  ({ u.modCounter n (Counter.raised 1) with shards := [r.advanceTo (u.bar r.relSlot.toNat).gen] } : State).freeSets r.job r.shard

include hs ha in
theorem State.advances_one {v : State} (hvs : v.shards = u.shards) (hvj : (v.counter n).job = r.job) : v.advances n = some r := by
  simp [State.advances, hvs, hs, hvj, ha]

include hs hj ha hun hov hv hw hp hm hf hst hx hxv in
/-- An addition of 1 to the advance counter of the one shard on the module (R307). -/
theorem State.addCounter_advances (src : AddSrc) : u.addCounter n 1 src = u.advancedOne n r := by
  have hshards : (u.modCounter n (Counter.raised 1)).shards = u.shards := by simp
  have hadv : (u.modCounter n (Counter.raised 1)).advances n = some r :=
    State.advances_one hs ha hshards ((congrArg Counter.job (State.counter_modCounter_same ..)).trans hj.symm)
  have hproof : (u.modCounter n (Counter.raised 1)).inProof r.job = false := hp
  have hone : (u.modCounter n (Counter.raised 1)).advanceShard r = u.advancedOne n r :=
    State.advanceShard_one (hshards.trans hs) hf hst hx hxv hm
  have hraise := State.addCounter_raises (inc := 1) (src := src) hun hov hv hw
  rw [Nat.cast_one] at hraise
  simp only [hraise, hadv, State.shardAdvance, hproof, Bool.false_and, ne_eq, not_true_eq_false, Bool.false_eq_true, if_false, hone]

theorem State.StaysQuiet.advancedOne (hq : u.StaysQuiet u) (hs : u.shards = [r]) : u.StaysQuiet (u.advancedOne n r) :=
  (hq.modCounter n (Counter.raised 1)).one_advances (r := r) (r' := r.advanceTo (u.bar r.relSlot.toNat).gen) hs rfl
    fun l => dropOldest r.job r.shard l []

end OneShard

theorem exec_shardAdvance (n : CounterName) (who : Adder) (now : Nat) (s : State) : exec (.shardAdvance n ⟨who, 1⟩ now) s =
    s.happens now fun s => if (s.advances n).isSome then s.addCounter n 1 (adderSrc who) else s := by rfl

end Sys2Proof.Machine

open Sys2Proof Sys2Proof.Machine

/-- Settles O33: clause by clause, from what a commit, a report, a time limit, a signal and an advance do. -/
theorem signalsCount : Obligations.SignalsCount := by
  intro s now hq u unheld new opens
  have hu : u.StaysQuiet u := .refl (State.advanceTo_quiet now hq)
  refine ⟨fun d f hsig hst hmc hb hd => ⟨fun hf => ?_, fun hnew hr hn => ?_⟩,
    fun d f hsig hst hmc hb hd hr hn => ⟨fun hinc hnew => ?_, fun e hinc hp hj hrk hx ho hc ht hk => ?_⟩,
    fun src r hsrc htag => ?_, fun d e hp ht => ?_, fun f hst hinc hb => ⟨fun hk => ?_, fun hno => ?_⟩,
    fun n r x hs hj ha hun hov hv hw hp hm hf hst hx hxv hhold hlen who => ?_⟩
  · exact exec_signalledFrameCommit_away hq hsig hst hmc hb hd hf
  · exact exec_signalledFrameCommit_full hq hsig hst hmc (State.FreshTransfer.pstFull hnew hr hn)
  · have hnew' : (u.unbox (.die d) f).FreshTransfer f.job f.srcRank f.transfer := State.FreshTransfer.unbox hnew _ _
    have htime : (u.unbox (.die d) f).time = u.time := (State.unbox_frame _ _ u).2.2.2
    refine (exec_signalledFrameCommit ..).trans (State.StaysQuiet.happens_eq ?_ ((hu.unbox (.die d) f).opens d _))
    rw [State.frameCommits_here hsig hst hmc hb hd (State.pstFull_room hr hn _ _ _), frameTag, if_pos hinc, hnew'.pstUpdate, htime]
    rfl
  · exact exec_signalledFrameCommit_completes hq hsig hst hmc hb hd (State.pstFull_room hr hn _ _ _) hinc hp hj hrk hx ho hc ht hk
  · have hrep : repOf r = ⟨r.job, r.rank, r.transfer, r.bytes.toNat, none⟩ := by rw [repOf, htag]; rfl
    refine ⟨fun hmem hnew => ?_, fun hmem => exec_dieCommitReport_unknown hq src r now (hrep ▸ hmem)⟩
    rw [exec_dieCommitReport_opens hq hsrc (congrArg CommitRep.tag hrep) (hrep ▸ hmem) hnew, hrep]
    rfl
  · obtain ⟨n, hexec⟩ := exec_pendingSignalTimeout hq hp ht
    exact ⟨_, hexec, rfl, rfl, by rw [State.log_getLast?]; rfl⟩
  · have hinc' : f.inc.toNat ≠ 0 := fun h => hinc (BitVec.eq_of_toNat_eq h)
    have hsig := State.signal_takes (src := srcRank f.srcRank.toNat) (s := u.unbox (.die f.counter.die) f) hk hinc'
      (State.counter_unbox ..) (State.unbox_frame _ _ u).2.1 (State.unbox_frame _ _ u).2.2.1
    exact ⟨_, exec_signal hst hb ((hu.unbox _ _).modCounter _ _) hsig, rfl, State.counted_raised fun m => State.counter_unbox ..⟩
  · have hinc' : f.inc.toNat ≠ 0 := fun h => hinc (BitVec.eq_of_toNat_eq h)
    exact exec_signal hst hb ((hu.unbox _ _).modDie _ _ rfl) (State.signal_discarded hinc' (by rwa [State.counter_unbox]))
  · have hadv : u.advances n = some r := State.advances_one hs ha rfl hj.symm
    have hadd := State.addCounter_advances hs hj ha hun hov hv hw hp hm hf hst hx hxv (adderSrc who)
    have hexec : exec (.shardAdvance n ⟨who, 1⟩ now) s = .next (u.advancedOne n r) :=
      (exec_shardAdvance ..).trans (State.StaysQuiet.happens_eq ((if_pos (by rw [hadv]; rfl)).trans hadd) (hu.advancedOne hs))
    refine ⟨_, r.advanceTo (u.bar r.relSlot.toNat).gen, hexec, rfl, State.counted_raised fun _ => rfl, rfl, ?_,
      fun i y hy => Shard.advanceTo_areas _ r hy, fun p => State.eng_freeSets _ _ p _⟩
    simp [Shard.advanceTo, hlen]
end

section
/-! SUPPORT. The job table, and the steps of a running job: impressions that start, gates that open, steps that close (05 R124; 09 R249,
R250; 12 R317; 15 R400 to R403; 18 R459). -/

namespace Sys2Proof.Machine

/-! ## Tables with rising keys -/

section Rising
variable {α : Type} {d v : α} {k : Nat} {t : Table α} (hp : t.Pairwise fun a b => a.1 < b.1)
include hp

/-- An entry of a table with rising keys is what a read at its key gives. -/
theorem Table.get_of_mem {w : α} (hm : (k, w) ∈ t) : Table.get d k t = w := by
  induction t with
  | nil => simp at hm
  | cons e t ih =>
    obtain ⟨he, hp⟩ := List.pairwise_cons.mp hp
    rcases List.mem_cons.mp hm with rfl | hm
    · simp [Table.get]
    · have hlt : e.1 < k := he _ hm
      simp only [Table.get, if_neg (Nat.ne_of_lt hlt)]
      exact ih hp hm

/-- An entry that precedes every listed one is put first. -/
theorem Table.put_eq_cons {j : Nat} {w : α} (h : ∀ e ∈ t, j < e.1) : Table.put j w t = (j, w) :: t := by
  cases t with
  | nil => rfl
  | cons e t => simp [Table.put, h e (by simp)]

/-- Putting a value at a listed key changes the entry in its place. -/
theorem Table.put_drop_eq_map (hm : ∃ w, (k, w) ∈ t) : Table.put k v (Table.drop k t) = t.map fun e => if e.1 = k then (k, v) else e := by
  induction t with
  | nil => simp at hm
  | cons e t ih =>
    obtain ⟨he, hp⟩ := List.pairwise_cons.mp hp
    by_cases hk : e.1 = k
    · have hdrop : Table.drop k (e :: t) = t := by
        simp only [Table.drop, List.filter_cons, hk, bne_self_eq_false, Bool.false_eq_true, if_false]
        exact List.filter_eq_self.mpr fun x hx => by simpa using (hk ▸ he x hx).ne'
      have hmap : t.map (fun e => if e.1 = k then (k, v) else e) = t :=
        (List.map_congr_left fun x hx => if_neg (hk ▸ he x hx).ne').trans (List.map_id _)
      rw [hdrop, Table.put_eq_cons hp (fun x hx => hk ▸ he x hx), List.map_cons, if_pos hk, hmap]
    · obtain ⟨w, hw⟩ := hm
      have hw' : (k, w) ∈ t := (List.mem_cons.mp hw).resolve_left fun h => hk (by rw [← h])
      have hlt : e.1 < k := he _ hw'
      have hdrop : Table.drop k (e :: t) = e :: Table.drop k t := by simp [Table.drop, hk]
      rw [hdrop, Table.put, if_neg (by omega), ih hp ⟨w, hw'⟩, List.map_cons, if_neg hk]

theorem Table.set_eq_map [DecidableEq α] (hm : ∃ w, (k, w) ∈ t) (hv : v ≠ d) :
    Table.set d k v t = t.map fun e => if e.1 = k then (k, v) else e := by
  rw [Table.set, if_neg hv, Table.put_drop_eq_map hp hm]

end Rising

/-- A table in canonical form has rising keys. -/
theorem Table.rising_of_wfFrom {α : Type} [DecidableEq α] {d : α} {lo : Nat} {t : Table α} (h : Table.wfFrom d lo t = true) :
    (∀ e ∈ t, lo ≤ e.1) ∧ t.Pairwise fun a b => a.1 < b.1 := by
  induction t generalizing lo with
  | nil => exact ⟨by simp, .nil⟩
  | cons e t ih =>
    obtain ⟨j, w⟩ := e
    simp only [Table.wfFrom, Bool.and_eq_true, decide_eq_true_eq] at h
    obtain ⟨⟨hlo, -⟩, ht⟩ := h
    obtain ⟨hge, hp⟩ := ih ht
    refine ⟨fun e he => ?_, List.pairwise_cons.mpr ⟨fun e he => hge e he, hp⟩⟩
    rcases List.mem_cons.mp he with rfl | he
    · exact hlo
    · exact (hlo.trans (Nat.le_succ j)).trans (hge e he)

theorem Table.rising_of_wf {α : Type} [DecidableEq α] {d : α} {t : Table α} (h : Table.wf d t = true) : t.Pairwise fun a b => a.1 < b.1 :=
  (Table.rising_of_wfFrom h).2

/-! ## Jobs -/

theorem State.jobSlot_mem {s : State} {no : JobNo} {k : Nat} (h : s.jobSlot no = some k) : no ≠ 0 ∧ ∃ j, (k, j) ∈ s.jobs ∧ j.no = no := by
  unfold State.jobSlot at h
  split at h
  · exact absurd h (by simp)
  · rename_i hno
    obtain ⟨e, he, rfl⟩ := Option.map_eq_some_iff.mp h
    exact ⟨hno, e.2, List.mem_of_find?_eq_some he, by simpa using List.find?_some he⟩

theorem State.job_of_slot {s : State} {no : JobNo} {k : Nat} (h : s.jobSlot no = some k) : s.job no = Table.get Job.reset k s.jobs := by
  rw [State.job, h]

theorem State.modJob_of_slot {s : State} {no : JobNo} {k : Nat} (h : s.jobSlot no = some k) (g : Job → Job) :
    s.modJob no g = { s with jobs := Table.set Job.reset k (g (s.job no)) s.jobs } := by
  rw [State.job_of_slot h, State.modJob, h]

/-- A job that is not the empty one stands in the job table. -/
theorem State.jobSlot_of_plate {s : State} {no : JobNo} {p : Plate} (h : (s.job no).plate = some p) : ∃ k, s.jobSlot no = some k := by
  unfold State.job at h
  split at h
  · exact ⟨_, ‹_›⟩
  · simp [Job.reset] at h

theorem State.job_no {s : State} {no : JobNo} {k : Nat} (hr : Claims.Rising s) (h : s.jobSlot no = some k) : (s.job no).no = no := by
  obtain ⟨-, j, hm, hj⟩ := State.jobSlot_mem h
  rw [State.job_of_slot h, Table.get_of_mem hr hm, hj]

theorem Job.ne_reset {j : Job} (h : j.no ≠ 0) : j ≠ Job.reset := fun hj => h (by rw [hj]; rfl)

/-- A change of a job that keeps its number is a change of its entry in its place. -/
theorem State.modJob_eq_map {s : State} {no : JobNo} {k : Nat} {g : Job → Job} (hr : Claims.Rising s) (h : s.jobSlot no = some k)
    (hg : (g (s.job no)).no = no) :
    s.modJob no g = { s with jobs := s.jobs.map fun e => if e.1 = k then (k, g (s.job no)) else e } := by
  obtain ⟨hno, j, hm, -⟩ := State.jobSlot_mem h
  have hne : g (s.job no) ≠ Job.reset := Job.ne_reset (hg.symm ▸ hno)
  rw [State.modJob_of_slot h]
  exact congrArg (fun js => { s with jobs := js }) (Table.set_eq_map hr ⟨j, hm⟩ hne)

/-- A change of a job that keeps its number keeps its slot. -/
theorem State.jobSlot_modJob {s : State} {no : JobNo} {k : Nat} {g : Job → Job} (hr : Claims.Rising s) (h : s.jobSlot no = some k)
    (hg : (g (s.job no)).no = no) : (s.modJob no g).jobSlot no = some k := by
  obtain ⟨hno, j, hm, hj⟩ := State.jobSlot_mem h
  have hkey : ∀ e ∈ s.jobs, e.1 = k → e = (k, j) := fun e he hk => by
    have hv : e.2 = j := (Table.get_of_mem (d := Job.reset) hr (w := e.2) (hk ▸ he)).symm.trans (Table.get_of_mem hr hm)
    rw [← hk, ← hv]
  have hfind : (s.jobs.map fun e => if e.1 = k then (k, g (s.job no)) else e).find? (fun e => e.2.no == no) =
      (s.jobs.find? fun e => e.2.no == no).map fun e => if e.1 = k then (k, g (s.job no)) else e := by
    rw [List.find?_map]
    congr 1
    refine List.find?_congr fun e he => ?_
    by_cases hk : e.1 = k
    · simp [hkey e he hk, hg, hj]
    · simp [hk]
  simp only [State.jobSlot, if_neg hno] at h ⊢
  rw [State.modJob_eq_map hr (by rw [State.jobSlot, if_neg hno]; exact h) hg]
  simp only [hfind, Option.map_map]
  obtain ⟨e, he, rfl⟩ := Option.map_eq_some_iff.mp h
  simp [he]

/-- What a read of a changed job gives. -/
theorem State.job_modJob {s : State} {no : JobNo} {k : Nat} {g : Job → Job} (hr : Claims.Rising s) (h : s.jobSlot no = some k)
    (hg : (g (s.job no)).no = no) : (s.modJob no g).job no = g (s.job no) := by
  rw [State.job_of_slot (State.jobSlot_modJob hr h hg), State.modJob_of_slot h]
  exact Table.get_set_same ..

theorem State.rising_modJob {s : State} {no : JobNo} {g : Job → Job} {k : Nat} (hr : Claims.Rising s) (h : s.jobSlot no = some k)
    (hg : (g (s.job no)).no = no) : Claims.Rising (s.modJob no g) := by
  rw [State.modJob_eq_map hr h hg, Claims.Rising, List.pairwise_map]
  refine List.Pairwise.imp (fun hab => ?_) hr
  split <;> split <;> simp_all

/-- Two changes of a job are one. -/
theorem State.modJob_modJob {s : State} {no : JobNo} {f g : Job → Job} {k : Nat} (hr : Claims.Rising s) (h : s.jobSlot no = some k)
    (hf : (f (s.job no)).no = no) : (s.modJob no f).modJob no g = s.modJob no fun j => g (f j) := by
  have h' := State.jobSlot_modJob hr h hf
  simp only [State.modJob] at h' ⊢
  simp only [h] at h' ⊢
  simp only [h', Table.get_set_same, Table.set_set]

/-- A change of a job is a change of the job table alone. -/
theorem State.modJob_jobs (no : JobNo) (g : Job → Job) (s : State) : s.modJob no g = { s with jobs := (s.modJob no g).jobs } := by
  unfold State.modJob
  split <;> rfl

/-- What a command does with a job before what follows of itself: no start in progress, no switch ordered or to be undone. -/
def Job.settled (j : Job) : Prop := j.startMsg = none ∧ j.mapPend = none ∧ j.mapBad = false

/-- The jobs of a quiet module. -/
theorem State.quiet_job {s : State} (h : s.quiet = true) (no : JobNo) : (s.job no).settled := by
  obtain ⟨hj, -⟩ := (State.quiet_iff s).mp h
  unfold State.job
  split
  · rename_i k _
    rcases Table.get_mem Job.reset k s.jobs with g | g
    · rw [g]; exact ⟨rfl, rfl, rfl⟩
    · exact hj _ g
  · exact ⟨rfl, rfl, rfl⟩

/-- A change of a job that starts nothing and orders no switch leaves the module quiet. -/
theorem State.StaysQuiet.modJob {u v : State} (h : u.StaysQuiet v) (no : JobNo) {g : Job → Job} (hg : ∀ j, j.settled → (g j).settled) :
    u.StaysQuiet (v.modJob no g) := by
  obtain ⟨hq, h⟩ := h
  have hs : ∀ k, v.jobSlot no = some k → (g (Table.get Job.reset k v.jobs)).settled := fun k hk =>
    hg _ (State.job_of_slot hk ▸ State.quiet_job hq no)
  have hq' := (State.quiet_iff v).mp hq
  refine ⟨?_, by simpa using h⟩
  unfold State.modJob
  split
  · rename_i k hk
    obtain ⟨hj, hrest⟩ := hq'
    refine (State.quiet_iff _).mpr ⟨fun e he => ?_, hrest⟩
    rcases Table.mem_set he with rfl | he
    · exact hs k hk
    · exact hj e he
  · exact hq

/-! ## A step of a job begins (R124, R467, R524) -/

/-- The latest step that a job has begun, once `step` begins. -/
def Job.latest (step : Word) (j : Job) : Word := match j.begun with | some b => if b < step then step else b | none => step

/-- A job that has begun step w. -/
def Job.withBegun (w : Word) (j : Job) : Job := { j with begun := some w }

/-- A job in which nothing up to step w waits for its step any more. -/
def Job.released (w : Word) (j : Job) : Job :=
  { j with scalePend := j.scalePend.filter fun x => !decide (x.1 ≤ w), injPend := j.injPend.filter fun x => !decide (x.step ≤ w) }

/-- A job whose step begins. -/
def Job.begins (step : Word) (j : Job) : Job := (j.withBegun (j.latest step)).released (j.latest step)

/-- The injections of a job whose step comes with `step`. -/
def Job.dueInjections (step : Word) (j : Job) : List Inject := j.injPend.filter fun x => decide (x.step ≤ j.latest step)

/-- Where no RESET_SCALES waits, the step of a job lets its injections act. -/
theorem State.stepBegin_eq {s : State} {no : JobNo} {k : Nat} (step : Word) (hr : Claims.Rising s) (h : s.jobSlot no = some k)
    (hp : (s.job no).scalePend = []) :
    s.stepBegin no step = ((s.job no).dueInjections step).foldl (fun s x => s.inject x) (s.modJob no fun _ => (s.job no).begins step) := by
  let w := (s.job no).latest step
  have hno := State.job_no hr h
  have hj : (s.modJob no (Job.withBegun w)).job no = (s.job no).withBegun w := State.job_modJob hr h hno
  have hm : (s.modJob no (Job.withBegun w)).modJob no (Job.released w) = s.modJob no fun _ => (s.job no).begins step := by
    rw [State.modJob_modJob hr h hno, State.modJob_of_slot h, State.modJob_of_slot h]; rfl
  have hs : s.stepBegin no step =
      (((s.modJob no (Job.withBegun w)).job no).injPend.filter fun x => decide (x.step ≤ w)).foldl (fun s x => s.inject x)
        ((((s.modJob no (Job.withBegun w)).job no).scalePend.filter fun x => decide (x.1 ≤ w)).foldl (fun s x => s.clearScales no x.2)
          ((s.modJob no (Job.withBegun w)).modJob no (Job.released w))) := rfl
  rw [hs, hj, hm]
  simp only [Job.withBegun, hp, List.filter_nil, List.foldl_nil]
  rfl

/-- A memory fault or a fault of a stream that an injection arms. -/
def Inject.arms (i : Inject) : Prop :=
  i.code = Code.sramUncorrectable ∨ i.code = Code.dramUncorrectable ∨ i.code = Code.injOverflow ∨ i.code = Code.injDropRank

theorem State.inject_arms {i : Inject} (h : i.arms) (s : State) : s.inject i = { s with armed := s.armed ++ [i] } := by
  have hc : i.code ≠ Code.laneFailed ∧ i.code ≠ Code.linkDown ∧ i.code ≠ Code.frameCrc ∧ i.code ≠ Code.partnerLost := by
    rcases h with h | h | h | h <;> rw [h] <;> decide
  obtain ⟨h1, h2, h3, h4⟩ := hc
  simp only [State.inject, if_neg h1, if_neg h2, if_neg h3, if_neg h4]

theorem State.injects_arm {l : List Inject} (h : ∀ i ∈ l, i.arms) (s : State) :
    l.foldl (fun s x => s.inject x) s = { s with armed := s.armed ++ l } := by
  induction l generalizing s with
  | nil => simp
  | cons i l ih => rw [List.foldl_cons, State.inject_arms (h i (by simp)), ih fun j hj => h j (by simp [hj])]; simp

/-! ## An impression starts (R249, R250) -/

/-- The progress of an entry whose next impression starts now. -/
def EntryProg.starts (now : Nat) (g : EntryProg) : EntryProg :=
  { g with next := g.next + 1, running := true, start := now, due := 0, shift := 0, refresh := 0, retry := 0 }

/-- A job whose entry i starts its impression of a step now. -/
def Job.starts (i : Nat) (step : Word) (now : Nat) (j : Job) : Job :=
  { j.begins step with prog := Table.set EntryProg.reset i ((j.entryProg i).starts now) j.prog }

theorem Job.starts_settled {i now : Nat} {step : Word} {j : Job} (h : j.settled) : (j.starts i step now).settled := h

theorem Job.prog_starts (i : Nat) (step : Word) (now : Nat) (j : Job) :
    Table.get EntryProg.reset i (j.starts i step now).prog = (j.entryProg i).starts now := by
  simp [Job.starts]

/-- The progress that an ungated start gives an entry. -/
def EntryProg.ungated (now : Nat) (g : EntryProg) : EntryProg := { g with start := now, due := 0, shift := 0, refresh := 0, retry := 0 }

theorem State.gateDue_ungated (no : JobNo) (e : Nat) {x : SchedEntry} (step : Nat) (s : State) (h : x.startGate = 0xFFF) :
    s.gateDue no e x step = s.modProg no e (EntryProg.ungated s.time) := by
  unfold State.gateDue
  split
  · rw [if_pos (.inl h)]; rfl
  · rfl

/-- What the start of an ungated entry's impression does to its job. -/
theorem State.startsEntry {s : State} {no : JobNo} {k i n : Nat} {x : SchedEntry} (step : Word) (hr : Claims.Rising s) (h : s.jobSlot no = some k)
    (hp : (s.job no).scalePend = []) (hi : (s.job no).injPend = []) (hx : x.startGate = 0xFFF) :
    ((s.stepBegin no step).gateDue no i x n).modProg no i (fun g => { g with next := g.next + 1, running := true }) =
      s.modJob no fun _ => (s.job no).starts i step s.time := by
  have hno := State.job_no hr h
  have hb : s.stepBegin no step = s.modJob no fun _ => (s.job no).begins step := by
    rw [State.stepBegin_eq step hr h hp, Job.dueInjections, hi]; rfl
  rw [hb, State.gateDue_ungated _ _ _ _ hx]
  simp only [State.modProg]
  rw [State.modJob_modJob hr h hno, State.modJob_modJob hr h hno]
  congr 1
  funext j
  simp [Job.starts, Job.entryProg, EntryProg.ungated, EntryProg.starts, Job.begins, Job.withBegun, Job.released]

/-- A program impression that starts now. -/
def Cluster.assigned (i : ImprRef) (pc : Word) (code : DWord × Nat) (k : Cluster) : Cluster :=
  { k with
    gstate := .running, holdCause := .none, startGate := none
    job := i.job, impr := some i
    pc := pc, loops := [], forming := [], fetchQ := [], waitDone := none, gateDone := false, grant := none, waitDeadline := none
    flags := NFlags.none, signSeq := 0, nextIssue := k.stepCount, issuedAt := none, lastStepEnd := 1000 * i.start, dueFault := none
    lastTile := none, imprStall := 0, ending := none, fetchBad := [], iwait := []
    icache := if k.codeBase = code.1 then k.icache else [], codeBase := code.1, codeLen := code.2 }

theorem State.startProgram_now {s : State} {no : JobNo} {e step : Nat} {x : SchedEntry} {p : Plate} (h : ((s.job no).entryProg e).start = s.time) :
    s.startProgram no e x p step =
      (s.modClu x.target (Cluster.assigned ⟨no, imprId x step, BitVec.ofNat 32 step, e, s.time⟩ (x.address.setWidth 32) (p.codeOf x.target))).snapshot x.target := by
  simp only [State.startProgram, h, Nat.lt_irrefl, decide_false, Bool.false_eq_true, if_false]
  rfl

/-- The snapshot is no part of the status block. -/
theorem State.statusBlock_snapshot (c : ClusterId) (s : State) : (s.snapshot c).statusBlock c = s.statusBlock c := by
  simp only [State.snapshot, State.statusBlock, State.hasCluster, State.clu_modClu_same, State.modClu_frame]
  rfl

section Starting
variable {s : State} {no : JobNo} {p : Plate} {i : Nat} {x : SchedEntry}

/-- An entry that nothing holds back starts its next impression. -/
theorem State.imprStart_eq {k : Nat} (hr : Claims.Rising s) (hk : s.jobSlot no = some k) (hq : s.quiet = true)
    (hst : (s.job no).st = .running) (hp : (s.job no).plate = some p) (hx : p.sched[i]? = some x)
    (hsc : (s.job no).scalePend = []) (hin : (s.job no).injPend = []) (hg : x.startGate = 0xFFF) (hm : x.mapping.toNat = (s.job no).mapping)
    (hrun : ((s.job no).entryProg i).running = false) (hlast : x.last = 0xFFFFFFFF ∨ x.first + ((s.job no).entryProg i).next ≤ x.last)
    (hlt : x.first + ((s.job no).entryProg i).next < 2 ^ 32) (hf : s.pair.st ≠ .fenced)
    (hfree : x.kind = 1 → (s.clu x.target).gstate = .idle)
    (hd : (s.die (if x.kind = 1 then ClusterId.die x.target else Port.die (x.target.setWidth 6))).inReset = false) :
    s.imprStart no i =
      let step := x.first + ((s.job no).entryProg i).next
      let t := s.modJob no fun _ => (s.job no).starts i (BitVec.ofNat 32 step) s.time
      if x.kind = 1 then t.startProgram no i x p step else t.startStream no i x step := by
  have hover : (s.job no).entryOver x i = false := by
    rcases hlast with h | h
    · simp [Job.entryOver, h]
    · simp [Job.entryOver, Nat.not_lt.mpr h]
  have hheld : s.stepHeld no x (x.first + ((s.job no).entryProg i).next) = false := by
    obtain ⟨-, hpend, -⟩ := State.quiet_job hq no
    simp [State.stepHeld, hpend]
  have hfree' : (x.kind != 1#2 || (s.clu x.target).gstate == .idle) = true := by
    simp only [Bool.or_eq_true, bne_iff_ne, beq_iff_eq]
    exact (Decidable.em (x.kind = 1)).symm.imp_right hfree
  simp only [State.imprStart, hp, hx]
  rw [if_pos ⟨hst, hm, by simp [hrun], by simp [hover], hlt, hfree', hf, by rw [hd]; rfl, by simp [hheld]⟩,
    State.startsEntry _ hr hk hsc hin hg]

end Starting

theorem State.job_congr {s t : State} (h : t.jobs = s.jobs) (no : JobNo) : t.job no = s.job no := by simp only [State.job, State.jobSlot, h]

/-- What a program impression of an entry that starts now leaves. -/
def State.runsProgram (no : JobNo) (i step : Nat) (x : SchedEntry) (p : Plate) (s : State) : State :=
  ((s.modJob no fun _ => (s.job no).starts i (BitVec.ofNat 32 step) s.time).modClu x.target
    (Cluster.assigned ⟨no, imprId x step, BitVec.ofNat 32 step, i, s.time⟩ (x.address.setWidth 32) (p.codeOf x.target))).snapshot x.target

theorem State.startProgram_starts {s : State} {no : JobNo} {k : Nat} (hr : Claims.Rising s) (hk : s.jobSlot no = some k) (i step : Nat)
    (x : SchedEntry) (p : Plate) :
    (s.modJob no fun _ => (s.job no).starts i (BitVec.ofNat 32 step) s.time).startProgram no i x p step = s.runsProgram no i step x p := by
  have hj := State.job_modJob (g := fun _ => (s.job no).starts i (BitVec.ofNat 32 step) s.time) hr hk (State.job_no hr hk)
  rw [State.startProgram_now, State.runsProgram]
  · simp only [State.modJob_frame]
  · rw [hj]; simp [Job.starts, Job.entryProg, EntryProg.starts]

theorem State.runsProgram_eq (no : JobNo) (i step : Nat) (x : SchedEntry) (p : Plate) (u : State) :
    u.runsProgram no i step x p = { u with jobs := (u.runsProgram no i step x p).jobs, clusters := (u.runsProgram no i step x p).clusters } := by
  simp only [State.runsProgram, State.snapshot, State.modClu, State.setClu]
  rw [State.modJob_jobs]

theorem State.clu_runsProgram (no : JobNo) (i step : Nat) (x : SchedEntry) (p : Plate) (u : State) (c : ClusterId) :
    (u.runsProgram no i step x p).clu c = if c = x.target then
      { (u.clu x.target).assigned ⟨no, imprId x step, BitVec.ofNat 32 step, i, u.time⟩ (x.address.setWidth 32) (p.codeOf x.target) with
        snap := (u.runsProgram no i step x p).statusBlock x.target } else u.clu c := by
  have hc : ∀ g, (u.modJob no g).clu c = u.clu c := fun g => by simp [State.clu]
  split
  · rename_i h
    subst h
    rw [State.runsProgram, State.statusBlock_snapshot, State.snapshot, State.clu_modClu_same, State.clu_modClu_same, hc]
  · rename_i h
    simp only [State.runsProgram, State.snapshot, State.modClu, State.clu_setClu, if_neg h, hc]

theorem State.job_runsProgram {u : State} {no : JobNo} {k : Nat} (hr : Claims.Rising u) (hk : u.jobSlot no = some k) (i step : Nat)
    (x : SchedEntry) (p : Plate) : (u.runsProgram no i step x p).job no = (u.job no).starts i (BitVec.ofNat 32 step) u.time :=
  (State.job_congr (by simp [State.runsProgram, State.snapshot]) no).trans
    (State.job_modJob (g := fun _ => (u.job no).starts i (BitVec.ofNat 32 step) u.time) hr hk (State.job_no hr hk))

theorem State.StaysQuiet.startsJob {u : State} (hq : u.quiet = true) (no : JobNo) (i : Nat) (step : Word) (now : Nat) :
    u.StaysQuiet (u.modJob no fun _ => (u.job no).starts i step now) :=
  (State.StaysQuiet.refl hq).modJob no fun _ _ => Job.starts_settled (State.quiet_job hq no)

theorem State.StaysQuiet.runsProgram {u : State} (hq : u.quiet = true) (no : JobNo) (i step : Nat) (x : SchedEntry) (p : Plate) :
    u.StaysQuiet (u.runsProgram no i step x p) :=
  (State.StaysQuiet.startsJob hq no i _ _).clusters _

/-! ## A stream impression starts (R202, R250) -/

/-- A range of 128 aligned bytes below 2 GiB is memory of a cluster. -/
theorem loc_sram {a : DWord} (h : a.toNat < 2 ^ 31) : DWord.loc a = .sram (BitVec.ofNat 8 (a.toNat / 2 ^ 23)) (a.toNat % 2 ^ 23) := by
  have h0 : a.toNat / 2 ^ 62 = 0 := Nat.div_eq_of_lt (h.trans (by decide))
  rw [DWord.loc, if_pos h0, if_pos h]

theorem inSpace_sram {a : DWord} (h : a.toNat < 2 ^ 31) (hal : a.toNat % 128 = 0) : inSpace a 128 = true := by
  rw [inSpace, loc_sram h]
  simp only [decide_eq_true_eq]
  omega

/-- A demand read of sound SRAM reads its bytes and changes nothing. -/
theorem State.demand_sram {s : State} {a : DWord} (n : Nat) (req : BitVec 16) (no : JobNo) (h : a.toNat < 2 ^ 31) (ha : s.armed = [])
    (hb : s.badWords = []) (hw : s.weakIn a.toNat n = []) : s.demand a.toNat n req no = ((s.read a.toNat n, none), s) := by
  have hl : DWord.loc (BitVec.ofNat 64 a.toNat) = _ := (congrArg DWord.loc (BitVec.ofNat_toNat ..)).trans (by simpa using loc_sram h)
  have hh : State.noteRead a.toNat n (s.holdRefresh a.toNat n req) = s := by simp only [State.holdRefresh, State.noteRead, hl]
  simp only [State.demand, hh, State.armedIn, ha, hb, List.find?_nil, Option.map_none, State.corrections, hl, hw, State.corrects, List.isEmpty_nil,
    if_true]

theorem length_leWords (n : Nat) (bs : List Byte) : (leWords n bs).length = n := by
  induction n generalizing bs with
  | zero => rfl
  | succ n ih => simp [leWords, ih]

/-- The step's words in a descriptor stand in word 0 and beyond word 7. -/
theorem Desc.forStep_eq (id : Word) (step : Nat) (d : Desc) : ∃ k v, 8 ≤ k ∧ ((d.forStep id step).w = d.w.set 0 (((d.w.getD 0 0).setWidth 32).setWidth 64 ||| (id.setWidth 64 <<< 32)) ∨
    (d.forStep id step).w = (d.w.set 0 (((d.w.getD 0 0).setWidth 32).setWidth 64 ||| (id.setWidth 64 <<< 32))).set k v) := by
  unfold Desc.forStep
  dsimp only
  split
  · exact ⟨8, _, Nat.le_refl 8, .inr rfl⟩
  · split
    · exact ⟨9, _, by decide, .inr rfl⟩
    · exact ⟨8, 0, Nat.le_refl 8, .inl rfl⟩

theorem Desc.forStep_getD (id : Word) (step : Nat) (d : Desc) {n : Nat} (h0 : 0 < n) (h8 : n < 8) : (d.forStep id step).w.getD n 0 = d.w.getD n 0 := by
  obtain ⟨k, v, hk, h | h⟩ := Desc.forStep_eq id step d
  · rw [h, List.getD_eq_getElem?_getD, List.getElem?_set_ne (by omega), List.getD_eq_getElem?_getD]
  · rw [h, List.getD_eq_getElem?_getD, List.getElem?_set_ne (by omega), List.getElem?_set_ne (by omega), List.getD_eq_getElem?_getD]

/-- The high half of a word that is put together from a low half and id is id. -/
theorem high_half (v : DWord) (id : Word) : BitVec.ofNat 32 ((((v.setWidth 32).setWidth 64 ||| (id.setWidth 64 <<< 32)) : DWord).toNat >>> 32 % 2 ^ 32) = id := by
  have h : (((v.setWidth 32).setWidth 64 ||| (id.setWidth 64 <<< 32)) : DWord).extractLsb' 32 32 = id := by
    ext j hj
    simp [hj, show 32 + j < 64 by omega]
  refine Eq.trans (BitVec.eq_of_toNat_eq ?_) h
  simp

theorem Desc.impr_forStep (id : Word) (step : Nat) {d : Desc} (hd : 0 < d.w.length) : (d.forStep id step).impr = id := by
  have hw : (d.forStep id step).w.getD 0 0 = ((d.w.getD 0 0).setWidth 32).setWidth 64 ||| (id.setWidth 64 <<< 32) := by
    obtain ⟨k, v, hk, h | h⟩ := Desc.forStep_eq id step d
    · rw [h, List.getD_eq_getElem?_getD, List.getElem?_set_self hd]; rfl
    · rw [h, List.getD_eq_getElem?_getD, List.getElem?_set_ne (by omega), List.getElem?_set_self hd]; rfl
  rw [Desc.impr, Desc.word, hw, bitsOf, ← Nat.shiftRight_eq_div_pow]
  exact high_half ..

/-- What a stream impression of an entry puts into the queue of its engine. -/
def State.queued (i step : Nat) (x : SchedEntry) (s : State) : QEntry :=
  ⟨(Desc.ofBytes (s.read x.address.toNat 128)).forStep (imprId x step) step, s.time, BitVec.ofNat 32 step, some i⟩

/-- What a stream impression of an entry that starts now leaves. -/
def State.runsStream (no : JobNo) (i step : Nat) (x : SchedEntry) (s : State) : State :=
  (s.modJob no fun _ => (s.job no).starts i (BitVec.ofNat 32 step) s.time).modEng (x.target.setWidth 6) fun e =>
    { e with queue := e.queue ++ [s.queued i step x] }

theorem State.startStream_starts {u : State} (no : JobNo) (i step : Nat) {x : SchedEntry} (g : Job → Job) (ha : u.armed = []) (hb : u.badWords = [])
    (hw : u.weakIn x.address.toNat 128 = []) (h : x.address.toNat < 2 ^ 31) (hal : x.address.toNat % 128 = 0) (hab : u.absentAt x.address = false)
    (hq : (u.eng (x.target.setWidth 6)).queue.length < 64) (hp : (u.eng (x.target.setWidth 6)).pacorWait = []) :
    (u.modJob no g).startStream no i x step = (u.modJob no g).modEng (x.target.setWidth 6) fun e => { e with queue := e.queue ++ [u.queued i step x] } := by
  have hd := State.demand_sram (s := u.modJob no g) 128 (BitVec.ofNat 16 (320 + (Port.die (x.target.setWidth 6)).toNat)) no h (by simpa) (by simpa)
    (by simpa [State.weakIn] using hw)
  have hab' : (u.modJob no g).absentAt x.address = false := by simpa [State.absentAt, State.hasCluster] using hab
  have he : (u.modJob no g).eng (x.target.setWidth 6) = u.eng (x.target.setWidth 6) := by simp [State.eng]
  have hqf : (u.modJob no g).queueFull (x.target.setWidth 6) = false := by simpa [State.queueFull, he] using hq
  simp only [State.startStream, inSpace_sram h hal, hal, hab', hd, hqf, he, hp]
  simp [State.enqueue, State.queued, State.read]

theorem State.runsStream_eq (no : JobNo) (i step : Nat) (x : SchedEntry) (u : State) :
    u.runsStream no i step x = { u with jobs := (u.runsStream no i step x).jobs, engines := (u.runsStream no i step x).engines } := by
  simp only [State.runsStream, State.modEng, State.setEng]
  rw [State.modJob_jobs]

theorem State.eng_runsStream (no : JobNo) (i step : Nat) (x : SchedEntry) (u : State) (e : Port) :
    (u.runsStream no i step x).eng e = if e = x.target.setWidth 6 then
      { u.eng (x.target.setWidth 6) with queue := (u.eng (x.target.setWidth 6)).queue ++ [u.queued i step x] } else u.eng e := by
  have he : ∀ e g, (u.modJob no g).eng e = u.eng e := fun e g => by simp [State.eng]
  simp only [State.runsStream, State.modEng, State.eng_setEng, he]

theorem State.job_runsStream {u : State} {no : JobNo} {k : Nat} (hr : Claims.Rising u) (hk : u.jobSlot no = some k) (i step : Nat)
    (x : SchedEntry) : (u.runsStream no i step x).job no = (u.job no).starts i (BitVec.ofNat 32 step) u.time :=
  (State.job_congr (by simp [State.runsStream]) no).trans
    (State.job_modJob (g := fun _ => (u.job no).starts i (BitVec.ofNat 32 step) u.time) hr hk (State.job_no hr hk))

/-- A change of an engine that keeps its contexts and holds no frame back. -/
theorem State.StaysQuiet.modEng {u v : State} (h : u.StaysQuiet v) (p : Port) (g : Engine → Engine)
    (hg : ∀ e, (g e).ctxs = e.ctxs ∧ (g e).held = e.held) : u.StaysQuiet (v.modEng p g) := by
  obtain ⟨hq, h⟩ := h
  refine ⟨?_, h⟩
  have hnew : (∀ c ∈ (g (v.eng p)).ctxs, c.rests = true) ∧ (g (v.eng p)).held = [] := by
    obtain ⟨hc, hh⟩ := hg (v.eng p)
    rw [hc, hh]
    exact ⟨State.quiet_ctx hq p, State.quiet_held hq p⟩
  rw [State.quiet_iff] at hq ⊢
  obtain ⟨hj, hd, hs, he, hrest⟩ := hq
  refine ⟨hj, hd, hs, fun e hm => ?_, hrest⟩
  rcases Table.mem_set hm with rfl | hm
  · exact hnew
  · exact he e hm

theorem State.StaysQuiet.runsStream {u : State} (hq : u.quiet = true) (no : JobNo) (i step : Nat) (x : SchedEntry) :
    u.StaysQuiet (u.runsStream no i step x) :=
  (State.StaysQuiet.startsJob hq no i _ _).modEng _ _ fun _ => ⟨rfl, rfl⟩

/-! ## An entry of a hatch list starts (R400, R401, R403) -/

/-- A gated port at the start of an entry of a hatch list. -/
def Hatch.gates (no : JobNo) (now : Nat) (h : Hatch) (x : PortState) : PortState := { x with egress := h.applyNow no now x.egress }

/-- A cluster whose program has waited for an entry of a hatch list. -/
def Cluster.released (now : Nat) (c : Cluster) : Cluster :=
  { c with
    gstate := .running, holdCause := .none, startGate := none, nextIssue := c.stepCount, lastStepEnd := 1000 * now
    impr := c.impr.map fun i => { i with start := now } }

/-- A cluster at the start of an entry of a hatch list. -/
def Cluster.atEntry (no : JobNo) (now : Nat) (h : Hatch) (c : Cluster) : Cluster :=
  match c.startGate with
  | some g => if c.job = no ∧ h.startsAt g now then c.released now else c
  | none => c

/-- A port at the start of an entry of a hatch list. -/
def State.gatePort (no : JobNo) (h : Hatch) (s : State) (n : Port) : State :=
  if s.hasPort n ∧ h.gated.getLsbD n.toNat then s.modPort n (Hatch.gates no s.time h) else s

/-- The gated ports at the start of an entry of a hatch list. -/
def State.gatePorts (no : JobNo) (h : Hatch) (s : State) : State := allPorts.foldl (State.gatePort no h) s

/-- A cluster that waits for an entry of a hatch list goes on. -/
def State.ungate (no : JobNo) (h : Hatch) (s : State) (k : Nat × Cluster) : State :=
  match k.2.startGate with
  | some g => if k.2.job = no ∧ h.startsAt g s.time then s.modClu (BitVec.ofNat 8 k.1) (Cluster.released s.time) else s
  | none => s

/-- The clusters that wait for an entry of a hatch list go on. -/
def State.releaseGated (no : JobNo) (h : Hatch) (s : State) : State := s.clusters.foldl (State.ungate no h) s

/-- The bundles of a job that wait for a gate issue. -/
def State.issueHeld (no : JobNo) (s : State) : State :=
  s.clusters.foldl (fun s k => if k.2.job = no ∧ k.2.gstate = .held ∧ k.2.startGate.isNone then s.tryIssue (BitVec.ofNat 8 k.1) else s) s

theorem State.hatchEntry_eq {s : State} {no : JobNo} {slot : Nat} {p : Plate} (hs : Table.get 0 slot s.hatchJobs = no.toNat) (h0 : no ≠ 0)
    (hp : (s.job no).plate = some p) : s.hatchEntry slot = ((s.gatePorts no p.hatch).releaseGated no p.hatch).issueHeld no := by
  have hn : BitVec.ofNat 16 (Table.get 0 slot s.hatchJobs) = no := by rw [hs]; simp
  have hh : s.hatch no = some p.hatch := by simp [State.hatch, State.plate, hp]
  simp only [State.hatchEntry, hn, if_neg h0, hh]
  rfl

/-- Where no bundle of a job waits for a gate, none issues. -/
theorem State.issueHeld_none {s : State} {no : JobNo} (h : ∀ e ∈ s.clusters, ¬ (e.2.job = no ∧ e.2.gstate = .held ∧ e.2.startGate = none)) :
    s.issueHeld no = s :=
  foldl_eq_self fun e he => if_neg fun hc => h e he (by simpa using hc)

theorem allPorts_nodup : (allPorts.map BitVec.toNat).Nodup := by decide

/-- Ports changed one after another, each of them once. -/
theorem State.foldl_modPort (g : PortState → PortState) (ps : List Port) (s : State) :
    ps.foldl (fun s n => s.modPort n g) s =
      { s with ports := (ps.map BitVec.toNat).foldl (fun t k => Table.set PortState.reset k (g (Table.get PortState.reset k t)) t) s.ports } := by
  induction ps generalizing s with
  | nil => rfl
  | cons n ps ih => rw [List.foldl_cons, ih]; rfl

theorem State.gatePorts_filter (no : JobNo) (h : Hatch) (ps : List Port) (u s : State) (hf : s.fuse = u.fuse) (ht : s.time = u.time) :
    ps.foldl (State.gatePort no h) s =
      (ps.filter fun n => u.hasPort n && h.gated.getLsbD n.toNat).foldl (fun s n => s.modPort n (Hatch.gates no u.time h)) s := by
  induction ps generalizing s with
  | nil => rfl
  | cons n ps ih =>
    have hp : s.hasPort n = u.hasPort n := by simp [State.hasPort, hf]
    rw [List.foldl_cons, State.gatePort, hp, ht, List.filter_cons]
    by_cases hc : u.hasPort n ∧ h.gated.getLsbD n.toNat
    · rw [if_pos hc, if_pos (by simpa using hc), List.foldl_cons]
      exact ih _ (by simpa) (by simpa)
    · rw [if_neg hc, if_neg (by simpa using hc)]
      exact ih _ hf ht

/-- The gates of an entry reach the gated ports and no other. -/
theorem State.gatePorts_eq (no : JobNo) (h : Hatch) (u : State) :
    u.gatePorts no h = { u with ports := (u.gatePorts no h).ports } ∧
      ∀ q, (u.gatePorts no h).port q = if u.hasPort q ∧ h.gated.getLsbD q.toNat then Hatch.gates no u.time h (u.port q) else u.port q := by
  have e := State.gatePorts_filter no h allPorts u u rfl rfl
  rw [State.foldl_modPort] at e
  refine ⟨by rw [State.gatePorts, e], fun q => ?_⟩
  have hn : ((allPorts.filter fun n => u.hasPort n && h.gated.getLsbD n.toNat).map BitVec.toNat).Nodup :=
    allPorts_nodup.sublist (List.Sublist.map _ List.filter_sublist)
  have hq : q ∈ allPorts := List.mem_map.mpr ⟨q.toNat, List.mem_range.mpr q.isLt, by simp⟩
  have hm : q.toNat ∈ (allPorts.filter fun n => u.hasPort n && h.gated.getLsbD n.toNat).map BitVec.toNat ↔ u.hasPort q ∧ h.gated.getLsbD q.toNat := by
    rw [List.mem_map]
    constructor
    · rintro ⟨n, hn, hnq⟩
      obtain rfl := BitVec.eq_of_toNat_eq hnq
      simpa using (List.mem_filter.mp hn).2
    · intro hc
      exact ⟨q, List.mem_filter.mpr ⟨hq, by simpa using hc⟩, rfl⟩
  simp only [State.port, State.gatePorts, e, Table.get_foldl_update _ (fun _ => Hatch.gates no u.time h) _ hn, hm]

/-- A cluster that waits for the entry goes on; every other one stays. -/
theorem State.ungate_eq (no : JobNo) (h : Hatch) (s : State) {e : Nat × Cluster} (hv : s.clu (BitVec.ofNat 8 e.1) = e.2) :
    ∃ cs, s.ungate no h e = { s with clusters := cs } ∧
      (∀ c, Table.get Cluster.reset c.toNat cs = if c = BitVec.ofNat 8 e.1 then (s.clu c).atEntry no s.time h else s.clu c) ∧
      ∀ x ∈ cs, x ∈ s.clusters ∨ x.2.gstate = .running := by
  unfold State.ungate Cluster.atEntry
  cases hg : e.2.startGate with
  | none =>
    refine ⟨s.clusters, rfl, fun c => ?_, fun x hx => .inl hx⟩
    split
    · rename_i hc; subst hc; rw [hv, hg, ← hv]; rfl
    · rfl
  | some g =>
    dsimp only
    by_cases hc : e.2.job = no ∧ h.startsAt g s.time
    · refine ⟨_, if_pos hc, fun c => ?_, fun x hx => ?_⟩
      · refine (State.clu_setClu _ c _ s).trans ?_
        split
        · rename_i he; subst he; rw [hv, hg]; exact (if_pos hc).symm
        · rfl
      · rcases Table.mem_set hx with rfl | hx
        · exact .inr rfl
        · exact .inl hx
    · refine ⟨s.clusters, if_neg hc, fun c => ?_, fun x hx => .inl hx⟩
      split
      · rename_i he; subst he; rw [hv, hg]; exact (hv.trans (if_neg hc).symm)
      · rfl

theorem State.foldl_ungate (no : JobNo) (h : Hatch) (es : List (Nat × Cluster)) (s : State) (hk : ∀ e ∈ es, e.1 < 256)
    (hn : (es.map (·.1)).Nodup) (hv : ∀ e ∈ es, s.clu (BitVec.ofNat 8 e.1) = e.2) :
    ∃ cs, es.foldl (State.ungate no h) s = { s with clusters := cs } ∧
      (∀ c : ClusterId, Table.get Cluster.reset c.toNat cs = if c.toNat ∈ es.map (·.1) then (s.clu c).atEntry no s.time h else s.clu c) ∧
      ∀ x ∈ cs, x ∈ s.clusters ∨ x.2.gstate = .running := by
  induction es generalizing s with
  | nil => exact ⟨s.clusters, rfl, fun c => by simp [State.clu], fun x hx => .inl hx⟩
  | cons e es ih =>
    obtain ⟨cs, he, hget, hmem⟩ := State.ungate_eq no h s (hv e (by simp))
    obtain ⟨hne, hn⟩ := List.nodup_cons.mp hn
    have hlt : e.1 < 256 := hk e (by simp)
    have hkey : ∀ c : ClusterId, c = BitVec.ofNat 8 e.1 ↔ c.toNat = e.1 := fun c => by
      rw [← BitVec.toNat_inj, BitVec.toNat_ofNat, Nat.mod_eq_of_lt hlt]
    have hclu : ∀ c : ClusterId, State.clu c { s with clusters := cs } = if c = BitVec.ofNat 8 e.1 then (s.clu c).atEntry no s.time h else s.clu c := hget
    obtain ⟨cs', he', hget', hmem'⟩ := ih { s with clusters := cs } (fun x hx => hk x (by simp [hx])) hn (fun x hx => by
      have hx1 : x.1 < 256 := hk x (by simp [hx])
      have hxe : x.1 ≠ e.1 := fun hxe => hne (List.mem_map.mpr ⟨x, hx, hxe⟩)
      have hxc : BitVec.ofNat 8 x.1 ≠ BitVec.ofNat 8 e.1 := fun hc => hxe (by simpa [Nat.mod_eq_of_lt hx1] using (hkey _).mp hc)
      rw [hclu, if_neg hxc]
      exact hv x (by simp [hx]))
    refine ⟨cs', ?_, fun c => ?_, fun x hx => ?_⟩
    · rw [List.foldl_cons, he, he']
    · rw [hget', hclu]
      by_cases hce : c = BitVec.ofNat 8 e.1
      · have hce' := (hkey c).mp hce
        rw [if_neg (hce' ▸ hne), if_pos hce, if_pos (by simp [hce'])]
      · have hce' : c.toNat ≠ e.1 := fun h => hce ((hkey c).mpr h)
        simp only [if_neg hce, List.map_cons, List.mem_cons, hce', false_or]
    · rcases hmem' x hx with hx | hx
      · exact hmem x hx
      · exact .inr hx

theorem Cluster.atEntry_reset (no : JobNo) (now : Nat) (h : Hatch) : Cluster.reset.atEntry no now h = Cluster.reset := rfl

theorem Table.get_of_not_mem {α : Type} (d : α) {k : Nat} {t : Table α} (h : k ∉ t.map (·.1)) : Table.get d k t = d := by
  rcases Table.get_mem d k t with e | e
  · exact e
  · exact absurd (List.mem_map.mpr ⟨_, e, rfl⟩) h

/-- Programs that wait for an entry of a hatch list run, and nothing else changes. -/
theorem State.releaseGated_eq {s : State} (no : JobNo) (h : Hatch) (hw : Table.wf Cluster.reset s.clusters = true) (hk : ∀ e ∈ s.clusters, e.1 < 256) :
    ∃ cs, s.releaseGated no h = { s with clusters := cs } ∧
      (∀ c : ClusterId, Table.get Cluster.reset c.toNat cs = (s.clu c).atEntry no s.time h) ∧ ∀ x ∈ cs, x ∈ s.clusters ∨ x.2.gstate = .running := by
  have hr := Table.rising_of_wf hw
  obtain ⟨cs, he, hget, hmem⟩ := State.foldl_ungate no h s.clusters s hk
    ((List.pairwise_map.mpr hr).imp Nat.ne_of_lt) (fun e hm => by
      rw [State.clu, BitVec.toNat_ofNat, Nat.mod_eq_of_lt (hk e hm)]
      exact Table.get_of_mem hr hm)
  refine ⟨cs, he, fun c => ?_, hmem⟩
  rw [hget]
  split
  · rfl
  · rename_i hc
    rw [State.clu, Table.get_of_not_mem _ hc, Cluster.atEntry_reset]

/-- The start of an entry of a hatch list, where no bundle waits for a gate. -/
theorem State.hatchEntry_starts {u : State} {no : JobNo} {slot : Nat} {p : Plate} (hs : Table.get 0 slot u.hatchJobs = no.toNat) (h0 : no ≠ 0)
    (hp : (u.job no).plate = some p) (hw : Table.wf Cluster.reset u.clusters = true) (hk : ∀ e ∈ u.clusters, e.1 < 256)
    (hh : ∀ e ∈ u.clusters, ¬ (e.2.job = no ∧ e.2.gstate = .held ∧ e.2.startGate = none)) :
    ∃ ps cs, u.hatchEntry slot = { u with ports := ps, clusters := cs } ∧
      (∀ q : Port, Table.get PortState.reset q.toNat ps =
        if u.hasPort q ∧ p.hatch.gated.getLsbD q.toNat then Hatch.gates no u.time p.hatch (u.port q) else u.port q) ∧
      ∀ c : ClusterId, Table.get Cluster.reset c.toNat cs = (u.clu c).atEntry no u.time p.hatch := by
  obtain ⟨hg, hport⟩ := State.gatePorts_eq no p.hatch u
  generalize hps : (u.gatePorts no p.hatch).ports = ps at hg
  obtain ⟨cs, hc, hclu, hmem⟩ := State.releaseGated_eq (s := { u with ports := ps }) no p.hatch hw hk
  refine ⟨ps, cs, ?_, fun q => by rw [← hport, State.port, hps], hclu⟩
  rw [State.hatchEntry_eq hs h0 hp, hg, hc, State.issueHeld_none]
  intro e he
  rcases hmem e he with he | he
  · exact hh e he
  · rintro ⟨-, hst, -⟩
    exact absurd (he.symm.trans hst) (by decide)

/-! ## Steps close and a job ends (R317, R459, R498) -/

/-- A job whose one open step closes, with the ledger and the chain that this leaves. -/
def Job.closes (ledger : List LedgerEntry) (chain : List Byte) (step : Word) (j : Job) : Job :=
  { j with ledger := ledger, chain := chain, closedStep := step, ledgerOpen := [] }

theorem Job.closes_settled {ledger : List LedgerEntry} {chain : List Byte} {step : Word} {j : Job} (h : j.settled) :
    (j.closes ledger chain step).settled := h

/-- A job whose one open step is l and closes. -/
def Job.closesStep (l : StepLedger) (j : Job) : Job :=
  j.closes ((j.ledger ++ [(⟨l.step, l.ended, l.digest⟩ : LedgerEntry)]).drop (j.ledger.length + 1 - 65536))
    (shake256 32 (j.chain ++ (leBytes 4 l.step.toNat ++ leBytes 4 l.ended ++ leBytes 8 l.digest.toNat))) l.step

/-- Changes of a job that agree on the job that stands in its slot. -/
theorem State.modJob_congr {u : State} {no : JobNo} {f g : Job → Job} (h : f (u.job no) = g (u.job no)) : u.modJob no f = u.modJob no g := by
  cases hk : u.jobSlot no with
  | none => simp [State.modJob, hk]
  | some k => rw [State.modJob_of_slot hk, State.modJob_of_slot hk, h]

theorem State.ledgerClose_eq {u : State} {no : JobNo} {p : Plate} {n : Nat} {l : StepLedger} (hst : (u.job no).st = .running)
    (hp : (u.job no).plate = some p) (hn : (u.job no).nextClose p = some n) (hb : ∃ b, (u.job no).begun = some b ∧ n ≤ b.toNat)
    (ho : u.stepOpen no p n = false) (hl : (u.job no).ledgerOpen = [l]) (hln : l.step.toNat = n) :
    u.ledgerClose no = u.modJob no (Job.closesStep l) := by
  obtain ⟨b, hb, hnb⟩ := hb
  have hf : ((u.job no).ledgerOpen.find? fun l => l.step.toNat == n) = some l := by simp [hl, hln]
  simp only [State.ledgerClose, hp, hn, hf]
  rw [if_pos ⟨.inl hst, by simp [hb, hnb], by simp [ho]⟩]
  refine State.modJob_congr ?_
  simp only [Job.closesStep, Job.closes, hl, Option.getD_some, pushRing, LedgerEntry.bytes]
  simp

/-- A job past its last step. -/
def Job.finishes (now : Nat) (j : Job) : Job := { j with st := .done, endTime := now }

theorem State.jobDone_eq {u : State} {no : JobNo} {p : Plate} (hst : (u.job no).st = .running) (hp : (u.job no).plate = some p)
    (hpast : ∀ i x, p.sched[i]? = some x → (u.job no).entryPast p x i = true) (hi : u.imprsLeft no = false) (hh : u.margin.hubOn = true) :
    u.jobDone no = { (u.modJob no (Job.finishes u.time)) with
      outbox := u.outbox ++ [.marker false false no], meter := { u.meter with openJobs := u.meter.openJobs.filter (· ≠ no), toldAt := some u.time } } := by
  have hall : ((List.range p.sched.length).all fun i => match p.sched[i]? with
      | some x => (u.job no).entryPast p x i
      | none => true) = true := by
    rw [List.all_eq_true]
    intro i _
    cases hx : p.sched[i]? with
    | none => rfl
    | some x => exact hpast i x hx
  simp only [State.jobDone, hp]
  rw [if_pos ⟨hst, hall, by simp [hi]⟩, State.meterMarker, if_pos (by simpa using hh)]
  simp [State.output, State.modMeter]
  rfl

section Commands
variable {s : State} {now : Nat} {no : JobNo} {p : Plate} {k : Nat}

theorem exec_hatchEntryStart {slot : BitVec 3} (hq : s.quiet = true) (h0 : no ≠ 0) (hp : ((s.advanceTo now).job no).plate = some p)
    (hs : Table.get 0 slot.toNat (s.advanceTo now).hatchJobs = no.toNat) (hw : Table.wf Cluster.reset (s.advanceTo now).clusters = true)
    (hk : ∀ e ∈ (s.advanceTo now).clusters, e.1 < 256)
    (hh : ∀ e ∈ (s.advanceTo now).clusters, ¬ (e.2.job = no ∧ e.2.gstate = .held ∧ e.2.startGate = none)) :
    ∃ t, exec (.hatchEntryStart slot now) s = .next t ∧ t = { s.advanceTo now with ports := t.ports, clusters := t.clusters } ∧
      (∀ q, t.port q = if (s.advanceTo now).hasPort q ∧ p.hatch.gated.getLsbD q.toNat then Hatch.gates no (s.advanceTo now).time p.hatch ((s.advanceTo now).port q)
        else (s.advanceTo now).port q) ∧
      ∀ c, t.clu c = ((s.advanceTo now).clu c).atEntry no (s.advanceTo now).time p.hatch := by
  obtain ⟨ps, cs, he, hports, hclu⟩ := State.hatchEntry_starts hs h0 hp hw hk hh
  have hq' := State.StaysQuiet.refl (State.advanceTo_quiet now hq)
  exact ⟨_, State.StaysQuiet.happens_eq (e := fun s => s.hatchEntry slot.toNat) he ((hq'.portsHub ps (s.advanceTo now).hub).clusters cs), rfl, hports, hclu⟩

theorem exec_ledgerStepClose {n : Nat} {l : StepLedger} (hq : s.quiet = true) (hst : ((s.advanceTo now).job no).st = .running)
    (hp : ((s.advanceTo now).job no).plate = some p) (hn : ((s.advanceTo now).job no).nextClose p = some n)
    (hb : ∃ b, ((s.advanceTo now).job no).begun = some b ∧ n ≤ b.toNat) (ho : (s.advanceTo now).stepOpen no p n = false)
    (hl : ((s.advanceTo now).job no).ledgerOpen = [l]) (hln : l.step.toNat = n) :
    exec (.ledgerStepClose no now) s = .next ((s.advanceTo now).modJob no (Job.closesStep l)) :=
  State.StaysQuiet.happens_eq (e := fun s => s.ledgerClose no) (State.ledgerClose_eq hst hp hn hb ho hl hln)
    ((State.StaysQuiet.refl (State.advanceTo_quiet now hq)).modJob no fun _ h => Job.closes_settled h)

theorem exec_jobDone (hq : s.quiet = true) (hst : ((s.advanceTo now).job no).st = .running) (hp : ((s.advanceTo now).job no).plate = some p)
    (hpast : ∀ i x, p.sched[i]? = some x → ((s.advanceTo now).job no).entryPast p x i = true) (hi : (s.advanceTo now).imprsLeft no = false)
    (hh : (s.advanceTo now).margin.hubOn = true) :
    exec (.jobDone no now) s = .next { ((s.advanceTo now).modJob no (Job.finishes (s.advanceTo now).time)) with
      outbox := (s.advanceTo now).outbox ++ [.marker false false no]
      meter := { (s.advanceTo now).meter with openJobs := (s.advanceTo now).meter.openJobs.filter (· ≠ no), toldAt := some (s.advanceTo now).time } } := by
  have hv := (State.StaysQuiet.refl (State.advanceTo_quiet now hq)).modJob no (g := Job.finishes (s.advanceTo now).time) fun _ h => h
  exact State.StaysQuiet.happens_eq (e := fun s => s.jobDone no) (State.jobDone_eq hst hp hpast hi hh) ⟨State.quiet_congr hv.1 rfl rfl rfl rfl rfl rfl, hv.2⟩

theorem State.effectiveStep_eq {u : State} {step : Word} (hr : Claims.Rising u) (hk : u.jobSlot no = some k) (hst : (u.job no).st = .running)
    (hsc : (u.job no).scalePend = []) (hi : ∀ i ∈ (u.job no).injPend, i.arms) :
    u.effectiveStep no step =
      { u with jobs := (u.modJob no fun _ => (u.job no).begins step).jobs, armed := u.armed ++ (u.job no).dueInjections step } := by
  have ha := State.injects_arm (l := (u.job no).dueInjections step) (fun i h => hi i (List.mem_filter.mp h).1)
    (u.modJob no fun _ => (u.job no).begins step)
  rw [State.effectiveStep, if_pos hst, State.stepBegin_eq step hr hk hsc, ha]
  simp only [State.modJob_frame]

theorem exec_effectiveStepBegin {step : Word} (hq : s.quiet = true) (hr : Claims.Rising (s.advanceTo now)) (hk : (s.advanceTo now).jobSlot no = some k)
    (hst : ((s.advanceTo now).job no).st = .running) (hsc : ((s.advanceTo now).job no).scalePend = [])
    (hi : ∀ i ∈ ((s.advanceTo now).job no).injPend, i.arms) :
    ∃ t, exec (.effectiveStepBegin no step now) s = .next t ∧ t = { s.advanceTo now with jobs := t.jobs, armed := t.armed } ∧
      t.job no = ((s.advanceTo now).job no).begins step ∧ t.armed = (s.advanceTo now).armed ++ ((s.advanceTo now).job no).dueInjections step := by
  have hqu := State.advanceTo_quiet now hq
  have hv := (State.StaysQuiet.refl hqu).modJob no (g := fun _ => ((s.advanceTo now).job no).begins step) fun _ _ => State.quiet_job hqu no
  rw [State.modJob_jobs] at hv
  exact ⟨_, State.StaysQuiet.happens_eq (e := fun s => s.effectiveStep no step) (State.effectiveStep_eq hr hk hst hsc hi)
    ⟨State.quiet_congr hv.1 rfl rfl rfl rfl rfl rfl, hv.2⟩, rfl, (State.job_congr rfl no).trans (State.job_modJob hr hk (State.job_no hr hk)), rfl⟩

end Commands

/-- An injection of a job whose step begins is armed, or its step lies beyond. -/
theorem Job.injection_begins (step : Word) {j : Job} {i : Inject} (h : i ∈ j.injPend) :
    (i ∈ j.dueInjections step ∧ i ∉ (j.begins step).injPend) ∨ (i ∈ (j.begins step).injPend ∧ j.latest step < i.step) := by
  by_cases hd : i.step ≤ j.latest step
  · exact .inl ⟨List.mem_filter.mpr ⟨h, by simpa using hd⟩, fun hm => by simpa [hd] using (List.mem_filter.mp hm).2⟩
  · exact .inr ⟨List.mem_filter.mpr ⟨h, by simpa using hd⟩, by simpa using hd⟩

end Sys2Proof.Machine

open Sys2Proof Sys2Proof.Machine

/-- Settles O36: an impression starts as one change of its job and its unit, the start of a hatch entry changes each port and each cluster
by itself, and the other clauses are one change of the job. -/
theorem jobsRunTheirSteps : Obligations.JobsRunTheirSteps := by
  intro s now no p hq u j begins h0 hst hp hr
  have hqu : u.quiet = true := State.advanceTo_quiet now hq
  obtain ⟨k, hk⟩ := State.jobSlot_of_plate hp
  refine ⟨?_,
    fun slot hs hw hkeys hheld => exec_hatchEntryStart hq h0 hp hs hw hkeys hheld,
    fun n l hn hb ho hl hln => exec_ledgerStepClose hq hst hp hn hb ho hl hln,
    fun hpast hi hh => exec_jobDone hq hst hp hpast hi hh, fun step hsc hi => ?_⟩
  · intro i x hx hsc hin hg hm g step hrun hlast hlt hf runs
    have hruns : ∀ t : State, t.job no = (u.job no).starts i (BitVec.ofNat 32 step) u.time → runs t := fun t ht => by
      show (t.job no).begun = _ ∧ _
      rw [ht]
      exact ⟨rfl, Job.prog_starts ..⟩
    refine ⟨fun hkind hidle hd => ?_, fun hkind hd ha hb hw h31 hal hab hqueue hpw => ?_⟩
    · have he := State.imprStart_eq hr hk hqu hst hp hx hsc hin hg hm hrun hlast hlt hf (fun _ => hidle) (by rwa [if_pos hkind])
      simp only [if_pos hkind] at he
      rw [State.startProgram_starts hr hk] at he
      have hclu := State.clu_runsProgram no i step x p u
      refine ⟨_, State.StaysQuiet.happens_eq (e := fun s => s.imprStart no i) he (State.StaysQuiet.runsProgram hqu no i step x p), State.runsProgram_eq .., hruns _ (State.job_runsProgram hr hk ..),
        fun c hc => (hclu c).trans (if_neg hc), (hclu x.target).trans (if_pos rfl)⟩
    · have hkind1 : x.kind ≠ 1 := by rw [hkind]; decide
      have he := State.imprStart_eq hr hk hqu hst hp hx hsc hin hg hm hrun hlast hlt hf (fun h => absurd h hkind1) (by rwa [if_neg hkind1])
      simp only [if_neg hkind1] at he
      rw [State.startStream_starts no i _ _ ha hb hw h31 hal hab hqueue hpw] at he
      have heng := State.eng_runsStream no i step x u
      refine ⟨_, u.queued i step x, State.StaysQuiet.happens_eq (e := fun s => s.imprStart no i) he (State.StaysQuiet.runsStream hqu no i step x), State.runsStream_eq .., hruns _ (State.job_runsStream hr hk ..),
        fun c hc => (heng c).trans (if_neg hc), (heng _).trans (if_pos rfl), rfl, rfl, rfl, ?_, fun n h0 h8 => Desc.forStep_getD _ _ _ h0 h8⟩
      exact Desc.impr_forStep _ _ (by rw [Desc.ofBytes, length_leWords]; decide)
  · obtain ⟨t, he, ht, hj, ha⟩ := exec_effectiveStepBegin (step := step) hq hr hk hst hsc hi
    refine ⟨t, he, ht, by rw [hj]; rfl, fun i hi => ?_⟩
    rw [hj, ha]
    rcases Job.injection_begins step hi with ⟨h1, h2⟩ | ⟨h1, h2⟩
    · exact .inl ⟨List.mem_append_right _ h1, h2⟩
    · exact .inr ⟨h1, fun b hb => Option.some.inj hb ▸ h2⟩
end

section
/-! SUPPORT. Command messages at the hub and at the control processors: what follows a command that sends a frame, the checks of the command
table, and the replies (18 R453 to R461). -/

namespace Sys2Proof.Machine

/-! ## Routing changes no engine, no fuse and no time (R376, R378, R394) -/

/-- v has the engines, the queue of commands, the fuses and the network time of u. -/
def State.Routes (u v : State) : Prop := v.engines = u.engines ∧ v.pending = u.pending ∧ v.fuse = u.fuse ∧ v.time = u.time

theorem State.Routes.refl (u : State) : u.Routes u := ⟨rfl, rfl, rfl, rfl⟩

theorem State.Routes.trans {u v w : State} (h : u.Routes v) (g : v.Routes w) : u.Routes w := by
  obtain ⟨h1, h2, h3, h4⟩ := h
  obtain ⟨g1, g2, g3, g4⟩ := g
  exact ⟨g1.trans h1, g2.trans h2, g3.trans h3, g4.trans h4⟩

theorem State.Routes.foldl {α : Type} {f : State → α → State} (hf : ∀ (s : State) (a : α), s.Routes (f s a)) (l : List α) (u : State) : u.Routes (l.foldl f u) := by
  induction l generalizing u with
  | nil => exact .refl u
  | cons a l ih => exact (hf u a).trans (ih (f u a))

/-- A choice between two ways that route. -/
theorem State.Routes.ite {c : Prop} [Decidable c] {u v w : State} (hv : u.Routes v) (hw : u.Routes w) : u.Routes (if c then v else w) := by
  split
  · exact hv
  · exact hw

theorem State.Routes.modFab (g : Fabric → Fabric) (u : State) : u.Routes (u.modFab g) := ⟨rfl, rfl, rfl, rfl⟩
theorem State.Routes.setPort (p : Port) (x : PortState) (u : State) : u.Routes (u.setPort p x) := ⟨rfl, rfl, rfl, rfl⟩
theorem State.Routes.modPort (p : Port) (g : PortState → PortState) (u : State) : u.Routes (u.modPort p g) := ⟨rfl, rfl, rfl, rfl⟩
theorem State.Routes.modDie (d : Die) (g : DieState → DieState) (u : State) : u.Routes (u.modDie d g) := ⟨rfl, rfl, rfl, rfl⟩
theorem State.Routes.send (f : Frame) (u : State) : u.Routes (u.send f) := ⟨rfl, rfl, rfl, rfl⟩

theorem State.Routes.sendJob (no : JobNo) (f : Frame) (u : State) : u.Routes (u.sendJob no f) := .ite (.refl u) (.send f u)

theorem State.Routes.mergePort (p : Port) (u : State) : u.Routes (u.mergePort p) :=
  .ite (.refl u) ((State.Routes.modPort ..).trans (.modDie ..))

theorem State.Routes.appendQ (p : Port) (q : Queued) (u : State) : u.Routes (u.appendQ p q) :=
  have h : u.Routes _ := (State.Routes.ite (.modFab _ u) (.refl u)).trans (.modPort ..)
  .ite (h.trans (.mergePort ..)) h

theorem State.Routes.reachQ (p : Port) (q : Queued) (u : State) : u.Routes (u.reachQ p q) :=
  .ite (.appendQ ..) <| .ite (.ite (.setPort ..) ((State.Routes.setPort ..).trans (.appendQ ..)))
    (.ite (.setPort ..) ((State.Routes.setPort ..).trans (.appendQ ..)))

theorem State.Routes.forward (p : Port) (q : Queued) (u : State) : u.Routes (u.forward p q) := .ite (.modFab ..) (.reachQ ..)

theorem State.Routes.release (q : Queued) (u : State) : u.Routes (u.release q) := by
  unfold State.release
  split
  · exact .ite (.refl u) (.modPort ..)
  · exact .refl u

theorem State.Routes.echo (f : Frame) (u : State) : u.Routes (u.echo f) := by
  unfold State.echo
  dsimp only
  refine .ite (.refl u) ?_
  split
  · exact (State.Routes.sendJob ..).trans (.modFab ..)
  · exact .refl u

theorem State.Routes.forwardTwin (q : Queued) (f : Frame) (u : State) : u.Routes (u.forwardTwin q f) := by
  unfold State.forwardTwin
  refine .ite ?_ (.refl u)
  split
  · dsimp only
    split
    · exact .ite (.modFab ..) (.reachQ ..)
    · exact .modFab ..
  · exact .refl u

theorem State.Routes.intoBox (w : LocalUnit) (q : Queued) (u : State) : u.Routes (u.intoBox w q) := by
  unfold State.intoBox
  split
  · exact (State.Routes.modFab ..).trans (.modDie ..)
  · exact .modFab ..

theorem State.Routes.deliver (w : LocalUnit) (q : Queued) (u : State) : u.Routes (u.deliver_ w q) := by
  unfold State.deliver_
  dsimp only
  have h : ∀ f : Frame, ∀ c e : Bool, u.Routes (if e then ((if c then u.modFab fun b => { b with ecnMarked := b.ecnMarked + 1 } else u).echo f).echoFrom f.job f.srcRank
      else (if c then u.modFab fun b => { b with ecnMarked := b.ecnMarked + 1 } else u).echo f) := fun f c e =>
    have h1 := (State.Routes.ite (c := c) (.modFab (fun b => { b with ecnMarked := b.ecnMarked + 1 }) u) (.refl u)).trans (.echo f _)
    .ite (h1.trans ((State.Routes.modFab ..).trans (.modFab ..))) h1
  split
  · exact (h _ _ _).trans ⟨rfl, rfl, rfl, rfl⟩
  · exact (h _ _ _).trans ((State.Routes.forwardTwin ..).trans (.intoBox ..))
  · exact (h _ _ _).trans ((State.Routes.forwardTwin ..).trans (.intoBox ..))
  · exact (h _ _ _).trans (.intoBox ..)

theorem State.Routes.settleDest (q : Queued) (d : Dest) (u : State) : u.Routes (u.settleDest q d) := by
  unfold State.settleDest
  split
  · exact .refl u
  · exact .deliver ..
  · exact .modFab ..
  · exact .modFab ..
  · exact .ite ⟨rfl, rfl, rfl, rfl⟩ (.modFab ..)

theorem State.Routes.placePorts (q : Queued) (ds : List Dest) (u : State) : u.Routes (u.placePorts q ds) :=
  .foldl (fun s d => by
    split
    · exact .forward ..
    · exact .refl s) ds u

theorem State.Routes.routeWhole (q : Queued) (u : State) : u.Routes (u.routeWhole q) :=
  (State.Routes.placePorts ..).trans ((State.Routes.foldl (fun _ _ => .settleDest ..) ..).trans (.release ..))

/-- The frames of the module's own that take their routes change no engine, no fuse and no time. -/
theorem State.Routes.dispatchOwn (u : State) : u.Routes u.dispatchOwn :=
  (State.Routes.modFab ..).trans (.foldl (fun _ _ => (State.Routes.modFab ..).trans (.routeWhole ..)) ..)

/-! ## What follows a command that starts a job, orders a switch or sends a frame -/

/-- Quiet but for the jobs and for the frames of the module's own. -/
def State.calm (s : State) : Prop := State.quiet { s with jobs := [], fab := { s.fab with selfEgress := [] } } = true

theorem State.calm_iff (s : State) : s.calm ↔
    (∀ e ∈ s.dies, e.2.sigOwn = []) ∧ (∀ r ∈ s.shards, r.advDue = 0) ∧ (∀ e ∈ s.engines, (∀ c ∈ e.2.ctxs, c.rests = true) ∧ e.2.held = []) ∧
      s.pair.seals = [] ∧ s.fab.heldStream = [] ∧ s.fab.unitHeld = [] := by
  rw [State.calm, State.quiet_iff]
  simp

theorem State.calm_of_quiet {s : State} (h : s.quiet = true) : s.calm := by
  obtain ⟨-, hd, hs, he, hp, -, hh, hu⟩ := (State.quiet_iff s).mp h
  exact (State.calm_iff s).mpr ⟨hd, hs, he, hp, hh, hu⟩

theorem State.quiet_of_calm {s : State} (h : s.calm) (hj : ∀ e ∈ s.jobs, e.2.settled) (hf : s.fab.selfEgress = []) : s.quiet = true := by
  obtain ⟨hd, hs, he, hp, hh, hu⟩ := (State.calm_iff s).mp h
  exact (State.quiet_iff s).mpr ⟨hj, hd, hs, he, hp, hf, hh, hu⟩

/-- Calm depends on the dies, shards, engines, the pair state and two lists of the fabric alone. -/
theorem State.calm_congr {s t : State} (h : s.calm) (hd : t.dies = s.dies) (hs : t.shards = s.shards) (he : t.engines = s.engines)
    (hp : t.pair = s.pair) (hh : t.fab.heldStream = s.fab.heldStream) (hu : t.fab.unitHeld = s.fab.unitHeld) : t.calm := by
  rw [State.calm_iff] at h ⊢
  rwa [hd, hs, he, hp, hh, hu]

/-- No engine of a calm module holds anything back. -/
theorem State.calm_eng {s : State} (h : s.calm) (p : Port) : (∀ c ∈ (s.eng p).ctxs, c.rests = true) ∧ (s.eng p).held = [] :=
  ⟨State.quiet_ctx (s := { s with jobs := [], fab := { s.fab with selfEgress := [] } }) h p,
    State.quiet_held (s := { s with jobs := [], fab := { s.fab with selfEgress := [] } }) h p⟩

theorem State.calm_sigOwn {s : State} (h : s.calm) (d : Die) : (s.die d).sigOwn = [] :=
  State.quiet_sigOwn (s := { s with jobs := [], fab := { s.fab with selfEgress := [] } }) h d

theorem State.settle_calm {s : State} (h : s.calm) : s.settle = s := by
  have e : s.engines.foldl (fun s e =>
      (e.2.ctxs.foldl (fun s c => s.settleCtx (BitVec.ofNat 6 e.1) c.id) s).settleEngine (BitVec.ofNat 6 e.1)) s = s :=
    foldl_eq_self fun e _ => by
      rw [foldl_eq_self fun c _ => State.settleCtx_rests fun d hd => (State.calm_eng h _).1 d (List.mem_of_find?_eq_some hd)]
      simp [State.settleEngine, (State.calm_eng h _).2]
  obtain ⟨-, -, -, -, -, hu⟩ := (State.calm_iff s).mp h
  rw [State.settle, e]
  simp [State.freeUnits, hu]

/-- Where every context rests, no impression ends of itself. -/
theorem State.settleSent_rests {s : State} (h : ∀ e ∈ s.engines, ∀ c ∈ e.2.ctxs, c.rests = true) : s.settleSent = s := by
  have hc : ∀ e ∈ s.engines, ∀ c ∈ e.2.ctxs, c.closing.isSome = false := fun e he c hc => by
    have g := h e he c hc
    simp only [Ctx.rests, Bool.and_eq_true, Option.isNone_iff_eq_none] at g
    obtain ⟨⟨⟨⟨g, -⟩, -⟩, -⟩, -⟩ := g
    simp [g]
  have e : (s.engines.flatMap fun (e : Nat × Engine) =>
      (e.2.ctxs.filter fun (c : Ctx) => c.closing.isSome && s.sentAll c).map fun (c : Ctx) => ((BitVec.ofNat 6 e.1 : Port), c)) = [] :=
    List.flatMap_eq_nil_iff.mpr fun x hx => List.map_eq_nil_iff.mpr (List.filter_eq_nil_iff.mpr fun c hm => by simp [hc x hx c hm])
  simp [State.settleSent, e]

/-- In a calm module the switches and the frames of its own alone go on. -/
theorem State.aftermath_calm {s w : State} (hs : s.calm) (ha : s.answerStopped = s) (hm : s.mapSwitches = w) (hw : w.calm) :
    s.aftermath = w.dispatchOwn := by
  obtain ⟨-, hsh, -⟩ := (State.calm_iff s).mp hs
  obtain ⟨-, -, he, hp, hh, -⟩ := (State.calm_iff w).mp hw
  have h2 : s.matchSigs = s := by simp [State.matchSigs, DieState.sigPairs, State.calm_sigOwn hs]
  have h3 : s.advancesDue = s := foldl_eq_self fun r g => by simp [hsh r g]
  have h5 : w.sealShadows = w := by simp [State.sealShadows, hp]
  have h7 : w.sendBatches = w := foldl_eq_self fun d _ => by simp [State.calm_sigOwn hw d]
  have h8 : w.releaseStream = w := by simp [State.releaseStream, hh]
  obtain ⟨hd, -⟩ := State.Routes.dispatchOwn w
  have h10 : w.dispatchOwn.settleSent = w.dispatchOwn := State.settleSent_rests fun e hm => (he e (hd ▸ hm)).1
  simp only [State.aftermath, ha, h2, h3, hm, h5, State.settle_calm hw, h7, h8, h10]

/-- The outcome of a command that leaves a calm module. -/
theorem State.acts_calm {s v w : State} {e : State → State} (he : e s = v) (hv : v.calm) (ha : v.answerStopped = v) (hm : v.mapSwitches = w)
    (hw : w.calm) (hp : w.pending = s.pending) (hf : w.fuse = s.fuse) (ht : w.time = s.time) : s.acts e = .next w.dispatchOwn := by
  obtain ⟨-, rp, rf, rt⟩ := State.Routes.dispatchOwn w
  rw [State.acts, State.finish, he, State.aftermath_calm hv ha hm hw, Nat.max_self, ← hp, ← hf, ← ht, ← rp, ← rf, ← rt]

/-- No switch goes on where none is ordered or to be undone. -/
theorem State.mapSwitches_none {s : State} (h : ∀ e ∈ s.jobs, e.2.mapPend = none ∧ e.2.mapBad = false) : s.mapSwitches = s :=
  foldl_eq_self fun e he => by simp [h e he]

/-- No JOB_START is answered where none of a stopped job is in progress. -/
theorem State.answerStopped_none {s : State} (h : ∀ e ∈ s.jobs, e.2.startMsg = none ∨ e.2.st ≠ .stopped) : s.answerStopped = s :=
  foldl_eq_self fun e he => by
    rcases h e he with h | h
    · simp [h]
    · cases e.2.startMsg <;> simp [h]

/-- A command that sends frames of the module's own and leaves it quiet otherwise. -/
theorem State.acts_sends {s v : State} {e : State → State} (he : e s = v) (hv : v.calm) (hj : ∀ e ∈ v.jobs, e.2.settled)
    (hp : v.pending = s.pending) (hf : v.fuse = s.fuse) (ht : v.time = s.time) : s.acts e = .next v.dispatchOwn :=
  State.acts_calm he hv (State.answerStopped_none fun e he => .inl (hj e he).1) (State.mapSwitches_none fun e he => (hj e he).2) hv hp hf ht

/-- A command that sends one frame of the module's own. -/
theorem State.acts_send {s v : State} {f : Frame} {e : State → State} (he : e s = v.send f) (h : s.StaysQuiet v) : s.acts e = .next (v.send f).dispatchOwn := by
  obtain ⟨hq, hp, hf, ht⟩ := h
  obtain ⟨hj, -⟩ := (State.quiet_iff v).mp hq
  exact State.acts_sends he (State.calm_congr (State.calm_of_quiet hq) rfl rfl rfl rfl rfl rfl) hj hp hf ht

/-! ## The checks of the command table (R459, R460, R471) -/

/-- What a command of local software meets before it runs, at a target that serves it and outside recovery mode. -/
theorem State.precheck_served {s : State} {m : Msg} {code : BitVec 16} {r : CmdRow} (hr : cmdRow code = some r) (ht : r.place.serves m.target = true)
    (hrec : s.hub.recovery = false) (hp : m.path = .internal) (h3 : r.right ≤ 3) :
    s.precheck code m = if r.need = .any then none else s.jobCheck m.job r.need.ok := by
  have h3' : decide (r.right ≤ Path.right m.path) = true := by rw [hp]; exact decide_eq_true h3
  simp only [State.precheck, hr, ht, hrec, h3', need, Bool.not_false, Bool.true_or, if_true, firstReply]
  cases (if r.need = .any then none else s.jobCheck m.job r.need.ok) <;> rfl

/-- A target that does not serve a command refuses it. -/
theorem State.precheck_misplaced {s : State} {m : Msg} {code : BitVec 16} {r : CmdRow} (hr : cmdRow code = some r) (ht : r.place.serves m.target = false) :
    s.precheck code m = some (Reply.fail Code.badCommand) := by
  simp only [State.precheck, hr, ht, need]
  rfl

theorem State.jobCheck_ok {s : State} {no : JobNo} {ok : Job → Bool} (h0 : no ≠ 0) (h : ok (s.job no) = true) : s.jobCheck no ok = none := by
  rw [State.jobCheck, if_neg h0, if_pos h]

theorem State.jobCheck_wrong {s : State} {no : JobNo} {ok : Job → Bool} (h0 : no ≠ 0) (h : ok (s.job no) = false) :
    s.jobCheck no ok = some (s.job no).wrong := by
  rw [State.jobCheck, if_neg h0, if_neg (by simp [h])]

/-! ## The hub (R458) -/

/-- A command that the hub runs at once, after its checks. -/
theorem State.submit_hub {s : State} {m : Msg} {code : BitVec 16} (h : Claims.Hub m s) (hc : code ≠ 0x0031) : s.submit code m = s.perform code 16 m := by
  obtain ⟨hq, hp, ht, hon, hheld, hw, -, hmw⟩ := h
  obtain ⟨hj, -⟩ := (State.quiet_iff s).mp hq
  have hbusy : State.hubBusy (s.modHub fun h => { h with waiting := [(code, m)] }) = false := by
    simp only [State.hubBusy, State.modHub, hmw, Option.isSome_none, Bool.false_or, List.any_eq_false]
    exact fun e he => by simp [(hj e he).1]
  have hruns : s.hubRuns = true := by simp [State.hubRuns, hon, hheld]
  have hback : State.modHub (fun h => { h with waiting := [] }) (s.modHub fun h => { h with waiting := [(code, m)] }) = s := by
    simp only [State.modHub]
    rw [← hw]
  have hgo : (s.modHub fun h => { h with waiting := h.waiting ++ [(code, m)] }).hubGo = s.perform code 16 m := by
    have hmod : (s.modHub fun h => { h with waiting := h.waiting ++ [(code, m)] }) = s.modHub fun h => { h with waiting := [(code, m)] } := by
      simp only [State.modHub, hw, List.nil_append]
    rw [hmod]
    show (if State.hubBusy _ then _ else State.hubNext 0 (State.perform code 16 m _)) = _
    rw [hbusy, hback]
    rfl
  simp only [State.submit, hp, ht, if_true, State.submitHub, hruns, Bool.not_true, Bool.false_eq_true, if_false, if_neg hc, hgo]

/-- The reply of a message of local software that stands in no mailbox. -/
theorem State.answerMsg_internal {m : Msg} (hp : m.path = .internal) (ht : m.target = 0) (code : BitVec 16) (r : Reply) (s : State) :
    s.answerMsg code 16 m r = s.output (.reply code (hubReply code r).status m.seq (hubReply code r).detail (hubReply code r).res) := by
  simp [State.answerMsg, hp, ht]

/-- A command that its row of the command table lets the hub run. -/
theorem State.precheck_hub {s : State} {m : Msg} {code : BitVec 16} {row : CmdRow} (h : Claims.Hub m s) (hrow : cmdRow code = some row)
    (hplace : row.place.serves 0 = true) (h3 : row.right ≤ 3) (hneed : row.need = .any ∨ m.job ≠ 0 ∧ row.need.ok (s.job m.job) = true) :
    s.precheck code m = none := by
  obtain ⟨-, hp, ht, -, -, -, hrec, -⟩ := h
  rw [State.precheck_served hrow (ht ▸ hplace) hrec hp h3]
  split
  · rfl
  · obtain ⟨h0, hok⟩ := hneed.resolve_left ‹_›
    exact State.jobCheck_ok h0 hok

/-- What is said outside is no part of what follows. -/
theorem State.StaysQuiet.output {u v : State} (h : u.StaysQuiet v) (o : Output) : u.StaysQuiet (v.output o) :=
  ⟨State.quiet_congr h.1 rfl rfl rfl rfl rfl rfl, h.2⟩

section Answer
variable {s v : State} {m : Msg} {code : BitVec 16} {i : Instr} (hi : exec i s = s.acts fun s => s.submit code m) (h : Claims.Hub m s)
include hi h

/-- A command of the hub that answers and leaves the module quiet. -/
theorem hub_answers {r : Reply} (hc : code ≠ 0x0031) (he : s.unless (s.precheck code m) (fun s => s.runCmd code 16 m) = (some r, v)) (hv : s.StaysQuiet v) :
    Claims.Answers i code (hubReply code r).status (hubReply code r).detail (hubReply code r).res m s v := by
  have hs := State.submit_hub h hc
  obtain ⟨-, hp, ht, -⟩ := h
  have hv' : s.submit code m = v.output (.reply code (hubReply code r).status m.seq (hubReply code r).detail (hubReply code r).res) := by
    rw [hs, State.perform, State.concludes, he]
    exact State.answerMsg_internal hp ht code r v
  rw [Claims.Answers, hi, State.StaysQuiet.acts (hv' ▸ hv.output _), hv']
  rfl

/-- A command of the hub that its row of the command table lets run. -/
theorem hub_runs {row : CmdRow} {r : Reply} (hrow : cmdRow code = some row) (hplace : row.place.serves 0 = true) (h3 : row.right ≤ 3)
    (hneed : row.need = .any ∨ m.job ≠ 0 ∧ row.need.ok (s.job m.job) = true) (hc : code ≠ 0x0031) (he : s.runCmd code 16 m = (some r, v))
    (hv : s.StaysQuiet v) : Claims.Answers i code (hubReply code r).status (hubReply code r).detail (hubReply code r).res m s v := by
  have hpre := State.precheck_hub h hrow hplace h3 hneed
  refine hub_answers hi h hc ?_ hv
  rw [hpre]
  exact he

/-- A command of the hub for a job in a state that it does not take. -/
theorem hub_wrongState {row : CmdRow} (hrow : cmdRow code = some row) (hplace : row.place.serves 0 = true) (h3 : row.right ≤ 3) (hneed : row.need ≠ .any)
    (h0 : m.job ≠ 0) (hok : row.need.ok (s.job m.job) = false) (hc : code ≠ 0x0031) :
    Claims.Answers i code Code.wrongState (BitVec.ofNat 8 (s.job m.job).st.code) [] m s s := by
  have hq : s.quiet = true := h.1
  have hpre : s.precheck code m = some (s.job m.job).wrong := by
    obtain ⟨-, hp, ht, -, -, -, hrec, -⟩ := h
    rw [State.precheck_served hrow (ht ▸ hplace) hrec hp h3, if_neg hneed, State.jobCheck_wrong h0 hok]
  have hr : hubReply code (s.job m.job).wrong = (s.job m.job).wrong := by
    simp [hubReply, Job.wrong, Reply.failD]
  have := hub_answers (r := (s.job m.job).wrong) hi h hc (by rw [hpre]; rfl) (.refl hq)
  rwa [hr] at this

end Answer

/-! ## Read commands of the hub (R460, R461) -/

theorem hubReply_reads {code : BitVec 16} (h : actsOnDies code = false) (r : Reply) : hubReply code r = r := by
  rw [hubReply, if_neg (by simp [h])]

/-- A page of records. -/
theorem paged_eq {k : Nat} (hk : 0 < k) (first : Nat) (recs : List (List Byte)) : paged k first recs = ⟨Code.ok, 0, Claims.page k first recs⟩ := by
  have hn : (if first + ((recs.drop first).take (120 / max k 1)).length < recs.length
        then BitVec.ofNat 32 (first + ((recs.drop first).take (120 / max k 1)).length) else 0xFFFFFFFF : Word) =
      if first + 120 / k < recs.length then BitVec.ofNat 32 (first + 120 / k) else 0xFFFFFFFF := by
    rw [Nat.max_eq_left hk, List.length_take, List.length_drop]
    by_cases h : first + 120 / k < recs.length
    · have hm : min (120 / k) (recs.length - first) = 120 / k := by omega
      rw [hm]
    · rw [if_neg h, if_neg (by omega)]
  rw [paged, Claims.page, Nat.max_eq_left hk] at *
  exact congrArg (fun w => (⟨Code.ok, 0, [w, _] ++ _⟩ : Reply)) hn

/-- A command that reads: its reply, and the state as it was. -/
theorem hub_reads {s : State} {m : Msg} {code : BitVec 16} {i : Instr} {row : CmdRow} {r : Reply} (hi : exec i s = s.acts fun s => s.submit code m)
    (h : Claims.Hub m s) (hrow : cmdRow code = some row) (hplace : row.place.serves 0 = true) (h3 : row.right ≤ 3) (hacts : actsOnDies code = false)
    (hneed : row.need = .any ∨ m.job ≠ 0 ∧ row.need.ok (s.job m.job) = true) (he : s.runCmd code 16 m = (some r, s)) :
    Claims.Answers i code r.status r.detail r.res m s s := by
  have hc : code ≠ 0x0031 := fun hc => by rw [hc] at hacts; exact absurd hacts (by decide)
  obtain ⟨hq, -⟩ := id h
  have := hub_runs hi h hrow hplace h3 hneed hc he (.refl hq)
  rwa [hubReply_reads hacts] at this

/-- A command that reads records of a job. -/
theorem hub_pages {s : State} {m : Msg} {code : BitVec 16} {i : Instr} {right k : Nat} {recs : List (List Byte)}
    (hi : exec i s = s.acts fun s => s.submit code m) (h : Claims.Hub m s) (hrow : cmdRow code = some ⟨.hub, right, .started⟩) (h3 : right ≤ 3)
    (hacts : actsOnDies code = false) (h0 : m.job ≠ 0) (hst : (s.job m.job).started = true) (hk : 0 < k)
    (he : s.runCmd code 16 m = (some (paged k (m.args.getD 0 0).toNat recs), s)) :
    Claims.Answers i code Code.ok 0 (Claims.page k (m.args.getD 0 0).toNat recs) m s s := by
  have := hub_reads hi h hrow rfl h3 hacts (.inr ⟨h0, hst⟩) he
  rwa [paged_eq hk] at this

theorem hub_notStarted {s : State} {m : Msg} {code : BitVec 16} {i : Instr} {right : Nat} (hi : exec i s = s.acts fun s => s.submit code m)
    (h : Claims.Hub m s) (hrow : cmdRow code = some ⟨.hub, right, .started⟩) (h3 : right ≤ 3) (hacts : actsOnDies code = false) (h0 : m.job ≠ 0)
    (hst : (s.job m.job).started = false) : Claims.Answers i code Code.wrongState (BitVec.ofNat 8 (s.job m.job).st.code) [] m s s :=
  hub_wrongState hi h hrow rfl h3 (fun hc => JobNeed.noConfusion hc) h0 hst fun hc => by rw [hc] at hacts; exact absurd hacts (by decide)

theorem readIdleAccount_eq (m : Msg) (s : State) : s.readIdleAccount m = (some ⟨Code.ok, 0, wordsOf 16 (leBytes 4 m.job.toNat ++
    leBytes 4 (s.job m.job).unitsN ++ (List.range 7).flatMap fun i => leBytes 8 ((s.job m.job).idle.getD i 0))⟩, s) := by
  have hl : (leBytes 4 m.job.toNat ++ leBytes 4 (s.job m.job).unitsN ++
      (List.range 7).flatMap fun i => leBytes 8 ((s.job m.job).idle.getD i 0)).length / 4 = 16 := by
    simp
  rw [State.readIdleAccount, Reply.bytes]
  simp only [hl]
  rfl

section Hub
variable {s : State} {m : Msg} (h : Claims.Hub m s) (h0 : m.job ≠ 0)
include h h0

/-- The logs of a job that has started. -/
theorem jobLogs_answer (hst : (s.job m.job).started = true) :
    let a := (m.args.getD 0 0).toNat
    Claims.Answers (.readRunRecord m) 0x0050 Code.ok 0 (Claims.page 32 a (((List.range 6).map fun i => ((s.runRecord m.job).drop (32 * i)).take 32) ++
      (s.job m.job).runLog.map LogEntry.bytes)) m s s ∧
    Claims.Answers (.readOverflowLog m) 0x0051 Code.ok 0 (Claims.page 32 a ((s.job m.job).ovLog.map OvEvent.bytes)) m s s ∧
    Claims.Answers (.readOverrunLog m) 0x0052 Code.ok 0 (Claims.page 32 a ((s.job m.job).overruns.map Overrun.bytes)) m s s ∧
    Claims.Answers (.readRankWait m) 0x0054 Code.ok 0 (Claims.page 8 a ((List.range 4096).map fun r => leBytes 8 (Table.get 0 r (s.job m.job).rankWait))) m s s ∧
    Claims.Answers (.readLedger m) 0x0055 Code.ok 0 (Claims.page 16 a ((s.job m.job).ledger.map LedgerEntry.bytes)) m s s :=
  ⟨hub_pages rfl h rfl (by decide) rfl h0 hst (by decide) rfl, hub_pages rfl h rfl (by decide) rfl h0 hst (by decide) rfl,
    hub_pages rfl h rfl (by decide) rfl h0 hst (by decide) rfl, hub_pages rfl h rfl (by decide) rfl h0 hst (by decide) rfl,
    hub_pages rfl h rfl (by decide) rfl h0 hst (by decide) rfl⟩

end Hub

/-! ## A command at a control processor (R453 to R455, R458) -/

theorem get_putWords (ws : List Word) (i : Nat) : Table.get 0 i (putWords ws) = ws.getD i 0 := by
  rw [putWords, Table.get_foldl_update 0 (fun k _ => ws.getD k 0) i List.nodup_range]
  split
  · rfl
  · rename_i h
    rw [List.getD_eq_getElem?_getD, List.getElem?_eq_none (by simpa using h)]
    rfl

/-- A message as it stands in the mailbox of a die: 28 argument words and no data. -/
def Msg.boxed (d : Die) (m : Msg) : Msg := ⟨m.seq, m.job, 4#4 + d.setWidth 4, Msg.argList 0 28 m, [], m.path⟩

theorem Msg.arg_boxed (d : Die) (m : Msg) {n : Nat} (h : n < 28) : (Msg.boxed d m).args.getD n 0 = m.args.getD n 0 := by
  simp [Msg.boxed, Msg.argList, Msg.arg, h]

theorem Msg.die_boxed (d : Die) (m : Msg) : Msg.die (Msg.boxed d m) = d := by
  have h : ∀ d : Die, BitVec.ofNat 2 (4#4 + d.setWidth 4).toNat = d := by decide
  exact h d

theorem targetDie_die (d : Die) : targetDie (4#4 + d.setWidth 4) = some d := by
  have h : ∀ d : Die, targetDie (4#4 + d.setWidth 4) = some d := by decide
  exact h d

theorem dieTarget_ne_zero (d : Die) : (4#4 + d.setWidth 4 : BitVec 4) ≠ 0 := by
  have h : ∀ d : Die, (4#4 + d.setWidth 4 : BitVec 4) ≠ 0 := by decide
  exact h d

/-- Mailbox 0 while its command runs. -/
def Mailbox.holding (code : BitVec 16) (m : Msg) (x : Mailbox) : Mailbox :=
  { x with
    seq := m.seq, code := code, job := m.job, args := putWords (Msg.argList 0 28 m), owned := true
    status := Code.busy, doneSeq := m.seq, detail := 0, resLen := 0, res := [] }

/-- A die whose mailbox 0 holds a message that runs. -/
def DieState.holding (code : BitVec 16) (m : Msg) (x : DieState) : DieState :=
  { x with mbx := Table.set Mailbox.reset 0 ((Table.get Mailbox.reset 0 x.mbx).holding code m) x.mbx, busy := x.busy ||| 1 }

/-- The module while a message runs from mailbox 0 of a die. -/
def State.holding (d : Die) (code : BitVec 16) (m : Msg) (s : State) : State := s.modDie d (DieState.holding code m)

/-- A message for a free die runs from its mailbox 0. -/
theorem State.submit_die {s : State} {m : Msg} {d : Die} (code : BitVec 16) (h : Claims.AtDie m d s) :
    s.submit code m = (s.holding d code m).perform code 0 (Msg.boxed d m) := by
  obtain ⟨-, hp, ht, hon, hheld, hreset, hqueue, hremote, hbusy, howned, -⟩ := h
  have hruns : s.hubRuns = true := by simp [State.hubRuns, hon, hheld]
  have henq : s.enqueueMessage d code m = s.modDie d fun x => { x with queue := [(code, m)] } := by
    simp [State.enqueueMessage, hqueue, State.modDie]
  have hfree : State.freeMailbox d (s.modDie d fun x => { x with queue := [(code, m)] }) = some 0 := by
    have hr : List.range 16 = 0 :: (List.range 15).map Nat.succ := by decide
    rw [State.freeMailbox, hr, List.find?_cons_of_pos]
    simpa [BitVec.getLsbD_eq_getElem] using ⟨hbusy, howned⟩
  have hargs : ((List.range 28).map fun i => Table.get 0 i (putWords (Msg.argList 0 28 m))) = Msg.argList 0 28 m := by
    refine List.ext_getElem (by simp [Msg.argList]) fun i h1 h2 => ?_
    simp only [List.getElem_map, List.getElem_range, get_putWords]
    simp [Msg.argList] at h2
    simp [Msg.argList, h2]
  have hdisp : State.dispatchMailbox d (s.modDie d fun x => { x with queue := [(code, m)] }) = (s.holding d code m).perform code 0 (Msg.boxed d m) := by
    simp only [State.dispatchMailbox, State.die_modDie_same, hfree, hreset, Bool.false_eq_true, if_false, State.go, State.modDie_modDie,
      Table.get_set_same, Table.set_set, hargs, State.submitDie, hremote, List.isEmpty_nil, if_true]
    refine congrArg (State.perform code 0 (Msg.boxed d m)) ?_
    simp only [State.holding, State.modDie, DieState.holding, Mailbox.holding, hqueue]
    rfl
  simp only [State.submit, hp, ht, if_neg (dieTarget_ne_zero d), hruns, Bool.not_true, Bool.false_eq_true, if_false, targetDie_die, henq, hdisp]

/-- A die whose mailbox 0 has held a message that is answered. -/
def DieState.served (r : Reply) (x : DieState) : DieState :=
  { x with
    mbx := Table.set Mailbox.reset 0 { Table.get Mailbox.reset 0 x.mbx with
      status := r.status, detail := r.detail, resLen := BitVec.ofNat 16 (4 * r.res.length), res := putWords r.res, owned := false } x.mbx
    busy := x.busy &&& ~~~ 1
    done := x.done ||| 1 }

theorem State.answerMsg_boxed {m : Msg} (hp : m.path = .internal) (d : Die) (code : BitVec 16) (r : Reply) (s : State) :
    s.answerMsg code 0 (Msg.boxed d m) r = (s.modDie d (DieState.served r)).output (.reply code r.status m.seq r.detail r.res) := by
  have ht : (Msg.boxed d m).target ≠ 0 := dieTarget_ne_zero d
  have hp' : (Msg.boxed d m).path = .internal := hp
  simp only [State.answerMsg, if_neg ht, hp', Nat.zero_lt_succ, if_true, State.mailboxDone, Msg.die_boxed]
  rfl

/-- A bit that was clear is clear again once it has been set and cleared. -/
theorem busy_restored {b : BitVec 16} (h : b.getLsbD 0 = false) : (b ||| 1) &&& ~~~ 1 = b := by
  have hone : ∀ k < 16, k ≠ 0 → (~~~ 1 : BitVec 16).getLsbD k = true ∧ (1 : BitVec 16).getLsbD k = false := by decide
  refine BitVec.eq_of_getLsbD_eq fun i hi => ?_
  rw [BitVec.getLsbD_and, BitVec.getLsbD_or]
  by_cases h0 : i = 0
  · rw [h0, h]; rfl
  · obtain ⟨h1, h2⟩ := hone i hi h0
    rw [h1, h2, Bool.or_false, Bool.and_true]

/-- The state that a message leaves which runs from mailbox 0 of its die and is answered there. -/
theorem DieState.served_holding (code : BitVec 16) (m : Msg) (r : Reply) {x : DieState} (h : x.busy.getLsbD 0 = false) :
    (x.holding code m).served r = { x with
      mbx := Table.set Mailbox.reset 0 ⟨m.seq, code, m.seq, r.status, m.job, r.detail, BitVec.ofNat 16 (4 * r.res.length), putWords (Msg.argList 0 28 m),
        putWords r.res, false⟩ x.mbx
      done := x.done ||| 1 } := by
  simp only [DieState.served, DieState.holding, Table.get_set_same, Table.set_set, busy_restored h]
  rfl

section Serve
variable {s v : State} {m : Msg} {d : Die} {code : BitVec 16} {i : Instr} (hi : exec i s = s.acts fun s => s.submit code m) (h : Claims.AtDie m d s)
include hi h

/-- A command of a die that is answered and leaves the module quiet. -/
theorem die_serves {r : Reply}
    (he : (s.holding d code m).unless ((s.holding d code m).precheck code (Msg.boxed d m)) (fun s => s.runCmd code 0 (Msg.boxed d m)) =
      (some r, v.holding d code m))
    (hv : s.StaysQuiet v) (hb : (v.die d).busy.getLsbD 0 = false) : Claims.Serves d i code r.status r.detail r.res m s v := by
  have hs := State.submit_die code h
  obtain ⟨-, hp, -⟩ := h
  have hv' : s.submit code m = (v.modDie d fun x => (x.holding code m).served r).output (.reply code r.status m.seq r.detail r.res) := by
    rw [hs, State.perform, he, State.concludes]
    show State.answerMsg code 0 (Msg.boxed d m) r (v.holding d code m) = _
    rw [State.answerMsg_boxed hp, State.holding, State.modDie_modDie]
  have hquiet : s.StaysQuiet (s.submit code m) := hv' ▸ (hv.modDie d _ rfl).output _
  have hdie : (v.modDie d fun x => (x.holding code m).served r).die d = _ := (State.die_modDie_same ..).trans (DieState.served_holding code m r hb)
  refine ⟨_, hi.trans ((State.StaysQuiet.acts hquiet).trans (congrArg _ hv')), rfl, fun q hq => (State.die_setDie ..).trans (if_neg hq), ?_⟩
  rw [show State.die d (State.output (.reply code r.status m.seq r.detail r.res) (v.modDie d fun x => (x.holding code m).served r)) = _ from hdie]
  exact ⟨rfl, by simpa using fun i (_ : i < 32) => get_putWords r.res i⟩

end Serve

/-! ## Read commands of a die (R454, R460) -/

theorem CmdAt.serves_die {p : CmdAt} (h : p ≠ .hub) (d : Die) : p.serves (4#4 + d.setWidth 4) = true := by
  cases p with
  | any => rfl
  | hub => exact absurd rfl h
  | die => simpa [CmdAt.serves] using dieTarget_ne_zero d

theorem State.die_holding (d : Die) (code : BitVec 16) (m : Msg) (s : State) : (s.holding d code m).die d = (s.die d).holding code m :=
  State.die_modDie_same ..

theorem State.stack_holding (d : Die) (code : BitVec 16) (m : Msg) (k : Nat) (s : State) : (s.holding d code m).stack k = s.stack k := by
  simp only [State.stack, State.holding, State.modDie, State.die_setDie]
  split
  · rename_i h; rw [h]; rfl
  · rfl

/-- A command that its row of the command table lets run at a die meets no refusal there. -/
theorem State.precheck_die {s : State} {m : Msg} {d : Die} {code : BitVec 16} {row : CmdRow} (h : Claims.AtDie m d s) (hrow : cmdRow code = some row)
    (hplace : row.place ≠ .hub) (h3 : row.right ≤ 3) (hneed : row.need = .any ∨ m.job ≠ 0 ∧ row.need.ok (s.job m.job) = true) :
    (s.holding d code m).precheck code (Msg.boxed d m) = none := by
  obtain ⟨-, hp, -, -, -, -, -, -, -, -, hrec⟩ := h
  rw [State.precheck_served (m := Msg.boxed d m) (s := s.holding d code m) hrow (CmdAt.serves_die hplace d) hrec hp h3]
  split
  · rfl
  · obtain ⟨h0, hok⟩ := hneed.resolve_left ‹_›
    exact State.jobCheck_ok h0 hok

section Serve
variable {s v : State} {m : Msg} {d : Die} {code : BitVec 16} {i : Instr} (hi : exec i s = s.acts fun s => s.submit code m) (h : Claims.AtDie m d s)
include hi h

/-- A command of a die that its row of the command table lets run. -/
theorem die_runs {row : CmdRow} {r : Reply} (hrow : cmdRow code = some row) (hplace : row.place ≠ .hub) (h3 : row.right ≤ 3)
    (hneed : row.need = .any ∨ m.job ≠ 0 ∧ row.need.ok (s.job m.job) = true)
    (he : (s.holding d code m).runCmd code 0 (Msg.boxed d m) = (some r, v.holding d code m)) (hv : s.StaysQuiet v)
    (hb : (v.die d).busy.getLsbD 0 = false) : Claims.Serves d i code r.status r.detail r.res m s v := by
  have hpre := State.precheck_die h hrow hplace h3 hneed
  refine die_serves hi h ?_ hv hb
  rw [hpre]
  exact he

/-- A command of a die that reads: its reply, and the module as it was. -/
theorem die_reads {row : CmdRow} {r : Reply} (hrow : cmdRow code = some row) (hplace : row.place ≠ .hub) (h3 : row.right ≤ 3) (hneed : row.need = .any)
    (he : (s.holding d code m).runCmd code 0 (Msg.boxed d m) = (some r, s.holding d code m)) :
    Claims.Serves d i code r.status r.detail r.res m s s := by
  obtain ⟨hq, -, -, -, -, -, -, -, hb, -⟩ := id h
  exact die_runs hi h hrow hplace h3 (.inl hneed) he (.refl hq) hb

/-- A command of the hub at a die. -/
theorem die_misplaced {row : CmdRow} (hrow : cmdRow code = some row) (hplace : row.place = .hub) :
    Claims.Serves d i code Code.badCommand 0 [] m s s := by
  obtain ⟨hq, -, -, -, -, -, -, -, hb, -⟩ := id h
  have ht : row.place.serves (Msg.boxed d m).target = false := by
    rw [hplace]
    exact beq_eq_false_iff_ne.mpr (dieTarget_ne_zero d)
  exact die_serves (r := Reply.fail Code.badCommand) hi h (by rw [State.precheck_misplaced hrow ht]; rfl) (.refl hq) hb

end Serve

/-- The cluster that a message in a mailbox names. -/
theorem Msg.cluster_boxed (d : Die) (m : Msg) : Msg.cluster (Msg.boxed d m) =
    if ClusterId.die (BitVec.ofNat 8 (m.args.getD 0 0).toNat) = d then some (BitVec.ofNat 8 (m.args.getD 0 0).toNat) else none := by
  simp only [Msg.cluster, Msg.argN, Msg.arg_boxed d m (by decide : 0 < 28), Msg.die_boxed]

theorem Msg.cluster_boxed_here {d : Die} {m : Msg} {c : ClusterId} (hc : c = BitVec.ofNat 8 (m.args.getD 0 0).toNat) (hd : ClusterId.die c = d) :
    Msg.cluster (Msg.boxed d m) = some c := by rw [Msg.cluster_boxed, ← hc, if_pos hd]

theorem length_statusBlock (c : ClusterId) (s : State) : (s.statusBlock c).length = 96 := by
  simp [State.statusBlock]

theorem length_faultRec (r : FaultRec) : r.bytes.length = 32 := by simp [FaultRec.bytes]

theorem length_stack (t : Stack) : t.bytes.length = 64 := by simp [Stack.bytes]

section Cluster
variable {s : State} {m : Msg} {d : Die} {c : ClusterId} (h : Claims.AtDie m d s) (hc : c = BitVec.ofNat 8 (m.args.getD 0 0).toNat)
include h hc

/-- The commands of a cluster that lies on another die. -/
theorem clusterCommands_elsewhere (hd : ClusterId.die c ≠ d) :
    Claims.Serves d (.readClusterStatus m) 0x0060 Code.badArgument 0 [] m s s ∧ Claims.Serves d (.readFaultRecord m) 0x0061 Code.badArgument 0 [] m s s ∧
      Claims.Serves d (.clearHalt m) 0x0062 Code.badArgument 0 [] m s s := by
  have hn : Msg.cluster (Msg.boxed d m) = none := by rw [Msg.cluster_boxed, ← hc, if_neg hd]
  refine ⟨die_reads (row := ⟨.die, 1, .any⟩) (r := badArg) rfl h rfl (by decide) (by decide) rfl ?_,
    die_reads (row := ⟨.die, 1, .any⟩) (r := badArg) rfl h rfl (by decide) (by decide) rfl ?_,
    die_reads (row := ⟨.die, 2, .any⟩) (r := badArg) rfl h rfl (by decide) (by decide) rfl ?_⟩
  · show State.readClusterStatus _ _ = _
    rw [State.readClusterStatus, hn]; rfl
  · show State.readFaultRecord _ _ = _
    rw [State.readFaultRecord, hn]; rfl
  · show State.clearHalt _ _ = _
    rw [State.clearHalt, hn]; rfl

variable (hd : ClusterId.die c = d)
include hd

theorem readClusterStatus_serves : Claims.Serves d (.readClusterStatus m) 0x0060 Code.ok 0 (wordsOf 24 (s.statusBlock c)) m s s := by
  refine die_reads (row := ⟨.die, 1, .any⟩) (r := ⟨Code.ok, 0, wordsOf 24 (s.statusBlock c)⟩) rfl h rfl (by decide) (by decide) rfl ?_
  show State.readClusterStatus _ _ = _
  rw [State.readClusterStatus, Msg.cluster_boxed_here hc hd]
  show State.replies (Reply.bytes (s.statusBlock c)) _ = _
  rw [Reply.bytes, length_statusBlock]
  rfl

theorem readFaultRecord_serves : Claims.Serves d (.readFaultRecord m) 0x0061 Code.ok 0
    (match (s.clu c).faultRec with | some r => wordsOf 8 r.bytes | none => List.replicate 8 0) m s s := by
  refine die_reads (row := ⟨.die, 1, .any⟩) (r := ⟨Code.ok, 0, _⟩) rfl h rfl (by decide) (by decide) rfl ?_
  show State.readFaultRecord _ _ = _
  rw [State.readFaultRecord, Msg.cluster_boxed_here hc hd]
  show State.replies (Reply.bytes (match (s.clu c).faultRec with | some r => r.bytes | none => List.replicate 32 0)) _ = _
  cases (s.clu c).faultRec with
  | none => rfl
  | some r =>
    dsimp only
    rw [Reply.bytes, length_faultRec]
    rfl

theorem clearHalt_serves (hcl : s.hasCluster c = true) (hg : (s.clu c).gstate = .halted) : Claims.Serves d (.clearHalt m) 0x0062 Code.ok 0 [] m s
    (s.setClu c { s.clu c with gstate := .idle, holdCause := .none, faultRec := none, impr := none, job := 0, fetchBad := [], ending := none }) := by
  obtain ⟨hq, -, -, -, -, -, -, -, hb, -⟩ := id h
  refine die_runs (row := ⟨.die, 2, .any⟩) (r := Reply.ok) rfl h rfl (by decide) (by decide) (.inl rfl) ?_ ((State.StaysQuiet.refl hq).setClu c _) hb
  show State.clearHalt _ _ = _
  rw [State.clearHalt, Msg.cluster_boxed_here hc hd]
  exact if_pos ⟨hcl, hg⟩

theorem clearHalt_wrongState (hcl : s.hasCluster c = true) (hg : (s.clu c).gstate ≠ .halted) :
    Claims.Serves d (.clearHalt m) 0x0062 Code.wrongState (BitVec.ofNat 8 (s.clu c).gstate.code) [] m s s := by
  refine die_reads (row := ⟨.die, 2, .any⟩) (r := Reply.failD Code.wrongState (BitVec.ofNat 8 (s.clu c).gstate.code)) rfl h rfl (by decide) (by decide) rfl ?_
  show State.clearHalt _ _ = _
  rw [State.clearHalt, Msg.cluster_boxed_here hc hd]
  refine (if_neg fun hh => hg hh.2).trans ?_
  have hcl' : State.hasCluster c (s.holding d 0x0062 m) = true := hcl
  simp only [hcl', if_true]
  rfl

end Cluster

section Records
variable {s : State} {m : Msg} {d : Die} (h : Claims.AtDie m d s)
include h

theorem readMemFaults_serves : Claims.Serves d (.readMemFaults m) 0x0064 Code.ok 0
    (Claims.page 32 (m.args.getD 0 0).toNat ((s.die d).memFaults.map MemFault.bytes)) m s s := by
  refine die_reads (row := ⟨.die, 1, .any⟩) (r := ⟨Code.ok, 0, _⟩) rfl h rfl (by decide) (by decide) rfl ?_
  show State.readMemFaults _ _ = _
  rw [State.readMemFaults, paged_eq (by decide), Msg.die_boxed, State.die_holding, Msg.argN, Msg.arg_boxed d m (by decide)]
  rfl

theorem readStackStatus_serves : Claims.Serves d (.readStackStatus m) 0x0065 Code.ok 0
    (wordsOf 16 (s.stack (8 * d.toNat + (m.args.getD 0 0).toNat % 8)).bytes) m s s := by
  refine die_reads (row := ⟨.die, 1, .any⟩) (r := ⟨Code.ok, 0, _⟩) rfl h rfl (by decide) (by decide) rfl ?_
  show State.readStackStatus _ _ = _
  rw [State.readStackStatus, Msg.die_boxed, State.stack_holding, Msg.argN, Msg.arg_boxed d m (by decide), Reply.bytes, length_stack]
  rfl

end Records

/-! ## Reads of a stack by its control processor (R222, R440, R442) -/

theorem toNat_dramAddr {k o : Nat} (hk : k < 32) (ho : o < 2 ^ 37) : (BitVec.ofNat 64 (dramAddr k o)).toNat = dramAddr k o := by
  rw [BitVec.toNat_ofNat, dramAddr]
  exact Nat.mod_eq_of_lt (by omega)

/-- The place of an address in a stack. -/
theorem loc_dram {k o : Nat} (hk : k < 32) (ho : o < stackBytes) : DWord.loc (BitVec.ofNat 64 (dramAddr k o)) = .dram (BitVec.ofNat 5 k) o := by
  have ho' : o < 2 ^ 37 := ho.trans (by decide)
  rw [DWord.loc, toNat_dramAddr hk ho', dramAddr]
  have h1 : (2 ^ 62 + k * 2 ^ 37 + o) / 2 ^ 62 = 1 := by omega
  have h2 : (2 ^ 62 + k * 2 ^ 37 + o) % 2 ^ 62 = k * 2 ^ 37 + o := by omega
  have h3 : (k * 2 ^ 37 + o) % 2 ^ 37 = o := by omega
  have h4 : (k * 2 ^ 37 + o) / 2 ^ 37 = k := by omega
  rw [if_neg (by omega), if_pos h1, h2]
  dsimp only
  rw [h3, h4, if_pos ⟨by omega, ho⟩]

/-- A control processor waits for no refresh. -/
theorem State.holdRefresh_cp (a n : Nat) {req : BitVec 16} (h : 320 ≤ req.toNat) (s : State) : s.holdRefresh a n req = s := by
  unfold State.holdRefresh
  split
  · dsimp only
    rw [if_neg (by omega : ¬ req.toNat < 256), if_neg (by omega : ¬ req.toNat < 320), ite_self]
  · rfl

theorem le_cpReq (a : Nat) : 320 ≤ (cpReq a).toNat := by
  have hd := (dramDie (BitVec.ofNat 64 a)).isLt
  rw [cpReq, BitVec.toNat_ofNat, Nat.mod_eq_of_lt (by omega)]
  omega

/-- Memory without an uncorrectable word, without a word that has a correctable error, and without an armed fault. -/
def State.sound (s : State) : Prop := s.badWords = [] ∧ s.weakWords = [] ∧ s.armed = []

@[simp] theorem State.noteRead_frame (a n : Nat) (s : State) :
    (s.noteRead a n).mem = s.mem ∧ (s.noteRead a n).badWords = s.badWords ∧ (s.noteRead a n).weakWords = s.weakWords ∧
      (s.noteRead a n).armed = s.armed ∧ (s.noteRead a n).time = s.time := by
  unfold State.noteRead
  split <;> simp

theorem State.sound.noteRead {s : State} (h : s.sound) (a n : Nat) : (s.noteRead a n).sound := by simpa [State.sound] using h

/-- A demand read of sound memory by a control processor: its bytes, and the counts of the stack. -/
theorem State.demand_sound {s : State} (hs : s.sound) (a n : Nat) {req : BitVec 16} (hr : 320 ≤ req.toNat) (no : JobNo) :
    s.demand a n req no = ((s.read a n, none), s.noteRead a n) := by
  obtain ⟨hb, hw, ha⟩ := hs.noteRead a n
  have hweak : (s.noteRead a n).weakIn a n = [] := by rw [State.weakIn, hw]; rfl
  have hcor : (s.noteRead a n).corrections a n req no = s.noteRead a n := by
    unfold State.corrections
    rw [hweak]
    split <;> rfl
  have hread : (s.noteRead a n).read a n = s.read a n := by simp [State.read]
  simp only [State.demand, State.holdRefresh_cp a n hr, State.armedIn, ha, hb, List.find?_nil, Option.map_none, hcor, hread]

/-- A control processor reads ranges of sound memory one after another. -/
theorem State.cpReads_sound {s : State} (hs : s.sound) (no : JobNo) (l : List (Nat × Nat)) :
    s.cpReads no l = (some (l.flatMap fun x => s.read x.1 x.2), l.foldl (fun s x => s.noteRead x.1 x.2) s) := by
  induction l generalizing s with
  | nil => rfl
  | cons x l ih =>
    have hx : s.cpRead no x.1 x.2 = (some (s.read x.1 x.2), s.noteRead x.1 x.2) := by
      simp only [State.cpRead, State.demand_sound hs x.1 x.2 (le_cpReq _)]
    have hread : ∀ y : Nat × Nat, (s.noteRead x.1 x.2).read y.1 y.2 = s.read y.1 y.2 := fun y => by simp [State.read]
    simp only [State.cpReads, hx, ih (hs.noteRead ..), hread, Option.map_some, List.flatMap_cons, List.foldl_cons]

theorem Memory.length_readN (a n : Nat) (m : Memory) : (Memory.readN a n m).length = n := by
  induction n generalizing a with
  | zero => rfl
  | succ n ih => simp [Memory.readN, ih]

theorem State.length_read (a n : Nat) (s : State) : (s.read a n).length = n := Memory.length_readN ..

/-- Pieces of one length, cut out of what they make together. -/
theorem cut_flatMap {α β : Type} (f : α → List β) (c : Nat) (hf : ∀ x, (f x).length = c) (l : List α) :
    ((List.range l.length).map fun i => ((l.flatMap f).drop (c * i)).take c) = l.map f := by
  induction l with
  | nil => rfl
  | cons x l ih =>
    rw [List.length_cons, List.range_succ_eq_map, List.map_cons, List.map_map, List.map_cons, ← ih]
    refine congrArg₂ List.cons ?_ (List.map_congr_left fun i _ => ?_)
    · simp [← hf x]
    · have hi : c * (i + 1) = (f x).length + c * i := by rw [hf]; ring
      simp only [Function.comp, List.flatMap_cons, hi, List.drop_append, List.drop_eq_nil_of_le (Nat.le_add_right _ _), List.nil_append, Nat.add_sub_cancel_left]

/-- v is u with other counts of the stacks of die d. -/
def State.Counts (d : Die) (u v : State) : Prop :=
  v = { u with dies := v.dies } ∧ (∀ q, q ≠ d → v.die q = u.die q) ∧ v.die d = { u.die d with stk := (v.die d).stk }

theorem State.Counts.refl (d : Die) (u : State) : u.Counts d u := ⟨rfl, fun _ _ => rfl, rfl⟩

theorem State.Counts.trans {d : Die} {u v w : State} (h : u.Counts d v) (g : v.Counts d w) : u.Counts d w := by
  obtain ⟨h1, h2, h3⟩ := h
  obtain ⟨g1, g2, g3⟩ := g
  refine ⟨?_, fun q hq => (g2 q hq).trans (h2 q hq), ?_⟩
  · rw [g1, h1]
  · rw [g3, h3]

/-- A stack of which n bytes have been read. -/
def Stack.noted (o n now : Nat) (t : Stack) : Stack := { t.access o n now with bytesRead := t.bytesRead + n }

/-- A die of whose stack j n bytes have been read. -/
def DieState.noted (j o n now : Nat) (x : DieState) : DieState :=
  { x with stk := Table.set Stack.reset j ((Table.get Stack.reset j x.stk).noted o n now) x.stk }

section Stack
variable {d : Die} {k o : Nat} (hk : k / 8 = d.toNat)
include hk

theorem State.noteRead_dram (ho : o < stackBytes) (n : Nat) (s : State) :
    s.noteRead (dramAddr k o) n = s.modStack (BitVec.ofNat 5 k).toNat fun t => t.noted o n s.time := by
  have hd := d.isLt
  rw [State.noteRead, loc_dram (by omega : k < 32) ho]
  rfl

theorem State.modStack_noted (n now : Nat) (s : State) : s.modStack k (fun t => t.noted o n now) = s.modDie d (DieState.noted (k % 8) o n now) := by
  have hdie : (BitVec.ofNat 2 (k / 8) : Die) = d := by rw [hk]; simp
  rw [State.modStack, State.stack, hdie]
  rfl

theorem toNat_stack : (BitVec.ofNat 5 k).toNat = k := by
  have hd := d.isLt
  rw [BitVec.toNat_ofNat]
  omega

theorem State.noteRead_stack (ho : o < stackBytes) (n : Nat) (s : State) : s.noteRead (dramAddr k o) n = s.modDie d (DieState.noted (k % 8) o n s.time) := by
  rw [State.noteRead_dram hk ho, toNat_stack hk, State.modStack_noted hk]

/-- A read of a stack, while a message runs from a mailbox of the die, changes the counts of the die alone. -/
theorem State.noteRead_holding (ho : o < stackBytes) (n : Nat) (code : BitVec 16) (m : Msg) (u : State) :
    (u.holding d code m).noteRead (dramAddr k o) n = (u.noteRead (dramAddr k o) n).holding d code m ∧ u.Counts d (u.noteRead (dramAddr k o) n) ∧
      (u.quiet = true → u.StaysQuiet (u.noteRead (dramAddr k o) n)) := by
  have hn := State.noteRead_stack hk ho n
  refine ⟨?_, ?_, fun h => ?_⟩
  · rw [hn, hn, State.holding, State.holding, State.modDie_modDie, State.modDie_modDie]
    rfl
  · rw [hn]
    exact ⟨rfl, fun q hq => (State.die_setDie ..).trans (if_neg hq), by rw [State.die_modDie_same]; rfl⟩
  · rw [hn]
    exact (State.StaysQuiet.refl h).modDie d _ rfl

/-- Reads of pieces of a stack, while a message runs from a mailbox of the die, change the counts of the die alone. -/
theorem State.noteReads {l : List (Nat × Nat)} (hl : ∀ x ∈ l, ∃ o, x.1 = dramAddr k o ∧ o < stackBytes) (code : BitVec 16) (m : Msg) (u : State) :
    l.foldl (fun s x => s.noteRead x.1 x.2) (u.holding d code m) = (l.foldl (fun s x => s.noteRead x.1 x.2) u).holding d code m ∧
      u.Counts d (l.foldl (fun s x => s.noteRead x.1 x.2) u) ∧ (u.quiet = true → u.StaysQuiet (l.foldl (fun s x => s.noteRead x.1 x.2) u)) := by
  induction l generalizing u with
  | nil => exact ⟨rfl, .refl d u, fun h => .refl h⟩
  | cons x l ih =>
    obtain ⟨o, hx, ho⟩ := hl x (by simp)
    obtain ⟨hh, hc, hq⟩ := State.noteRead_holding hk ho x.2 code m u
    rw [← hx] at hh hc hq
    obtain ⟨ih1, ih2, ih3⟩ := ih (fun y hy => hl y (by simp [hy])) (u.noteRead x.1 x.2)
    simp only [List.foldl_cons, hh]
    refine ⟨ih1, hc.trans ih2, fun h => ?_⟩
    obtain ⟨h1, h2, h3, h4⟩ := hq h
    obtain ⟨g1, g2, g3, g4⟩ := ih3 h1
    exact ⟨g1, g2.trans h2, g3.trans h3, g4.trans h4⟩

end Stack

/-- The records of a job in a ring of n records. -/
def ringOf (no : JobNo) (n : Nat) (ring : List (Nat × Nat)) : List (Nat × Nat) := ring.filter fun x => x.1 == no.toNat && decide (x.2 < n)

theorem Msg.arg64_boxed (d : Die) (m : Msg) {n : Nat} (h : n + 1 < 28) : Msg.arg64 n (Msg.boxed d m) = Msg.arg64 n m := by
  rw [Msg.arg64, Msg.arg64, Msg.arg_boxed d m (by omega), Msg.arg_boxed d m h]

section Stats
variable {s : State} {m : Msg} {d : Die} {k o : Nat} (ho : o < stackBytes) (hk : k / 8 = d.toNat)
  (ha : Msg.arg64 0 m = BitVec.ofNat 64 (dramAddr k o)) (hn : o + 32 * (m.args.getD 2 0).toNat ≤ stackBytes) (hs : s.sound)
include ho hk ha hn hs

/-- A ring of reduction statistics on a stack of the die is read record by record. -/
theorem readStats_eq :
    let ring := ringOf m.job (m.args.getD 2 0).toNat (Table.get [] (dramAddr k o) (s.die d).statRings)
    let reads := ring.map fun x => (dramAddr k o + 32 * x.2, 32)
    (s.holding d 0x0063 m).readStats (Msg.boxed d m) = (some (paged 32 (m.args.getD 3 0).toNat (ring.map fun x => s.read (dramAddr k o + 32 * x.2) 32)),
      reads.foldl (fun s x => s.noteRead x.1 x.2) (s.holding d 0x0063 m)) := by
  intro ring reads
  have hd := d.isLt
  have hk32 : k < 32 := by omega
  have ha' : Msg.arg64 0 (Msg.boxed d m) = BitVec.ofNat 64 (dramAddr k o) := (Msg.arg64_boxed d m (by decide)).trans ha
  have hto : (BitVec.ofNat 64 (dramAddr k o)).toNat = dramAddr k o := toNat_dramAddr hk32 (ho.trans (by decide))
  have hin : inSpace (BitVec.ofNat 64 (dramAddr k o)) (32 * (m.args.getD 2 0).toNat) = true := by
    rw [inSpace, loc_dram hk32 ho]
    exact decide_eq_true hn
  have hring : ((Table.get [] (dramAddr k o) ((s.holding d 0x0063 m).die d).statRings).filter fun (x : Nat × Nat) =>
      x.1 == (Msg.boxed d m).job.toNat && decide (x.2 < (m.args.getD 2 0).toNat)) = ring := by
    rw [State.die_holding]; rfl
  have hreads := State.cpReads_sound (s := s.holding d 0x0063 m) hs (Msg.boxed d m).job reads
  have hrecs : ((List.range ring.length).map fun i => ((reads.flatMap fun x => (s.holding d 0x0063 m).read x.1 x.2).drop (32 * i)).take 32) =
      ring.map fun x => s.read (dramAddr k o + 32 * x.2) 32 := by
    rw [List.flatMap_map]
    exact cut_flatMap (fun x => s.read (dramAddr k o + 32 * x.2) 32) 32 (fun x => State.length_read ..) ring
  simp only [State.readStats, ha', loc_dram hk32 ho, toNat_stack hk, Msg.die_boxed, Msg.argN, Msg.arg_boxed d m (by decide : 2 < 28), hk, hin,
    Msg.arg_boxed d m (by decide : 3 < 28), decide_true, Bool.and_self, Bool.not_true, Bool.false_eq_true, if_false, hto, hring]
  rw [show ring.map (fun (x : Nat × Nat) => (dramAddr k o + 32 * x.2, 32)) = reads from rfl, hreads]
  simp only [hrecs]
  rfl

/-- READ_STATS answers with the records of the ring and counts its reads. -/
theorem readStats_serves (h : Claims.AtDie m d s) (h0 : m.job ≠ 0) (hst : (s.job m.job).started = true) :
    ∃ v, Claims.Serves d (.readStats m) 0x0063 Code.ok 0 (Claims.page 32 (m.args.getD 3 0).toNat
      ((ringOf m.job (m.args.getD 2 0).toNat (Table.get [] (dramAddr k o) (s.die d).statRings)).map fun x => s.read (dramAddr k o + 32 * x.2) 32)) m s v ∧
      s.Counts d v := by
  have heq := readStats_eq ho hk ha hn hs
  obtain ⟨hq, -, -, -, -, -, -, -, hb, -⟩ := id h
  dsimp only at heq
  generalize hreads : (ringOf m.job (m.args.getD 2 0).toNat (Table.get [] (dramAddr k o) (s.die d).statRings)).map
    (fun x => (dramAddr k o + 32 * x.2, 32)) = reads at heq
  have hl : ∀ x ∈ reads, ∃ o, x.1 = dramAddr k o ∧ o < stackBytes := by
    subst hreads
    intro x hx
    obtain ⟨y, hy, rfl⟩ := List.mem_map.mp hx
    have hlt : y.2 < (m.args.getD 2 0).toNat := by
      have := (List.mem_filter.mp hy).2
      simp only [Bool.and_eq_true, decide_eq_true_eq] at this
      exact this.2
    exact ⟨o + 32 * y.2, Nat.add_assoc .., by omega⟩
  obtain ⟨hh, hc, hqv⟩ := State.noteReads hk hl 0x0063 m s
  have hbv : ((reads.foldl (fun s x => s.noteRead x.1 x.2) s).die d).busy.getLsbD 0 = false := by
    obtain ⟨-, -, hdie⟩ := hc
    rw [hdie]
    exact hb
  rw [hh, paged_eq (by decide)] at heq
  exact ⟨_, die_runs (code := 0x0063) (row := ⟨.die, 1, .started⟩) rfl h rfl (by decide) (by decide) (.inr ⟨h0, hst⟩) heq (hqv hq) hbv, hc⟩

end Stats

/-! ## Remote lines (R419, R432, R460) -/

/-- The tag of the next remote request of a die. -/
def State.remoteTag (d : Die) (s : State) : Word := BitVec.ofNat 32 (2 ^ 30 * d.toNat + (s.die d).remoteSeq % 2 ^ 30)

/-- A remote line access sends one MEM_REQ and waits in mailbox 0 for its reply. -/
def Asks (d : Die) (m : Msg) (s : State) (i : Instr) (code : BitVec 16) (op : Nat) (line : List Byte) : Prop :=
  ∃ v, exec i s = .next (State.dispatchOwn v) ∧
    v = { s with dies := v.dies, fab := v.fab } ∧
    (∃ q : Msg, (v.die d).remote = [⟨s.remoteTag d, op == 2, 0, q, code, s.time⟩] ∧ q.seq = m.seq ∧ q.job = m.job ∧ q.target = m.target ∧ q.path = .internal) ∧
    (Table.get Mailbox.reset 0 (v.die d).mbx).status = Code.busy ∧ (v.die d).busy.getLsbD 0 = true ∧
    (v.die d).remoteSeq = (s.die d).remoteSeq + 1 ∧ ∃ g : Frame, v.fab = { s.fab with
        selfEgress := [g], transfers := Table.set 0 g.dstModule.toNat (g.transfer + 1) s.fab.transfers } ∧
      g.transfer = Table.get 0 g.dstModule.toNat s.fab.transfers ∧ g.kind = 6 ∧ g.cls = 2 ∧
      g.plen.toNat = line.length / 32 ∧ g.job = m.job ∧ g.ident = s.remoteTag d ∧ g.offset = m.args.getD 2 0 ∧
      g.detail.toNat = (m.args.getD 1 0).toNat % 4096 + 4096 * op ∧ g.payload = line ∧ g.dstModule = (m.args.getD 0 0).setWidth 9

/-- A die that waits for the reply to a remote request. -/
def DieState.asking (r : RemoteOut) (x : DieState) : DieState := { x with remoteSeq := x.remoteSeq + 1, remote := x.remote ++ [r] }

/-- The module once die d waits for the reply to a remote request in frame f. -/
def State.asked (d : Die) (r : RemoteOut) (f : Frame) (t : State) : State :=
  (t.modDie d (DieState.asking r)).modFab fun x => { x with transfers := Table.set 0 f.dstModule.toNat (f.transfer + 1) x.transfers }

theorem State.StaysQuiet.asked {u v : State} (h : u.StaysQuiet v) (d : Die) (r : RemoteOut) (f : Frame) : u.StaysQuiet (v.asked d r f) :=
  (h.modDie d _ rfl).modFab _ fun _ => ⟨rfl, rfl, rfl⟩

/-- A remote request that leaves. -/
theorem State.sendRemote_eq {t : State} {b : Msg} (hp : (t.job b.job).proofRole ≠ 2) (code : BitVec 16) (op k : Nat) (line : List Byte) :
    let tag := t.remoteTag (Msg.die b)
    let f := t.remoteReq b op tag line
    t.sendRemote code op k b line = (none, (t.asked (Msg.die b) ⟨tag, op == 2, k, b, code, t.time⟩ f).send f) :=
  congrArg (Prod.mk none) (if_neg hp)

/-- The frame of a remote request. -/
theorem State.remoteReq_fields {t : State} {b : Msg} {op : Nat} {line : List Byte} (tag : Word) (hop : op < 4) (hline : line.length / 32 < 256) :
    let g := (t.remoteReq b op tag line).sealCrc
    g.transfer = Table.get 0 g.dstModule.toNat t.fab.transfers ∧ g.kind = 6 ∧ g.cls = 2 ∧ g.plen.toNat = line.length / 32 ∧ g.job = b.job ∧ g.ident = tag ∧
      g.offset = b.args.getD 2 0 ∧ g.detail.toNat = (b.args.getD 1 0).toNat % 4096 + 4096 * op ∧ g.payload = line ∧ g.dstModule = (b.args.getD 0 0).setWidth 9 := by
  refine ⟨rfl, rfl, rfl, ?_, rfl, rfl, rfl, ?_, rfl, rfl⟩
  · exact (BitVec.toNat_ofNat ..).trans (Nat.mod_eq_of_lt hline)
  · refine (BitVec.toNat_ofNat ..).trans (Nat.mod_eq_of_lt ?_)
    have : Msg.argN 1 b % 4096 < 4096 := Nat.mod_lt _ (by decide)
    omega

/-- A command that leaves its module waiting for the reply to one remote request. -/
theorem Asks.of_sent {s : State} {m q : Msg} {d : Die} {i : Instr} {code : BitVec 16} {op : Nat} {line : List Byte} {ds : Table DieState}
    (hself : s.fab.selfEgress = []) (hop : op < 4) (hline : line.length / 32 < 256)
    (hq : q.seq = m.seq ∧ q.job = m.job ∧ q.target = m.target ∧ q.path = .internal) (hargs : ∀ n < 3, q.args.getD n 0 = m.args.getD n 0) :
    let w : State := { s with dies := ds }
    let r : RemoteOut := ⟨s.remoteTag d, op == 2, 0, q, code, s.time⟩
    let f := w.remoteReq q op (s.remoteTag d) line
    exec i s = .next ((w.asked d r f).send f).dispatchOwn → (w.die d).remote = [] → (w.die d).remoteSeq = (s.die d).remoteSeq →
      (Table.get Mailbox.reset 0 (w.die d).mbx).status = Code.busy → (w.die d).busy.getLsbD 0 = true → Asks d m s i code op line := by
  intro w r f hexec hremote hseq hstatus hbusy
  obtain ⟨hqs, hqj, hqt, hqp⟩ := hq
  have hvd : State.die d ((w.asked d r f).send f) = (w.die d).asking r := State.die_modDie_same ..
  have hfields := State.remoteReq_fields (t := w) (b := q) (s.remoteTag d) hop hline
  obtain ⟨hft, hfk, hfc, hfp, hfj, hfi, hfo, hfd, hfl, hfm⟩ := hfields
  rw [hargs _ (by decide)] at hfo hfd hfm
  refine ⟨_, hexec, rfl, ⟨q, ?_, hqs, hqj, hqt, hqp⟩, ?_, ?_, ?_, f.sealCrc, ?_, hft, hfk, hfc, hfp, hfj.trans hqj, hfi, hfo, hfd, hfl, hfm⟩
  · rw [hvd, DieState.asking, hremote]; rfl
  · rw [hvd]; exact hstatus
  · rw [hvd]; exact hbusy
  · rw [hvd, DieState.asking, hseq]
  · show ({ s.fab with selfEgress := s.fab.selfEgress ++ [f.sealCrc], transfers := _ } : Fabric) = _
    rw [hself]; rfl

/-- A remote line access, from a module that is u but for the counts of its own read. -/
theorem die_asks {s u : State} {m : Msg} {d : Die} {code : BitVec 16} {i : Instr} {row : CmdRow} {op : Nat} {line : List Byte}
    (hi : exec i s = s.acts fun s => s.submit code m) (h : Claims.AtDie m d s) (hrow : cmdRow code = some row) (hplace : row.place ≠ .hub)
    (h3 : row.right ≤ 3) (hneed : row.need = .any ∨ m.job ≠ 0 ∧ row.need.ok (s.job m.job) = true) (hp : (s.job m.job).proofRole ≠ 2)
    (hop : op < 4) (hline : line.length / 32 < 256) (hc : s.Counts d u) (hu : s.StaysQuiet u)
    (he : (s.holding d code m).runCmd code 0 (Msg.boxed d m) = (u.holding d code m).sendRemote code op 0 (Msg.boxed d m) line) :
    Asks d m s i code op line := by
  have hpre := State.precheck_die h hrow hplace h3 hneed
  have hsub := State.submit_die code h
  obtain ⟨hq, hpath, htarget, -, -, -, -, hremote, -⟩ := id h
  obtain ⟨hs, -, hdie⟩ := hc
  obtain ⟨ds, hds⟩ : ∃ ds, u.holding d code m = { s with dies := ds } := ⟨_, by rw [hs]; rfl⟩
  have hwd := State.die_holding d code m u
  have hquiet : s.StaysQuiet (u.holding d code m) := hu.modDie d _ rfl
  rw [hds] at he hwd hquiet
  have htag : State.remoteTag d { s with dies := ds } = s.remoteTag d := by rw [State.remoteTag, hwd, hdie]; rfl
  have hsend := State.sendRemote_eq (t := { s with dies := ds }) (b := Msg.boxed d m) hp code op 0 line
  simp only [Msg.die_boxed, htag] at hsend
  obtain ⟨-, -, -, -, -, hself, -⟩ := (State.quiet_iff s).mp hq
  have hexec := hi.trans (State.acts_send (v := State.asked d ⟨s.remoteTag d, op == 2, 0, Msg.boxed d m, code, s.time⟩
    (State.remoteReq (Msg.boxed d m) op (s.remoteTag d) line { s with dies := ds }) { s with dies := ds }) (by
      rw [hsub, State.perform, hpre]
      exact congrArg (State.concludes code 0 (Msg.boxed d m)) (he.trans hsend)) (hquiet.asked ..))
  refine Asks.of_sent (q := Msg.boxed d m) hself hop hline ⟨rfl, rfl, htarget.symm, hpath⟩ (fun n hn => Msg.arg_boxed d m (by omega)) hexec ?_ ?_ ?_ ?_
  · rw [hwd, hdie]; exact hremote
  · rw [hwd, hdie]; rfl
  · rw [hwd]; exact congrArg Mailbox.status (Table.get_set_same ..)
  · rw [hwd]; simp [DieState.holding]

theorem State.read_holding (d : Die) (code : BitVec 16) (m : Msg) (a n : Nat) (s : State) : (s.holding d code m).read a n = s.read a n := by
  simp only [State.read, State.holding, State.modDie_frame]

section Remote
variable {s : State} {m : Msg} {d : Die} (h : Claims.AtDie m d s) (h0 : m.job ≠ 0) (hp : (s.job m.job).proofRole ≠ 2)
include h h0 hp

theorem memReadRemote_asks (hst : (s.job m.job).st = .running ∨ (s.job m.job).st = .stopped) : Asks d m s (.memReadRemote m) 0x0066 1 [] := by
  obtain ⟨hq, -⟩ := id h
  have hok : JobNeed.ok .lines (s.job m.job) = true := by rcases hst with h | h <;> simp [JobNeed.ok, h]
  exact die_asks (row := ⟨.die, 2, .lines⟩) rfl h rfl (by decide) (by decide) (.inr ⟨h0, hok⟩) hp (by decide) (by decide) (.refl d s) (.refl hq) rfl

/-- The line of a remote write comes from a stack of the die, whose read counts there. -/
theorem memWriteRemote_asks {k o : Nat} (hst : (s.job m.job).st = .running) (hk : k / 8 = d.toNat) (ho : o + 128 ≤ stackBytes)
    (ha : Msg.arg64 3 m = BitVec.ofNat 64 (dramAddr k o)) (hs : s.sound) :
    Asks d m s (.memWriteRemote m) 0x0067 2 (s.read (dramAddr k o) 128) := by
  obtain ⟨hq, -⟩ := id h
  have hd := d.isLt
  have hk32 : k < 32 := by omega
  have ho' : o < stackBytes := by omega
  have hok : JobNeed.ok .running (s.job m.job) = true := by simp [JobNeed.ok, hst]
  obtain ⟨hh, hc, hqv⟩ := State.noteRead_holding hk ho' 128 0x0067 m s
  have ha' : Msg.arg64 3 (Msg.boxed d m) = BitVec.ofNat 64 (dramAddr k o) := (Msg.arg64_boxed d m (by decide)).trans ha
  have hto : (BitVec.ofNat 64 (dramAddr k o)).toNat = dramAddr k o := toNat_dramAddr hk32 (ho'.trans (by decide))
  have hin : inSpace (BitVec.ofNat 64 (dramAddr k o)) 128 = true := by
    rw [inSpace, loc_dram hk32 ho']
    exact decide_eq_true ho
  have hreq : 320 ≤ (BitVec.ofNat 16 (320 + d.toNat)).toNat := by rw [BitVec.toNat_ofNat]; omega
  have hdemand := State.demand_sound (s := s.holding d 0x0067 m) hs (dramAddr k o) 128 hreq (Msg.boxed d m).job
  rw [State.read_holding] at hdemand
  refine die_asks (row := ⟨.die, 2, .running⟩) rfl h rfl (by decide) (by decide) (.inr ⟨h0, hok⟩) hp (by decide)
    (by rw [State.length_read]; decide) hc (hqv hq) ?_
  show State.memWriteRemote 0 _ _ = _
  simp only [State.memWriteRemote, ha', loc_dram hk32 ho', toNat_stack hk, Msg.die_boxed, hk, hin, decide_true, Bool.and_self, Bool.not_true,
    Bool.false_eq_true, if_false, hto, hdemand, hh]

end Remote

end Sys2Proof.Machine

open Sys2Proof Sys2Proof.Machine

/-- Settles O52: a message that the hub or a free die takes runs at once, and a command that reads leaves the module as it was. -/
theorem readCommandsAnswer : Obligations.ReadCommandsAnswer := by
  intro s m d a j c logs
  refine ⟨fun h h0 => ⟨fun hst => ⟨?_, ?_⟩, fun hst => ⟨?_, ?_⟩⟩, fun h => ?_, fun h => ⟨?_, ?_, fun hd => ⟨?_, ?_, ?_, ?_⟩, ?_, ?_, ?_, ?_, ?_⟩⟩
  · obtain ⟨h1, h2, h3, h4, h5⟩ := jobLogs_answer h h0 hst
    simpa [logs, a, j] using ⟨h1, h2, h3, h4, h5⟩
  · exact hub_reads (code := 0x0053) rfl h (row := ⟨.hub, 1, .started⟩) rfl rfl (by decide) rfl (.inr ⟨h0, hst⟩) (readIdleAccount_eq m s)
  · have hw : ∀ {i : Instr} {code : BitVec 16}, exec i s = s.acts (fun s => s.submit code m) → cmdRow code = some ⟨.hub, 1, .started⟩ → actsOnDies code = false →
        Claims.Answers i code Code.wrongState (BitVec.ofNat 8 j.st.code) [] m s s := fun hi hrow hacts => hub_notStarted hi h hrow (by decide) hacts h0 hst
    simpa [logs] using ⟨hw (i := .readRunRecord m) rfl rfl rfl, hw (i := .readOverflowLog m) rfl rfl rfl, hw (i := .readOverrunLog m) rfl rfl rfl,
      hw (i := .readRankWait m) rfl rfl rfl, hw (i := .readLedger m) rfl rfl rfl⟩
  · exact hub_notStarted rfl h rfl (by decide) rfl h0 hst
  · have := hub_reads (code := 0x0056) (row := ⟨.hub, 1, .any⟩) (i := .readEventLog m) (r := paged 32 (m.args.getD 0 0).toNat (s.hub.events.map Event.bytes))
      rfl h rfl rfl (by decide) rfl (.inl rfl) rfl
    rwa [paged_eq (by decide)] at this
  · exact die_reads (code := 0x0001) (row := ⟨.any, 1, .any⟩) (r := Reply.ok) rfl h rfl (by decide) (by decide) rfl rfl
  · simp only [List.forall_mem_cons]
    exact ⟨die_misplaced (row := ⟨.hub, 1, .any⟩) rfl h rfl rfl, die_misplaced (row := ⟨.hub, 2, .any⟩) rfl h rfl rfl,
      die_misplaced (row := ⟨.hub, 2, .loaded⟩) rfl h rfl rfl, die_misplaced (row := ⟨.hub, 1, .any⟩) rfl h rfl rfl,
      die_misplaced (row := ⟨.hub, 1, .any⟩) rfl h rfl rfl, by simp⟩
  · exact readClusterStatus_serves h rfl hd
  · exact readFaultRecord_serves h rfl hd
  · exact clearHalt_serves h rfl hd
  · exact clearHalt_wrongState h rfl hd
  · exact clusterCommands_elsewhere h rfl
  · exact fun k o ho hk h0 hst ha hn hb hw har => readStats_serves ho hk ha hn ⟨hb, hw, har⟩ h h0 hst
  · exact readMemFaults_serves h
  · exact readStackStatus_serves h
  · exact fun h0 hp hb hw har => ⟨memReadRemote_asks h h0 hp, fun k o ho hst hk ha => memWriteRemote_asks h h0 hp hst hk ho ha ⟨hb, hw, har⟩⟩
end

section
/-! SUPPORT. The commands that act on a job: its start, its stop, its end, and the commands with an effective step (05 R124; 09 R263; 12 R315;
18 R459, R466, R467). -/

namespace Sys2Proof.Machine

/-! ## Commands of the hub that are refused (R458, R459) -/

/-- The checks of a command of the hub that refuse it once its row of the command table has let it run. -/
theorem hub_refused {s : State} {m : Msg} {code : BitVec 16} {i : Instr} {row : CmdRow} {r : Reply} (hi : exec i s = s.acts fun s => s.submit code m)
    (h : Claims.Hub m s) (hrow : cmdRow code = some row) (hplace : row.place.serves 0 = true) (h3 : row.right ≤ 3)
    (hneed : row.need = .any ∨ m.job ≠ 0 ∧ row.need.ok (s.job m.job) = true) (hc : code ≠ 0x0031) (he : s.runCmd code 16 m = (some r, s)) {status : BitVec 16}
    {detail : Byte} (hr : hubReply code r = ⟨status, detail, []⟩) : Claims.Answers i code status detail [] m s s := by
  obtain ⟨hq, -⟩ := id h
  have := hub_runs hi h hrow hplace h3 hneed hc he (.refl hq)
  rwa [hr] at this

/-! ## Commands with an effective step (R124, R315, R467) -/

/-- A job whose log has taken a command. -/
def Job.entered (e : LogEntry) (j : Job) : Job := { j with cmdLog := j.cmdLog ++ [e] }

/-- The entry of a command in the log of its job. -/
def Msg.entry (code : BitVec 16) (step : Word) (now : Nat) (m : Msg) : LogEntry := ⟨code, step, (List.range 4).map fun i => Msg.arg i m, now⟩

/-- The room and the time that a command with an effective step needs (R124, R315). -/
def Job.free (step : Word) (j : Job) : Prop := (∀ b, j.begun = some b → b < step) ∧ j.cmdLog.length < 1024 + j.logFrom

theorem Job.accepts_free {step : Word} {j : Job} (h : j.free step) : j.accepts step = none := by
  obtain ⟨hb, hl⟩ := h
  have ht : (j.begun.any fun b => decide (step ≤ b)) = false := by
    rw [Option.any_eq_false]
    exact fun b h => by simpa using hb b h
  simp [Job.accepts, ht, hl, need, firstReply]

theorem Job.accepts_passed {step b : Word} {j : Job} (hb : j.begun = some b) (h : step ≤ b) : j.accepts step = some (Reply.fail Code.stepPassed) := by
  simp [Job.accepts, hb, h, need, firstReply]

theorem Job.accepts_full {step : Word} {j : Job} (hb : ∀ b, j.begun = some b → b < step) (hl : 1024 + j.logFrom ≤ j.cmdLog.length) :
    j.accepts step = some (Reply.fail Code.runRecordFull) := by
  have ht : (j.begun.any fun b => decide (step ≤ b)) = false := by
    rw [Option.any_eq_false]
    exact fun b h => by simpa using hb b h
  simp [Job.accepts, ht, Nat.not_lt.mpr hl, need, firstReply]

/-- A change of a job and the entry of its command are one change. -/
theorem State.logCommand_modJob {s : State} {m : Msg} {k : Nat} (hr : Claims.Rising s) (hk : s.jobSlot m.job = some k) {F : Job → Job}
    (hF : (F (s.job m.job)).no = m.job) (code : BitVec 16) (step : Word) :
    (s.modJob m.job F).logCommand code m step = s.modJob m.job fun j => (F j).entered (Msg.entry code step s.time m) := by
  have ht : (s.modJob m.job F).time = s.time := by simp
  rw [← State.modJob_modJob (g := Job.entered (Msg.entry code step s.time m)) hr hk hF]
  simp only [State.logCommand, ht]
  rfl

/-- A command that changes its job alone and is entered in its log. -/
theorem hub_logs {s : State} {m : Msg} {k : Nat} {code : BitVec 16} {i : Instr} {row : CmdRow} {F : Job → Job} {step : Word} (hr : Claims.Rising s)
    (hk : s.jobSlot m.job = some k) (hi : exec i s = s.acts fun s => s.submit code m) (h : Claims.Hub m s) (hrow : cmdRow code = some row)
    (hplace : row.place.serves 0 = true) (h3 : row.right ≤ 3) (hok : row.need.ok (s.job m.job) = true) (hacts : actsOnDies code = false)
    (he : s.runCmd code 16 m = ((s.modJob m.job F).logCommand code m step).replies Reply.ok) (hF : ∀ j, (F j).no = j.no)
    (hset : ∀ j, j.settled → (F j).settled) :
    ∃ t, exec i s = .next t ∧ (t = { s with jobs := t.jobs, outbox := s.outbox ++ [.reply code Code.ok m.seq 0 []] }) ∧
      t.job m.job = (F (s.job m.job)).entered (Msg.entry code step s.time m) := by
  obtain ⟨hq, -⟩ := id h
  obtain ⟨h0, -⟩ := State.jobSlot_mem hk
  have hno := State.job_no hr hk
  have hc : code ≠ 0x0031 := fun hc => by rw [hc] at hacts; exact absurd hacts (by decide)
  rw [State.logCommand_modJob hr hk ((hF _).trans hno)] at he
  have hv := (State.StaysQuiet.refl hq).modJob m.job (g := fun j => (F j).entered (Msg.entry code step s.time m)) fun j hj => hset j hj
  have ha := hub_runs hi h hrow hplace h3 (.inr ⟨h0, hok⟩) hc he hv
  rw [hubReply_reads hacts] at ha
  refine ⟨_, ha, ?_, ?_⟩
  · rw [State.modJob_jobs]; rfl
  · exact (State.job_congr rfl _).trans (State.job_modJob (g := fun j => (F j).entered (Msg.entry code step s.time m)) hr hk ((hF _).trans hno))

/-- What a command leaves that its job takes at its effective step: the entry in the log, and the change F of the job. -/
def Logged (i : Instr) (code : BitVec 16) (m : Msg) (step : Word) (F : Job → Job) (s : State) : Prop :=
  ∃ t, exec i s = .next t ∧
    (t = { s with jobs := t.jobs, outbox := s.outbox ++ [.reply code Code.ok m.seq 0 []] } ∧
      (t.job m.job).cmdLog = (s.job m.job).cmdLog ++ [⟨code, step, [m.args.getD 0 0, m.args.getD 1 0, m.args.getD 2 0, m.args.getD 3 0], s.time⟩]) ∧
    t.job m.job = { F (s.job m.job) with cmdLog := (t.job m.job).cmdLog }

section Step
variable {s : State} {m : Msg} {k : Nat} (h : Claims.Hub m s) (hr : Claims.Rising s) (hk : s.jobSlot m.job = some k)
include h hr hk

/-- A job that changes its numeric mode at a step. -/
def Job.ordersMode (step : Word) (mode : BitVec 4) (j : Job) : Job :=
  { j with modePend := (j.modePend.filter fun e => j.begun.any fun b => decide (e.1 ≤ b)) ++ [(step, mode)] }

theorem setNumericMode_logged (hst : (s.job m.job).st = .loaded ∨ (s.job m.job).st = .starting ∨ (s.job m.job).st = .running)
    (ha : m.args.getD 0 0 ≤ 3) (hf : (s.job m.job).free (m.args.getD 1 0)) :
    Logged (.setNumericMode m) 0x0033 m (m.args.getD 1 0) (Job.ordersMode (m.args.getD 1 0) ((m.args.getD 0 0).setWidth 4)) s := by
  have hok : JobNeed.ok .moded (s.job m.job) = true := by rcases hst with h | h | h <;> simp [JobNeed.ok, h]
  have harg : Msg.argN 0 m ≤ 3 := ha
  have he : s.setNumericMode m = ((s.modJob m.job (Job.ordersMode (m.args.getD 1 0) ((m.args.getD 0 0).setWidth 4))).logCommand 0x0033 m (m.args.getD 1 0)).replies Reply.ok := by
    rw [State.setNumericMode, show Msg.arg 1 m = m.args.getD 1 0 from rfl, Job.accepts_free hf, need, if_pos (by simpa using harg)]
    rfl
  obtain ⟨t, hexec, ht, hj⟩ := hub_logs (code := 0x0033) (i := .setNumericMode m) hr hk rfl h (row := ⟨.hub, 2, .moded⟩) rfl rfl (by decide) hok rfl he (fun _ => rfl) fun _ hj => hj
  exact ⟨t, hexec, ⟨ht, by rw [hj]; rfl⟩, by rw [hj]; rfl⟩

/-- A job whose scales are reset at a step. -/
def Job.ordersReset (step tensor : Word) (j : Job) : Job := { j with scalePend := j.scalePend ++ [(step, tensor)] }

theorem resetScales_logged (hst : (s.job m.job).st = .running) (hf : (s.job m.job).free (m.args.getD 1 0)) :
    Logged (.resetScales m) 0x0035 m (m.args.getD 1 0) (Job.ordersReset (m.args.getD 1 0) (m.args.getD 0 0)) s := by
  have hok : JobNeed.ok .running (s.job m.job) = true := by simp [JobNeed.ok, hst]
  have he : s.resetScales m = ((s.modJob m.job (Job.ordersReset (m.args.getD 1 0) (m.args.getD 0 0))).logCommand 0x0035 m (m.args.getD 1 0)).replies Reply.ok := by
    rw [State.resetScales, show Msg.arg 1 m = m.args.getD 1 0 from rfl, Job.accepts_free hf]
    rfl
  obtain ⟨t, hexec, ht, hj⟩ := hub_logs (code := 0x0035) (i := .resetScales m) hr hk rfl h (row := ⟨.hub, 2, .running⟩) rfl rfl (by decide) hok rfl he (fun _ => rfl) fun _ hj => hj
  exact ⟨t, hexec, ⟨ht, by rw [hj]; rfl⟩, by rw [hj]; rfl⟩

/-- The injection that a message orders. -/
def Msg.inject (m : Msg) : Inject :=
  ⟨(m.args.getD 0 0).setWidth 16, BitVec.ofNat 4 ((m.args.getD 1 0).toNat / 65536 % 16), (m.args.getD 1 0).setWidth 16, m.args.getD 3 0, m.args.getD 2 0, m.job⟩

/-- A job that waits for the step of an injection. -/
def Job.ordersInject (i : Inject) (j : Job) : Job := { j with injPend := j.injPend ++ [i] }

theorem injectFault_logged (hst : (s.job m.job).st = .running) (hf : (s.job m.job).free (m.args.getD 2 0))
    (hinj : s.injectOk ((m.args.getD 0 0).setWidth 16) ((m.args.getD 1 0).toNat / 65536 % 16) ((m.args.getD 1 0).toNat % 65536) (m.args.getD 3 0).toNat = true) :
    Logged (.injectFault m) 0x0036 m (m.args.getD 2 0) (Job.ordersInject (Msg.inject m)) s := by
  have hok : JobNeed.ok .running (s.job m.job) = true := by simp [JobNeed.ok, hst]
  have hnum : BitVec.ofNat 16 (Msg.argN 1 m % 65536) = (m.args.getD 1 0).setWidth 16 := BitVec.eq_of_toNat_eq (by simp [Msg.argN])
  have he : s.injectFault m = ((s.modJob m.job (Job.ordersInject (Msg.inject m))).logCommand 0x0036 m (m.args.getD 2 0)).replies Reply.ok := by
    have hinj' : s.injectOk ((Msg.arg 0 m).setWidth 16) (Msg.argN 1 m / 65536 % 16) (Msg.argN 1 m % 65536) (Msg.argN 3 m) = true := hinj
    simp only [State.injectFault, hinj', hnum, need, if_true, show Msg.arg 2 m = m.args.getD 2 0 from rfl, Job.accepts_free hf]
    rfl
  obtain ⟨t, hexec, ht, hj⟩ := hub_logs (code := 0x0036) (i := .injectFault m) hr hk rfl h (row := ⟨.hub, 3, .running⟩) rfl rfl (by decide) hok rfl he (fun _ => rfl) fun _ hj => hj
  exact ⟨t, hexec, ⟨ht, by rw [hj]; rfl⟩, by rw [hj]; rfl⟩

end Step

section Passed
variable {s : State} {m : Msg} (h : Claims.Hub m s) (h0 : m.job ≠ 0) (hst : (s.job m.job).st = .running)
include h h0 hst

theorem resetScales_refused {status : BitVec 16} (hf : (s.job m.job).accepts (m.args.getD 1 0) = some (Reply.fail status)) :
    Claims.Answers (.resetScales m) 0x0035 status 0 [] m s s := by
  refine hub_refused (code := 0x0035) (row := ⟨.hub, 2, .running⟩) (r := Reply.fail status) rfl h rfl rfl (by decide) (.inr ⟨h0, by simp [JobNeed.ok, hst]⟩)
    (by decide) ?_ (hubReply_reads rfl _)
  show s.resetScales m = _
  rw [State.resetScales, show Msg.arg 1 m = m.args.getD 1 0 from rfl, hf]
  rfl

theorem setNumericMode_passed {b : Word} (hb : (s.job m.job).begun = some b) (hp : m.args.getD 1 0 ≤ b) (ha : m.args.getD 0 0 ≤ 3) :
    Claims.Answers (.setNumericMode m) 0x0033 Code.stepPassed 0 [] m s s := by
  have harg : Msg.argN 0 m ≤ 3 := ha
  refine hub_refused (code := 0x0033) (row := ⟨.hub, 2, .moded⟩) (r := Reply.fail Code.stepPassed) rfl h rfl rfl (by decide)
    (.inr ⟨h0, by simp [JobNeed.ok, hst]⟩) (by decide) ?_ (hubReply_reads rfl _)
  show s.setNumericMode m = _
  rw [State.setNumericMode, show Msg.arg 1 m = m.args.getD 1 0 from rfl, Job.accepts_passed hb hp, need, if_pos (by simpa using harg)]
  rfl

theorem setMapping_passed {b : Word} {p : Plate} (hpl : (s.job m.job).plate = some p) (hb : (s.job m.job).begun = some b) (hp : m.args.getD 1 0 ≤ b)
    (ha : m.args.getD 0 0 ≤ 3) (hn : (m.args.getD 0 0).toNat < p.mappingsN) : Claims.Answers (.setMapping m) 0x0034 Code.stepPassed 0 [] m s s := by
  have harg : Msg.argN 0 m < min 4 p.mappingsN := Nat.lt_min.mpr ⟨Nat.lt_succ_of_le ha, hn⟩
  refine hub_refused (code := 0x0034) (row := ⟨.hub, 2, .running⟩) (r := Reply.fail Code.stepPassed) rfl h rfl rfl (by decide)
    (.inr ⟨h0, by simp [JobNeed.ok, hst]⟩) (by decide) ?_ (hubReply_reads rfl _)
  show s.setMapping m = _
  simp only [State.setMapping, State.plate, hpl, need, decide_eq_true harg, if_true, show Msg.arg 1 m = m.args.getD 1 0 from rfl, Job.accepts_passed hb hp]
  rfl

end Passed

/-! ## SET_MAPPING (R263, R265) -/

/-- A fold to which one entry alone contributes. -/
theorem foldl_single {α β : Type} {f : β → α → β} {l : List α} {a : α} (hn : l.Nodup) (ha : a ∈ l) (ho : ∀ x ∈ l, x ≠ a → ∀ b, f b x = b) (b : β) :
    l.foldl f b = f b a := by
  induction l generalizing b with
  | nil => simp at ha
  | cons x l ih =>
    obtain ⟨hx, hn⟩ := List.nodup_cons.mp hn
    rw [List.foldl_cons]
    rcases List.mem_cons.mp ha with rfl | ha
    · exact foldl_eq_self fun y hy => ho y (by simp [hy]) (fun hya => hx (hya ▸ hy)) _
    · rw [ho x (by simp) (fun hxa => hx (hxa ▸ ha)), ih hn ha fun y hy => ho y (by simp [hy])]

theorem State.dispatchOwn_none {s : State} (h : s.fab.selfEgress = []) : s.dispatchOwn = s := by
  have e : s.modFab (fun b => { b with selfEgress := [] }) = s := by
    show { s with fab := { s.fab with selfEgress := [] } } = s
    rw [← h]
  simp [State.dispatchOwn, h, e]

/-- A job that is ordered to switch to mapping b at a step. -/
def Job.ordersMapping (e : Word × Nat) (j : Job) : Job := { j with mapPend := some e }

theorem Job.orderMapping_none {j : Job} (h : j.mapPend = none) (fo : Option Nat) (e : Word × Nat) : j.orderMapping fo e = j.ordersMapping e := by
  simp only [Job.orderMapping, h]
  rfl

/-- A job whose switch starts now. -/
def Job.switchStarts (now : Nat) (j : Job) : Job := { j with mapOn := some now }

/-- A switch that has only been ordered starts where it may, and does nothing else. -/
theorem State.mapSwitch_ordered {v : State} {no : JobNo} {p : Plate} {e : Word × Nat} (hp : (v.job no).plate = some p) (hm : (v.job no).mapPend = some e)
    (hbad : (v.job no).mapBad = false) (hon : (v.job no).mapOn = none) (hat : (v.job no).mapAt = none) (hhere : (v.job no).mapHere = false)
    (hjob : (v.modJob no (Job.switchStarts v.time)).job no = (v.job no).switchStarts v.time) :
    v.mapSwitch no = if v.mapDue no p e.1 && v.mapMayStart e.2 then v.modJob no (Job.switchStarts v.time) else v := by
  have hhalt : v.mapHalted no = v := foldl_eq_self fun x _ => by
    split
    · rw [State.mapFail]
      simp only [hm, hon, Option.any_none, Bool.false_eq_true, and_false, if_false, ite_self]
    · rfl
  have hpl : v.plate no = some p := hp
  by_cases hc : (v.mapDue no p e.1 && v.mapMayStart e.2) = true
  · have hc' : ((v.job no).mapOn.isNone && v.mapDue no p e.1 && v.mapMayStart e.2) = true := by simpa [hon] using hc
    have hj : ((v.modJob no fun j => { j with mapOn := some v.time }).job no) = (v.job no).switchStarts v.time := hjob
    simp only [State.mapSwitch, hhalt, hbad, Bool.false_eq_true, if_false, hm, hpl, hc', hc, if_true, hj]
    simp only [hj, Job.switchStarts, hat, hhere, Option.isSome_none, Bool.false_and, Bool.and_false, Bool.false_eq_true, if_false]
    rfl
  · have hc' : ¬ ((v.job no).mapOn.isNone && v.mapDue no p e.1 && v.mapMayStart e.2) = true := by simpa [hon] using hc
    simp only [State.mapSwitch, hhalt, hbad, Bool.false_eq_true, if_false, hm, hpl, if_neg hc', if_neg hc, hat, hhere, Option.isSome_none, Bool.false_and,
      Bool.and_false]

theorem State.StaysQuiet.calm {u v : State} (h : u.StaysQuiet v) : v.calm := State.calm_of_quiet h.1

/-- A change of a job keeps a module calm. -/
theorem State.calm_modJob {s : State} (h : s.calm) (no : JobNo) (g : Job → Job) : (s.modJob no g).calm :=
  State.calm_congr h (by simp) (by simp) (by simp) (by simp) (by simp) (by simp)

/-- Is a running job of the job table ordered to switch to a mapping. -/
def switchesTo (b : Nat) (x : Nat × Job) : Bool := x.2.st == .running && x.2.mapPend.any fun m => m.2 == b

theorem State.mapMayStart_eq (b : Nat) (s : State) : s.mapMayStart b =
    (s.pair.recUnits.isEmpty && s.pair.st != .partnerLost && s.pair.st != .takeover
      && (!s.pair.solo || b == s.pair.foMapping || !(s.jobs.any (switchesTo s.pair.foMapping)))) := by
  unfold State.mapMayStart
  congr 4
  funext x
  unfold switchesTo
  cases x.2.mapPend <;> rfl

section Mapping
variable {s : State} {no : JobNo} {k : Nat} {G : Job → Job} {e : Word × Nat} (hr : Claims.Rising s) (hk : s.jobSlot no = some k) (hq : s.quiet = true)
  (hno : (G (s.job no)).no = no)
include hr hk hq hno

/-- The jobs of a module in which one job has been ordered to switch: that one, and jobs that are as they were. -/
theorem State.jobs_ordered {v : State} (hv : v.jobs = (s.modJob no G).jobs) :
    ((k, G (s.job no)) ∈ v.jobs) ∧ v.jobs.Nodup ∧ ∀ x ∈ v.jobs, x ≠ (k, G (s.job no)) → x.2.settled := by
  obtain ⟨h0, j, hm, hj⟩ := State.jobSlot_mem hk
  obtain ⟨hset, -⟩ := (State.quiet_iff s).mp hq
  have hmap := State.modJob_eq_map hr hk hno
  have hjobs : v.jobs = s.jobs.map fun e => if e.1 = k then (k, G (s.job no)) else e := by rw [hv, hmap]
  have hrise : Claims.Rising (s.modJob no G) := State.rising_modJob hr hk hno
  rw [Claims.Rising, ← hv] at hrise
  refine ⟨?_, hrise.imp fun hab hab' => by rw [hab'] at hab; exact Nat.lt_irrefl _ hab, fun x hx hne => ?_⟩
  · rw [hjobs]
    exact List.mem_map.mpr ⟨(k, j), hm, if_pos rfl⟩
  · rw [hjobs] at hx
    obtain ⟨y, hy, rfl⟩ := List.mem_map.mp hx
    split at hne
    · exact absurd rfl hne
    · rename_i hyk
      rw [if_neg hyk]
      exact hset y hy

variable (hpend : (G (s.job no)).mapPend = some e)
include hpend

/-- Whether a switch may start depends on no switch that is ordered with it. -/
theorem State.mapMayStart_ordered {v : State} (hv : v.jobs = (s.modJob no G).jobs) (hp : v.pair = s.pair) : v.mapMayStart e.2 = s.mapMayStart e.2 := by
  obtain ⟨hm, hn, ho⟩ := State.jobs_ordered hr hk hq hno hv
  obtain ⟨hset, -⟩ := (State.quiet_iff s).mp hq
  rw [State.mapMayStart_eq, State.mapMayStart_eq, hp]
  by_cases hfo : e.2 = s.pair.foMapping
  · simp [hfo]
  · have h1 : s.jobs.any (switchesTo s.pair.foMapping) = false := List.any_eq_false.mpr fun x hx => by simp [switchesTo, (hset x hx).2.1]
    have h2 : v.jobs.any (switchesTo s.pair.foMapping) = false := List.any_eq_false.mpr fun x hx => by
      by_cases hxe : x = (k, G (s.job no))
      · simp [switchesTo, hxe, hpend, hfo]
      · simp [switchesTo, (ho x hx hxe).2.1]
    rw [h1, h2]

/-- Of a quiet module in which one job has been ordered to switch, that switch alone goes on. -/
theorem State.mapSwitches_ordered {v : State} (hst : (G (s.job no)).st = .running) (hv : v.jobs = (s.modJob no G).jobs) : v.mapSwitches = v.mapSwitch no := by
  obtain ⟨hm, hn, ho⟩ := State.jobs_ordered hr hk hq hno hv
  refine (foldl_single hn hm (fun x hx hne w => ?_) v).trans ?_
  · obtain ⟨-, h1, h2⟩ := ho x hx hne
    simp [h1, h2]
  · simp [hst, hpend, hno]

end Mapping

/-- A job whose SET_MAPPING is entered in its log. -/
def Job.takesMapping (e : Word × Nat) (l : LogEntry) (j : Job) : Job := (j.ordersMapping e).entered l

/-- A switch that is ordered in a quiet module starts where it may, and nothing else follows. -/
theorem State.acts_takesMapping {s v : State} {f : State → State} {no : JobNo} {k : Nat} {p : Plate} {e : Word × Nat} {l : LogEntry} {o : Output}
    (hr : Claims.Rising s) (hk : s.jobSlot no = some k) (hq : s.quiet = true) (hp : (s.job no).plate = some p) (hst : (s.job no).st = .running)
    (hon : (s.job no).mapOn = none) (hat : (s.job no).mapAt = none) (hhere : (s.job no).mapHere = false)
    (hv : v = (s.modJob no (Job.takesMapping e l)).output o) (hf : f s = v) :
    s.acts f = .next (if s.mapDue no p e.1 && s.mapMayStart e.2 then v.modJob no (Job.switchStarts s.time) else v) := by
  have hno := State.job_no hr hk
  obtain ⟨hsm, hmp, hmb⟩ := State.quiet_job hq no
  obtain ⟨hj0, -, -, -, -, hself, -⟩ := (State.quiet_iff s).mp hq
  have hjobs : v.jobs = (s.modJob no (Job.takesMapping e l)).jobs := by rw [hv]; rfl
  have hvj : v.job no = (s.job no).takesMapping e l := (State.job_congr hjobs no).trans (State.job_modJob (g := Job.takesMapping e l) hr hk hno)
  have hcalm : v.calm := by
    rw [hv]
    exact State.calm_congr (State.calm_modJob (State.calm_of_quiet hq) no (Job.takesMapping e l)) rfl rfl rfl rfl rfl rfl
  have htime : v.time = s.time := by rw [hv]; simp [State.output]
  have hfab : v.fab = s.fab := by rw [hv]; simp [State.output]
  have hpend : v.pending = s.pending := by rw [hv]; simp [State.output]
  have hfuse : v.fuse = s.fuse := by rw [hv]; simp [State.output]
  have hpair : v.pair = s.pair := by rw [hv]; simp [State.output]
  have heng : v.engines = s.engines := by rw [hv]; simp [State.output]
  obtain ⟨-, -, ho⟩ := State.jobs_ordered hr hk hq (G := Job.takesMapping e l) hno hjobs
  have hanswer : v.answerStopped = v := State.answerStopped_none fun x hx => .inl <| by
    by_cases hxe : x = (k, (s.job no).takesMapping e l)
    · rw [hxe]; exact hsm
    · exact (ho x hx hxe).1
  have hvk : v.jobSlot no = some k := by
    have hs := State.jobSlot_modJob (g := Job.takesMapping e l) hr hk hno
    rwa [hv]
  have hvr : Claims.Rising v := by
    have hs := State.rising_modJob (g := Job.takesMapping e l) hr hk hno
    rwa [hv]
  have hswitch := State.mapSwitch_ordered (v := v) (p := p) (e := e) (by rw [hvj]; exact hp) (by rw [hvj]; rfl) (by rw [hvj]; exact hmb)
    (by rw [hvj]; exact hon) (by rw [hvj]; exact hat) (by rw [hvj]; exact hhere)
    (State.job_modJob (g := Job.switchStarts v.time) hvr hvk (by rw [hvj]; exact hno))
  have hdue : v.mapDue no p e.1 = s.mapDue no p e.1 := by
    simp only [State.mapDue, hvj, heng]
    rfl
  rw [hdue, State.mapMayStart_ordered hr hk hq (G := Job.takesMapping e l) hno rfl hjobs hpair, htime] at hswitch
  have hall := State.mapSwitches_ordered hr hk hq (G := Job.takesMapping e l) hno rfl hst hjobs
  by_cases hc : (s.mapDue no p e.1 && s.mapMayStart e.2) = true
  · rw [if_pos hc] at hswitch ⊢
    rw [State.acts_calm hf hcalm hanswer (hall.trans hswitch) (State.calm_modJob hcalm ..) (by simp [hpend]) (by simp [hfuse]) (by simp [htime]),
      State.dispatchOwn_none (by simp [hfab, hself])]
  · rw [if_neg hc] at hswitch ⊢
    rw [State.acts_calm hf hcalm hanswer (hall.trans hswitch) hcalm hpend hfuse htime, State.dispatchOwn_none (by simp [hfab, hself])]

/-- SET_MAPPING orders a switch at a step, which starts at once where it may. -/
theorem setMapping_logged {s : State} {m : Msg} {k : Nat} {p : Plate} (h : Claims.Hub m s) (hr : Claims.Rising s) (hk : s.jobSlot m.job = some k)
    (hp : (s.job m.job).plate = some p) (hst : (s.job m.job).st = .running) (ha : (m.args.getD 0 0).toNat < min 4 p.mappingsN)
    (hf : (s.job m.job).free (m.args.getD 1 0)) (ht : s.pair.st ≠ .takeover) (hon : (s.job m.job).mapOn = none) (hat : (s.job m.job).mapAt = none)
    (hhere : (s.job m.job).mapHere = false) :
    Logged (.setMapping m) 0x0034 m (m.args.getD 1 0) (fun j => { j.ordersMapping (m.args.getD 1 0, (m.args.getD 0 0).toNat) with
      mapOn := if s.mapDue m.job p (m.args.getD 1 0) && s.mapMayStart (m.args.getD 0 0).toNat then some s.time else none }) s := by
  obtain ⟨hq, hpath, htarget, -⟩ := id h
  obtain ⟨h0, -⟩ := State.jobSlot_mem hk
  have hno := State.job_no hr hk
  obtain ⟨hsm, hmp, hmb⟩ := State.quiet_job hq m.job
  have hok : JobNeed.ok .running (s.job m.job) = true := by simp [JobNeed.ok, hst]
  generalize he : (m.args.getD 1 0, (m.args.getD 0 0).toNat) = e
  have hcmd : s.setMapping m = (s.modJob m.job (Job.takesMapping e (Msg.entry 0x0034 (m.args.getD 1 0) s.time m))).replies Reply.ok := by
    have harg : Msg.argN 0 m < min 4 p.mappingsN := ha
    have hset : (s.modJob m.job fun j => j.orderMapping (if s.pair.solo then some s.pair.foMapping else none) (m.args.getD 1 0, (m.args.getD 0 0).toNat)) =
        s.modJob m.job (Job.ordersMapping e) := State.modJob_congr ((Job.orderMapping_none hmp ..).trans (congrArg (fun e => Job.ordersMapping e _) he))
    have hcheck : firstReply [need (Msg.argN 0 m < min 4 p.mappingsN) badArg, (s.job m.job).accepts (m.args.getD 1 0),
        need (s.pair.st != .takeover || Msg.argN 0 m == s.pair.foMapping) (Reply.fail Code.mappingAborted)] = none := by
      rw [Job.accepts_free hf]
      simp [need, firstReply, harg, ht]
    have hlog := State.logCommand_modJob hr hk (F := Job.ordersMapping e) hno 0x0034 (m.args.getD 1 0)
    simp only [State.setMapping, State.plate, hp, show Msg.arg 1 m = m.args.getD 1 0 from rfl, hcheck]
    exact (congrArg (fun t => (State.logCommand 0x0034 m (m.args.getD 1 0) t).replies Reply.ok) hset).trans (congrArg (State.replies Reply.ok) hlog)
  have hsub : s.submit 0x0034 m = (s.modJob m.job (Job.takesMapping e (Msg.entry 0x0034 (m.args.getD 1 0) s.time m))).output (.reply 0x0034 Code.ok m.seq 0 []) := by
    rw [State.submit_hub h (by decide), State.perform, State.precheck_hub h (row := ⟨.hub, 2, .running⟩) rfl rfl (by decide) (.inr ⟨h0, hok⟩)]
    show State.concludes 0x0034 16 m (s.setMapping m) = _
    rw [hcmd]
    exact State.answerMsg_internal hpath htarget ..
  have hexec := State.acts_takesMapping (f := fun s => s.submit 0x0034 m) hr hk hq hp hst hon hat hhere rfl hsub
  have hjob := State.job_modJob (g := Job.takesMapping e (Msg.entry 0x0034 (m.args.getD 1 0) s.time m)) hr hk hno
  have hvr := State.rising_modJob (g := Job.takesMapping e (Msg.entry 0x0034 (m.args.getD 1 0) s.time m)) hr hk hno
  have hvk := State.jobSlot_modJob (g := Job.takesMapping e (Msg.entry 0x0034 (m.args.getD 1 0) s.time m)) hr hk hno
  have hvs := State.modJob_jobs m.job (Job.takesMapping e (Msg.entry 0x0034 (m.args.getD 1 0) s.time m)) s
  generalize s.modJob m.job (Job.takesMapping e (Msg.entry 0x0034 (m.args.getD 1 0) s.time m)) = v at hexec hjob hvr hvk hvs
  have hvj : (v.output (.reply 0x0034 Code.ok m.seq 0 [])).job m.job = (s.job m.job).takesMapping e (Msg.entry 0x0034 (m.args.getD 1 0) s.time m) :=
    (State.job_congr rfl _).trans hjob
  have hout : v.output (.reply 0x0034 Code.ok m.seq 0 []) = { s with jobs := v.jobs, outbox := s.outbox ++ [.reply 0x0034 Code.ok m.seq 0 []] } :=
    congrArg (State.output (.reply 0x0034 Code.ok m.seq 0 [])) hvs
  subst he
  refine ⟨_, hexec, ?_⟩
  by_cases hc : (s.mapDue m.job p (m.args.getD 1 0) && s.mapMayStart (m.args.getD 0 0).toNat) = true
  · have hw : ((v.output (.reply 0x0034 Code.ok m.seq 0 [])).modJob m.job (Job.switchStarts s.time)).job m.job = _ :=
      State.job_modJob (g := Job.switchStarts s.time) (k := k) hvr hvk ((congrArg Job.no hvj).trans hno)
    simp only [if_pos hc]
    refine ⟨⟨?_, ?_⟩, ?_⟩
    · rw [State.modJob_jobs, hout]
    · rw [hw, hvj]; rfl
    · rw [hw, hvj]; rfl
  · simp only [if_neg hc]
    refine ⟨⟨hout, ?_⟩, ?_⟩
    · rw [hvj]; rfl
    · rw [hvj, ← hon]; rfl

/-! ## JOB_START (R246, R466) -/

/-- The checks of JOB_START. -/
def State.startRefusal (m : Msg) (p : Plate) (s : State) : Option Reply :=
  firstReply [
    need (s.margin.timeSt != .free) (Reply.fail Code.timeInvalid),
    need (s.pair.st != .fenced) (Reply.fail Code.fenced),
    need (Msg.argN 0 m < 3 && (BitVec.ofNat 2 (Msg.argN 0 m) == 2#2) == (p.module != s.ownModule)) badArg,
    need (p.mirror.isEmpty || s.pair.st == .paired) (Reply.fail Code.pairNotReady),
    need (BitVec.ofNat 2 (Msg.argN 0 m) == 0#2 || s.partner.isSome) (Reply.fail Code.pairNotReady),
    (allDies.find? fun d => (s.die d).inReset && s.usesDie m.job d).map fun d => Reply.failD Code.cmdLost (d.setWidth 8)]

/-- A start of a plate of this module outside proof mode. -/
def Msg.startsPlain (m : Msg) (p : Plate) (s : State) : Prop :=
  s.margin.timeSt ≠ .free ∧ s.pair.st ≠ .fenced ∧ m.args.getD 0 0 = 0 ∧ p.module = s.ownModule

section Checks
variable {s : State} {m : Msg} {p : Plate}

theorem State.startRefusal_free (h : s.margin.timeSt = .free) : s.startRefusal m p = some (Reply.fail Code.timeInvalid) := by
  simp [State.startRefusal, h, need, firstReply]

theorem State.startRefusal_fenced (ht : s.margin.timeSt ≠ .free) (h : s.pair.st = .fenced) : s.startRefusal m p = some (Reply.fail Code.fenced) := by
  simp [State.startRefusal, ht, h, need, firstReply]

/-- What is left to check of a plain start. -/
theorem State.startRefusal_plain (h : Msg.startsPlain m p s) : s.startRefusal m p =
    firstReply [need (p.mirror.isEmpty || s.pair.st == .paired) (Reply.fail Code.pairNotReady),
      (allDies.find? fun d => (s.die d).inReset && s.usesDie m.job d).map fun d => Reply.failD Code.cmdLost (d.setWidth 8)] := by
  obtain ⟨ht, hf, ha, hp⟩ := h
  have harg : Msg.argN 0 m = 0 := congrArg BitVec.toNat ha
  simp only [State.startRefusal, harg, hp]
  simp [need, firstReply, ht, hf]
  split <;> rfl

theorem State.startRefusal_unpaired (h : Msg.startsPlain m p s) (hm : p.mirror ≠ []) (hp : s.pair.st ≠ .paired) :
    s.startRefusal m p = some (Reply.fail Code.pairNotReady) := by
  rw [State.startRefusal_plain h]
  simp [need, firstReply, hm, hp]

/-- The lowest die of a kind is found first. -/
theorem allDies_find {P : Die → Bool} {d : Die} (hd : P d = true) (hl : ∀ q : Die, q.toNat < d.toNat → P q = false) : allDies.find? P = some d := by
  have hcases : ∀ d : Die, d = 0#2 ∨ d = 1#2 ∨ d = 2#2 ∨ d = 3#2 := by decide
  rcases hcases d with rfl | rfl | rfl | rfl
  · simp [allDies, hd]
  · simp [allDies, hd, hl 0#2 (by decide)]
  · simp [allDies, hd, hl 0#2 (by decide), hl 1#2 (by decide)]
  · simp [allDies, hd, hl 0#2 (by decide), hl 1#2 (by decide), hl 2#2 (by decide)]

theorem State.startRefusal_reset (h : Msg.startsPlain m p s) (hm : p.mirror = []) {d : Die} (hd : (s.die d).inReset = true) (hu : s.usesDie m.job d = true)
    (hl : ∀ q : Die, q.toNat < d.toNat → (s.die q).inReset = false) : s.startRefusal m p = some (Reply.failD Code.cmdLost (d.setWidth 8)) := by
  rw [State.startRefusal_plain h, allDies_find (d := d) (by simp [hd, hu]) fun q hq => by simp [hl q hq]]
  simp [need, firstReply, hm]

theorem State.startRefusal_none (h : Msg.startsPlain m p s) (hm : p.mirror = []) (hd : ∀ d, (s.die d).inReset = false) : s.startRefusal m p = none := by
  rw [State.startRefusal_plain h]
  simp [need, firstReply, hm, hd, allDies]

theorem jobStart_refused (h : Claims.Hub m s) (h0 : m.job ≠ 0) (hst : (s.job m.job).st = .loaded) (hpl : (s.job m.job).plate = some p) {r : Reply}
    (hr : s.startRefusal m p = some r) {status : BitVec 16} {detail : Byte} (hub : hubReply 0x0030 r = ⟨status, detail, []⟩) :
    Claims.Answers (.jobStart m) 0x0030 status detail [] m s s := by
  refine hub_refused (code := 0x0030) (i := .jobStart m) (row := ⟨.hub, 2, .loaded⟩) rfl h rfl rfl (by decide) (.inr ⟨h0, by simp [JobNeed.ok, hst]⟩) (by decide) ?_ hub
  have hplate : s.plate m.job = some p := hpl
  show s.jobStart m = _
  rw [State.jobStart, hplate]
  exact congrArg (fun c => s.unless c _) hr

end Checks

/-! ### A start that is accepted -/

/-- A job whose start has been accepted outside proof mode. -/
def Job.starting (m : Msg) (now : Nat) (cleared : Bool) (j : Job) : Job :=
  { j with st := .starting, startMsg := some m, startAt := (Msg.arg64 1 m).toNat, startBegan := now, proofRole := 0, cleared := cleared }

/-- The module that has accepted a start: its job starts, the barriers of the plate are as at reset. -/
def State.startsJob (m : Msg) (p : Plate) (s : State) : State :=
  (s.modJob m.job (Job.starting m s.time (s.jobClusters m.job).isEmpty)).resetBars m.job p

theorem State.resetBars_eq (no : JobNo) (p : Plate) (s : State) : s.resetBars no p = { s with bars := (s.resetBars no p).bars } := by
  unfold State.resetBars
  generalize p.barriers = l
  induction l generalizing s with
  | nil => rfl
  | cons b l ih => rw [List.foldl_cons, ih]; rfl

theorem State.bar_modBar_other {j k : Nat} (h : j ≠ k) (g : Bar → Bar) (s : State) : (s.modBar k g).bar j = s.bar j :=
  Table.get_set_other _ _ _ h

/-- The barrier slots of a plate begin anew, and no others. -/
theorem State.bar_resetBars (no : JobNo) (p : Plate) (n : Nat) (s : State) :
    (s.resetBars no p).bar n = if ∃ b ∈ p.barriers, b.slot.toNat = n then { Bar.reset with job := no } else s.bar n := by
  unfold State.resetBars
  generalize p.barriers = l
  induction l generalizing s with
  | nil => simp
  | cons b l ih =>
    rw [List.foldl_cons, ih]
    by_cases hl : ∃ b ∈ l, b.slot.toNat = n
    · rw [if_pos hl, if_pos]
      obtain ⟨b', hb, hn⟩ := hl
      exact ⟨b', by simp [hb], hn⟩
    · rw [if_neg hl]
      by_cases hb : b.slot.toNat = n
      · rw [if_pos ⟨b, by simp, hb⟩, ← hb, State.bar_modBar_same]
      · rw [State.bar_modBar_other (Ne.symm hb), if_neg]
        rintro ⟨b', hm, hn⟩
        rcases List.mem_cons.mp hm with rfl | hm
        · exact hb hn
        · exact hl ⟨b', hm, hn⟩

/-- The modules that a start asks depend on the job's plate and role and on the module's own place alone. -/
theorem State.startPeers_congr {s t : State} {no : JobNo} (hp : (t.job no).plate = (s.job no).plate) (hr : (t.job no).proofRole = (s.job no).proofRole)
    (hf : t.fab = s.fab) : t.startPeers no = s.startPeers no := by
  simp only [State.startPeers, State.ownModule, State.partner, hp, hr, hf]

/-- Frames that a unit of this module sends one after another. -/
theorem State.foldl_send {α : Type} (f : α → Frame) (l : List α) (s : State) :
    l.foldl (fun s x => s.send (f x)) s = { s with fab := { s.fab with selfEgress := s.fab.selfEgress ++ l.map fun x => (f x).sealCrc } } := by
  induction l generalizing s with
  | nil => simp
  | cons x l ih => rw [List.foldl_cons, ih]; simp [State.send]

/-- The two words of a 64-bit argument. -/
theorem Msg.arg64_toNat (n : Nat) (m : Msg) : (Msg.arg64 n m).toNat = (m.args.getD n 0).toNat + 2 ^ 32 * (m.args.getD (n + 1) 0).toNat := by
  have hl := (m.args.getD n 0).isLt
  have hh := (m.args.getD (n + 1) 0).isLt
  rw [Msg.arg64, BitVec.toNat_or, BitVec.toNat_shiftLeft, BitVec.toNat_setWidth, BitVec.toNat_setWidth, Nat.mod_eq_of_lt (by omega),
    Nat.mod_eq_of_lt (by omega), Nat.shiftLeft_eq, Nat.mod_eq_of_lt (by omega), Nat.or_comm, ← Nat.shiftLeft_eq,
    ← Nat.shiftLeft_add_eq_or_of_lt hl, Nat.shiftLeft_eq]
  omega

/-- A start that still clears its clusters waits. -/
theorem State.startCheck_clearing {v : State} {no : JobNo} (hst : (v.job no).st = .starting) (hd : (v.job no).digests = []) (hc : (v.job no).cleared = false) :
    v.startCheck no = v := by
  rw [State.startCheck]
  cases (v.job no).plate with
  | none => rfl
  | some p => simp [hst, hd, hc]

section Start
variable {s : State} {m : Msg} {p : Plate} {k : Nat} (h : Claims.Hub m s) (hr : Claims.Rising s) (hk : s.jobSlot m.job = some k)
  (hpl : (s.job m.job).plate = some p)
include hr hk

theorem State.job_startsJob : (s.startsJob m p).job m.job = (s.job m.job).starting m s.time (s.jobClusters m.job).isEmpty := by
  rw [State.startsJob, State.resetBars_eq]
  exact (State.job_congr rfl _).trans (State.job_modJob (g := Job.starting m s.time (s.jobClusters m.job).isEmpty) hr hk (State.job_no hr hk))

include h hpl

/-- A start that is accepted asks the other modules for their digests and waits. -/
theorem State.jobStart_waits (hc : s.startRefusal m p = none) (ha : m.args.getD 0 0 = 0) (hm : p.mirror = []) (hd : (s.job m.job).digests = [])
    (hcl : s.jobClusters m.job ≠ []) (hrole : (s.job m.job).proofRole = 0) :
    s.jobStart m = (none, { s.startsJob m p with fab := { s.fab with
      selfEgress := (s.startPeers m.job).map fun x => (digestFrame m.job p.digest x).sealCrc } }) := by
  obtain ⟨hq, -⟩ := id h
  obtain ⟨-, -, -, -, -, hself, -⟩ := (State.quiet_iff s).mp hq
  have hplate : s.plate m.job = some p := hpl
  have harg : Msg.argN 0 m = 0 := congrArg BitVec.toNat ha
  have hjob := State.job_startsJob hr hk (p := p)
  have hfab : (s.startsJob m p).fab = s.fab := by rw [State.startsJob, State.resetBars_eq]; simp
  have hpeers : (s.startsJob m p).startPeers m.job = s.startPeers m.job :=
    State.startPeers_congr (by rw [hjob]; rfl) (by rw [hjob]; exact hrole.symm) hfab
  have hrun : s.jobStart m = (none, State.startCheck m.job (((((s.startsJob m p).startPeers m.job).filter
      fun d => BitVec.ofNat 2 (Msg.argN 0 m) == 0#2 || s.partner != some (BitVec.ofNat 9 d)).foldl (fun s d => s.send (digestFrame m.job p.digest d)) (s.startsJob m p)))) := by
    rw [State.jobStart, hplate]
    refine (congrArg (fun c => s.unless c _) hc).trans ?_
    simp only [State.unless, hm, List.isEmpty_nil, if_true, harg]
    rfl
  rw [hrun, hpeers, harg, List.filter_eq_self.mpr (by simp), State.foldl_send, hfab, hself, List.nil_append, State.startCheck_clearing]
  · exact (congrArg Job.st ((State.job_congr rfl _).trans hjob)).trans rfl
  · exact (congrArg Job.digests ((State.job_congr rfl _).trans hjob)).trans hd
  · refine (congrArg Job.cleared ((State.job_congr rfl _).trans hjob)).trans ?_
    exact List.isEmpty_eq_false_iff.mpr hcl

/-- What JOB_START leaves: a job that starts, barriers as at reset, and the frames that ask for the digests. -/
theorem jobStart_starts (h0 : m.job ≠ 0) (hst : (s.job m.job).st = .loaded) (hplain : Msg.startsPlain m p s) (hm : p.mirror = [])
    (hd : (s.job m.job).digests = []) (hcl : s.jobClusters m.job ≠ []) (hrole : (s.job m.job).proofRole = 0) (hdie : ∀ d, (s.die d).inReset = false) :
    ∃ v, exec (.jobStart m) s = .next (State.dispatchOwn v) ∧
      v = { s with jobs := v.jobs, bars := v.bars, fab := { s.fab with
        selfEgress := (s.startPeers m.job).map fun x => (digestFrame m.job p.digest x).sealCrc } } ∧
      (∀ b ∈ p.barriers, v.bar b.slot.toNat = { Bar.reset with job := m.job }) ∧ (∀ n, (∀ b ∈ p.barriers, b.slot.toNat ≠ n) → v.bar n = s.bar n) ∧
      v.job m.job = { s.job m.job with st := .starting, startMsg := some m, startAt := (m.args.getD 1 0).toNat + 2 ^ 32 * (m.args.getD 2 0).toNat, startBegan := s.time, cleared := false } := by
  obtain ⟨hq, -⟩ := id h
  obtain ⟨-, -, ha, -⟩ := id hplain
  have hjob := State.job_startsJob hr hk (p := p)
  have hcmd := State.jobStart_waits h hr hk hpl (State.startRefusal_none hplain hm hdie) ha hm hd hcl hrole
  generalize hv : ({ s.startsJob m p with fab := { s.fab with
      selfEgress := (s.startPeers m.job).map fun x => (digestFrame m.job p.digest x).sealCrc } } : State) = v at hcmd
  have hvs : v = { s with jobs := v.jobs, bars := v.bars, fab := { s.fab with
        selfEgress := (s.startPeers m.job).map fun x => (digestFrame m.job p.digest x).sealCrc } } := by
    rw [← hv, State.startsJob, State.resetBars_eq, State.modJob_jobs]
  have hbar : ∀ n, v.bar n = if ∃ b ∈ p.barriers, b.slot.toNat = n then { Bar.reset with job := m.job } else s.bar n := fun n => by
    rw [← hv]
    refine (State.bar_resetBars m.job p n _).trans ?_
    simp [State.bar]
  have hvj : v.job m.job = (s.job m.job).starting m s.time (s.jobClusters m.job).isEmpty := by
    rw [← hv]
    exact (State.job_congr rfl _).trans hjob
  have hjobs : v.jobs = (s.modJob m.job (Job.starting m s.time (s.jobClusters m.job).isEmpty)).jobs := by
    rw [← hv]
    show (s.startsJob m p).jobs = _
    rw [State.startsJob, State.resetBars_eq]
  obtain ⟨-, -, ho⟩ := State.jobs_ordered hr hk hq (State.job_no hr hk) hjobs
  obtain ⟨-, hmp, hmb⟩ := State.quiet_job hq m.job
  have hsub : s.submit 0x0030 m = v := by
    rw [State.submit_hub h (by decide), State.perform, State.precheck_hub h (row := ⟨.hub, 2, .loaded⟩) rfl rfl (by decide) (.inr ⟨h0, by simp [JobNeed.ok, hst]⟩)]
    show State.concludes 0x0030 16 m (s.jobStart m) = _
    rw [hcmd]
    rfl
  have hcalm : v.calm := by
    rw [hvs]
    exact State.calm_congr (State.calm_of_quiet hq) rfl rfl rfl rfl rfl rfl
  have hanswer : v.answerStopped = v := State.answerStopped_none fun x hx => by
    by_cases hxe : x = (k, (s.job m.job).starting m s.time (s.jobClusters m.job).isEmpty)
    · exact .inr (by rw [hxe]; exact (by decide : JobSt.starting ≠ JobSt.stopped))
    · exact .inl (ho x hx hxe).1
  have hswitch : v.mapSwitches = v := State.mapSwitches_none fun x hx => by
    by_cases hxe : x = (k, (s.job m.job).starting m s.time (s.jobClusters m.job).isEmpty)
    · rw [hxe]; exact ⟨hmp, hmb⟩
    · exact (ho x hx hxe).2
  refine ⟨v, State.acts_calm (e := fun s => s.submit 0x0030 m) hsub hcalm hanswer hswitch hcalm (by rw [hvs]) (by rw [hvs]) (by rw [hvs]), hvs, fun b hb => ?_,
    fun n hn => ?_, ?_⟩
  · rw [hbar, if_pos ⟨b, hb, rfl⟩]
  · rw [hbar, if_neg]
    rintro ⟨b, hb, hbn⟩
    exact hn b hb hbn
  · rw [hvj, List.isEmpty_eq_false_iff.mpr hcl, Job.starting, Msg.arg64_toNat, ← hrole]

end Start

/-! ## JOB_END (R272, R305, R466) -/

/-- A change of every entry of a table keeps what it keeps of each. -/
theorem Table.get_map_same {α β : Type} {f : α → α} {φ : α → β} (h : ∀ x, φ (f x) = φ x) (d : α) (k : Nat) (t : Table α) :
    φ (Table.get d k (t.map fun e => (e.1, f e.2))) = φ (Table.get d k t) := by
  induction t with
  | nil => rfl
  | cons e t ih =>
    simp only [List.map_cons, Table.get]
    split
    · exact h _
    · exact ih

/-- A change of every die that keeps the counters keeps every counter. -/
theorem State.counter_mapDies {f : DieState → DieState} (h : ∀ x, (f x).counters = x.counters) {s t : State}
    (ht : t.dies = s.dies.map fun e => (e.1, f e.2)) (n : CounterName) : t.counter n = s.counter n := by
  simp only [State.counter, State.die, ht, Table.get_map_same (φ := DieState.counters) h]

theorem State.countersOf_mapDies {f : DieState → DieState} (h : ∀ x, (f x).counters = x.counters) {s t : State}
    (ht : t.dies = s.dies.map fun e => (e.1, f e.2)) (no : JobNo) : t.countersOf no = s.countersOf no := by
  simp only [State.countersOf, State.die, ht, Table.get_map_same (φ := DieState.counters) h]

/-- A counter of a job is among those that the job owns. -/
theorem State.mem_countersOf {s : State} {no : JobNo} (h0 : no ≠ 0) {n : CounterName} (h : (s.counter n).job = no) : n ∈ s.countersOf no := by
  have hmem : (n.toNat % 16384, s.counter n) ∈ (s.die n.die).counters := by
    rcases Table.get_mem Counter.reset (n.toNat % 16384) (s.die n.die).counters with g | g
    · exact absurd (h.symm.trans (congrArg Counter.job g)) h0
    · exact g
  have hn := n.isLt
  have hall : ∀ d : Die, d ∈ allDies := by decide
  refine List.mem_flatMap.mpr ⟨n.die, hall _, List.mem_map.mpr ⟨_, List.mem_filter.mpr ⟨hmem, by simp [h]⟩, ?_⟩⟩
  refine BitVec.eq_of_toNat_eq ?_
  simp only [CounterName.die, BitVec.extractLsb'_toNat, Nat.shiftRight_eq_div_pow, BitVec.toNat_ofNat]
  omega

/-- Of dies in canonical form, a job owns the counters that are its own alone. -/
theorem State.job_of_mem_countersOf {s : State} {no : JobNo} (hd : ∀ d, Table.wf Counter.reset (s.die d).counters = true ∧ ∀ e ∈ (s.die d).counters, e.1 < 16384)
    {n : CounterName} (h : n ∈ s.countersOf no) : (s.counter n).job = no := by
  obtain ⟨d, -, h⟩ := List.mem_flatMap.mp h
  obtain ⟨e, he, rfl⟩ := List.mem_map.mp h
  obtain ⟨hm, hj⟩ := List.mem_filter.mp he
  obtain ⟨hwf, hlt⟩ := hd d
  have hk := hlt e hm
  have hdl := d.isLt
  have hdie : CounterName.die (BitVec.ofNat 16 (d.toNat * 16384 + e.1)) = d := BitVec.eq_of_toNat_eq <| by
    simp only [CounterName.die, BitVec.extractLsb'_toNat, Nat.shiftRight_eq_div_pow, BitVec.toNat_ofNat]
    omega
  have hidx : (BitVec.ofNat 16 (d.toNat * 16384 + e.1)).toNat % 16384 = e.1 := by
    rw [BitVec.toNat_ofNat]
    omega
  rw [State.counter, hdie, hidx, Table.get_of_mem (Table.rising_of_wf hwf) (w := e.2) hm]
  exact eq_of_beq hj

/-- Counters that are put back to reset one after another. -/
def State.clearCounters (l : List CounterName) (s : State) : State := l.foldl (fun s n => s.modCounter n fun _ => Counter.reset) s

theorem State.clearCounters_eq (l : List CounterName) (s : State) : s.clearCounters l = { s with dies := (s.clearCounters l).dies } := by
  unfold State.clearCounters
  induction l generalizing s with
  | nil => rfl
  | cons n l ih => rw [List.foldl_cons, ih]; rfl

theorem State.counter_clearCounters (l : List CounterName) (n : CounterName) (s : State) :
    (s.clearCounters l).counter n = if n ∈ l then Counter.reset else s.counter n := by
  unfold State.clearCounters
  induction l generalizing s with
  | nil => simp
  | cons a l ih =>
    rw [List.foldl_cons, ih, State.counter_modCounter]
    by_cases hl : n ∈ l
    · simp [hl]
    · by_cases ha : n = a <;> simp [hl, ha]

theorem State.StaysQuiet.clearCounters {u v : State} (h : u.StaysQuiet v) (l : List CounterName) : u.StaysQuiet (v.clearCounters l) := by
  unfold State.clearCounters
  induction l generalizing v with
  | nil => exact h
  | cons n l ih => exact ih (h.modCounter n _)

/-- What JOB_END makes of its job. -/
def Job.ends (j : Job) : Job :=
  { j with
    st := if j.plate.isSome then .loaded else .none, ended := true, logFrom := j.cmdLog.length, modePend := [], begun := none, scalePend := [], injPend := []
    mapPend := none, mapNext := none, mapReady := false, mapOn := none, mapAt := none, mapHere := false, mapBad := false, headers := []
    digests := [], cleared := false }

/-- Granules and counters of an ended job are free. -/
def State.freesJob (no : JobNo) (s : State) : State := (s.freeJob no).clearCounters ((s.freeJob no).countersOf no)

/-- Nothing outside the job's own record is left of it. -/
def State.clearsJob (no : JobNo) (s : State) : State :=
  { s.forgetRun no with
    windows := s.windows.filter fun w => w.job != no
    shards := s.shards.filter fun r => r.job != no
    bars := s.bars.filter fun b => b.2.job != no
    pair := { s.pair with
      holds := s.pair.holds.filter fun h => h.job != no
      shadows := s.pair.shadows.filter fun x => x.job != no
      seals := s.pair.seals.filter fun x => x.job != no } }

theorem State.jobEnd_eq (m : Msg) (s : State) : s.jobEnd m = (((s.freesJob m.job).clearsJob m.job).modJob m.job Job.ends).replies Reply.ok := by
  rfl

section End
variable (no : JobNo) (s : State)

theorem State.freesJob_eq : s.freesJob no = { s with dies := (s.freesJob no).dies } := by
  rw [State.freesJob, State.clearCounters_eq]
  rfl

/-- A die without the granules, rings and caches of a job. -/
def DieState.freeJob (k : Nat) (x : DieState) : DieState :=
  { x with grans := x.grans.filter fun g => g.2.job ≠ no, waiters := x.waiters.filter fun w => w.job ≠ no
           rings := Table.set [] k [] x.rings, caches := Table.set [] k [] x.caches }

theorem State.dies_freeJob : (s.freeJob no).dies = s.dies.map fun e => (e.1, e.2.freeJob no ((s.jobSlot no).getD 8)) := by
  rfl

theorem State.counter_freesJob (n : CounterName) : (s.freesJob no).counter n = if n ∈ s.countersOf no then Counter.reset else s.counter n := by
  rw [State.freesJob, State.counter_clearCounters, State.countersOf_mapDies (f := DieState.freeJob no _) (fun _ => rfl) (State.dies_freeJob no s),
    State.counter_mapDies (f := DieState.freeJob no _) (fun _ => rfl) (State.dies_freeJob no s)]

theorem State.counter_clearsJob (n : CounterName) : (s.clearsJob no).counter n = s.counter n :=
  State.counter_mapDies (f := fun x => { x with
      sigOwn := x.sigOwn.filter fun h => h.job != no
      sigPartner := x.sigPartner.filter fun (h : SigHeld) => !(x.sigOwn.any fun (o : SigHeld) => o.job == no && o.e.key == h.e.key)
      pst := x.pst.filter fun h => h.job != no
      reports := x.reports.filter fun h => h.job != no
      statRings := (x.statRings.map fun (r : Nat × List (Nat × Nat)) => (r.1, r.2.filter fun (y : Nat × Nat) => y.1 != no.toNat)).filter fun (r : Nat × List (Nat × Nat)) => !r.2.isEmpty })
    (fun _ => rfl) rfl n

/-- What a job held is gone. -/
theorem State.clearsJob_freesJob : (s.freesJob no).clearsJob no = { s with
    dies := ((s.freesJob no).clearsJob no).dies
    engines := ((s.freesJob no).clearsJob no).engines
    bars := ((s.freesJob no).clearsJob no).bars
    armed := s.armed.filter fun i => i.job != no
    windows := s.windows.filter fun w => w.job != no
    shards := s.shards.filter fun r => r.job != no
    pair := { s.pair with
      holds := s.pair.holds.filter fun h => h.job != no
      shadows := s.pair.shadows.filter fun x => x.job != no
      seals := s.pair.seals.filter fun x => x.job != no } } := by
  rw [State.freesJob_eq]
  rfl

end End

theorem State.StaysQuiet.freesJob {s : State} (h : s.quiet = true) (no : JobNo) : s.StaysQuiet (s.freesJob no) := by
  refine State.StaysQuiet.clearCounters ⟨?_, rfl, rfl, rfl⟩ _
  obtain ⟨hj, hd, hrest⟩ := (State.quiet_iff s).mp h
  refine (State.quiet_iff _).mpr ⟨hj, fun e he => ?_, hrest⟩
  rw [State.dies_freeJob] at he
  obtain ⟨x, hx, rfl⟩ := List.mem_map.mp he
  exact hd x hx

theorem State.StaysQuiet.clearsJob {u v : State} (h : u.StaysQuiet v) (no : JobNo) : u.StaysQuiet (v.clearsJob no) := by
  obtain ⟨hq, h⟩ := h
  obtain ⟨hj, hd, hs, he, hp, hrest⟩ := (State.quiet_iff v).mp hq
  refine ⟨(State.quiet_iff _).mpr ⟨hj, fun e hm => ?_, fun r hm => hs r (List.mem_of_mem_filter hm), fun e hm => ?_, ?_, hrest⟩, h⟩
  · obtain ⟨x, hx, rfl⟩ := List.mem_map.mp hm
    simp [hd x hx]
  · obtain ⟨x, hx, rfl⟩ := List.mem_map.mp hm
    exact he x hx
  · simp [State.clearsJob, hp]

/-- JOB_END leaves a job that is loaded and holds nothing. -/
theorem jobEnd_ends {s : State} {m : Msg} {p : Plate} {k : Nat} (h : Claims.Hub m s) (hr : Claims.Rising s) (hk : s.jobSlot m.job = some k)
    (hpl : (s.job m.job).plate = some p) (hst : (s.job m.job).st = .done ∨ (s.job m.job).st = .stopped) : ∃ t, exec (.jobEnd m) s = .next t ∧
    t = { s with dies := t.dies, engines := t.engines, bars := t.bars, jobs := t.jobs, outbox := s.outbox ++ [.reply 0x0032 Code.ok m.seq 0 []]
                 armed := s.armed.filter fun i => i.job != m.job
                 windows := s.windows.filter fun w => w.job != m.job
                 shards := s.shards.filter fun r => r.job != m.job
                 pair := { s.pair with
                   holds := s.pair.holds.filter fun h => h.job != m.job
                   shadows := s.pair.shadows.filter fun x => x.job != m.job
                   seals := s.pair.seals.filter fun x => x.job != m.job } } ∧
    (t.job m.job).st = .loaded ∧ (t.job m.job).plate = some p ∧ (t.job m.job).ended = true ∧ (t.job m.job).begun = none ∧ (t.job m.job).digests = [] ∧
    (t.job m.job).mapOn = none ∧ (t.job m.job).logFrom = (s.job m.job).cmdLog.length ∧
    (∀ n : CounterName, (s.counter n).job = m.job → t.counter n = Counter.reset) ∧
    ((∀ d, Table.wf Counter.reset (s.die d).counters = true ∧ ∀ e ∈ (s.die d).counters, e.1 < 16384) →
      ∀ n : CounterName, (s.counter n).job ≠ m.job → t.counter n = s.counter n) := by
  obtain ⟨hq, -⟩ := id h
  obtain ⟨h0, -⟩ := State.jobSlot_mem hk
  have hok : JobNeed.ok .ending (s.job m.job) = true := by rcases hst with h | h <;> simp [JobNeed.ok, h]
  have hv := ((State.StaysQuiet.freesJob hq m.job).clearsJob m.job).modJob m.job (g := Job.ends) fun j hj => ⟨hj.1, rfl, rfl⟩
  have hexec := hub_runs (code := 0x0032) (i := .jobEnd m) (row := ⟨.hub, 2, .ending⟩) (r := Reply.ok) rfl h rfl rfl (by decide) (.inr ⟨h0, hok⟩) (by decide)
    (State.jobEnd_eq m s) hv
  rw [show hubReply 0x0032 Reply.ok = Reply.ok from by decide] at hexec
  have hends := State.clearsJob_freesJob m.job s
  have hjobs : ((s.freesJob m.job).clearsJob m.job).jobs = s.jobs := by rw [hends]
  have hcounter : ∀ n, ((s.freesJob m.job).clearsJob m.job).counter n = if n ∈ s.countersOf m.job then Counter.reset else s.counter n := fun n => by
    rw [State.counter_clearsJob, State.counter_freesJob]
  generalize (s.freesJob m.job).clearsJob m.job = v at hexec hends hjobs hcounter
  have hvj : v.job m.job = s.job m.job := State.job_congr hjobs _
  have hjob : (v.modJob m.job Job.ends).job m.job = (s.job m.job).ends := by
    refine (State.job_modJob (g := Job.ends) (k := k) (by rwa [Claims.Rising, hjobs]) ?_ ?_).trans (congrArg Job.ends hvj)
    · rw [← hk, State.jobSlot, hjobs]; rfl
    · rw [hvj]; exact State.job_no hr hk
  have hread : ∀ n, (v.modJob m.job Job.ends).counter n = v.counter n := fun n => by rw [State.modJob_jobs]; rfl
  generalize hw : v.modJob m.job Job.ends = w at hexec hjob hread
  have hws : w = { v with jobs := w.jobs } := by rw [← hw]; exact State.modJob_jobs ..
  refine ⟨_, hexec, ?_⟩
  have hout : ({ w with outbox := w.outbox ++ [.reply 0x0032 Code.ok m.seq 0 []] } : State).job m.job = (s.job m.job).ends := (State.job_congr rfl _).trans hjob
  refine ⟨by rw [hws, hends]; rfl, ?_, ?_, ?_, ?_, ?_, ?_, ?_, fun n hn => ?_, fun hd n hn => ?_⟩
  · exact (congrArg Job.st hout).trans (by simp [Job.ends, hpl])
  · exact (congrArg Job.plate hout).trans hpl
  · exact congrArg Job.ended hout
  · exact congrArg Job.begun hout
  · exact congrArg Job.digests hout
  · exact congrArg Job.mapOn hout
  · exact congrArg Job.logFrom hout
  · exact ((hread n).trans (hcounter n)).trans (if_pos (State.mem_countersOf h0 hn))
  · exact ((hread n).trans (hcounter n)).trans (if_neg fun hm => hn (State.job_of_mem_countersOf hd hm))

/-! ## JOB_STOP (R458, R459, R466) -/

/-- JOB_STOP runs at once; where no start is in progress and no command waits, nothing else goes on. -/
theorem State.submit_stop {s v : State} {m : Msg} (h : Claims.Hub m s) (he : s.perform 0x0031 16 m = v) (hj : ∀ e ∈ v.jobs, e.2.startMsg = none)
    (hw : v.hub.waiting = []) : s.submit 0x0031 m = v := by
  obtain ⟨-, hp, ht, hon, hheld, -⟩ := h
  have hruns : s.hubRuns = true := by simp [State.hubRuns, hon, hheld]
  simp only [State.submit, hp, ht, if_true, State.submitHub, hruns, Bool.not_true, Bool.false_eq_true, if_false, he,
    State.answerStopped_none fun e h => .inl (hj e h), State.hubGo, hw]
  rfl

theorem jobStop_answers {s v : State} {m : Msg} {r : Reply} (h : Claims.Hub m s)
    (he : s.unless (s.precheck 0x0031 m) (fun s => s.runCmd 0x0031 16 m) = (some r, v)) (hv : s.StaysQuiet v) (hw : v.hub.waiting = []) :
    Claims.Answers (.jobStop m) 0x0031 (hubReply 0x0031 r).status (hubReply 0x0031 r).detail (hubReply 0x0031 r).res m s v := by
  obtain ⟨-, hp, ht, -⟩ := id h
  obtain ⟨hj, -⟩ := (State.quiet_iff v).mp hv.1
  have hperf : s.perform 0x0031 16 m = v.output (.reply 0x0031 (hubReply 0x0031 r).status m.seq (hubReply 0x0031 r).detail (hubReply 0x0031 r).res) := by
    rw [State.perform, State.concludes, he]
    exact State.answerMsg_internal hp ht _ r v
  have hsub := State.submit_stop h hperf (fun e he => (hj e he).1) hw
  have hi : exec (.jobStop m) s = s.acts fun s => s.submit 0x0031 m := by rfl
  rw [Claims.Answers, hi, State.StaysQuiet.acts (hsub ▸ hv.output _), hsub]
  rfl

/-- JOB_STOP of a job that has no start in progress and does not run. -/
theorem jobStop_wrongState {s : State} {m : Msg} (h : Claims.Hub m s) (h0 : m.job ≠ 0)
    (hst : (s.job m.job).st = .loaded ∨ (s.job m.job).st = .loading ∨ (s.job m.job).st = .stopped) :
    Claims.Answers (.jobStop m) 0x0031 Code.wrongState (BitVec.ofNat 8 (s.job m.job).st.code) [] m s s := by
  obtain ⟨hq, hp, ht, -, -, hw, hrec, -⟩ := id h
  have hok : JobNeed.ok .stoppable (s.job m.job) = false := by rcases hst with h | h | h <;> simp [JobNeed.ok, h]
  have hpre : s.precheck 0x0031 m = some (s.job m.job).wrong := by
    rw [State.precheck_served (r := ⟨.hub, 2, .stoppable⟩) rfl (by rw [ht]; rfl) hrec hp (by decide), if_neg (by decide), State.jobCheck_wrong h0 hok]
  have hr : hubReply 0x0031 (s.job m.job).wrong = (s.job m.job).wrong := by
    simp [hubReply, Job.wrong, Reply.failD]
  have := jobStop_answers (r := (s.job m.job).wrong) h (by rw [hpre]; rfl) (.refl hq) hw
  rwa [hr] at this

/-- A running job that stops now. -/
def Job.stops (code : BitVec 16) (now : Nat) (j : Job) : Job := { j with st := .stopped, reason := code, endTime := now }

/-- What a job that holds nothing leaves when it stops: its waiting requests and mirrored moves are gone, and the meter hears of it. -/
def State.stopsJob (no : JobNo) (code : BitVec 16) (s : State) : State :=
  { s.modJob no (Job.stops code s.time) with
    dies := s.dies.map fun e => (e.1, { e.2 with waiters := e.2.waiters.filter fun w => w.job ≠ no })
    clusters := s.clusters.map fun e => (e.1, { e.2 with moves := e.2.moves.filter fun m => !(m.mirrored && m.impr.job == no) })
    outbox := s.outbox ++ [.marker false false no]
    meter := { s.meter with openJobs := s.meter.openJobs.filter (· ≠ no), toldAt := some s.time } }

/-- A job without stream impressions aborts none. -/
theorem State.abortStreams_none {s : State} (h : ∀ e ∈ s.engines, e.2.ctxs = [] ∧ e.2.queue = [] ∧ e.2.pacorWait = []) (no : JobNo) : s.abortStreams no = s :=
  foldl_eq_self fun p _ => by
    have hp : (s.eng p).ctxs = [] ∧ (s.eng p).queue = [] ∧ (s.eng p).pacorWait = [] := by
      rcases Table.get_mem Engine.reset p.toNat s.engines with g | g
      · rw [State.eng, g]; exact ⟨rfl, rfl, rfl⟩
      · exact h _ g
    obtain ⟨hc, hq, hw⟩ := hp
    simp [hc, hq, hw]

theorem State.stopsJob_eq (no : JobNo) (code : BitVec 16) (s : State) : s.stopsJob no code = { s with
    clusters := (s.stopsJob no code).clusters, dies := (s.stopsJob no code).dies, jobs := (s.stopsJob no code).jobs, meter := (s.stopsJob no code).meter
    outbox := s.outbox ++ [.marker false false no] } := by
  rw [State.stopsJob, State.modJob_jobs]

theorem State.hub_log_waiting (code : BitVec 16) (cls : BitVec 4) (unit : BitVec 16) (job : JobNo) (detail : Word) (s : State) :
    (s.log code cls unit job detail).hub.waiting = s.hub.waiting := by
  simp only [State.log, State.append]

/-- A running job has a slot. -/
theorem State.jobSlot_of_running {s : State} {no : JobNo} (h : (s.job no).st = .running) : ∃ k, s.jobSlot no = some k := by
  cases hs : s.jobSlot no with
  | some k => exact ⟨k, rfl⟩
  | none => exact absurd h (by simp [State.job, hs, Job.reset])

theorem State.stopJob_alone {s : State} {no : JobNo} (ha : Claims.Alone no s) (hseals : s.pair.seals = []) (hon : s.margin.hubOn = true) (code : BitVec 16)
    (cls : BitVec 4) (unit : BitVec 16) (detail : Word) : s.stopJob no code cls unit detail = (s.stopsJob no code).log code cls unit no detail := by
  obtain ⟨h0, hr, hst, hclu, heng, hbar, hctr⟩ := ha
  obtain ⟨k, hk⟩ := State.jobSlot_of_running hst
  have hjob : (s.modJob no (Job.stops code s.time)).job no = (s.job no).stops code s.time := State.job_modJob hr hk (State.job_no hr hk)
  generalize hu : s.modJob no (Job.stops code s.time) = u at hjob
  have hus : u = { s with jobs := u.jobs } := by rw [← hu]; exact State.modJob_jobs ..
  have hcounters : u.countersOf no = [] := by rw [hus]; exact hctr
  have hfold : u.clusters.foldl (fun s e =>
      if e.2.job = no ∧ (e.2.gstate = .running ∨ e.2.gstate = .held) then s.endImpression (BitVec.ofNat 8 e.1) Code.aborted else s) u = u :=
    foldl_eq_self fun e he => if_neg fun h => hclu e (by rw [hus] at he; exact he) h.1
  have habort : u.abortStreams no = u := State.abortStreams_none (by rw [hus]; exact heng) no
  have horphan : u.orphanBarriers no = u := by
    have hplate : u.plate no = (s.job no).plate := (congrArg Job.plate hjob).trans rfl
    rw [State.orphanBarriers, hplate]
    cases hp : (s.job no).plate with
    | none => rfl
    | some p => simp [hbar p hp]
  have hpair : ({ u.pair with seals := u.pair.seals.filter fun x => x.job ≠ no } : Pair) = u.pair := by
    have : u.pair.seals = [] := by rw [hus]; exact hseals
    rw [this, List.filter_nil, ← this]
  have hstops : s.stopsJob no code = { u with
      dies := u.dies.map fun e => (e.1, { e.2 with waiters := e.2.waiters.filter fun w => w.job ≠ no })
      clusters := u.clusters.map fun e => (e.1, { e.2 with moves := e.2.moves.filter fun m => !(m.mirrored && m.impr.job == no) })
      pair := { u.pair with seals := u.pair.seals.filter fun x => x.job ≠ no }
      outbox := u.outbox ++ [.marker false false no]
      meter := { u.meter with openJobs := u.meter.openJobs.filter (· ≠ no), toldAt := some u.time } } := by
    rw [State.stopsJob, hu, hpair, hus]
  have hon' : u.margin.hubOn = true := by rw [hus]; exact hon
  have hstart : (s.modJob no fun j => { j with st := .stopped, reason := code, endTime := if (s.job no).st = .done then j.endTime else s.time }) = u := by
    rw [← hu]
    refine State.modJob_congr ?_
    rw [hst]
    rfl
  unfold State.stopJob
  rw [if_pos (.inl hst)]
  simp only [hstart, hcounters, List.foldl_nil, hfold, habort, horphan]
  rw [if_pos (by rw [hst]; decide), hstops]
  exact congrArg (State.log code cls unit no detail) (if_pos hon')

theorem State.StaysQuiet.stopsJob {u v : State} (h : u.StaysQuiet v) (no : JobNo) (code : BitVec 16) : u.StaysQuiet (v.stopsJob no code) := by
  obtain ⟨hq, hrest⟩ := h.modJob no (g := Job.stops code v.time) fun j hj => hj
  obtain ⟨hj, hd, hq⟩ := (State.quiet_iff _).mp hq
  refine ⟨(State.quiet_iff _).mpr ⟨hj, fun e he => ?_, ?_⟩, hrest⟩
  · obtain ⟨x, hx, rfl⟩ := List.mem_map.mp he
    exact hd x (by simpa using hx)
  · exact hq

/-- A stopped job that keeps whether it was preempted. -/
def Job.preempts (b : Bool) (j : Job) : Job := { j with preempted := b }

/-- What JOB_STOP does once its job has stopped. -/
def State.endsStop (m : Msg) (s : State) : State :=
  let s := s.modJob m.job (Job.preempts ((Msg.arg 0 m).getLsbD 0))
  if s.pair.st = .partnerLost ∧ !s.mirrorsRun then s.modPair fun p => { p with st := .unpaired } else s

/-- JOB_STOP of a job that holds nothing. -/
theorem jobStop_stops {s : State} {m : Msg} (h : Claims.Hub m s) (ha : Claims.Alone m.job s) (hp : s.pair.st ≠ .partnerLost) :
    ∃ t code, exec (.jobStop m) s = .next t ∧
      t = { s with freeCtr := s.freeCtr + 1, clusters := t.clusters, dies := t.dies, jobs := t.jobs, hub := t.hub, meter := t.meter
                   outbox := s.outbox ++ [.marker false false m.job, .reply 0x0031 Code.ok m.seq 0 []] } ∧
      (t.job m.job).st = .stopped ∧ (t.job m.job).reason = code ∧ (t.job m.job).endTime = s.time ∧ (t.job m.job).preempted = (m.args.getD 0 0).getLsbD 0 ∧
      t.hub.eventSeq = s.hub.eventSeq + 1 ∧ (t.hub.events.getLast?.map fun e => (e.code, e.job)) = some (code, m.job) := by
  obtain ⟨hq, hpath, ht, hon, -, hw, hrec, -⟩ := id h
  obtain ⟨h0, hr, hst, -⟩ := id ha
  obtain ⟨-, -, -, -, hseals, -⟩ := (State.quiet_iff s).mp hq
  have hpre : s.precheck 0x0031 m = none := State.precheck_hub h (row := ⟨.hub, 2, .stoppable⟩) rfl rfl (by decide) (.inr ⟨h0, by simp [JobNeed.ok, hst]⟩)
  have hcmd : s.runCmd 0x0031 16 m = ((State.stopJob m.job ((Config.freeValue s.freeCtr).setWidth 16) clsModule 0 (BitVec.ofNat 32 (Msg.argN 0 m % 2))
      { s with freeCtr := s.freeCtr + 1 }).endsStop m).replies Reply.ok := by rfl
  generalize hc : (Config.freeValue s.freeCtr).setWidth 16 = code at hcmd
  generalize hf : ({ s with freeCtr := s.freeCtr + 1 } : State) = u at hcmd
  have hua : Claims.Alone m.job u := by rw [← hf]; exact ha
  have huq : s.StaysQuiet u := by rw [← hf]; exact ⟨hq, rfl, rfl, rfl⟩
  have huj : u.job m.job = s.job m.job := by rw [← hf]; rfl
  obtain ⟨-, hur, hust, -⟩ := id hua
  obtain ⟨k, hk⟩ := State.jobSlot_of_running hust
  have hno := State.job_no hur hk
  rw [State.stopJob_alone hua (by rw [← hf]; exact hseals) (by rw [← hf]; exact hon)] at hcmd
  generalize hw' : (u.stopsJob m.job code).log code clsModule 0 m.job (BitVec.ofNat 32 (Msg.argN 0 m % 2)) = w at hcmd
  have hwq : s.StaysQuiet w := by rw [← hw']; exact (huq.stopsJob m.job code).log ..
  have hwjobs : w.jobs = (u.modJob m.job (Job.stops code u.time)).jobs := by rw [← hw']; rfl
  have hlog : w = { u.stopsJob m.job code with hub := w.hub } := by
    rw [← hw']
    rfl
  have hws : w = { s with
      freeCtr := s.freeCtr + 1, clusters := w.clusters, dies := w.dies, jobs := w.jobs, hub := w.hub, meter := w.meter
      outbox := s.outbox ++ [.marker false false m.job] } := by
    have hclu : w.clusters = (u.stopsJob m.job code).clusters := by rw [hlog]
    have hdies : w.dies = (u.stopsJob m.job code).dies := by rw [hlog]
    have hjobs : w.jobs = (u.stopsJob m.job code).jobs := by rw [hlog]
    have hmeter : w.meter = (u.stopsJob m.job code).meter := by rw [hlog]
    refine hlog.trans ?_
    rw [hclu, hdies, hjobs, hmeter]
    refine (congrArg (fun x : State => { x with hub := w.hub }) (State.stopsJob_eq m.job code u)).trans ?_
    rw [← hf]
  have hhub : (u.stopsJob m.job code).hub = s.hub := (congrArg State.hub (State.stopsJob_eq m.job code u)).trans (by rw [← hf])
  have hwait : w.hub.waiting = (u.stopsJob m.job code).hub.waiting := by
    rw [← hw', State.hub_log_waiting]
  have hseq : w.hub.eventSeq = (u.stopsJob m.job code).hub.eventSeq + 1 := by rw [← hw', State.hub_log_seq]
  rw [hhub] at hwait hseq
  have hlast := State.log_getLast? code clsModule 0 m.job (BitVec.ofNat 32 (Msg.argN 0 m % 2)) (u.stopsJob m.job code)
  rw [hw'] at hlast
  have hends : w.endsStop m = w.modJob m.job (Job.preempts ((Msg.arg 0 m).getLsbD 0)) := by
    have hpair : (w.modJob m.job (Job.preempts ((Msg.arg 0 m).getLsbD 0))).pair = s.pair := by
      rw [State.modJob_jobs]
      exact (congrArg State.pair hws).trans rfl
    rw [State.endsStop, if_neg]
    exact fun h => hp (hpair ▸ h.1)
  rw [hends] at hcmd
  have hwj : w.job m.job = (u.job m.job).stops code u.time := (State.job_congr hwjobs _).trans (State.job_modJob (g := Job.stops code u.time) hur hk hno)
  have hwr : Claims.Rising w := by
    rw [Claims.Rising, hwjobs]
    exact State.rising_modJob (g := Job.stops code u.time) hur hk hno
  have hwk : w.jobSlot m.job = some k := by
    have := State.jobSlot_modJob (g := Job.stops code u.time) hur hk hno
    rwa [State.jobSlot, ← hwjobs] at this
  have hvj : (w.modJob m.job (Job.preempts ((Msg.arg 0 m).getLsbD 0))).job m.job = ((u.job m.job).stops code u.time).preempts ((Msg.arg 0 m).getLsbD 0) := by
    rw [State.job_modJob (g := Job.preempts ((Msg.arg 0 m).getLsbD 0)) hwr hwk ((congrArg Job.no hwj).trans hno), hwj]
  have hexec := jobStop_answers (r := Reply.ok) h (by rw [hpre]; exact hcmd) (hwq.modJob m.job (g := Job.preempts ((Msg.arg 0 m).getLsbD 0)) fun j hj => hj)
    (by rw [State.modJob_jobs]; exact hwait.trans hw)
  rw [show hubReply 0x0031 Reply.ok = Reply.ok from by decide] at hexec
  generalize hv : w.modJob m.job (Job.preempts ((Msg.arg 0 m).getLsbD 0)) = v at hexec hvj
  have hvw : v = { w with jobs := v.jobs } := by rw [← hv]; exact State.modJob_jobs ..
  have hvhub : v.hub = w.hub := by rw [hvw]
  have hclu : v.clusters = w.clusters := by rw [hvw]
  have hdies : v.dies = w.dies := by rw [hvw]
  have hmeter : v.meter = w.meter := by rw [hvw]
  have hout := hvw.trans (congrArg (fun x : State => { x with jobs := v.jobs }) hws)
  refine ⟨_, code, hexec, ?_, ?_, ?_, ?_, ?_, ?_, ?_⟩
  · refine (congrArg (fun x : State => { x with outbox := x.outbox ++ [Output.reply 0x0031 Code.ok m.seq 0 []] }) hout).trans ?_
    simp only [hvhub, hclu, hdies, hmeter, List.append_assoc, List.singleton_append]
  · exact (congrArg Job.st ((State.job_congr rfl _).trans hvj)).trans rfl
  · exact (congrArg Job.reason ((State.job_congr rfl _).trans hvj)).trans rfl
  · exact (congrArg Job.endTime ((State.job_congr rfl _).trans hvj)).trans (by rw [← hf]; rfl)
  · exact (congrArg Job.preempted ((State.job_congr rfl _).trans hvj)).trans rfl
  · exact (congrArg Hub.eventSeq hvhub).trans hseq
  · show (v.hub.events.getLast?.map fun e => (e.code, e.job)) = _
    rw [hvhub, hlast]
    rfl

end Sys2Proof.Machine
open Sys2Proof Sys2Proof.Machine

/-- Settles O51: every command of a job is what its function of the model answers on a quiet module; what follows of itself is a switch that is
ordered alone, or the frames of a start. -/
theorem jobCommandsAct : Obligations.JobCommandsAct := by
  unfold Obligations.JobCommandsAct
  intro s m p h h0 hr hpl
  obtain ⟨k, hk⟩ := State.jobSlot_of_plate hpl
  refine ⟨fun hst => ⟨fun ht => ?_, fun ht => ⟨fun hf => ?_, fun hf ha hp => ?_⟩⟩, jobStop_wrongState h h0, jobStop_stops h, jobEnd_ends h hr hk hpl, ?_⟩
  · exact jobStart_refused h h0 hst hpl (State.startRefusal_free ht) (by decide)
  · exact jobStart_refused h h0 hst hpl (State.startRefusal_fenced ht hf) (by decide)
  · have hplain : Msg.startsPlain m p s := ⟨ht, hf, ha, hp⟩
    refine ⟨fun hm hpair => ?_, fun hm d hd hu hl => ?_, fun hm hd hcl hrole hdie => jobStart_starts h hr hk hpl h0 hst hplain hm hd hcl hrole hdie⟩
    · exact jobStart_refused h h0 hst hpl (State.startRefusal_unpaired hplain hm hpair) (by decide)
    · exact jobStart_refused h h0 hst hpl (State.startRefusal_reset hplain hm hd hu hl) rfl
  · refine ⟨setNumericMode_logged h hr hk, fun hst ha hf ht hon hat hhere => setMapping_logged h hr hk hpl hst ha hf ht hon hat hhere,
      resetScales_logged h hr hk, fun hst hinj hf => injectFault_logged h hr hk hst hf hinj, fun b hst hb hp ha hn => ?_, fun hst hb hl => ?_⟩
    · exact ⟨setNumericMode_passed h h0 hst hb hp ha, setMapping_passed h h0 hst hpl hb hp ha hn, resetScales_refused h h0 hst (Job.accepts_passed hb hp)⟩
    · exact resetScales_refused h h0 hst (Job.accepts_full hb hl)
end

section
/-! SUPPORT. Words that read or write SRAM, and the lane operations, on a ready cluster (06 R150, R153; 07 R168, R177, R180, R181, R192). -/

namespace Sys2Proof.Machine

open Sys2Proof.Claims

/-! ## Plans that read SRAM (R150) -/

/-- A plan whose effects are its results and the corrections of what it reads. -/
def Plan.OnlyReads (P : Plan) : Prop :=
  P.conds = [] ∧ P.gap ≤ 6 ∧ P.hold = .none ∧ P.fail = none ∧ P.act = .none ∧ P.tile = none

/-- The words with a single-bit error in what a plan reads count as corrected, each once. -/
theorem State.correctRead_eq (c : ClusterId) (P : Plan) (s : State) (k : Cluster) :
    (s.setClu c k).correctRead c P = s.setClu c (corrected P.conf c s k) := by
  have e : (P.conf.flatMap fun r => (s.setClu c k).weakIn (sramAddr c r.1) r.2) =
      P.conf.flatMap fun r => s.weakWords.filter fun w => meets (sramAddr c r.1) r.2 w (codeWord w) := rfl
  simp only [State.correctRead, State.corrects, corrected, List.isEmpty_iff, e]
  by_cases h : (P.conf.flatMap fun r => s.weakWords.filter fun w => meets (sramAddr c r.1) r.2 w (codeWord w)).dedup = []
  · simp only [h, if_true]
  · simp only [h, if_false, State.modClu, State.clu_setClu_same, State.setClu_setClu, sat32]

/-- What an issue leaves of a cluster, but for its count of corrected words. -/
theorem Issued.corrected {n : Nat} {idle : BitVec 4} {k k' : Cluster} (h : Issued n idle k k') (rs : List (Nat × Nat)) (c : ClusterId)
    (s : State) : Issued n idle (corrected rs c s k) (corrected rs c s k') := by
  unfold Issued at *
  rw [h]
  rfl

/-- A word of SRAM without an uncorrectable error fails no read where no fault is armed. -/
theorem State.sramFail_none {s : State} (ha : s.armed = []) (hb : s.badWords = []) (c : ClusterId) (off n : Nat) :
    s.sramFail c off n = none := by
  simp [State.sramFail, State.armedIn, ha, hb]

/-- An aligned range inside the SRAM meets no condition (R196). -/
theorem sramConds_none {a : DWord} {n al : Nat} (slot : Nat) (hal : a.toNat % al = 0) (hin : a.toNat + n ≤ 2 ^ 23) :
    sramConds slot a n al = [] := by
  simp only [sramConds, if_pos hal, if_pos hin, List.append_nil]

/-- A closing word on a ready cluster books the results of its plan and corrects what it reads, where the plan does nothing else and the
fetch of the bundle does not change it. -/
theorem State.reads_of_plan {i : Instr} {s : State} {p : Place} {slot : Nat} {op : Byte} {w : Fields} {n : Nat} (P : Cluster → Plan)
    (hi : exec i s = s.slotWord p slot op w)
    (hp : (s.atIssue p n (oneWord p slot op w)).plan p.cl (oneWord p slot op w) ⟨slot, op, w⟩ =
      P ((s.atIssue p n (oneWord p slot op w)).clu p.cl))
    (hfetch : ∀ b, P ((s.clu p.cl).fetched n b) = P (s.clu p.cl)) (hs : slot ≠ 0) (hl : (⟨slot, op, w⟩ : SlotWord).legal = true)
    (hn : (if w.wide then 10 else 6) = n) (hcl : Closes n p s) (hP : (P (s.clu p.cl)).OnlyReads) (hT : (P (s.clu p.cl)).targets ≠ []) :
    ∃ k', exec i s = .next (s.setClu p.cl k') ∧ Issued n p.idle (corrected (P (s.clu p.cl)).conf p.cl s (s.clu p.cl)) k' ∧
      k'.inflight = [⟨(s.clu p.cl).stepCount + (P (s.clu p.cl)).lat - 1, slot, (P (s.clu p.cl)).targets, (P (s.clu p.cl)).flags⟩] := by
  obtain ⟨hc, hg, hh, hf, ha, ht⟩ := hP
  rw [State.clu_atIssue, hfetch] at hp
  obtain ⟨k', h1, h2, h3⟩ := State.slotWord_acts hi hcl hn hl hs hp hc hg hh hf ht
  refine ⟨corrected (P (s.clu p.cl)).conf p.cl s k', ?_, h2.corrected .., h3.trans (if_neg hT)⟩
  rw [h1, ha, show ∀ t : State, t.act p.cl .none = t from fun _ => rfl, State.correctRead_eq]
  exact congrArg Host.Outcome.next (State.finish_quiet (State.quiet_congr hcl.1 rfl rfl rfl rfl rfl rfl) rfl rfl (Nat.max_self _).symm)

/-! ## Scalar loads and stores (R168, R177) -/

theorem scalarAddr_fetched (n : Nat) (b : Bundle) (k : Cluster) (w : Fields) : scalarAddr (k.fetched n b) w = scalarAddr k w := by
  obtain ⟨hx, -⟩ := Cluster.fetched_regs n b k
  simp only [scalarAddr, hx]

section
variable {s : State} {p : Place} {w : Fields}

/-- A scalar load books the number that stands at its address, and corrects what it reads. -/
theorem State.reads_load {i : Instr} {op : Byte} {m : Nat} (T : Nat → Target) (hi : exec i s = s.slotWord p 1 op w)
    (hplan : ∀ (t : State) c k, t.scalarPlan c k ⟨1, op, w⟩ = t.planLoad c k w m T)
    (hform : form 1 op.toNat = some { wide := true, d := true, a := true }) (hcl : Closes 10 p s) (hw : w.wide = true) (hm : w.mod = 0)
    (hb : w.b = 0) (hc : w.c = 0) (ha : s.armed = []) (hbad : s.badWords = []) (hal : (scalarAddr (s.clu p.cl) w).toNat % m = 0)
    (hin : (scalarAddr (s.clu p.cl) w).toNat + m ≤ 2 ^ 23) :
    let a := (scalarAddr (s.clu p.cl) w).toNat
    Reads i 10 1 4 a m [T (s.readLe (sramAddr p.cl a) m)] p s :=
  State.reads_of_plan (fun k => s.planLoad p.cl k w m T) hi (hplan ..) (fun b => by simp only [State.planLoad, scalarAddr_fetched])
    one_ne_zero (SlotWord.legal_of_form hform hw (.inl rfl) (.inl rfl) (.inr hb) (.inr hc) (by simp [hm]) rfl) (by simp [hw]) hcl
    ⟨sramConds_none 1 hal hin, by simp [State.planLoad], rfl, State.sramFail_none ha hbad .., rfl, rfl⟩ (by simp [State.planLoad])

/-- A scalar store books the bytes of its register. -/
theorem State.books_st (hcl : Closes 10 p s) (hw : w.wide = true) (hm : w.mod = 0) (hd : w.d = 0) (hc : w.c = 0)
    (hal : (scalarAddr (s.clu p.cl) w).toNat % 8 = 0) (hin : (scalarAddr (s.clu p.cl) w).toNat + 8 ≤ 2 ^ 23) :
    Books (.st p w) 10 1 2 [.sram (scalarAddr (s.clu p.cl) w).toNat (leBytes 8 ((s.clu p.cl).xr w.b).toNat)] NFlags.none p s :=
  State.books_of_plan (slot := 1) (op := 0x19) (planSt · w) rfl rfl
    (fun b => by simp only [planSt, scalarAddr_fetched, (Cluster.fetched_regs _ b _).1]) one_ne_zero
    (SlotWord.legal_of_form (slot := 1) (op := 0x19) (u := { wide := true, a := true, b := true }) rfl hw (.inr hd) (.inl rfl) (.inl rfl)
      (.inr hc) (by simp [hm]) rfl)
    (by simp [hw]) hcl ⟨sramConds_none 1 hal hin, by simp [planSt], rfl, rfl, rfl, rfl, rfl⟩ (by simp [planSt])

theorem State.books_fst (hcl : Closes 10 p s) (hw : w.wide = true) (hm : w.mod = 0) (hd : w.d = 0) (hc : w.c = 0)
    (hal : (scalarAddr (s.clu p.cl) w).toNat % 4 = 0) (hin : (scalarAddr (s.clu p.cl) w).toNat + 4 ≤ 2 ^ 23) :
    Books (.fst p w) 10 1 2 [.sram (scalarAddr (s.clu p.cl) w).toNat (leBytes 4 ((s.clu p.cl).fr w.b).toNat)] NFlags.none p s :=
  State.books_of_plan (slot := 1) (op := 0x1B) (planFst · w) rfl rfl
    (fun b => by simp only [planFst, scalarAddr_fetched, (Cluster.fetched_regs _ b _).2.1]) one_ne_zero
    (SlotWord.legal_of_form (slot := 1) (op := 0x1B) (u := { wide := true, a := true, b := true }) rfl hw (.inr hd) (.inl rfl) (.inl rfl)
      (.inr hc) (by simp [hm]) rfl)
    (by simp [hw]) hcl ⟨sramConds_none 1 hal hin, by simp [planFst], rfl, rfl, rfl, rfl, rfl⟩ (by simp [planFst])

end

/-! ## Lane operations (R153, R180) -/

theorem planV1_fetched (n : Nat) (b : Bundle) (k : Cluster) (w : Fields) (g : Word → Word × NFlags) :
    planV1 (k.fetched n b) w g = planV1 k w g := by
  obtain ⟨-, -, hv, -⟩ := Cluster.fetched_regs n b k
  simp only [planV1, planV, enOf_fetched, hv]

theorem planV2_fetched (n : Nat) (b : Bundle) (k : Cluster) (w : Fields) (g : Word → Word → Word × NFlags) :
    planV2 (k.fetched n b) w g = planV2 k w g := by
  obtain ⟨-, -, hv, -⟩ := Cluster.fetched_regs n b k
  simp only [planV2, planV, enOf_fetched, hv]

theorem planVfma_fetched (n : Nat) (b : Bundle) (k : Cluster) (w : Fields) : planVfma (k.fetched n b) w = planVfma k w := by
  obtain ⟨-, -, hv, -⟩ := Cluster.fetched_regs n b k
  simp only [planVfma, planV, enOf_fetched, hv]

theorem planVbcast_fetched (n : Nat) (b : Bundle) (k : Cluster) (w : Fields) : planVbcast (k.fetched n b) w = planVbcast k w := by
  obtain ⟨-, hf, -⟩ := Cluster.fetched_regs n b k
  simp only [planVbcast, planV, enOf_fetched, hf]

theorem planVsel_fetched (n : Nat) (b : Bundle) (k : Cluster) (w : Fields) : planVsel (k.fetched n b) w = planVsel k w := by
  obtain ⟨-, -, hv, hm, -⟩ := Cluster.fetched_regs n b k
  simp only [planVsel, planV, enOf_fetched, hv, hm]

section
variable {i : Instr} {s : State} {p : Place} {op : Byte} {w : Fields} {lat : Nat}

/-- A word of the vector slot whose plan is one vector result books it under its mask. -/
theorem State.books_v (P : Cluster → Plan) (r : List Word × NFlags) {u : Form} {reads : List Reg} {grp gap : Nat}
    (hi : exec i s = s.slotWord p 2 op w)
    (hplan : ∀ (t : State) c k b, t.vectorPlan c k b ⟨2, op, w⟩ = P k) (hfetch : ∀ n b k, P (Cluster.fetched n b k) = P k)
    (hP : P (s.clu p.cl) = { planV (s.clu p.cl) w reads r lat grp with gap := gap }) (hgap : gap ≤ 6)
    (hform : form 2 op.toNat = some u) (hu : u.wide = false ∧ u.d = true ∧ u.a = true ∧ u.md = 8) (hb : u.b = true ∨ w.b = 0)
    (hc : u.c = true ∨ w.c = 0) (hok : u.ok w = true) (hcl : Closes 6 p s) (hw : w.wide = false) (hm : w.mod.toNat < 8) :
    Books i 6 2 lat [.v w.d r.1 (enOf (s.clu p.cl) w)] r.2 p s := by
  obtain ⟨huw, hud, hua, hum⟩ := hu
  have hl : (⟨2, op, w⟩ : SlotWord).legal = true :=
    SlotWord.legal_of_form hform (hw.trans huw.symm) (.inl hud) (.inl hua) hb hc (by rw [hum]; exact hm) hok
  have h := State.books_of_plan (n := 6) P hi (hplan ..) (hfetch 6 · _) two_ne_zero hl (by simp [hw]) hcl
    (by rw [hP]; exact ⟨rfl, hgap, rfl, rfl, rfl, rfl, rfl⟩) (by rw [hP]; simp [planV])
  rw [hP] at h
  exact h

/-- A lane operation of one register books its lanes and their flags. -/
theorem State.books_v1 (g : Word → Word × NFlags) (hi : exec i s = s.slotWord p 2 op w)
    (hplan : ∀ (t : State) c k b, t.vectorPlan c k b ⟨2, op, w⟩ = planV1 k w g)
    (hform : form 2 op.toNat = some { wide := false, d := true, a := true, md := 8 }) (hcl : Closes 6 p s)
    (hw : w.wide = false) (hm : w.mod.toNat < 8) (hb : w.b = 0) (hc : w.c = 0) :
    let en := enOf (s.clu p.cl) w
    let r := lanes en fun l => g (((s.clu p.cl).vr w.a).getD l 0)
    Books i 6 2 2 [.v w.d r.1 en] r.2 p s := by
  intro en r
  exact State.books_v (planV1 · w g) r (reads := [.v w.a]) (grp := 10) (gap := 1) hi hplan (fun n b k => planV1_fetched ..)
    (by simp only [planV1, planV, laneOf, r, en]) (by decide) hform ⟨rfl, rfl, rfl, rfl⟩ (.inr hb) (.inr hc) rfl hcl hw hm

/-- A lane operation of two registers books its lanes and their flags. -/
theorem State.books_v2 (g : Word → Word → Word × NFlags) (hi : exec i s = s.slotWord p 2 op w)
    (hplan : ∀ (t : State) c k b, t.vectorPlan c k b ⟨2, op, w⟩ = planV2 k w g)
    (hform : form 2 op.toNat = some { wide := false, d := true, a := true, b := true, md := 8 }) (hcl : Closes 6 p s)
    (hw : w.wide = false) (hm : w.mod.toNat < 8) (hc : w.c = 0) :
    let en := enOf (s.clu p.cl) w
    let r := lanes en fun l => g (((s.clu p.cl).vr w.a).getD l 0) (((s.clu p.cl).vr w.b).getD l 0)
    Books i 6 2 6 [.v w.d r.1 en] r.2 p s := by
  intro en r
  exact State.books_v (planV2 · w g) r (reads := [.v w.a, .v w.b]) (grp := 9) (gap := 1) hi hplan (fun n b k => planV2_fetched ..)
    (by simp only [planV2, planV, laneOf, r, en]) (by decide) hform ⟨rfl, rfl, rfl, rfl⟩ (.inl rfl) (.inr hc) rfl hcl hw hm

/-- A root of each lane, which takes 20 steps. -/
theorem State.books_vroot (g : Word → Word × NFlags) (hi : exec i s = s.slotWord p 2 op w)
    (hplan : ∀ (t : State) c k b, t.vectorPlan c k b ⟨2, op, w⟩ = { planV1 k w g with lat := 20, group := 13, gap := 4 })
    (hform : form 2 op.toNat = some { wide := false, d := true, a := true, md := 8 }) (hcl : Closes 6 p s)
    (hw : w.wide = false) (hm : w.mod.toNat < 8) (hb : w.b = 0) (hc : w.c = 0) :
    let en := enOf (s.clu p.cl) w
    let r := lanes en fun l => g (((s.clu p.cl).vr w.a).getD l 0)
    Books i 6 2 20 [.v w.d r.1 en] r.2 p s := by
  intro en r
  exact State.books_v (fun k => { planV1 k w g with lat := 20, group := 13, gap := 4 }) r (reads := [.v w.a]) (grp := 13) (gap := 4) hi hplan
    (fun n b k => by rw [planV1_fetched]) (by simp only [planV1, planV, laneOf, r, en]) (by decide) hform ⟨rfl, rfl, rfl, rfl⟩ (.inr hb) (.inr hc) rfl
    hcl hw hm

theorem State.books_vdiv (hcl : Closes 6 p s) (hw : w.wide = false) (hm : w.mod.toNat < 8) (hc : w.c = 0) :
    let en := enOf (s.clu p.cl) w
    let r := lanes en fun l => f32div (((s.clu p.cl).vr w.a).getD l 0) (((s.clu p.cl).vr w.b).getD l 0)
    Books (.vdiv p w) 6 2 20 [.v w.d r.1 en] r.2 p s := by
  intro en r
  exact State.books_v (op := 0x05) (planVdiv · w) r (reads := [.v w.a, .v w.b]) (grp := 13) (gap := 4) rfl (fun _ _ _ _ => rfl)
    (fun n b k => by simp only [planVdiv, planV2_fetched]) (by simp only [planVdiv, planV2, planV, laneOf, r, en]) (by decide) rfl ⟨rfl, rfl, rfl, rfl⟩
    (.inl rfl) (.inr hc) rfl hcl hw hm

/-- VFMA books the sum of a product and a third register in each lane, rounded once. -/
theorem State.books_vfma (hcl : Closes 6 p s) (hw : w.wide = false) (hm : w.mod.toNat < 8) :
    let en := enOf (s.clu p.cl) w
    let r := lanes en fun l => f32fma (((s.clu p.cl).vr w.a).getD l 0) (((s.clu p.cl).vr w.b).getD l 0) (((s.clu p.cl).vr w.c).getD l 0)
    Books (.vfma p w) 6 2 6 [.v w.d r.1 en] r.2 p s := by
  intro en r
  exact State.books_v (op := 0x04) (planVfma · w) r (reads := [.v w.a, .v w.b, .v w.c]) (grp := 9) (gap := 1) rfl (fun _ _ _ _ => rfl)
    (fun n b k => planVfma_fetched ..) (by simp only [planVfma, planV, laneOf, r, en]) (by decide) rfl ⟨rfl, rfl, rfl, rfl⟩ (.inl rfl) (.inl rfl) rfl
    hcl hw hm

/-- VBCAST books a scalar register in every enabled lane. -/
theorem State.books_vbcast (hcl : Closes 6 p s) (hw : w.wide = false) (hm : w.mod.toNat < 8) (hb : w.b = 0) (hc : w.c = 0) :
    let en := enOf (s.clu p.cl) w
    let r := lanes en fun _ => (f32pass ((s.clu p.cl).fr w.a), NFlags.none)
    Books (.vbcast p w) 6 2 2 [.v w.d r.1 en] r.2 p s := by
  intro en r
  exact State.books_v (op := 0x0E) (planVbcast · w) r (reads := [.f w.a]) (grp := 10) (gap := 1) rfl (fun _ _ _ _ => rfl)
    (fun n b k => planVbcast_fetched ..) (by simp only [planVbcast, quietLanes, planV, r, en]) (by decide) rfl ⟨rfl, rfl, rfl, rfl⟩ (.inr hb)
    (.inr hc) rfl hcl hw hm

/-- VSEL books the lanes of one register where a mask enables them, and those of another elsewhere. -/
theorem State.books_vsel (hcl : Closes 6 p s) (hw : w.wide = false) (hm : w.mod.toNat < 8) (hc : w.c.toNat < 8) :
    let en := enOf (s.clu p.cl) w
    let r := lanes en fun l => (f32pass (if ((s.clu p.cl).mr (w.c.setWidth 3)).getLsbD l then ((s.clu p.cl).vr w.a).getD l 0
      else ((s.clu p.cl).vr w.b).getD l 0), NFlags.none)
    Books (.vsel p w) 6 2 2 [.v w.d r.1 en] r.2 p s := by
  intro en r
  exact State.books_v (op := 0x0D) (planVsel · w) r (reads := [.v w.a, .v w.b, .m (w.c.setWidth 3)]) (grp := 10) (gap := 1) rfl
    (fun _ _ _ _ => rfl) (fun n b k => planVsel_fetched ..) (by simp only [planVsel, quietLanes, planV, laneOf, r, en]) (by decide) rfl
    ⟨rfl, rfl, rfl, rfl⟩ (.inl rfl) (.inl rfl) (decide_eq_true hc) hcl hw hm

end

/-! ## Vector loads and stores (R181) -/

/-- The codes of the formats are 1 to 6 (R114). -/
theorem Fmt.code_of_ofCode {n : Nat} {g : Fmt} (h : Fmt.ofCode n = some g) : 1 ≤ n ∧ n ≤ 6 := by
  match n, h with
  | 1, _ | 2, _ | 3, _ | 4, _ | 5, _ | 6, _ => decide

section
variable {w : Fields} {g : Fmt} (hg : Fmt.ofCode w.c.toNat = some g)
include hg

theorem State.planVld_eq (c : ClusterId) (k : Cluster) (s : State) : s.planVld c k w =
    { reads := [enReg w, .x w.a], conds := sramConds 2 (k.xr w.a) (g.bytes 512) 64, sreads := [((k.xr w.a).toNat, g.bytes 512)]
      conf := [((k.xr w.a).toNat, g.bytes 512)], lat := 8
      targets := [.v w.d ((unpack g 512 (s.read (sramAddr c (k.xr w.a).toNat) (g.bytes 512))).map (BitVec.ofNat 32)) (enOf k w)]
      group := 14, fail := s.sramFail c (k.xr w.a).toNat (g.bytes 512) } := by
  simp only [State.planVld, hg]

theorem planVst_eq (k : Cluster) : planVst k w =
    { reads := [enReg w, .x w.a, .v w.b], conds := sramConds 2 (k.xr w.a) (g.bytes 512) 64, lat := 3
      targets := [.vst (k.xr w.a).toNat (w.c.setWidth 4) ((k.vr w.b).map fun x => BitVec.ofNat 32 (x.toNat % 2 ^ g.bits)) (enOf k w)]
      group := 15 } := by
  simp only [planVst, hg]

variable {s : State} {p : Place}

/-- VLD books 512 codes of its format, and corrects what it reads. -/
theorem State.reads_vld (hcl : Closes 6 p s) (hw : w.wide = false) (hm : w.mod.toNat < 8) (hb : w.b = 0) (ha : s.armed = [])
    (hbad : s.badWords = []) (hal : ((s.clu p.cl).xr w.a).toNat % 64 = 0) (hin : ((s.clu p.cl).xr w.a).toNat + g.bytes 512 ≤ 2 ^ 23) :
    let a := ((s.clu p.cl).xr w.a).toNat
    Reads (.vld p w) 6 2 8 a (g.bytes 512)
      [.v w.d ((unpack g 512 (s.read (sramAddr p.cl a) (g.bytes 512))).map (BitVec.ofNat 32)) (enOf (s.clu p.cl) w)] p s := by
  obtain ⟨h1, h6⟩ := Fmt.code_of_ofCode hg
  have h := State.reads_of_plan (i := .vld p w) (n := 6) (op := 0x10) (s.planVld p.cl · w) rfl rfl
    (fun b => by simp only [State.planVld_eq hg, (Cluster.fetched_regs _ b _).1, enOf_fetched]) two_ne_zero
    (SlotWord.legal_of_form rfl hw (.inl rfl) (.inl rfl) (.inr hb) (.inl rfl) hm (by simp [h1, h6])) (by simp [hw]) hcl
    (by rw [State.planVld_eq hg]
        exact ⟨sramConds_none 2 hal hin, by simp, rfl, State.sramFail_none ha hbad .., rfl, rfl⟩)
    (by rw [State.planVld_eq hg]; simp)
  rw [State.planVld_eq hg] at h
  exact h

/-- VST books the low bits of every lane. -/
theorem State.books_vst (hcl : Closes 6 p s) (hw : w.wide = false) (hm : w.mod.toNat < 8) (hd : w.d = 0)
    (hal : ((s.clu p.cl).xr w.a).toNat % 64 = 0) (hin : ((s.clu p.cl).xr w.a).toNat + g.bytes 512 ≤ 2 ^ 23) :
    Books (.vst p w) 6 2 3 [.vst ((s.clu p.cl).xr w.a).toNat (w.c.setWidth 4)
      (((s.clu p.cl).vr w.b).map fun x => BitVec.ofNat 32 (x.toNat % 2 ^ g.bits)) (enOf (s.clu p.cl) w)] NFlags.none p s := by
  obtain ⟨h1, h6⟩ := Fmt.code_of_ofCode hg
  have h := State.books_of_plan (i := .vst p w) (n := 6) (op := 0x11) (planVst · w) rfl rfl
    (fun b => by
      obtain ⟨hx, -, hv, -⟩ := Cluster.fetched_regs 6 b (s.clu p.cl)
      simp only [planVst_eq hg, hx, hv, enOf_fetched])
    two_ne_zero (SlotWord.legal_of_form rfl hw (.inr hd) (.inl rfl) (.inl rfl) (.inl rfl) hm (by simp [h1, h6])) (by simp [hw]) hcl
    (by rw [planVst_eq hg]
        exact ⟨sramConds_none 2 hal hin, by simp, rfl, rfl, rfl, rfl, rfl⟩)
    (by rw [planVst_eq hg]; simp)
  rw [planVst_eq hg] at h
  exact h

end

end Sys2Proof.Machine
open Sys2Proof Sys2Proof.Machine

/-- Settles O5: the address of each word meets no condition, so each books the results of its plan. -/
theorem scalarLoadsAndStoresBook : Obligations.ScalarLoadsAndStoresBook := by
  intro s p w hcl hw hc hm ha hb a
  refine ⟨fun hwb hal hin => ?_, fun hwb hal hin => ?_, fun hd hal hin => ?_, fun hd hal hin => ?_⟩
  · exact State.reads_load (fun v => .x w.d (BitVec.ofNat 64 v)) rfl (fun _ _ _ => rfl) rfl hcl hw hm hwb hc ha hb hal hin
  · exact State.reads_load (fun v => .f w.d (BitVec.ofNat 32 v)) rfl (fun _ _ _ => rfl) rfl hcl hw hm hwb hc ha hb hal hin
  · exact State.books_st hcl hw hm hd hc hal hin
  · exact State.books_fst hcl hw hm hd hc hal hin

/-- Settles O6: by the operations of two registers, of one, and of three, and the moves of lanes. -/
theorem laneOpsBookTheirResult : Obligations.LaneOpsBookTheirResult := by
  intro s p w hcl hw hm
  dsimp only
  refine ⟨fun e he hc => ?_, fun e he hb hc => ?_, State.books_vfma hcl hw hm, State.books_vbcast hcl hw hm, State.books_vsel hcl hw hm⟩
  · simp only [Claims.v2Ops, List.mem_cons, List.not_mem_nil, or_false] at he
    rcases he with rfl | rfl | rfl | rfl | rfl | rfl <;> dsimp only
    · exact State.books_v2 f32add rfl (fun _ _ _ _ => rfl) rfl hcl hw hm hc
    · exact State.books_v2 f32sub rfl (fun _ _ _ _ => rfl) rfl hcl hw hm hc
    · exact State.books_v2 f32mul rfl (fun _ _ _ _ => rfl) rfl hcl hw hm hc
    · exact State.books_vdiv hcl hw hm hc
    · exact State.books_v2 (fun a b => (f32max a b, NFlags.none)) rfl (fun _ _ _ _ => rfl) rfl hcl hw hm hc
    · exact State.books_v2 (fun a b => (f32min a b, NFlags.none)) rfl (fun _ _ _ _ => rfl) rfl hcl hw hm hc
  · simp only [Claims.v1Ops, List.mem_cons, List.not_mem_nil, or_false] at he
    rcases he with rfl | rfl | rfl | rfl <;> dsimp only
    · exact State.books_vroot f32sqrt rfl (fun _ _ _ _ => rfl) rfl hcl hw hm hb hc
    · exact State.books_vroot f32rsqrt rfl (fun _ _ _ _ => rfl) rfl hcl hw hm hb hc
    · exact State.books_v1 (fun a => (f32abs a, NFlags.none)) rfl (fun _ _ _ _ => rfl) rfl hcl hw hm hb hc
    · exact State.books_v1 (fun a => (f32neg a, NFlags.none)) rfl (fun _ _ _ _ => rfl) rfl hcl hw hm hb hc

/-- Settles O8: where the word's code names a format, its plan is the load or the store of 512 codes of that format. -/
theorem vectorLoadsAndStoresBook : Obligations.VectorLoadsAndStoresBook := by
  intro s p w g hcl hw hm hg ha hb k en a hal hin
  exact ⟨fun hwb => State.reads_vld hg hcl hw hm hwb ha hb hal hin, fun hd => State.books_vst hg hcl hw hm hd hal hin⟩
end

section
/-! SUPPORT. The control words that request a line, read the flags or read the status block, on a ready cluster (06 R157; 07 R172, R175,
R176). -/

namespace Sys2Proof.Machine

open Sys2Proof.Claims

/-! ## Lines of the cache (R156, R157) -/

/-- A line that stands in the cache after one has been brought to the front is that line or stood there before. -/
theorem Cluster.cached_of_touch {k : Cluster} {l m : Nat} (h : (k.touch m).cached l = true) : l = m ∨ k.cached l = true := by
  simp only [Cluster.cached, Cluster.touch, Table.get_set] at h ⊢
  split at h
  · rename_i hs
    have hmem := List.mem_of_mem_take (List.contains_iff_mem.mp h)
    rcases List.mem_cons.mp hmem with rfl | hold
    · exact .inl rfl
    · exact .inr (List.contains_iff_mem.mpr (hs ▸ List.mem_of_mem_erase hold))
  · exact .inr h

/-- Bringing lines of the cache to the front brings no line in. -/
theorem Cluster.cached_of_touchAll {ls : List Nat} {l : Nat} {k : Cluster} (hls : ∀ m ∈ ls, k.cached m = true)
    (h : (ls.foldl (fun (k : Cluster) m => k.touch m) k).cached l = true) : k.cached l = true := by
  suffices H : ∀ k' : Cluster, (∀ x, k'.cached x = true → k.cached x = true) →
      (ls.foldl (fun (k : Cluster) m => k.touch m) k').cached l = true → k.cached l = true from H k (fun _ => id) h
  clear h
  induction ls with
  | nil => exact fun k' hk h => hk l h
  | cons m ls ih =>
    intro k' hk h
    refine ih (fun x hx => hls x (List.mem_cons_of_mem m hx)) (k'.touch m) (fun x hx => ?_) h
    rcases Cluster.cached_of_touch hx with rfl | hx
    · exact hls x List.mem_cons_self
    · exact hk x hx

/-- The fetch of a bundle whose lines stand in the cache brings no line in. -/
theorem Cluster.cached_fetched {n l : Nat} {k : Cluster} (b : Bundle) (hls : ((linesOf k.pc.toNat n).all fun m => k.cached m) = true)
    (h : k.cached l = false) : (k.fetched n b).cached l = false := by
  rw [Bool.eq_false_iff] at h ⊢
  exact fun hx => h (Cluster.cached_of_touchAll (k := { k with forming := [], fetchQ := [b] }) (List.all_eq_true.mp hls) hx)

/-- A line that is neither in the cache nor awaited is awaited once it is wanted. -/
theorem Cluster.want_one {k : Cluster} {l : Nat} (hw : l ∉ k.iwait) (hc : k.cached l = false) :
    k.want [l] = { k with iwait := k.iwait ++ [l] } := by
  simp [Cluster.want, hw, hc]

/-! ## Control words that move nothing (R171, R175, R176) -/

theorem State.StaysQuiet.finish {s v : State} (h : s.StaysQuiet v) : s.finish s.time v = v := by
  obtain ⟨hq, hp, hf, ht⟩ := h
  exact State.finish_quiet hq hp hf (ht.trans (Nat.max_self _).symm)

/-- A closing control word on a ready cluster that branches nowhere, ends nothing and waits for nothing: its bundle issues, and the next one
follows it. -/
theorem State.controlWord_follows {i : Instr} {s : State} {p : Place} {op : Byte} {w : Fields} {n : Nat} {P : Plan}
    (hi : exec i s = s.slotWord p 0 op w) (hcl : Closes n p s) (hn : (if w.wide then 10 else 6) = n)
    (hl : (⟨0, op, w⟩ : SlotWord).legal = true)
    (hP : (s.atIssue p n (oneWord p 0 op w)).plan p.cl (oneWord p 0 op w) ⟨0, op, w⟩ = P)
    (hc : P.conds = []) (hg : P.gap ≤ 6) (hh : P.hold = .none) (hf : P.fail = none) (ht : P.tile = none)
    (ha : P.act = .none ∨ ∃ off, P.act = .pref off) :
    exec i s = .next (s.finish s.time (((s.setClu p.cl (((s.clu p.cl).fetched n (oneWord p 0 op w)).issues p.idle 0 P
      ((s.clu p.cl).pc + BitVec.ofNat 32 n, (s.clu p.cl).loops))).act p.cl P.act).correctRead p.cl P)) := by
  have hloop := ((Cluster.ready_iff n _).mp hcl.2.2.2.2).2.2.2.2.2.2.2.2.2.2.2.2.2.2.2.2.2.2
  obtain ⟨ic, hk⟩ := Cluster.fetched_eq n (oneWord p 0 op w) (s.clu p.cl)
  have hnx : (s.atIssue p n (oneWord p 0 op w)).nextPc ((s.clu p.cl).fetched n (oneWord p 0 op w)) n P.act =
      ((s.clu p.cl).pc + BitVec.ofNat 32 n, (s.clu p.cl).loops) := by
    have e : (s.atIssue p n (oneWord p 0 op w)).nextPc ((s.clu p.cl).fetched n (oneWord p 0 op w)) n P.act =
        (s.atIssue p n (oneWord p 0 op w)).nextPc ((s.clu p.cl).fetched n (oneWord p 0 op w)) n .none := by
      rcases ha with ha | ⟨off, ha⟩
      · rw [ha]
      · rw [ha]
        rfl
    rw [e, State.nextPc_ready _ (by rw [hk]; exact hloop), hk]
  rw [State.controlWord_acts hi hcl hn hl hP hc hg (by simp [ht]) hh hf (by rcases ha with ha | ⟨off, ha⟩ <;> simp [ha]), hnx]

/-- A closing control word that only computes books its results. -/
theorem State.controlWord_books {i : Instr} {s : State} {p : Place} {op : Byte} {w : Fields} {n : Nat} (P : Cluster → Plan)
    (hi : exec i s = s.slotWord p 0 op w)
    (hp : (s.atIssue p n (oneWord p 0 op w)).plan p.cl (oneWord p 0 op w) ⟨0, op, w⟩ = P ((s.atIssue p n (oneWord p 0 op w)).clu p.cl))
    (hfetch : ∀ b, P ((s.clu p.cl).fetched n b) = P (s.clu p.cl)) (hl : (⟨0, op, w⟩ : SlotWord).legal = true)
    (hn : (if w.wide then 10 else 6) = n) (hcl : Closes n p s) (hP : (P (s.clu p.cl)).OnlyComputes) (hT : (P (s.clu p.cl)).targets ≠ []) :
    Books i n 0 (P (s.clu p.cl)).lat (P (s.clu p.cl)).targets (P (s.clu p.cl)).flags p s := by
  obtain ⟨hc, hg, hh, hf, ha, ht, hv⟩ := hP
  rw [State.clu_atIssue, hfetch] at hp
  obtain ⟨hk, hin⟩ := Cluster.issues_issued (idle := p.idle) (slot := 0) (b := oneWord p 0 op w) hcl.2.2.2.2 hf ht
  refine ⟨_, ?_, hk, hin.trans (if_neg hT)⟩
  rw [State.controlWord_follows hi hcl hn hl hp hc hg hh hf ht (.inl ha), ha, State.correctRead_none _ hv]
  exact congrArg Host.Outcome.next ((State.StaysQuiet.refl hcl.1).setClu _ _).finish

section
variable {s : State} {p : Place} {w : Fields}

/-- What an issue leaves of a cluster, with other lines awaited. -/
theorem Issued.awaits {n : Nat} {idle : BitVec 4} {k k' : Cluster} (h : Issued n idle k k') (ls : List Nat) :
    Issued n idle { k with iwait := ls } { k' with iwait := ls } := by
  unfold Issued at *
  rw [h]

/-- PREF requests the line of its offset. -/
theorem State.pref_wants (hcl : Closes 10 p s) (hw : w.wide = true) (hd : w.d = 0) (hb : w.b = 0) (hc : w.c = 0) (hm : w.mod = 0)
    {line : Nat} (hline : ((s.clu p.cl).xr w.a + w.imm.signExtend 64).toNat / 128 = line) (hnew : line ∉ (s.clu p.cl).iwait)
    (hmiss : (s.clu p.cl).cached line = false) :
    ∃ k', exec (.pref p w) s = .next (s.setClu p.cl k') ∧
      Issued 10 p.idle { s.clu p.cl with iwait := (s.clu p.cl).iwait ++ [line] } k' ∧ k'.inflight = [] := by
  have hplan : (s.atIssue p 10 (oneWord p 0 0x08 w)).plan p.cl (oneWord p 0 0x08 w) ⟨0, 0x08, w⟩ = planPref (s.clu p.cl) w := by
    show planPref ((s.atIssue p 10 (oneWord p 0 0x08 w)).clu p.cl) w = _
    rw [State.clu_atIssue, planPref, (Cluster.fetched_regs 10 _ _).1]
    rfl
  obtain ⟨hk, hin⟩ := Cluster.issues_issued (P := planPref (s.clu p.cl) w) (idle := p.idle) (slot := 0) (b := oneWord p 0 0x08 w)
    hcl.2.2.2.2 rfl rfl
  have hrun := State.controlWord_follows (i := .pref p w) rfl hcl (by simp [hw])
    (SlotWord.legal_of_form (op := 0x08) rfl hw (.inr hd) (.inl rfl) (.inr hb) (.inr hc) (by simp [hm]) rfl) hplan rfl
    (by simp [planPref]) rfl rfl rfl (.inr ⟨_, rfl⟩)
  obtain ⟨-, -, -, -, -, -, -, -, -, -, -, -, -, -, -, -, -, hlines, -⟩ := (Cluster.ready_iff 10 _).mp hcl.2.2.2.2
  have hcached := Cluster.cached_fetched (oneWord p 0 0x08 w) hlines hmiss
  generalize hkf : ((s.clu p.cl).fetched 10 (oneWord p 0 0x08 w)).issues p.idle 0 (planPref (s.clu p.cl) w)
    ((s.clu p.cl).pc + BitVec.ofNat 32 10, (s.clu p.cl).loops) = k' at hk hin hrun
  have hiw : k'.iwait = (s.clu p.cl).iwait := by
    have h := hk
    unfold Issued at h
    rw [h]
  have hc' : k'.cached line = false := by rw [← hkf]; exact hcached
  have hact : (s.setClu p.cl k').act p.cl (planPref (s.clu p.cl) w).act = s.setClu p.cl { k' with iwait := (s.clu p.cl).iwait ++ [line] } := by
    show (s.setClu p.cl k').modClu p.cl (Cluster.want [((s.clu p.cl).xr w.a + w.imm.signExtend 64).toNat / 128]) = _
    rw [hline, State.modClu, State.clu_setClu_same, State.setClu_setClu, Cluster.want_one (by rwa [hiw]) hc', hiw]
  refine ⟨_, ?_, hk.awaits _, hin⟩
  rw [hrun, hact, State.correctRead_none _ rfl]
  exact congrArg Host.Outcome.next ((State.StaysQuiet.refl hcl.1).setClu _ _).finish

/-- RDFLG books the sticky flags. -/
theorem State.books_rdflg (hcl : Closes 6 p s) (hw : w.wide = false) (ha : w.a = 0) (hb : w.b = 0) (hc : w.c = 0) (hm : w.mod = 0) :
    Books (.rdflg p w) 6 0 1 [.x w.d (s.clu p.cl).flags.word] NFlags.none p s := by
  refine State.controlWord_books (op := 0x09) (planRdflg · w) rfl rfl (fun b => ?_)
    (SlotWord.legal_of_form (op := 0x09) rfl hw (.inl rfl) (.inr ha) (.inr hb) (.inr hc) (by simp [hm]) rfl) (by simp [hw]) hcl
    ⟨rfl, by simp [planRdflg], rfl, rfl, rfl, rfl, rfl⟩ (by simp [planRdflg])
  obtain ⟨-, -, -, -, -, -, -, -, -, -, hflags, -⟩ := Cluster.fetched_regs 6 b (s.clu p.cl)
  simp only [planRdflg, hflags]

/-- STAT books eight bytes of the snapshot. -/
theorem State.books_stat (hcl : Closes 10 p s) (hw : w.wide = true) (ha : w.a = 0) (hb : w.b = 0) (hc : w.c = 0) (hm : w.mod = 0)
    (hal : w.imm.toNat % 8 = 0) (hin : w.imm.toNat ≤ 0x58) :
    Books (.stat p w) 10 0 2 [.x w.d (BitVec.ofNat 64 (leNat (((s.clu p.cl).snap.drop w.imm.toNat).take 8)))] NFlags.none p s := by
  refine State.controlWord_books (op := 0x0A) (planStat · w) rfl rfl (fun b => ?_)
    (SlotWord.legal_of_form (op := 0x0A) rfl hw (.inl rfl) (.inr ha) (.inr hb) (.inr hc) (by simp [hm]) (by simp [hal, hin])) (by simp [hw]) hcl
    ⟨rfl, by simp [planStat], rfl, rfl, rfl, rfl, rfl⟩ (by simp [planStat])
  obtain ⟨-, -, -, -, -, -, -, -, -, -, -, -, -, -, -, -, -, -, -, -, hsnap⟩ := Cluster.fetched_regs 10 b (s.clu p.cl)
  simp only [planStat, hsnap]

end

/-- RDFLG's value has nv, of and uz as its bits 0, 1 and 2. -/
theorem NFlags.word_eq (f : NFlags) :
    f.word = BitVec.ofNat 64 ((if f.nv then 1 else 0) + (if f.ov then 2 else 0) + (if f.uz then 4 else 0)) := by
  obtain ⟨nv, ov, uz⟩ := f
  cases nv <;> cases ov <;> cases uz <;> rfl

end Sys2Proof.Machine
open Sys2Proof Sys2Proof.Machine

/-- Settles O13: PREF wants a line that nothing has requested; RDFLG and STAT book what their plans read. -/
theorem cacheFlagAndStatusReads : Obligations.CacheFlagAndStatusReads := by
  intro s p w k
  refine ⟨fun hcl hw hd hb hc hm hnew hmiss => State.pref_wants hcl hw hd hb hc hm rfl hnew hmiss, fun hcl hw ha hb hc hm => ?_,
    fun hcl hw ha hb hc hm hal hin => State.books_stat hcl hw ha hb hc hm hal hin⟩
  rw [← NFlags.word_eq]
  exact State.books_rdflg hcl hw ha hb hc hm
end

section
/-! SUPPORT. The issue of an array operation on a ready cluster (06 R150; 07 R183, R185, R192). -/

namespace Sys2Proof.Machine

open Sys2Proof.Claims

/-- The plan of an array operation reads memory, the tile that was issued before it and the number of signatures. -/
theorem State.planMma_congr {s t : State} {c : ClusterId} (hm : t.mem = s.mem) (hl : (t.clu c).lastTile = (s.clu c).lastTile)
    (hq : (t.clu c).signSeq = (s.clu c).signSeq) (acc : Bool) (ta : DWord) (n : Nat) : t.planMma c acc ta n = s.planMma c acc ta n := by
  have hread : ∀ a n, t.read a n = s.read a n := fun a n => by simp only [State.read, hm]
  have hinit : ∀ acc a r n, t.initialC c acc a r n = s.initialC c acc a r n := fun _ _ _ _ => by
    unfold State.initialC
    simp only [State.readLe, hread, hl]
  have hchain : ∀ acc a r n, (t.clu c).chains acc a r n = (s.clu c).chains acc a r n := fun _ _ _ _ => by simp only [Cluster.chains, hl]
  simp only [State.planMma, State.stippleRow, State.denseRow, hread, hinit, hchain, hq]

/-- What the issue of one array operation on a ready cluster leaves of the cluster. -/
theorem Cluster.issues_tile {n slot : Nat} {idle : BitVec 4} {b : Bundle} {P : Plan} {x : Tile} {k : Cluster} (hr : k.ready n = true)
    (hf : P.fail = none) (ht : P.tile = some x) (hT : P.targets = []) :
    Issued n idle { k with tiles := [x], lastTile := some x, signSeq := k.signSeq + 1 }
      ((k.fetched n b).issues idle slot P (k.pc + BitVec.ofNat 32 n, k.loops)) ∧
    ((k.fetched n b).issues idle slot P (k.pc + BitVec.ofNat 32 n, k.loops)).inflight = [] := by
  obtain ⟨ic, hk⟩ := Cluster.fetched_eq n b k
  obtain ⟨h1, -, -, -, h5, h6, h7, h8, h9, h10, h11, -⟩ := (Cluster.ready_iff n _).mp hr
  unfold Issued Cluster.issues
  rw [hk]
  simp only [Cluster.book, hf, ht, hT, List.isEmpty_nil, if_true]
  constructor <;> repeat' split
  all_goals simp [h1, h5, h6, h7, h8, h9, h10, h11]

/-- MMA puts the tile of its descriptors in progress, and corrects what the array reads. -/
theorem State.mma_starts {s : State} {p : Place} {w : Fields} {x : Tile} (hcl : Closes 6 p s) (hw : w.wide = false) (hd : w.d = 0)
    (hb : w.b = 0) (hc : w.c = 0) (hm : w.mod.toNat < 2) (ha : s.armed = []) (hbad : s.badWords = []) {m : ArrayPlan}
    (hplan : s.planMma p.cl (w.mod.getLsbD 0) ((s.clu p.cl).xr w.a) (s.clu p.cl).stepCount = m) (hconds : m.conds = [])
    (htile : m.tile = some x) :
    ∃ k', exec (.mma p w) s = .next (s.setClu p.cl k') ∧
      Issued 6 p.idle { corrected m.bytes p.cl s (s.clu p.cl) with
        tiles := [x], lastTile := some x, signSeq := (s.clu p.cl).signSeq + 1 } k' ∧ k'.inflight = [] := by
  obtain ⟨hq, hcc, hmore, hstray, hr⟩ := hcl
  have hregs := Cluster.fetched_regs 6 (oneWord p 3 0x01 w) (s.clu p.cl)
  have hP : (s.atIssue p 6 (oneWord p 3 0x01 w)).plan p.cl (oneWord p 3 0x01 w) ⟨3, 0x01, w⟩ =
      { conds := m.conds, reads := [.x w.a], sreads := m.reads, conf := m.bytes, tile := m.tile, group := 20 } := by
    obtain ⟨hx, -, -, -, -, -, -, -, -, hstep, -, -, -, -, -, -, hsign, hlast, -⟩ := hregs
    show (s.atIssue p 6 (oneWord p 3 0x01 w)).planMmaWord p.cl ((s.atIssue p 6 (oneWord p 3 0x01 w)).clu p.cl) w = _
    have hmem := State.planMma_congr (t := s.atIssue p 6 (oneWord p 3 0x01 w)) (s := s) (c := p.cl) rfl
      (by rw [State.clu_atIssue, hlast]) (by rw [State.clu_atIssue, hsign]) (w.mod.getLsbD 0)
    have hfail : ∀ c off n, (s.atIssue p 6 (oneWord p 3 0x01 w)).sramFail c off n = none := State.sramFail_none ha hbad
    simp only [State.planMmaWord, State.clu_atIssue, hx, hstep, hmem, hplan, hfail]
    simp
  have hl : (⟨3, 0x01, w⟩ : SlotWord).legal = true :=
    SlotWord.legal_of_form rfl hw (.inr hd) (.inl rfl) (.inr hb) (.inr hc) hm rfl
  have hplace := State.slot_issues (b := oneWord p 3 0x01 w) rfl ((oneWord_size p 3 0x01 w).trans (by simp [hw])) hmore hstray hr hl
    (by decide) hP hconds (by simp) (fun _ _ => rfl) rfl rfl
  obtain ⟨hk, hin⟩ := Cluster.issues_tile (idle := p.idle) (slot := 3) (b := oneWord p 3 0x01 w) (x := x)
    (P := { conds := m.conds, reads := [.x w.a], sreads := m.reads, conf := m.bytes, tile := m.tile, group := 20 }) hr rfl htile rfl
  refine ⟨corrected m.bytes p.cl s _, ?_, hk.corrected .., hin⟩
  have hi : exec (.mma p w) s = s.slotWord p 3 0x01 w := rfl
  rw [hi, State.slotWord_enabled hcc, hplace]
  have hact : ∀ t : State, t.act p.cl .none = t := fun _ => rfl
  rw [hact, State.correctRead_eq]
  exact congrArg Host.Outcome.next (State.finish_quiet (State.quiet_congr hq rfl rfl rfl rfl rfl rfl) rfl rfl (Nat.max_self _).symm)

end Sys2Proof.Machine
open Sys2Proof Sys2Proof.Machine

/-- Settles O14: a ready cluster has no tile in progress, so the tile of the word's plan is the one that is. -/
theorem mmaStartsItsTile : Obligations.MmaStartsItsTile := by
  intro s p w x hcl hw hd hb hc hm ha hbad k m hconds htile
  exact State.mma_starts hcl hw hd hb hc hm ha hbad rfl hconds htile
end

section
/-! SUPPORT. Results that land in a cluster, and the end of an impression (06 R155; 07 R168, R198, R200). -/

namespace Sys2Proof.Machine

open Sys2Proof.Claims

/-! ## What landing changes (R144, R150, R168) -/

/-- t is s after results of cluster c have landed: registers, flags and corrected words of c, and memory, may differ. -/
structure State.Lands (c : ClusterId) (s t : State) : Prop where
  state : t = { s with clusters := t.clusters, mem := t.mem, weakWords := t.weakWords }
  others : ∀ d, d ≠ c → t.clu d = s.clu d
  core : t.clu c = { s.clu c with
    x := (t.clu c).x, f := (t.clu c).f, v := (t.clu c).v, m := (t.clu c).m, cx := (t.clu c).cx, flags := (t.clu c).flags
    sramCorrected := (t.clu c).sramCorrected }

theorem State.Lands.refl (c : ClusterId) (s : State) : s.Lands c s := ⟨rfl, fun _ _ => rfl, rfl⟩

theorem State.Lands.trans {c : ClusterId} {s t u : State} (h : s.Lands c t) (g : t.Lands c u) : s.Lands c u where
  state := by rw [g.state, h.state]
  others d hd := (g.others d hd).trans (h.others d hd)
  core := by rw [g.core, h.core]

theorem State.Lands.badWords {c : ClusterId} {s t : State} (h : s.Lands c t) : t.badWords = s.badWords := by rw [h.state]

/-- A change of the registers, the flags and the count of corrected words of a cluster. -/
theorem State.Lands.modClu (c : ClusterId) (s : State) (g : Cluster → Cluster) (hg : ∀ k, g k = { k with
    x := (g k).x, f := (g k).f, v := (g k).v, m := (g k).m, cx := (g k).cx, flags := (g k).flags, sramCorrected := (g k).sramCorrected }) :
    s.Lands c (s.modClu c g) where
  state := rfl
  others d hd := by rw [State.modClu, State.clu_setClu, if_neg hd]
  core := by rw [State.clu_modClu_same]; exact hg _

theorem State.Lands.corrects (c : ClusterId) (ws : List Nat) (s : State) : s.Lands c (s.corrects c ws) := by
  unfold State.corrects
  split
  · exact .refl c s
  · exact .modClu c s _ fun _ => rfl

/-- A change of memory and of the known single-bit errors. -/
theorem State.Lands.memory (c : ClusterId) (s : State) (m : Memory) (ws : List Nat) : s.Lands c { s with mem := m, weakWords := ws } :=
  ⟨rfl, fun _ _ => rfl, rfl⟩

/-- A write where no word is uncorrectable stores all its bytes, and leaves the words that it covers or merges good. -/
theorem State.write_eq {s : State} (hb : s.badWords = []) (a : Nat) (bs : List Byte) : s.write a bs =
    { s with mem := Memory.writeN a bs s.mem, weakWords := s.weakWords.filter fun w => !meets a bs.length w (codeWord w) } := by
  have hsp : s.spoiled a bs.length = [] := by simp [State.spoiled, hb]
  simp only [State.write, hsp, writeSkip_nil, hb, List.filter_nil]

section
variable {c : ClusterId} {s : State} (hb : s.badWords = [])
include hb

theorem State.merge_lands (off : Nat) (bs : List Byte) : s.Lands c (s.merge c off bs).1 ∧ (s.merge c off bs).2 = none := by
  have hsp : s.spoiled (sramAddr c off) bs.length = [] := by simp [State.spoiled, hb]
  have hc := State.Lands.corrects c ((s.weakIn (sramAddr c off) bs.length).filter fun w => !inside w 8 (sramAddr c off) bs.length) s
  refine ⟨hc.trans ?_, by simp [State.merge, hsp]⟩
  simp only [State.merge]
  rw [State.write_eq (hc.badWords.trans hb)]
  exact .memory c _ _ _

theorem State.landVst_lands (a : Nat) (f : Fmt) (ls : List Word) (mask : BitVec 512) :
    s.Lands c (s.landVst c a f ls mask).1 ∧ (s.landVst c a f ls mask).2 = none := by
  have hc := State.Lands.corrects c ((s.weakIn a (f.bytes 512)).filter (partialWords a f mask).contains) s
  refine ⟨hc.trans ?_, by simp [State.landVst, hb]⟩
  simp only [State.landVst, hc.badWords, hb, List.filter_nil]
  rw [show ([] : List Nat) = (s.corrects c ((s.weakIn a (f.bytes 512)).filter (partialWords a f mask).contains)).badWords from
    (hc.badWords.trans hb).symm]
  exact .memory c _ _ _

/-- A target lands without a failed merge where no word is uncorrectable. -/
theorem State.land_lands (t : Target) : s.Lands c (s.land c t).1 ∧ (s.land c t).2 = none := by
  cases t with
  | x r v => exact ⟨.modClu c s (Cluster.setX r v) fun k => by unfold Cluster.setX; split <;> rfl, rfl⟩
  | f r v => exact ⟨.modClu c s (Cluster.setF r v) fun k => rfl, rfl⟩
  | v r ls mask => exact ⟨.modClu c s (Cluster.setV r ls mask) fun k => by simp only [Cluster.setV], rfl⟩
  | m r v mask => exact ⟨.modClu c s (Cluster.setM r v mask) fun k => by unfold Cluster.setM; split <;> rfl, rfl⟩
  | cx v => exact ⟨.modClu c s (fun k => { k with cx := v }) fun k => rfl, rfl⟩
  | sram a bs => exact State.merge_lands hb a bs
  | vst a f ls mask =>
    simp only [State.land]
    split
    · exact State.landVst_lands hb ..
    · exact ⟨.refl c s, rfl⟩

end

/-- A fold of landings lands, without a failed merge. -/
theorem State.foldl_lands {α : Type} {c : ClusterId} {f : State → α → State × Option (Nat × Nat)} (l : List α)
    (hf : ∀ (s : State) (a : α), s.badWords = [] → s.Lands c (f s a).1 ∧ (f s a).2 = none) {s : State} (hb : s.badWords = []) :
    let r := l.foldl (fun acc a => ((f acc.1 a).1, acc.2.orElse fun _ => (f acc.1 a).2)) (s, none)
    s.Lands c r.1 ∧ r.2 = none := by
  induction l generalizing s with
  | nil => exact ⟨.refl c s, rfl⟩
  | cons a l ih =>
    obtain ⟨h1, h2⟩ := hf s a hb
    obtain ⟨g1, g2⟩ := ih (h1.badWords.trans hb)
    simp only [List.foldl_cons, h2, Option.orElse_none] at g1 g2 ⊢
    exact ⟨h1.trans g1, g2⟩

theorem State.landOne_lands {c : ClusterId} {s : State} (hb : s.badWords = []) (r : InFlight) :
    s.Lands c (s.landOne c r).1 ∧ (s.landOne c r).2 = none := by
  have h0 : s.Lands c (s.modClu c fun k => { k with flags := k.flags.or r.flags }) := .modClu c s _ fun _ => rfl
  obtain ⟨h1, h2⟩ := State.foldl_lands (c := c) (f := fun s t => ((s.land c t).1, (s.land c t).2.map fun a => (a, r.slot))) r.targets
    (fun s t hs => by obtain ⟨g1, g2⟩ := State.land_lands (c := c) hs t; exact ⟨g1, by rw [g2]; rfl⟩) (h0.badWords.trans hb)
  exact ⟨h0.trans h1, h2⟩

/-- Where no tile is in progress and no word is uncorrectable, the results that are due land, and the others stay in flight. -/
theorem State.landDue_lands {c : ClusterId} {n : Nat} {s : State} (ht : (s.clu c).tiles = []) (hb : s.badWords = []) :
    ∃ t, s.Lands c t ∧ s.landDue c n =
      (t.setClu c { t.clu c with inflight := (s.clu c).inflight.filter fun (r : InFlight) => decide (n < r.land) }, none) := by
  obtain ⟨h1, h2⟩ := State.foldl_lands (c := c) (f := fun s r => s.landOne c r) (dueBefore n (s.clu c).inflight)
    (fun s r hs => State.landOne_lands hs r) hb
  refine ⟨_, h1, ?_⟩
  simp only [State.landDue, ht, List.filter_nil, List.foldl_nil, h2, State.modClu]
  rw [h1.core]
  simp only [ht, List.filter_nil]

/-! ## The end of an ending impression's step (R155, R198, R200) -/

theorem State.jobSlot_congr {s t : State} (h : t.jobs = s.jobs) (no : JobNo) : t.jobSlot no = s.jobSlot no := by simp only [State.jobSlot, h]

/-- The status of a schedule entry whose program has ended. -/
def Job.entryEnded (e now : Nat) (code : BitVec 16) (stalls : Nat) (r : Option FaultRec) (j : Job) : Job :=
  { j with prog := Table.set EntryProg.reset e { Table.get EntryProg.reset e j.prog with
      running := false, ended := now, code := code, stalls := stalls, record := r } j.prog }

theorem State.imprStatus_eq {s : State} {no : JobNo} {k : Nat} (hr : Rising s) (hk : s.jobSlot no = some k) (e : Nat) (code : BitVec 16)
    (stalls : Nat) (r : Option FaultRec) : s.imprStatus no e code stalls r = s.modJob no (Job.entryEnded e s.time code stalls r) := by
  rw [State.imprStatus, State.entryDone, State.modJob_modJob hr hk (State.job_no hr hk)]
  congr 1
  funext j
  simp only [Job.entryEnded, Table.get_set_same, Table.set_set]

/-- The impression of a cluster, where it has one, ends in its schedule entry. -/
def State.endsEntry (c : ClusterId) (code : BitVec 16) (r : Option FaultRec) (s : State) : State :=
  match (s.clu c).impr with
  | some i => s.modJob i.job (Job.entryEnded i.entry s.time code (s.clu c).imprStall r)
  | none => s

/-- A core that is IDLE with a halt code. -/
def Cluster.idles (code : BitVec 16) (k : Cluster) : Cluster := { k.ended with gstate := .idle, job := 0, impr := none, haltCode := code }

/-- A core that is HALTED with a fault record. -/
def Cluster.haltsWith (r : FaultRec) (k : Cluster) : Cluster := { k.ended with gstate := .halted, faultRec := some r }

theorem State.endsEntry_jobs (c : ClusterId) (code : BitVec 16) (r : Option FaultRec) (s : State) :
    s.endsEntry c code r = { s with jobs := (s.endsEntry c code r).jobs } := by
  unfold State.endsEntry
  split
  · exact State.modJob_jobs ..
  · rfl

theorem State.StaysQuiet.endsEntry {u v : State} (h : u.StaysQuiet v) (c : ClusterId) (code : BitVec 16) (r : Option FaultRec) :
    u.StaysQuiet (v.endsEntry c code r) := by
  unfold State.endsEntry
  split
  · exact h.modJob _ fun j hj => hj
  · exact h

theorem State.tryIssue_ending {c : ClusterId} {s : State} (h : (s.clu c).ending ≠ none) : s.tryIssue c = s := by
  simp only [State.tryIssue, h, and_false, if_false]

theorem State.tryIssue_stopped {c : ClusterId} {s : State} (h : (s.clu c).gstate = .idle ∨ (s.clu c).gstate = .halted) : s.tryIssue c = s := by
  rcases h with h | h <;> simp [State.tryIssue, h]

/-- An ending impression with a result in flight goes on. -/
theorem State.endIfLanded_waits {c : ClusterId} {s : State} (h : (s.clu c).inflight ≠ []) : s.endIfLanded c = s := by
  have hi := List.isEmpty_eq_false_iff.mpr h
  rw [State.endIfLanded, hi, Bool.false_and]
  cases (s.clu c).ending with
  | none => rfl
  | some e => cases e <;> rfl

section
variable {c : ClusterId} {s : State} (hi : (s.clu c).inflight = []) (ht : (s.clu c).tiles = []) (hr : Rising s)
  (hj : ∀ i, (s.clu c).impr = some i → s.jobSlot i.job ≠ none ∧ (s.job i.job).proofRole = 0)
include hi ht hr hj

/-- The core becomes IDLE with its halt code once all has landed. -/
theorem State.endIfLanded_halt {code : BitVec 16} (he : (s.clu c).ending = some (.halt code)) : s.endIfLanded c =
    (s.endsEntry c code none).setClu c ((s.clu c).idles code) := by
  have hclu : ∀ v : State, v = { s with jobs := v.jobs } → v.clu c = s.clu c := fun v hv => by rw [hv]; rfl
  simp only [State.endIfLanded, he, hi, ht, List.isEmpty_nil, Bool.and_self, State.modClu, State.endsEntry]
  cases himpr : (s.clu c).impr with
  | none => rfl
  | some i =>
    obtain ⟨k, hk⟩ := Option.ne_none_iff_exists'.mp (hj i himpr).1
    simp only [State.imprStatus_eq hr hk]
    rw [hclu _ (State.modJob_jobs ..)]
    rfl

/-- The core becomes HALTED with its fault record once all has landed. -/
theorem State.endIfLanded_fault {r : FaultRec} (he : (s.clu c).ending = some (.fault r)) : s.endIfLanded c =
    (s.endsEntry c r.code (some r)).setClu c ((s.clu c).haltsWith r) := by
  have hclu : ∀ v : State, v = { s with jobs := v.jobs } → v.clu c = s.clu c := fun v hv => by rw [hv]; rfl
  simp only [State.endIfLanded, he, hi, ht, List.isEmpty_nil, Bool.and_self, State.modClu, State.endsEntry]
  cases himpr : (s.clu c).impr with
  | none => rfl
  | some i =>
    obtain ⟨hslot, hproof⟩ := hj i himpr
    obtain ⟨k, hk⟩ := Option.ne_none_iff_exists'.mp hslot
    simp only [State.imprStatus_eq hr hk]
    rw [State.sign_plain (by rw [State.job_modJob hr hk (State.job_no hr hk)]; exact hproof), hclu _ (State.modJob_jobs ..)]
    rfl

end

/-- What a step that ends leaves before its impression may end: its counts, what is due has landed, and the status block has been read. -/
structure State.StepLanded (c : ClusterId) (u w : State) : Prop where
  state : w = { u with clusters := w.clusters, mem := w.mem, weakWords := w.weakWords }
  others : ∀ d, d ≠ c → w.clu d = u.clu d
  core : w.clu c = { u.endedStep c with
    x := (w.clu c).x, f := (w.clu c).f, v := (w.clu c).v, m := (w.clu c).m, cx := (w.clu c).cx, flags := (w.clu c).flags
    sramCorrected := (w.clu c).sramCorrected, snap := (w.clu c).snap
    inflight := (u.clu c).inflight.filter fun (r : InFlight) => decide ((u.clu c).stepCount < r.land) }

namespace State.StepLanded

variable {c : ClusterId} {u w : State} (h : u.StepLanded c w)
include h

theorem jobs : w.jobs = u.jobs := by rw [h.state]
theorem gstate : (w.clu c).gstate = (u.clu c).gstate := by rw [h.core]; rfl
theorem ending : (w.clu c).ending = (u.clu c).ending := by rw [h.core]; rfl
theorem job : (w.clu c).job = (u.clu c).job := by rw [h.core]; rfl
theorem impr : (w.clu c).impr = (u.clu c).impr := by rw [h.core]; rfl

theorem tiles (ht : (u.clu c).tiles = []) : (w.clu c).tiles = [] := by
  rw [h.core]
  simp only [State.endedStep, Cluster.endStep, ht, List.map_nil]

theorem inflight : (w.clu c).inflight = (u.clu c).inflight.filter fun (r : InFlight) => decide ((u.clu c).stepCount < r.land) := by
  rw [h.core]

theorem staysQuiet (hq : u.quiet = true) : u.StaysQuiet w := by
  rw [h.state]
  exact ⟨State.quiet_congr hq rfl rfl rfl rfl rfl rfl, rfl, rfl, rfl⟩

end State.StepLanded

/-- A step that may end, without a tile in progress, a fault that is due or an uncorrectable word: what is due lands. -/
theorem State.stepEnd_lands {c : ClusterId} {u : State} (hm : (u.clu c).mayEnd u.time = true) (ht : (u.clu c).tiles = [])
    (hd : (u.clu c).dueFault = none) (hb : u.badWords = []) : ∃ w, u.StepLanded c w ∧ u.stepEnd c = (w.endIfLanded c).tryIssue c := by
  have hk : (u.setClu c (u.endedStep c)).clu c = u.endedStep c := State.clu_setClu_same ..
  have ht' : (u.endedStep c).tiles = [] := by simp only [State.endedStep, Cluster.endStep, ht, List.map_nil]
  obtain ⟨v, hv, hland⟩ := State.landDue_lands (c := c) (n := (u.clu c).stepCount) (s := u.setClu c (u.endedStep c)) (by rw [hk, ht']) hb
  have hcore := hv.core
  rw [hk] at hcore hland
  have hdue : (v.clu c).dueFault = none := by
    rw [hcore]
    exact hd
  refine ⟨(v.setClu c { v.clu c with inflight := (u.clu c).inflight.filter fun (r : InFlight) => decide ((u.clu c).stepCount < r.land) }).snapshot c,
    ⟨?_, fun d hd => ?_, ?_⟩, ?_⟩
  · rw [hv.state]
    rfl
  · simp only [State.snapshot, State.modClu, State.clu_setClu, if_neg hd]
    rw [hv.others d hd, State.clu_setClu, if_neg hd]
  · simp only [State.snapshot, State.clu_modClu_same, State.clu_setClu_same]
    rw [hcore]
  · rw [State.endedStep] at hland
    rw [State.stepEnd, if_pos hm, hland]
    simp only [State.clu_setClu_same, hdue]
    rfl

/-- The step of an ending impression: it goes on while a result is in flight, and has ended once all has landed. -/
theorem exec_clusterStepEnd_ending {s : State} {cl : ClusterId} {now : Nat} {e : Ending} {u : State} (hu : s.advanceTo now = u)
    (hc : s.hasCluster cl = true) (hm : (u.clu cl).mayEnd u.time = true) (he : (u.clu cl).ending = some e)
    (ht : (u.clu cl).tiles = []) (hd : (u.clu cl).dueFault = none) (hb : u.badWords = []) :
    ∃ w, u.StepLanded cl w ∧ (∀ t, (w.endIfLanded cl).tryIssue cl = t → u.StaysQuiet t → exec (.clusterStepEnd cl now) s = .next t) := by
  obtain ⟨w, hw, hstep⟩ := State.stepEnd_lands hm ht hd hb
  refine ⟨w, hw, fun t ht' hquiet => ?_⟩
  subst hu
  rw [exec_clusterStepEnd, State.StaysQuiet.onCluster hc (by rw [hstep, ht']; exact hquiet), hstep, ht']

section
variable {c : ClusterId} {u w : State} (hw : u.StepLanded c w)
include hw

/-- An impression that has ended changes what its step has changed, and the job table. -/
theorem State.StepLanded.endsEntry_state (code : BitVec 16) (r : Option FaultRec) (k : Cluster) :
    let t := (w.endsEntry c code r).setClu c k
    t = { u with clusters := t.clusters, jobs := t.jobs, mem := t.mem, weakWords := t.weakWords } := by
  intro t
  simp only [t]
  rw [State.endsEntry_jobs, hw.state]
  rfl

theorem State.StepLanded.endsEntry_others (code : BitVec 16) (r : Option FaultRec) (k : Cluster) (d : ClusterId) (hd : d ≠ c) :
    ((w.endsEntry c code r).setClu c k).clu d = u.clu d := by
  rw [State.clu_setClu, if_neg hd, State.endsEntry_jobs]
  exact hw.others d hd

/-- The schedule entry of an impression that has ended no longer runs, and keeps the code and the record. -/
theorem State.StepLanded.endsEntry_prog (hr : Rising u) {i : ImprRef} (hi : (u.clu c).impr = some i) (hslot : u.jobSlot i.job ≠ none)
    (code : BitVec 16) (r : Option FaultRec) (k : Cluster) :
    let q := Table.get EntryProg.reset i.entry (((w.endsEntry c code r).setClu c k).job i.job).prog
    q.running = false ∧ q.ended = u.time ∧ q.code = code ∧ q.record = r := by
  rw [← State.jobSlot_congr hw.jobs] at hslot
  obtain ⟨n, hn⟩ := Option.ne_none_iff_exists'.mp hslot
  have hrise : Rising w := by rw [Rising, hw.jobs]; exact hr
  have htime : w.time = u.time := by rw [hw.state]
  rw [State.job_congr (show ((w.endsEntry c code r).setClu c k).jobs = (w.endsEntry c code r).jobs from rfl), State.endsEntry, hw.impr.trans hi]
  simp only
  rw [State.job_modJob hrise hn (State.job_no hrise hn), Job.entryEnded]
  simp only [Table.get_set_same, htime, and_self]

end

/-! ## HALT (R155) -/

/-- The issue of a bundle of one HALT: its impression is to end. -/
theorem State.issueNow_halt {s : State} {c : ClusterId} {b : Bundle} {w : SlotWord} {P : Plan} {n : Nat} {code : BitVec 16}
    (hp : s.plans c b = [(w, P)]) (hf : P.fail = none) (hs : w.slot = 0) (hn : b.size = n) (ha : P.act = .halt code) (hv : P.conf = []) :
    s.issueNow c b = (s.setClu c ((s.clu c).issues b.idle 0 P (s.nextPc (s.clu c) n .none))).willEnd c (.halt code) := by
  have hnx : s.nextPc (s.clu c) n (.halt code) = s.nextPc (s.clu c) n .none := rfl
  have hact : ∀ t : State, t.act c (.halt code) = t := fun _ => rfl
  simp [State.issueNow, hp, hf, failOf, hs, hn, Cluster.issues, ha, hnx, hact, State.correctRead_none _ hv]

/-- The requests of a cluster that wait for a granule no longer wait. -/
def DieState.abandons (c : ClusterId) (x : DieState) : DieState := { x with waiters := x.waiters.filter fun w => w.owner != c.toNat }

/-- A cluster whose impression is to end, at its last bundle. -/
def Cluster.willEnd (e : Ending) (k : Cluster) : Cluster :=
  { k with ending := some e, gstate := .running, holdCause := .none, forming := [], fetchQ := [], waitDone := none, gateDone := false
           startGate := none, grant := none, waitDeadline := none, iwait := [], fetchBad := [] }

theorem State.willEnd_eq {c : ClusterId} {k : Cluster} {e : Ending} (s : State) (hg : k.grant = none) (he : k.ending = none) :
    (s.setClu c k).willEnd c e = (s.modDie c.die (DieState.abandons c)).setClu c (k.willEnd e) := by
  simp only [State.willEnd, State.abandon, State.clu_setClu_same, hg, State.modClu]
  rw [show ((s.setClu c k).modDie c.die fun d => { d with waiters := d.waiters.filter fun w => w.owner != c.toNat }) =
    (s.modDie c.die (DieState.abandons c)).setClu c k from rfl]
  simp only [State.clu_setClu_same, State.setClu_setClu, he, Cluster.willEnd]

section
variable {s : State} {p : Place} {w : Fields}

/-- HALT issues the last bundle of its impression. -/
theorem State.halt_ends (hcl : Closes 10 p s) (hw : w.wide = true) (hd : w.d = 0) (ha : w.a = 0) (hb : w.b = 0) (hc : w.c = 0) (hm : w.mod = 0)
    (hi : w.imm.toNat < 2 ^ 16) :
    ∃ k', exec (.halt p w) s = .next ((s.modDie p.cl.die (DieState.abandons p.cl)).setClu p.cl k') ∧
      Issued 10 p.idle { s.clu p.cl with ending := some (.halt (w.imm.setWidth 16)), iwait := [] } k' ∧ k'.inflight = [] := by
  obtain ⟨hq, hcc, hmore, hstray, hr⟩ := hcl
  obtain ⟨h1, h2, -, -, h5, h6, -, -, h9, h10, h11, -, h13, he, -, -, -, -, hloop⟩ := (Cluster.ready_iff 10 _).mp hr
  have hP : (s.atIssue p 10 (oneWord p 0 0x07 w)).plan p.cl (oneWord p 0 0x07 w) ⟨0, 0x07, w⟩ = planHalt w := rfl
  have hl : (⟨0, 0x07, w⟩ : SlotWord).legal = true :=
    SlotWord.legal_of_form rfl hw (.inr hd) (.inr ha) (.inr hb) (.inr hc) (by simp [hm]) (decide_eq_true hi)
  have hz : (oneWord p 0 0x07 w).size = 10 := (oneWord_size p 0 0x07 w).trans (by simp [hw])
  have hp := State.plans_one (s := s.atIssue p 10 (oneWord p 0 0x07 w)) (c := p.cl) (b := oneWord p 0 0x07 w) rfl hl
  rw [hP] at hp
  have hplace := State.place_ready (b := oneWord p 0 0x07 w) rfl hz hmore hstray hr
    (State.conds_one rfl hl hr (by rw [hP]; rfl) rfl hz (by rw [hP]; simp [planHalt]) (by rw [hP]; simp [planHalt]))
    (by rw [hp]; intro x hx; rw [List.mem_singleton.mp hx]; rfl)
  obtain ⟨hk, hin⟩ := Cluster.issues_issued (P := planHalt w) (idle := p.idle) (slot := 0) (b := oneWord p 0 0x07 w) hr rfl rfl
  obtain ⟨-, -, -, -, -, -, -, hpc, hloops, -⟩ := Cluster.fetched_regs 10 (oneWord p 0 0x07 w) (s.clu p.cl)
  rw [State.issueNow_halt hp rfl rfl hz rfl rfl, State.clu_atIssue, State.nextPc_ready _ (by rw [hpc, hloops]; exact hloop), hpc, hloops,
    State.atIssue, State.setClu_setClu, show (oneWord p 0 0x07 w).idle = p.idle from rfl] at hplace
  generalize ((s.clu p.cl).fetched 10 (oneWord p 0 0x07 w)).issues p.idle 0 (planHalt w)
    ((s.clu p.cl).pc + BitVec.ofNat 32 10, (s.clu p.cl).loops) = k' at hk hin hplace
  refine ⟨k'.willEnd (.halt (w.imm.setWidth 16)), ?_, ?_, hin⟩
  · have hi : exec (.halt p w) s = s.slotWord p 0 0x07 w := rfl
    have hgrant : k'.grant = none ∧ k'.ending = none := by
      have h := hk
      unfold Issued at h
      rw [h]
      exact ⟨h11, he⟩
    rw [hi, State.slotWord_enabled hcc, hplace, State.willEnd_eq s hgrant.1 hgrant.2]
    exact congrArg Host.Outcome.next (((State.StaysQuiet.refl hq).modDie _ (DieState.abandons p.cl) rfl).setClu _ _).finish
  · unfold Issued at hk ⊢
    rw [hk]
    simp [Cluster.willEnd, h1, h2, h5, h6, h9, h10, h11, h13]

end

end Sys2Proof.Machine
open Sys2Proof Sys2Proof.Machine

/-- Settles O12: by the issue of HALT, by the words of a cluster that is ending, and by whether a result is still in flight when a step ends. -/
theorem haltEndsTheImpression : Obligations.HaltEndsTheImpression := by
  refine ⟨fun s p w hcl hw hd ha hb hc hm hi => ?_, fun s p w hq hcc he => ?_, ?_⟩
  · obtain ⟨k', hrun, hk, hin⟩ := State.halt_ends hcl hw hd ha hb hc hm hi
    have hcode : w.imm.setWidth 16 = w.imm.extractLsb' 0 16 := by ext i; simp
    refine ⟨_, hrun, rfl, fun d => ?_, fun c hne => ?_, ?_, ?_⟩
    · refine (State.die_setDie (s := s) p.cl.die d (DieState.abandons p.cl (s.die p.cl.die))).trans ?_
      split
      · rename_i hd
        rw [hd]
        rfl
      · rfl
    · exact (State.clu_setClu ..).trans (if_neg hne)
    · rw [State.clu_setClu_same, ← hcode]
      exact hk
    · rw [State.clu_setClu_same]
      exact hin
  · have hplace : s.place p 1 0x01 w = s := by simp only [State.place, he, and_false, if_false]
    have hi : exec (.add p w) s = s.slotWord p 1 0x01 w := rfl
    rw [hi, State.slotWord_enabled hcc, hplace]
    exact congrArg Host.Outcome.next (State.StaysQuiet.refl hq).finish
  · intro s cl now e hq hcc u k hg he ht hd hdue hr hj hb
    have hm : k.mayEnd u.time = true := (Cluster.mayEnd_iff ..).mpr ⟨hg, (Cluster.paceEnd_noTile ht).trans_lt hdue⟩
    obtain ⟨w, hw, hrun⟩ := exec_clusterStepEnd_ending rfl hcc hm he ht hd hb
    have hjobs := hw.jobs
    have hquiet := hw.staysQuiet (State.advanceTo_quiet now hq)
    by_cases hfly : ∃ r ∈ k.inflight, k.stepCount < r.land
    · obtain ⟨r, hr, hlate⟩ := hfly
      have hne : (w.clu cl).inflight ≠ [] := List.ne_nil_of_mem (a := r) (by rw [hw.inflight]; exact List.mem_filter.mpr ⟨hr, decide_eq_true hlate⟩)
      refine ⟨w, hrun w ?_ hquiet, ?_, hw.others, fun _ => ⟨hw.gstate.trans hg, hw.ending.trans he, hjobs⟩, fun hall => ?_⟩
      · rw [State.endIfLanded_waits hne, State.tryIssue_ending (by rw [hw.ending, he]; simp)]
      · rw [hw.state]
      · exact absurd (hall r hr) (Nat.not_le.mpr hlate)
    · have hall : (w.clu cl).inflight = [] := by
        rw [hw.inflight, List.filter_eq_nil_iff]
        simpa using hfly
      have hslot : ∀ i, (w.clu cl).impr = some i → w.jobSlot i.job ≠ none ∧ (w.job i.job).proofRole = 0 := fun i hi => by
        rw [State.jobSlot_congr hjobs, State.job_congr hjobs]
        exact hj i (hw.impr.symm.trans hi)
      have hrise : Claims.Rising w := by rw [Claims.Rising, hjobs]; exact hr
      cases e with
      | halt code =>
        have hend := State.endIfLanded_halt hall (hw.tiles ht) hrise hslot (hw.ending.trans he)
        have hclu := State.clu_setClu_same cl ((w.clu cl).idles code) (w.endsEntry cl code none)
        refine ⟨_, hrun _ ?_ ((hquiet.endsEntry cl code none).setClu cl ((w.clu cl).idles code)), hw.endsEntry_state .., hw.endsEntry_others _ _ _,
          fun hlate => absurd hlate hfly, fun _ => ⟨?_, ?_, ?_, fun i hi => hw.endsEntry_prog hr hi (hj i hi).1 ..⟩⟩
        · rw [hend, State.tryIssue_stopped (.inl (by rw [hclu]; rfl))]
        · rw [hclu]
          exact hall
        · rw [hclu]
          rfl
        · rw [hclu]
          exact ⟨rfl, rfl, rfl, rfl⟩
      | fault r =>
        have hend := State.endIfLanded_fault hall (hw.tiles ht) hrise hslot (hw.ending.trans he)
        have hclu := State.clu_setClu_same cl ((w.clu cl).haltsWith r) (w.endsEntry cl r.code (some r))
        refine ⟨_, hrun _ ?_ ((hquiet.endsEntry cl r.code (some r)).setClu cl ((w.clu cl).haltsWith r)), hw.endsEntry_state ..,
          hw.endsEntry_others _ _ _, fun hlate => absurd hlate hfly, fun _ => ⟨?_, ?_, ?_, fun i hi => hw.endsEntry_prog hr hi (hj i hi).1 ..⟩⟩
        · rw [hend, State.tryIssue_stopped (.inr (by rw [hclu]; rfl))]
        · rw [hclu]
          exact hall
        · rw [hclu]
          rfl
        · rw [hclu]
          exact ⟨rfl, rfl, hw.job, hw.impr⟩
end

section
/-! SUPPORT. The lines of an instruction cache that arrive, and the reads of a cluster that fill them (06 R156 to R158; 17 R440). -/

namespace Sys2Proof.Machine

/-! ## A read of sound memory (R150, R440, R441) -/

theorem State.noteRead_dies (a n : Nat) (s : State) : s.noteRead a n = { s with dies := (s.noteRead a n).dies } := by
  unfold State.noteRead
  split <;> rfl

theorem State.StaysQuiet.noteRead {u v : State} (h : u.StaysQuiet v) (a n : Nat) : u.StaysQuiet (v.noteRead a n) := by
  unfold State.noteRead
  split
  · exact h.modDie _ _ rfl
  · exact h

/-- A cluster that waits for a refresh notes till when; nothing else changes. -/
theorem State.holdRefresh_cluster (a n : Nat) (c : ClusterId) (s : State) : s.holdRefresh a n (c.setWidth 16) = s ∨
    ∃ till, s.holdRefresh a n (c.setWidth 16) = s.setClu c { s.clu c with refreshTill := till } := by
  have hreq : (c.setWidth 16).toNat < 256 := by
    rw [BitVec.toNat_setWidth]
    omega
  have hback : (c.setWidth 16).setWidth 8 = c := by simp
  simp only [State.holdRefresh, hreq, hback, if_true]
  split
  · split
    · exact .inl rfl
    · exact .inr ⟨_, rfl⟩
  · exact .inl rfl

/-- A demand read of sound memory: its bytes, the wait of its requester, and the counts of the stack. -/
theorem State.demand_reads {s : State} {a n : Nat} {req : BitVec 16} (hs : (s.holdRefresh a n req).sound) (no : JobNo) :
    s.demand a n req no = (((s.holdRefresh a n req).read a n, none), (s.holdRefresh a n req).noteRead a n) := by
  obtain ⟨hb, hw, ha⟩ := hs.noteRead a n
  have hweak : ((s.holdRefresh a n req).noteRead a n).weakIn a n = [] := by rw [State.weakIn, hw]; rfl
  have hcor : ((s.holdRefresh a n req).noteRead a n).corrections a n req no = (s.holdRefresh a n req).noteRead a n := by
    unfold State.corrections
    rw [hweak]
    split <;> rfl
  have hread : ((s.holdRefresh a n req).noteRead a n).read a n = (s.holdRefresh a n req).read a n := by simp [State.read]
  simp only [State.demand, State.armedIn, ha, hb, List.find?_nil, Option.map_none, hcor, hread]

/-- v is u after a read by cluster c: the cluster may wait for a refresh, and the stack counts the read. -/
structure State.ReadBy (c : ClusterId) (u v : State) : Prop where
  state : v = { u with clusters := v.clusters, dies := v.dies }
  core : v.clu c = { u.clu c with refreshTill := (v.clu c).refreshTill }
  others : ∀ d, d ≠ c → v.clu d = u.clu d

theorem State.ReadBy.noteRead {c : ClusterId} {u v : State} (h : u.ReadBy c v) (a n : Nat) : u.ReadBy c (v.noteRead a n) := by
  rw [State.noteRead_dies]
  exact ⟨by rw [h.state], h.core, h.others⟩

/-- A demand read of sound memory by a cluster meets no failure. -/
theorem State.demand_cluster {u : State} (hq : u.quiet = true) (hs : u.sound) (a n : Nat) (c : ClusterId) (no : JobNo) :
    (u.demand a n (c.setWidth 16) no).1.2 = none ∧ u.ReadBy c (u.demand a n (c.setWidth 16) no).2 ∧
      u.StaysQuiet (u.demand a n (c.setWidth 16) no).2 := by
  obtain ⟨v, hv, hread, hquiet⟩ : ∃ v, u.holdRefresh a n (c.setWidth 16) = v ∧ u.ReadBy c v ∧ u.StaysQuiet v := by
    rcases State.holdRefresh_cluster a n c u with h | ⟨till, h⟩
    · exact ⟨_, h, ⟨rfl, rfl, fun _ _ => rfl⟩, .refl hq⟩
    · refine ⟨_, h, ⟨rfl, ?_, fun d hd => (State.clu_setClu ..).trans (if_neg hd)⟩, (State.StaysQuiet.refl hq).setClu _ _⟩
      rw [State.clu_setClu_same]
  have hsv : v.sound := by rw [hread.state]; exact hs
  rw [State.demand_reads (hv ▸ hsv), hv]
  exact ⟨rfl, hread.noteRead a n, hquiet.noteRead a n⟩

/-! ## Lines that arrive (R156 to R158) -/

theorem Cluster.cached_touch_same (line : Nat) (k : Cluster) : (k.touch line).cached line = true := by
  simp [Cluster.cached, Cluster.touch]

/-- A cluster that a line has reached. -/
def Cluster.lineIn (line : Nat) (k : Cluster) : Cluster := { k.touch line with iwait := k.iwait.erase line }

/-- A good line that was awaited enters the cache. -/
theorem State.lineFill_good {c : ClusterId} {line : Nat} {u : State} (hq : u.quiet = true) (hs : u.sound) (hf : (u.clu c).fetchQ = [])
    (hw : line ∈ (u.clu c).iwait) : ∃ v, u.ReadBy c v ∧ u.StaysQuiet v ∧ u.lineFill c line .good = v.setClu c ((v.clu c).lineIn line) := by
  have hfill : u.lineFill c line .good = u.lineRead c line := by
    simp only [State.lineFill, List.contains_iff_mem.mpr hw]
    rfl
  obtain ⟨hgood, hread, hquiet⟩ := State.demand_cluster hq hs ((u.clu c).codeBase.toNat + 128 * line) 128 c (u.clu c).job
  refine ⟨_, hread, hquiet, ?_⟩
  have hq' : ((State.modClu c (Cluster.lineIn line) (u.demand ((u.clu c).codeBase.toNat + 128 * line) 128 (c.setWidth 16) (u.clu c).job).2).clu c).fetchQ =
      [] := by
    rw [State.clu_modClu_same, hread.core]
    exact hf
  rw [hfill, State.lineRead]
  simp only [hgood]
  exact State.tryIssue_noBundle hq'

/-- A parity error in a line that was awaited is counted, and the line stays awaited. -/
theorem State.lineFill_parity {c : ClusterId} {line : Nat} {u : State} (hw : line ∈ (u.clu c).iwait) (hc : (u.clu c).cached line = false) :
    u.lineFill c line .parity = u.setClu c { u.clu c with icacheRefetch := sat32 (u.clu c).icacheRefetch 1 } := by
  simp only [State.lineFill, hc, List.contains_iff_mem.mpr hw]
  rfl

/-- The cache of a cluster without a line. -/
def Cluster.without (line : Nat) (k : Cluster) : Table (List Nat) :=
  Table.set [] (line % 128) ((Table.get [] (line % 128) k.icache).erase line) k.icache

/-- The lines that a cluster awaits, with one more. -/
def Cluster.awaits (line : Nat) (k : Cluster) : List Nat := if k.iwait.contains line then k.iwait else k.iwait ++ [line]

theorem Cluster.cached_without {line : Nat} {k : Cluster} (h : (Table.get [] (line % 128) k.icache).Nodup) :
    ({ k with icache := k.without line } : Cluster).cached line = false := by
  simp [Cluster.cached, Cluster.without, h.not_mem_erase]

theorem Cluster.mem_awaits (line : Nat) (k : Cluster) : line ∈ k.awaits line := by
  unfold Cluster.awaits
  split
  · exact List.contains_iff_mem.mp ‹_›
  · simp

/-- A parity error in a line of the cache discards the line, which is awaited. -/
theorem State.lineFill_discards {c : ClusterId} {line : Nat} {u : State} (hc : (u.clu c).cached line = true) :
    u.lineFill c line .parity = u.setClu c { u.clu c with
      icache := (u.clu c).without line, iwait := (u.clu c).awaits line, icacheRefetch := sat32 (u.clu c).icacheRefetch 1 } := by
  simp only [State.lineFill, hc]
  rfl

theorem exec_icacheLineFill (cl : ClusterId) (line : BitVec 32) (how : FillKind) (now : Nat) (s : State) :
    exec (.icacheLineFill cl line how now) s = s.onCluster cl now fun s => s.lineFill cl line.toNat how := by rfl

end Sys2Proof.Machine
open Sys2Proof Sys2Proof.Machine

/-- Settles O23: by what a fill does of a line that is awaited, and of a line of the cache. -/
theorem cacheLinesFill : Obligations.CacheLinesFill := by
  intro s cl line now hq hcc ha hb hw u k hf
  have huq : u.quiet = true := State.advanceTo_quiet now hq
  have hu : u.sound := by simp [u, State.sound, ha, hb, hw]
  refine ⟨fun hawaited => ?_, fun hawaited hmiss => ?_, fun hcached hnodup => ?_⟩
  · obtain ⟨v, hv, hquiet, hfill⟩ := State.lineFill_good huq hu hf hawaited
    have hclu := State.clu_setClu_same cl ((v.clu cl).lineIn line.toNat) v
    refine ⟨v.setClu cl ((v.clu cl).lineIn line.toNat), ?_, ?_, ?_, ?_, ?_, fun c hne => ?_⟩
    · rw [exec_icacheLineFill, State.StaysQuiet.onCluster hcc (by rw [hfill]; exact hquiet.setClu _ _), hfill]
    · rw [hv.state]
      rfl
    · rw [hclu]
      exact Cluster.cached_touch_same ..
    · rw [hclu, Cluster.lineIn, hv.core]
    · rw [hclu, Cluster.lineIn, hv.core]
      rfl
    · exact ((State.clu_setClu ..).trans (if_neg hne)).trans (hv.others c hne)
  · have hfill := State.lineFill_parity hawaited hmiss
    rw [exec_icacheLineFill, State.StaysQuiet.onCluster hcc (by rw [hfill]; exact (State.StaysQuiet.refl huq).setClu _ _), hfill]
    rfl
  · have hfill := State.lineFill_discards hcached
    refine ⟨k.without line.toNat, k.awaits line.toNat, ?_, k.mem_awaits _, Cluster.cached_without hnodup⟩
    rw [exec_icacheLineFill, State.StaysQuiet.onCluster hcc (by rw [hfill]; exact (State.StaysQuiet.refl huq).setClu _ _), hfill]
    rfl
end

section
/-! SUPPORT. External accesses to a cluster's SRAM, and scrubs of its words (06 R146, R150). -/

namespace Sys2Proof.Machine

open Sys2Proof.Claims

/-! ## Events of a cluster at the present instant -/

theorem State.StaysQuiet.onCluster_now {s : State} {c : ClusterId} {e : State → State} (hc : s.hasCluster c = true)
    (h : s.StaysQuiet (e s)) : s.onCluster c s.time e = .next (e s) := by
  have ht : s.advanceTo s.time = s := State.advanceTo_past (Nat.le_refl _)
  have := State.StaysQuiet.onCluster (now := s.time) (e := e) hc (by rw [ht]; exact h)
  rwa [ht] at this

/-- Known errors of memory words are no part of what follows a command. -/
theorem State.StaysQuiet.words {u v : State} (h : u.StaysQuiet v) (m : Memory) (bad weak : List Nat) :
    u.StaysQuiet { v with mem := m, badWords := bad, weakWords := weak } :=
  ⟨State.quiet_congr h.1 rfl rfl rfl rfl rfl rfl, h.2⟩

theorem State.StaysQuiet.corrects {u v : State} (h : u.StaysQuiet v) (c : ClusterId) (ws : List Nat) : u.StaysQuiet (v.corrects c ws) := by
  unfold State.corrects
  split
  · exact h
  · exact h.setClu _ _

/-- A change of the pair state that adds no SEAL. -/
theorem State.StaysQuiet.modPair {u v : State} (h : u.StaysQuiet v) (g : Pair → Pair) (hg : ∀ p, (g p).seals = p.seals) :
    u.StaysQuiet (v.modPair g) := by
  obtain ⟨hq, h⟩ := h
  rw [State.quiet_iff] at hq
  exact ⟨(State.quiet_iff _).mpr (by simpa [State.modPair, hg] using hq), h⟩

/-! ## Words of an SRAM (R150) -/

/-- An address of an SRAM lies below the stacks. -/
theorem sramAddr_lt (c : ClusterId) {o : Nat} (ho : o < 2 ^ 23) : sramAddr c o < 2 ^ 62 := by
  have hc := c.isLt
  simp only [sramAddr]
  omega

/-- The protected word of an SRAM address has 8 bytes. -/
theorem wordStart_sram (c : ClusterId) {o : Nat} (ho : o < 2 ^ 23) : wordStart (sramAddr c o) = sramAddr c o / 8 * 8 := by
  simp only [wordStart, codeWord, if_pos (sramAddr_lt c ho)]

theorem State.wordFinds_eq (w : Nat) (found : Syndrome) (s : State) : s.wordFinds w found = finds w found s := by
  simp only [State.wordFinds, finds, List.contains_iff_mem]

/-- What has been found of a word is found of it again. -/
theorem finds_finds (w : Nat) (found : Syndrome) (s : State) : finds w (finds w found s) s = finds w found s := by
  unfold finds
  by_cases hb : w ∈ s.badWords
  · simp [hb]
  · by_cases hc : found = .clean ∧ w ∈ s.weakWords
    · simp [hb, hc]
    · simp [hb, hc]

/-- A cluster of s that has corrected n more words. -/
def State.counted (c : ClusterId) (n : Nat) (s : State) : State :=
  if n = 0 then s else s.setClu c { s.clu c with sramCorrected := min ((s.clu c).sramCorrected + n) 0xFFFFFFFF }

theorem State.corrects_eq (c : ClusterId) (ws : List Nat) (s : State) : s.corrects c ws = s.counted c ws.length := by
  cases ws with
  | nil => rfl
  | cons w ws => rfl

theorem State.StaysQuiet.counted {u v : State} (h : u.StaysQuiet v) (c : ClusterId) (n : Nat) : u.StaysQuiet (v.counted c n) := by
  unfold State.counted
  split
  · exact h
  · exact h.setClu _ _

/-- A list of words with one more, once. -/
def withWord (w : Nat) (ws : List Nat) : List Nat := if w ∈ ws then ws else ws ++ [w]

theorem withWord_erase (w : Nat) (ws : List Nat) : (withWord w ws).erase w = ws.erase w := by
  unfold withWord
  split
  · rfl
  · rename_i h
    rw [List.erase_append_right _ h, List.erase_of_not_mem h]
    simp

theorem mem_withWord {x w : Nat} {ws : List Nat} : x ∈ withWord w ws ↔ x = w ∨ x ∈ ws := by
  unfold withWord
  split
  · exact ⟨.inr, fun h => h.elim (fun h => h ▸ ‹_›) id⟩
  · simp [or_comm]

section
variable {c : ClusterId} {a : Nat} {found : Syndrome} {s : State} {beside : List Nat}

theorem State.foundSram_clean (h : finds (wordStart a) found s = .clean) : s.foundSram c a found beside = s.counted c beside.length := by
  simp only [State.foundSram, State.wordFinds_eq, h, State.corrects_eq]

theorem State.foundSram_corrected (h : finds (wordStart a) found s = .corrected) : s.foundSram c a found beside =
    { s.counted c (beside.length + 1) with weakWords := withWord (wordStart a) s.weakWords } := by
  simp only [State.foundSram, State.wordFinds_eq, h, State.corrects_eq, List.contains_iff_mem, List.length_cons]
  rfl

theorem State.foundSram_uncorrectable (h : finds (wordStart a) found s = .uncorrectable) : s.foundSram c a found beside =
    { s.counted c beside.length with badWords := withWord (wordStart a) s.badWords } := by
  simp only [State.foundSram, State.wordFinds_eq, h, State.corrects_eq, List.contains_iff_mem]
  rfl

end

/-! ## External accesses -/

theorem inside_meets {a n w m : Nat} (hm : 0 < m) (h : inside w m a n = true) : meets a n w m = true := by
  simp only [inside, meets, Bool.and_eq_true, decide_eq_true_eq] at h ⊢
  omega

theorem codeWord_pos (a : Nat) : 0 < codeWord a := by
  unfold codeWord
  split <;> decide

/-- A write that meets no uncorrectable word leaves the uncorrectable words as they are. -/
theorem State.write_noBad {s : State} {a : Nat} {bs : List Byte} (h : ∀ w ∈ s.badWords, meets a bs.length w (codeWord w) = false) :
    s.spoiled a bs.length = [] ∧ (s.write a bs).badWords = s.badWords := by
  constructor
  · simp only [State.spoiled, List.filter_eq_nil_iff]
    intro w hw
    simp [h w hw]
  · simp only [State.write, List.filter_eq_self, Bool.not_eq_true']
    intro w hw
    exact Bool.eq_false_iff.mpr fun hin => by simpa [inside_meets (codeWord_pos w) hin] using h w hw

/-- The words of an SRAM beside its first that a read corrects. -/
theorem State.weakBeside_sram (c : ClusterId) {o : Nat} (ho : o < 2 ^ 23) (n : Nat) (s : State) :
    s.weakBeside (sramAddr c o) n = s.weakWords.filter fun x =>
      meets (sramAddr c o) n x (codeWord x) && x != sramAddr c o / 8 * 8 && decide (x ∉ s.badWords) := by
  rw [State.weakBeside, State.weakIn, List.filter_filter, wordStart_sram c ho]
  congr 1
  funext x
  by_cases hx : x ∈ s.badWords <;> simp [hx, Bool.and_comm]

theorem exec_sramExternalAccess_now {s : State} {cl : ClusterId} (hc : s.hasCluster cl = true) (a : ExtAccess)
    (h : s.StaysQuiet (s.external cl a)) : exec (.sramExternalAccess cl a) s = .next (s.external cl a) := by
  rw [exec_sramExternalAccess_enabled a hc]
  exact State.StaysQuiet.onCluster_now hc h

/-! ## Scrubs -/

/-- The state in which a scrub has found an uncorrectable word: the event log tells it, and the pair state keeps when. -/
def State.tellsBadWord (c : ClusterId) (word : Nat) (s : State) : State :=
  ({ s with badWords := withWord (sramAddr c (8 * word)) s.badWords }.log Code.sramUncorrectable clsCluster (c.setWidth 16) 0
    (BitVec.ofNat 32 (8 * word))).modPair fun p => { p with lastTrig := some s.time }

section
variable {c : ClusterId} {word : Nat} {found : Syndrome} {s : State} (hw : 8 * word < 2 ^ 23)
include hw

/-- The address of a word of an SRAM is its first byte. -/
theorem wordStart_word : wordStart (sramAddr c (8 * word)) = sramAddr c (8 * word) := by
  rw [wordStart_sram c hw]
  simp only [sramAddr]
  omega

/-- What a scrub has found of a word is what its access finds. -/
theorem found_word {r : Syndrome} (h : finds (sramAddr c (8 * word)) found s = r) :
    finds (wordStart (sramAddr c (8 * word))) (finds (sramAddr c (8 * word)) found s) s = r := by
  rw [wordStart_word hw, finds_finds, h]

theorem State.scrubSram_clean (h : finds (sramAddr c (8 * word)) found s = .clean) : s.scrubSram c word found = s := by
  have hf := State.foundSram_clean (c := c) (beside := []) (found_word hw h)
  simp only [State.scrubSram, State.wordFinds_eq, hf]
  simp [h, State.counted]

theorem State.scrubSram_corrected (h : finds (sramAddr c (8 * word)) found s = .corrected) :
    s.scrubSram c word found = { s.counted c 1 with weakWords := s.weakWords.erase (sramAddr c (8 * word)) } := by
  have hf := State.foundSram_corrected (c := c) (beside := []) (found_word hw h)
  simp only [State.scrubSram, State.wordFinds_eq, hf, wordStart_word hw]
  simp [h, withWord_erase]

theorem State.scrubSram_uncorrectable (h : finds (sramAddr c (8 * word)) found s = .uncorrectable) (hr : s.pair.recovering = false)
    (hst : s.pair.st ≠ .fenced) (hl : s.pair.lastTrig ≠ some s.time) : s.scrubSram c word found = s.tellsBadWord c word := by
  have hf := State.foundSram_uncorrectable (c := c) (beside := []) (found_word hw h)
  simp only [State.scrubSram, State.wordFinds_eq, hf, wordStart_word hw]
  simp [h, State.counted, State.trigger, State.tellsBadWord, hr, hst, hl]

end

theorem exec_sramScrub_now {s : State} {cl : ClusterId} (hc : s.hasCluster cl = true) (word : BitVec 20) (found : Syndrome)
    (h : s.StaysQuiet (s.scrubSram cl word.toNat found)) :
    exec (.sramScrub cl word found) s = .next (s.scrubSram cl word.toNat found) :=
  State.StaysQuiet.onCluster_now (e := fun s => s.scrubSram cl word.toNat found) hc h

end Sys2Proof.Machine
open Sys2Proof Sys2Proof.Machine

/-- Settles O24: by what an access finds of the words that it meets, and what each of these findings counts, stores and reports. -/
theorem sramIsReadWrittenAndScrubbed : Obligations.SramIsReadWrittenAndScrubbed := by
  intro s cl hq hc k
  have hr : s.StaysQuiet s := .refl hq
  refine ⟨?_, ?_, ?_, ?_⟩
  · intro o sent bs hbad
    obtain ⟨hspoiled, hkept⟩ := State.write_noBad hbad
    refine ⟨s.write (sramAddr cl o.toNat) bs, exec_sramExternalAccess_now hc (.write o sent) (hr.words _ _ _), ?_,
      fun a => State.read_write a _ bs hspoiled⟩
    conv_rhs => rw [← hkept]
    rfl
  · intro o n found a w read beside counted
    have hword : wordStart a = w := wordStart_sram cl o.isLt
    have hread {t : State} (ht : s.foundSram cl a found (s.weakBeside a (min n (2 ^ 23 - o.toNat))) = t) (hqt : s.StaysQuiet t) :
        exec read s = .next t := by
      subst ht
      exact exec_sramExternalAccess_now hc (.read o n found) hqt
    have hbeside : (s.weakBeside a (min n (2 ^ 23 - o.toNat))).length = beside :=
      congrArg List.length (State.weakBeside_sram cl o.isLt _ s)
    refine ⟨fun h => hread ?_ (hr.counted cl beside), fun h => hread ?_ ((hr.counted cl (beside + 1)).words _ _ _),
      fun h => hread ?_ ((hr.counted cl beside).words _ _ _)⟩
    · rw [State.foundSram_clean (by rwa [hword]), hbeside]
      rfl
    · rw [State.foundSram_corrected (by rwa [hword]), hbeside, hword]
      rfl
    · rw [State.foundSram_uncorrectable (by rwa [hword]), hbeside, hword]
      rfl
  · intro word found w scrub
    have hlt : 8 * word.toNat < 2 ^ 23 := by omega
    have hscrub {t : State} (ht : s.scrubSram cl word.toNat found = t) (hqt : s.StaysQuiet t) : exec scrub s = .next t := by
      subst ht
      exact exec_sramScrub_now hc word found hqt
    refine ⟨fun h => hscrub (State.scrubSram_clean hlt h) hr,
      fun h => hscrub (State.scrubSram_corrected hlt h) ((hr.setClu cl _).words _ _ _), fun h hrec hst hl => ?_⟩
    exact ⟨s.tellsBadWord cl word.toNat, hscrub (State.scrubSram_uncorrectable hlt h hrec hst hl)
      (((hr.words _ _ _).log ..).modPair _ fun _ => rfl), rfl, fun x => mem_withWord, rfl⟩
  · exact fun v => State.StaysQuiet.onCluster_now (e := fun s => s.modClu cl fun k => { k with temp := v }) hc (hr.setClu cl _)
end

section
/-! SUPPORT. The clearing of a job's clusters at its start (06 R149). -/

namespace Sys2Proof.Machine

/-! ## Clearing clusters -/

/-- A cluster with every engine register zero. -/
def Cluster.cleared (k : Cluster) : Cluster := { k with x := [], f := [], v := [], m := [], cx := ⟨0, 0, 0, 0⟩, lastTile := none }

theorem Cluster.cleared_registers (k : Cluster) : (∀ r, k.cleared.xr r = 0) ∧ (∀ r, k.cleared.fr r = 0) ∧
    (∀ r, k.cleared.vr r = List.replicate 512 0) ∧ (∀ r, r ≠ 0 → k.cleared.mr r = 0) ∧ k.cleared.cx = ⟨0, 0, 0, 0⟩ := by
  refine ⟨fun r => ite_self _, fun r => rfl, fun r => ?_, fun r hr => if_neg hr, rfl⟩
  simp only [Cluster.vr, Cluster.cleared, Table.get, List.map_const', List.length_range]

/-- Does a module address name a byte of the SRAM of a cluster. -/
def ofSram (c : ClusterId) (a : Nat) : Bool := decide (sramAddr c 0 ≤ a) && decide (a < sramAddr c 0 + 2 ^ 23)

theorem ofSram_iff {c : ClusterId} {a : Nat} : ofSram c a = true ↔ sramAddr c 0 ≤ a ∧ a < sramAddr c 0 + 2 ^ 23 := by
  simp only [ofSram, Bool.and_eq_true, decide_eq_true_eq]

theorem Table.get_filter_key {α : Type} (d : α) (p : Nat → Bool) (k : Nat) (t : Table α) :
    Table.get d k (t.filter fun e => p e.1) = if p k then Table.get d k t else d := by
  induction t with
  | nil => simp [Table.get]
  | cons e t ih =>
    obtain ⟨j, v⟩ := e
    by_cases hj : j = k
    · subst hj
      by_cases hp : p j <;> simp_all [Table.get]
    · by_cases hp : p j <;> simp_all [Table.get]

/-- v is u with the clusters of a list cleared. -/
structure State.Clears (cs : List ClusterId) (u v : State) : Prop where
  state : v = { u with mem := v.mem, badWords := v.badWords, weakWords := v.weakWords, clusters := v.clusters }
  clu c : v.clu c = if c ∈ cs then (u.clu c).cleared else u.clu c
  read a : Memory.read a v.mem = if cs.any (ofSram · a) then 0 else Memory.read a u.mem

theorem State.clu_clearCluster (c d : ClusterId) (s : State) :
    (s.clearCluster c).clu d = if d = c then (s.clu d).cleared else s.clu d := by
  rw [State.clearCluster, State.modClu, State.clu_setClu]
  split
  · subst d; rfl
  · rfl

theorem State.read_clearCluster (c : ClusterId) (a : Nat) (s : State) :
    Memory.read a (s.clearCluster c).mem = if ofSram c a then 0 else Memory.read a s.mem := by
  refine (Table.get_filter_key _ (fun a => !ofSram c a) a s.mem).trans ?_
  cases ofSram c a <;> rfl

theorem State.clears_foldl (cs : List ClusterId) (u : State) : u.Clears cs (cs.foldl (fun s c => s.clearCluster c) u) := by
  induction cs generalizing u with
  | nil => exact ⟨rfl, fun _ => rfl, fun _ => rfl⟩
  | cons c cs ih =>
    obtain ⟨hstate, hclu, hread⟩ := ih (u.clearCluster c)
    refine ⟨hstate, fun d => ?_, fun a => ?_⟩
    · rw [List.foldl_cons, hclu, State.clu_clearCluster]
      by_cases hd : d = c
      · simp [hd, Cluster.cleared]
      · simp [hd]
    · rw [List.foldl_cons, hread, State.read_clearCluster, List.any_cons]
      cases ofSram c a <;> simp

/-! ## The clearing of a job -/

/-- The state in which the clearing of a job has ended, where its plate has no SRAM images. -/
def State.clearsJobSram (no : JobNo) (s : State) : State :=
  ((s.jobClusters no).foldl (fun s c => s.clearCluster c) s).modJob no fun j => { j with cleared := true }

theorem State.clearDone_eq {u : State} {no : JobNo} {p : Plate} (hst : (u.job no).st = .starting ∨ (u.job no).st = .running)
    (hc : (u.job no).cleared = false) (hp : (u.job no).plate = some p)
    (hidle : ∀ c ∈ u.jobClusters no, (u.clu c).gstate = .idle ∨ (u.clu c).gstate = .halted)
    (hi : (p.images.filter fun i => i.type == 0x11) = []) : u.clearDone no = u.clearsJobSram no := by
  have hall : ((u.jobClusters no).all fun c => (u.clu c).gstate == .idle || (u.clu c).gstate == .halted) = true := by
    simpa only [List.all_eq_true, Bool.or_eq_true, beq_iff_eq] using hidle
  simp only [State.clearDone]
  rw [if_pos ⟨hst, by simp [hc], hall⟩]
  simp only [hp, hi, List.foldl_nil, State.clearsJobSram]

theorem State.StaysQuiet.clears {u v w : State} {cs : List ClusterId} (h : u.StaysQuiet v) (hw : v.Clears cs w) : u.StaysQuiet w := by
  rw [hw.state]
  exact (h.clusters w.clusters).words w.mem w.badWords w.weakWords

/-- A job that has started, or still waits for every digest, goes on as it is. -/
theorem State.startCheck_waits {v : State} {no : JobNo}
    (h : (v.job no).st ≠ .starting ∨ ((v.job no).digests = [] ∧ v.startPeers no ≠ [] ∧ (v.job no).proofRole ≠ 2)) : v.startCheck no = v := by
  rw [State.startCheck]
  cases (v.job no).plate with
  | none => rfl
  | some p =>
    rcases h with hst | ⟨hd, hpeers, hrole⟩
    · simp [hst]
    · have hhere : ((v.startPeers no).all fun m => (v.job no).digests.any fun e => e.1 == m) = false := by
        obtain ⟨m, hm⟩ := List.exists_mem_of_ne_nil _ hpeers
        exact List.all_eq_false.mpr ⟨m, hm, by simp [hd]⟩
      replace hrole : (v.job no).proofRole ≠ 2#2 := hrole
      simp only [hhere]
      simp [hd, hrole]

theorem State.hubGo_idle {s : State} (h : s.hub.waiting = []) : s.hubGo = s := by
  rw [State.hubGo, h]
  rfl

end Sys2Proof.Machine
open Sys2Proof Sys2Proof.Machine

/-- Settles O25: by induction over the clusters that are cleared; the start of the job then waits as before. -/
theorem jobStartClearsItsClusters : Obligations.JobStartClearsItsClusters := by
  intro s no now p hq u hst hc hp hr hidle hi hw
  obtain ⟨k, hk⟩ := State.jobSlot_of_plate hp
  have huq : u.quiet = true := State.advanceTo_quiet now hq
  have hclears := State.clears_foldl (u.jobClusters no) u
  generalize hv : (u.jobClusters no).foldl (fun s c => s.clearCluster c) u = v at hclears
  have ht : u.clearsJobSram no = v.modJob no fun j => { j with cleared := true } := by rw [State.clearsJobSram, hv]
  have hmod : v.modJob no (fun j => { j with cleared := true }) = { v with jobs := (v.modJob no fun j => { j with cleared := true }).jobs } :=
    State.modJob_jobs ..
  have hjob : (v.modJob no fun j => { j with cleared := true }).job no = { u.job no with cleared := true } := by
    have hjobs : v.jobs = u.jobs := by rw [hclears.state]
    have hv : v.job no = u.job no := State.job_congr hjobs no
    rw [State.job_modJob (by rwa [Claims.Rising, hjobs]) ((State.jobSlot_congr hjobs no).trans hk) ((congrArg Job.no hv).trans (State.job_no hr hk)), hv]
  have hquiet : u.StaysQuiet (v.modJob no fun j => { j with cleared := true }) :=
    ((State.StaysQuiet.refl huq).clears hclears).modJob no fun j hj => hj
  generalize v.modJob no (fun j => { j with cleared := true }) = t at hmod hjob hquiet ht
  have hfab : t.fab = u.fab := by rw [hmod, hclears.state]
  have hwaits : t.startCheck no = t := State.startCheck_waits <| by
    rw [State.startPeers_congr (s := u) (by rw [hjob]) (by rw [hjob]) hfab, hjob]
    exact hst.imp (fun h => by simp [h]) (fun h => h.2)
  have hidles : t.hubGo = t := State.hubGo_idle <| by rw [hmod, hclears.state]; simpa [u] using hw
  have heffect : ((u.clearDone no).startCheck no).hubGo = t := by
    rw [State.clearDone_eq (hst.elim .inr fun h => .inl h.1) hc hp hidle hi, ht, hwaits, hidles]
  have hmem : t.mem = v.mem := by rw [hmod]
  refine ⟨t, ?_, ?_, fun c hmemc => ?_, fun a ha => ?_⟩
  · refine (State.StaysQuiet.happens (e := fun s => ((s.clearDone no).startCheck no).hubGo) (by rw [heffect]; exact hquiet)).trans ?_
    rw [heffect]
  · rw [hmod, hclears.state]
  · have hclu : t.clu c = (u.clu c).cleared := by
      rw [← if_pos hmemc (t := (u.clu c).cleared) (e := u.clu c), ← hclears.clu c, hmod]
      rfl
    rw [hclu]
    refine ⟨fun o ho => ?_, (u.clu c).cleared_registers⟩
    rw [hmem, hclears.read, if_pos]
    exact List.any_eq_true.mpr ⟨c, hmemc, ofSram_iff.mpr (by simp only [sramAddr]; omega)⟩
  · rw [hmem, hclears.read, if_neg]
    · simp [u]
    · simp only [List.any_eq_true, ofSram_iff]
      exact fun ⟨c, hc, h⟩ => ha c hc h
end

section
/-! SUPPORT. The memory unit of a die: the requests that it takes, the lines that it reads and writes, and its replies (16 R419 to R430). -/

namespace Sys2Proof.Machine

/-! ## Commands that send replies -/

/-- A command at an instant has its effect on the state that time alone has made. -/
theorem State.happens_eq_acts (now : Nat) (e : State → State) (s : State) : s.happens now e = (s.advanceTo now).acts e := by
  simp only [State.happens, State.acts, State.finish, State.advanceTo_frame, State.advanceTo_time, max_self]

/-! ## Demand accesses to a stack (R440, R450) -/

/-- The counts of a stack stand in a part of its die that nothing else shares. -/
theorem State.die_modStack (k : Nat) (g : Stack → Stack) (d : Die) (s : State) :
    (s.modStack k g).die d = { s.die d with stk := ((s.modStack k g).die d).stk } := by
  simp only [State.modStack, State.modDie, State.die_setDie]
  split
  · subst d; rfl
  · rfl

theorem State.die_noteRead (a n : Nat) (d : Die) (s : State) :
    (s.noteRead a n).die d = { s.die d with stk := ((s.noteRead a n).die d).stk } := by
  unfold State.noteRead
  split
  · exact State.die_modStack ..
  · rfl

theorem State.die_noteWrite (a n : Nat) (d : Die) (s : State) :
    (s.noteWrite a n).die d = { s.die d with stk := ((s.noteWrite a n).die d).stk } := by
  unfold State.noteWrite
  split
  · exact State.die_modStack ..
  · rfl

theorem State.noteWrite_dies (a n : Nat) (s : State) : s.noteWrite a n = { s with dies := (s.noteWrite a n).dies } := by
  unfold State.noteWrite
  split <;> rfl

theorem State.StaysQuiet.noteWrite {u v : State} (h : u.StaysQuiet v) (a n : Nat) : u.StaysQuiet (v.noteWrite a n) := by
  unfold State.noteWrite
  split
  · exact h.modDie _ _ rfl
  · exact h

/-- A write to sound memory by a unit outside a cluster: its bytes, and the counts of the stack. -/
theorem State.store_sound {s : State} (hs : s.sound) (a : Nat) (bs : List Byte) :
    s.store a bs = { s.noteWrite a bs.length with mem := Memory.writeN a bs s.mem } := by
  obtain ⟨hb, hw, -⟩ := hs
  have hdies := State.noteWrite_dies a bs.length s
  have hb' : (s.noteWrite a bs.length).badWords = [] := by rw [hdies, hb]
  rw [State.store, State.write_eq hb', hdies]
  simp only [hw, List.filter_nil]

/-! ## Frames that a unit takes and lets go (R18, R360) -/

/-- The units of a frame that a unit has taken become free, where it came in at a port. -/
def State.freesOf (q : Option Queued) (s : State) : State :=
  match q with
  | some q => s.release q
  | none => s

/-- Freeing units looks at the ports and at the frames that stand in the module, and changes the ports alone. -/
theorem State.release_congr {s t : State} (q : Queued) (hp : t.ports = s.ports)
    (hf : t.fab = { s.fab with selfEgress := t.fab.selfEgress, nextUid := t.fab.nextUid }) :
    t.release q = { t with ports := (s.release q).ports } := by
  have hport (p : Port) : t.port p = s.port p := by simp only [State.port, hp]
  have hstands : t.stands q.uid = s.stands q.uid := by
    rw [State.stands, hf, hp]
    rfl
  unfold State.release
  cases q.ingress with
  | none => simp only [← hp]
  | some p =>
    simp only [hport, hstands]
    split
    · simp only [← hp]
    · simp only [State.modPort, State.setPort, hport, hp]

/-- A unit that takes a frame and frees its units after what it does with it, where that touches neither ports nor frames that stand in the
module, leaves the boxes and the ports as if it had freed them first. -/
theorem State.takeOut_frees (w : LocalUnit) (f : Frame) (s : State) : ∃ ib ps,
    (s.takeOut w f).2 = { s with fab := { s.fab with inbox := ib } } ∧ s.unbox w f = { s with fab := { s.fab with inbox := ib }, ports := ps } ∧
      ∀ t : State, t.ports = s.ports → t.fab = { s.fab with inbox := ib, selfEgress := t.fab.selfEgress, nextUid := t.fab.nextUid } →
        t.freesOf (s.takeOut w f).1 = { t with ports := ps } := by
  unfold State.unbox State.takeOut
  cases s.boxed w f with
  | none =>
    refine ⟨s.fab.inbox, s.ports, rfl, rfl, fun t hp _ => ?_⟩
    rw [← hp]
    rfl
  | some q =>
    refine ⟨s.fab.inbox.erase (w, q), ((s.modFab fun b => { b with inbox := b.inbox.erase (w, q) }).release q).ports, rfl, ?_, fun t hp hf => ?_⟩
    · exact State.release_congr q rfl rfl
    · exact State.release_congr q hp hf

/-! ## Requests and their replies (R419, R420) -/

theorem memMalformed_iff (f : Frame) : memMalformed f = false ↔
    (memOp f = 1 ∧ f.plen = 0 ∧ f.inc = 0 ∨ memOp f = 2 ∧ f.plen = 4) ∧ f.offset.toNat % 128 = 0 ∧ f.fmt = 0 := by
  have h4 : f.plen = 4 ↔ f.plen.toNat = 4 := by rw [← BitVec.toNat_inj]; rfl
  have h0 : f.plen = 0 ↔ f.plen.toNat = 0 := by rw [← BitVec.toNat_inj]; rfl
  simp only [memMalformed, h4, h0]
  by_cases h1 : memOp f = 1
  · simp [h1]; tauto
  · by_cases h2 : memOp f = 2
    · simp [h2]; tauto
    · simp [h1, h2]

/-- A die that has answered a request with a status. -/
def DieState.answered (f : Frame) (status : Nat) (x : DieState) : DieState :=
  { x with
    memReads := if memOp f = 1 then x.memReads + 1 else x.memReads
    memWrites := if memOp f = 2 then x.memWrites + 1 else x.memWrites
    memRefused := if status = 0 then x.memRefused else x.memRefused + 1 }

/-- The reply to a rank of the job that a module has. -/
theorem State.memReply_eq {s : State} {f : Frame} {e : RankEntry} (he : s.rankEntry f.job f.srcRank.toNat = some e)
    (hr : (s.job f.job).proofRole = 0) (d : Die) (status : Nat) (line : List Byte) :
    s.memReply d f status line = (s.modDie d (DieState.answered f status)).send (s.memReplyFrame f status line e) := by
  have he' (g : DieState → DieState) : (s.modDie d g).rankEntry f.job f.srcRank.toNat = some e := he
  have hr' (g : DieState → DieState) : ((s.modDie d g).job f.job).proofRole = 0 := hr
  simp only [State.memReply, he', hr']
  rfl

theorem State.memReplyFrame_detail (f : Frame) {status : Nat} (h : status < 256) (line : List Byte) (e : RankEntry) (s : State) :
    (s.memReplyFrame f status line e).sealCrc.detail.toNat = f.detail.toNat % 65536 + 65536 * status := by
  change (((f.detail.setWidth 16).setWidth 64) ||| BitVec.ofNat 64 (65536 * status)).toNat = _
  have hor : 65536 * status + f.detail.toNat % 65536 = 65536 * status ||| f.detail.toNat % 65536 :=
    Nat.two_pow_add_eq_or_of_lt (i := 16) (by omega) status
  have hlow : ((f.detail.setWidth 16).setWidth 64).toNat = f.detail.toNat % 65536 := by
    rw [BitVec.toNat_setWidth, BitVec.toNat_setWidth]
    omega
  have hhigh : (BitVec.ofNat 64 (65536 * status)).toNat = 65536 * status := by
    rw [BitVec.toNat_ofNat]
    omega
  rw [BitVec.toNat_or, hlow, hhigh, Nat.or_comm, ← hor, Nat.add_comm]

/-- The fabric of v holds, beside what it holds in b, the reply to a request with a status and a line. -/
def State.Replied (f : Frame) (e : RankEntry) (b v : State) (status : Nat) (line : List Byte) : Prop :=
  ∃ g : Frame, v.fab = { b.fab with selfEgress := [g], nextUid := v.fab.nextUid } ∧ g.kind = 7 ∧ g.cls = 2 ∧ g.ident = f.ident ∧
    g.offset = f.offset ∧ g.transfer = f.transfer ∧ g.dstModule = e.module ∧ g.payload = line ∧
    g.detail.toNat = f.detail.toNat % 65536 + 65536 * status

theorem State.replied_send {f : Frame} {e : RankEntry} {b v t : State} {status : Nat} {line : List Byte} (h : status < 256)
    (hb : b.fab.selfEgress = []) (hf : v.fab = { b.fab with nextUid := v.fab.nextUid }) :
    State.Replied f e b (v.send (t.memReplyFrame f status line e)) status line := by
  refine ⟨(t.memReplyFrame f status line e).sealCrc, ?_, rfl, rfl, rfl, rfl, rfl, rfl, rfl, State.memReplyFrame_detail f h line e t⟩
  rw [State.send]
  simp only
  rw [hf]
  simp [hb]

/-! ## What the memory unit does with a request -/

section
variable {u x : State} {d : Die} {f : Frame}

/-- A request that waits behind another, or for an entry, stays where it is. -/
theorem State.memRequest_waits (h : u.behind (.mem d) f = true ∨ u.pstHolds f = true) : u.memRequest d f = u :=
  if_pos (by simpa using h)

theorem State.memRequest_takes (hb : u.behind (.mem d) f = false) (hp : u.pstHolds f = false) : u.memRequest d f = u.memTake d f :=
  if_neg (by simp [hb, hp])

theorem State.memTake_refuses {n : Nat} (hr : (u.takeOut (.mem d) f).2.memNoRanks f.job = false) (hst : (u.takeOut (.mem d) f).2.memStatus f = n)
    (hn : n ≠ 0) (hs : f.sig = false) :
    u.memTake d f = ((u.takeOut (.mem d) f).2.memReply d f n []).freesOf (u.takeOut (.mem d) f).1 := by
  obtain ⟨n, rfl⟩ := Nat.exists_eq_succ_of_ne_zero hn
  simp only [State.memTake, hr, hst, State.refuseSignal, hs, Bool.false_eq_true, false_and, and_false, if_false]
  rfl

theorem State.memTake_serves {w : Window} (hr : (u.takeOut (.mem d) f).2.memNoRanks f.job = false)
    (hst : (u.takeOut (.mem d) f).2.memStatus f = 0) (hw : (u.takeOut (.mem d) f).2.window (memWindow f) = some w) :
    u.memTake d f = State.freesOf (u.takeOut (.mem d) f).1 (if memOp f = 1 then (u.takeOut (.mem d) f).2.readLine d w f
      else (u.takeOut (.mem d) f).2.writeLine d w (u.takeOut (.mem d) f).1 f) := by
  simp only [State.memTake, hr, hst, hw]
  rfl

/-- A READ of sound memory through a window that does not combine. -/
theorem State.readLine_plain {w : Window} (hs : u.sound) (hc : w.combine = false) :
    u.readLine d w f = (u.noteRead (memAddr w f.offset) 128).memReply d f 0 (u.read (memAddr w f.offset) 128) := by
  simp only [State.readLine, hc, State.serveReads, State.demand_sound hs _ _ (show 320 ≤ (0x1FE : BitVec 16).toNat by decide)]
  rfl

/-- A READ through a combining window opens an entry, where its die has none. -/
theorem State.readLine_opens {w : Window} (hc : w.combine = true) (h0 : (u.die d).combines = []) :
    u.readLine d w f = u.setDie d { u.die d with combines := [⟨w.job, w.number, f.offset, [f], u.time + u.combineNs d⟩] } := by
  have hdue : u.combinesDue d = u := by simp [State.combinesDue, h0]
  simp only [State.readLine, hc, hdue, DieState.combineOf, h0, State.modDie]
  rfl

/-- A job without a twin forwards no frame to one. -/
theorem State.forwardTwin_none {t : State} (h : (t.job f.job).proofRole = 0) (q : Queued) : t.forwardTwin q f = t := by
  rw [State.forwardTwin, h]
  rfl

/-- A WRITE whose line has no entry on its die, of a job without a twin: it stores the line and is answered. -/
theorem State.writeLine_plain {t : State} {w : Window} (h0 : (u.die d).combines = []) (ht : u.store (memAddr w f.offset) f.payload = t)
    (hr : (t.job f.job).proofRole = 0) (q : Option Queued) :
    ∃ n, u.writeLine d w q f = State.memReply d f 0 [] { t with fab := { t.fab with nextUid := n } } := by
  have hclose : u.closeLine d (memAddr w f.offset) = u := by simp [State.closeLine, h0]
  cases q with
  | none =>
    have htwin := State.forwardTwin_none (t := (t.newCopy f none).2) hr (t.newCopy f none).1
    refine ⟨t.fab.nextUid + 1, ?_⟩
    simp only [State.writeLine, hclose, ht, htwin]
    rfl
  | some q =>
    refine ⟨t.fab.nextUid, ?_⟩
    simp only [State.writeLine, hclose, ht, State.forwardTwin_none hr]

end

/-- The memory unit answers a request: the reply sets out, the units of the request are free, and its die counts it. -/
theorem memReq_answers {s x : State} {d : Die} {f : Frame} {now : Nat} {e : RankEntry} {status : Nat} {line : List Byte} (h : status < 256)
    (hb : (s.advanceTo now).behind (.mem d) f = false) (hp : (s.advanceTo now).pstHolds f = false)
    (he : x.rankEntry f.job f.srcRank.toNat = some e) (hr : (x.job f.job).proofRole = 0)
    (hx : (s.advanceTo now).StaysQuiet x)
    (htake : (s.advanceTo now).memTake d f = (x.memReply d f status line).freesOf ((s.advanceTo now).takeOut (.mem d) f).1)
    (hstate : x = { ((s.advanceTo now).takeOut (.mem d) f).2 with
      mem := x.mem, dies := x.dies, fab := { ((s.advanceTo now).takeOut (.mem d) f).2.fab with nextUid := x.fab.nextUid } }) :
    ∃ v, exec (.memReq d f now) s = .next (State.dispatchOwn v) ∧
      v = { (s.advanceTo now).unbox (.mem d) f with mem := x.mem, dies := v.dies, fab := v.fab } ∧ v.mem = x.mem ∧
      v.die d = (x.die d).answered f status ∧ State.Replied f e ((s.advanceTo now).unbox (.mem d) f) v status line := by
  obtain ⟨ib, ps, htaken, hunbox, hfree⟩ := (s.advanceTo now).takeOut_frees (.mem d) f
  have hexec : exec (.memReq d f now) s = (s.advanceTo now).acts fun u => u.memRequest d f := State.happens_eq_acts ..
  generalize s.advanceTo now = u at *
  rw [htaken] at hstate
  have hfab : x.fab = { u.fab with inbox := ib, nextUid := x.fab.nextUid } := congrArg State.fab hstate
  have hquiet : u.StaysQuiet { x.modDie d (DieState.answered f status) with ports := ps } :=
    (hx.modDie d (DieState.answered f status) rfl).portsHub ps x.hub
  refine ⟨State.send (x.memReplyFrame f status line e) { x.modDie d (DieState.answered f status) with ports := ps },
    hexec.trans (State.acts_send ?_ hquiet), ?_, rfl, ?_, State.replied_send h ?_ ?_⟩
  · rw [State.memRequest_takes hb hp, htake, State.memReply_eq he hr]
    refine (hfree _ ?_ ?_).trans rfl
    · rw [hstate]
      rfl
    · rw [hstate]
      rfl
  · rw [hunbox, hstate]
    rfl
  · exact State.die_modDie_same ..
  · obtain ⟨-, -, -, -, -, hself, -⟩ := (State.quiet_iff x).mp hx.1
    rw [hunbox]
    exact (congrArg Fabric.selfEgress hfab).symm.trans hself
  · rw [hunbox]
    exact hfab

end Sys2Proof.Machine
end

section
/-! SUPPORT. Requests that are served, combined or refused, the end of a combine window, and the end of a remote access (16 R419 to R432). -/

namespace Sys2Proof.Machine

/-! ## The status of a request (R420) -/

section
variable {u : State} {f : Frame}

theorem State.memStatus_malformed (h : memMalformed f = true) : u.memStatus f = 7 := if_pos h

theorem State.memStatus_noWindow (h : memMalformed f = false) (hw : u.window (memWindow f) = none) : u.memStatus f = 1 := by
  simp only [State.memStatus, h, hw]
  rfl

theorem State.memStatus_window {w : Window} (h : memMalformed f = false) (hw : u.window (memWindow f) = some w) : u.memStatus f =
    if w.job ≠ f.job then 2 else if w.size < f.offset.toNat + 128 then 3
    else if memOp f = 1 ∧ w.rd = false ∨ memOp f = 2 ∧ w.wr = false then 4
    else if memOp f = 2 ∧ u.inCode (w.base.toNat + f.offset.toNat) 128 = true then 4
    else if memOp f = 2 ∧ ((u.job f.job).st = .stopped ∨ u.pair.st = .fenced) then 5 else 0 := by
  simp only [State.memStatus, h, hw, Bool.not_eq_true']
  rfl

theorem State.memStatus_le (f : Frame) (u : State) : u.memStatus f ≤ 7 := by
  by_cases h : memMalformed f = true
  · rw [State.memStatus_malformed h]
  · rw [Bool.not_eq_true] at h
    cases hw : u.window (memWindow f) with
    | none =>
      rw [State.memStatus_noWindow h hw]
      decide
    | some w =>
      rw [State.memStatus_window h hw]
      split_ifs <;> decide

end

/-! ## Requests that the memory unit takes -/

theorem State.StaysQuiet.takeOut {u v : State} (h : u.StaysQuiet v) (w : LocalUnit) (f : Frame) : u.StaysQuiet (v.takeOut w f).2 := by
  obtain ⟨ib, -, htaken, -⟩ := v.takeOut_frees w f
  rw [htaken]
  exact h.modFab (fun b => { b with inbox := ib }) fun _ => ⟨rfl, rfl, rfl⟩

section
variable {s : State} {d : Die} {f : Frame} {now : Nat} {e : RankEntry} (hq : s.quiet = true) (hb : (s.advanceTo now).behind (.mem d) f = false)
  (hp : (s.advanceTo now).pstHolds f = false) (hn : (s.advanceTo now).memNoRanks f.job = false)
include hq hb hp hn

/-- A READ through a combining window, on a die without an entry. -/
theorem memReq_combines {w : Window} (h0 : (s.advanceTo now).memStatus f = 0) (hw : (s.advanceTo now).window (memWindow f) = some w)
    (hop : memOp f = 1) (hc : w.combine = true) (hcs : ((s.advanceTo now).die d).combines = []) :
    exec (.memReq d f now) s = .next (((s.advanceTo now).unbox (.mem d) f).setDie d { (s.advanceTo now).die d with
      combines := [⟨w.job, w.number, f.offset, [f], (s.advanceTo now).time + (s.advanceTo now).combineNs d⟩] }) := by
  have huq := State.advanceTo_quiet now hq
  have hexec : exec (.memReq d f now) s = (s.advanceTo now).acts fun u => u.memRequest d f := State.happens_eq_acts ..
  generalize s.advanceTo now = u at *
  obtain ⟨ib, ps, htaken, hunbox, hfree⟩ := u.takeOut_frees (.mem d) f
  have htake : u.memRequest d f = (u.unbox (.mem d) f).setDie d { u.die d with
      combines := [⟨w.job, w.number, f.offset, [f], u.time + u.combineNs d⟩] } := by
    rw [State.memRequest_takes hb hp, State.memTake_serves (w := w) (by rw [htaken]; exact hn) (by rw [htaken]; exact h0)
      (by rw [htaken]; exact hw), if_pos hop, State.readLine_opens hc (by rw [htaken]; exact hcs), htaken, hunbox]
    exact hfree _ rfl rfl
  rw [hexec, State.StaysQuiet.acts (e := fun u => u.memRequest d f), htake]
  rw [htake]
  exact ((State.StaysQuiet.refl huq).unbox _ _).modDie d (fun _ => { u.die d with
    combines := [⟨w.job, w.number, f.offset, [f], u.time + u.combineNs d⟩] }) (by rw [State.die_unbox])

variable (hr : ((s.advanceTo now).job f.job).proofRole = 0) (he : (s.advanceTo now).rankEntry f.job f.srcRank.toNat = some e)
include hr he

/-- A refused request: its status is the reply, and nothing but the boxes, the ports and the counts of the die changes. -/
theorem memReq_refuses (hs : f.sig = false) (h0 : (s.advanceTo now).memStatus f ≠ 0) :
    ∃ v, exec (.memReq d f now) s = .next (State.dispatchOwn v) ∧ v = { (s.advanceTo now).unbox (.mem d) f with dies := v.dies, fab := v.fab } ∧
      (v.die d).memRefused = ((s.advanceTo now).die d).memRefused + 1 ∧
      State.Replied f e ((s.advanceTo now).unbox (.mem d) f) v ((s.advanceTo now).memStatus f) [] := by
  have huq := State.advanceTo_quiet now hq
  have hanswers := fun x => memReq_answers (s := s) (now := now) (d := d) (f := f) (x := x) (line := []) (e := e)
    (Nat.lt_of_le_of_lt (State.memStatus_le f (s.advanceTo now)) (by decide)) hb hp
  generalize s.advanceTo now = u at *
  obtain ⟨ib, ps, htaken, hunbox, -⟩ := u.takeOut_frees (.mem d) f
  obtain ⟨v, hexec, hv, -, hdie, hrep⟩ := hanswers (u.takeOut (.mem d) f).2 (by rw [htaken]; exact he) (by rw [htaken]; exact hr)
    ((State.StaysQuiet.refl huq).takeOut _ _)
    (State.memTake_refuses (by rw [htaken]; exact hn) (by rw [htaken]; rfl) h0 hs) rfl
  refine ⟨v, hexec, ?_, ?_, hrep⟩
  · rw [hv, htaken, hunbox]
  · rw [hdie, htaken]
    exact if_neg h0

/-- A READ through a window that does not combine, of sound memory. -/
theorem memReq_reads {w : Window} (h0 : (s.advanceTo now).memStatus f = 0) (hw : (s.advanceTo now).window (memWindow f) = some w)
    (hop : memOp f = 1) (hc : w.combine = false) (hs : (s.advanceTo now).sound) :
    ∃ v, exec (.memReq d f now) s = .next (State.dispatchOwn v) ∧ v = { (s.advanceTo now).unbox (.mem d) f with dies := v.dies, fab := v.fab } ∧
      (v.die d).memReads = ((s.advanceTo now).die d).memReads + 1 ∧ (v.die d).memRefused = ((s.advanceTo now).die d).memRefused ∧
      State.Replied f e ((s.advanceTo now).unbox (.mem d) f) v 0 ((s.advanceTo now).read (memAddr w f.offset) 128) := by
  have huq := State.advanceTo_quiet now hq
  have hanswers := fun x line => memReq_answers (s := s) (now := now) (d := d) (f := f) (x := x) (line := line) (e := e) (status := 0) (by decide) hb hp
  generalize s.advanceTo now = u at *
  obtain ⟨ib, ps, htaken, hunbox, -⟩ := u.takeOut_frees (.mem d) f
  have hdies := State.noteRead_dies (memAddr w f.offset) 128 (u.takeOut (.mem d) f).2
  have htake : u.memTake d f = (((u.takeOut (.mem d) f).2.noteRead (memAddr w f.offset) 128).memReply d f 0
      (u.read (memAddr w f.offset) 128)).freesOf (u.takeOut (.mem d) f).1 := by
    rw [State.memTake_serves (w := w) (by rw [htaken]; exact hn) (by rw [htaken]; exact h0) (by rw [htaken]; exact hw), if_pos hop,
      State.readLine_plain (by rw [htaken]; exact hs) hc]
    rw [htaken]
    rfl
  obtain ⟨v, hexec, hv, -, hdie, hrep⟩ := hanswers _ _ (by rw [hdies, htaken]; exact he) (by rw [hdies, htaken]; exact hr)
    (((State.StaysQuiet.refl huq).takeOut _ _).noteRead _ _) htake (by rw [hdies])
  refine ⟨v, hexec, ?_, ?_, ?_, hrep⟩
  · rw [hv, hdies, htaken, hunbox]
  · rw [hdie, State.die_noteRead, htaken]
    exact if_pos hop
  · rw [hdie, State.die_noteRead, htaken]
    rfl

/-- A WRITE of a line of sound memory without an entry. -/
theorem memReq_writes {w : Window} (h0 : (s.advanceTo now).memStatus f = 0) (hw : (s.advanceTo now).window (memWindow f) = some w)
    (hop : memOp f = 2) (hcs : ((s.advanceTo now).die d).combines = []) (hs : (s.advanceTo now).sound) :
    ∃ v, exec (.memReq d f now) s = .next (State.dispatchOwn v) ∧
      v = { (s.advanceTo now).unbox (.mem d) f with mem := v.mem, dies := v.dies, fab := v.fab } ∧
      (v.die d).memWrites = ((s.advanceTo now).die d).memWrites + 1 ∧ State.Replied f e ((s.advanceTo now).unbox (.mem d) f) v 0 [] ∧
      v.mem = Memory.writeN (memAddr w f.offset) f.payload (s.advanceTo now).mem := by
  have huq := State.advanceTo_quiet now hq
  have hanswers := fun x => memReq_answers (s := s) (now := now) (d := d) (f := f) (x := x) (line := []) (e := e) (status := 0) (by decide) hb hp
  generalize s.advanceTo now = u at *
  obtain ⟨ib, ps, htaken, hunbox, -⟩ := u.takeOut_frees (.mem d) f
  have hdies := State.noteWrite_dies (memAddr w f.offset) f.payload.length (u.takeOut (.mem d) f).2
  have hstore := State.store_sound (s := (u.takeOut (.mem d) f).2) (by rw [htaken]; exact hs) (memAddr w f.offset) f.payload
  have hquiet := ((State.StaysQuiet.refl huq).takeOut (.mem d) f).noteWrite (memAddr w f.offset) f.payload.length
  rw [hdies] at hstore hquiet
  obtain ⟨n, hwrite⟩ := State.writeLine_plain (d := d) (by rw [htaken]; exact hcs) hstore (by rw [htaken]; exact hr) (u.takeOut (.mem d) f).1
  have htake := State.memTake_serves (w := w) (by rw [htaken]; exact hn) (by rw [htaken]; exact h0) (by rw [htaken]; exact hw)
  rw [if_neg (by rw [hop]; decide), hwrite] at htake
  obtain ⟨v, hexec, hv, hmem, hdie, hrep⟩ := hanswers _ (by rw [htaken]; exact he) (by rw [htaken]; exact hr)
    ((hquiet.words _ _ _).modFab (fun b => { b with nextUid := n }) fun _ => ⟨rfl, rfl, rfl⟩) htake rfl
  refine ⟨v, hexec, ?_, ?_, hrep, ?_⟩
  · rw [hv]
  · rw [hdie]
    refine (if_pos hop).trans (congrArg (· + 1) ?_)
    refine (congrArg DieState.memWrites (State.die_noteWrite (memAddr w f.offset) f.payload.length d (u.takeOut (.mem d) f).2)).trans ?_
    rw [htaken]
    rfl
  · rw [hmem, htaken]
    rfl

end

/-! ## The end of a combine window (R427, R428) -/

/-- v is u once a die has answered the readers of a line. -/
structure State.Answers (d : Die) (line : List Byte) (readers : List Frame) (u v : State) : Prop where
  state : v = { u with dies := v.dies, fab := { u.fab with selfEgress := v.fab.selfEgress } }
  frames : ∃ gs, v.fab.selfEgress = u.fab.selfEgress ++ gs ∧ List.Forall₂ (fun r g => g.payload = line ∧ g.ident = r.ident) readers gs
  combines : (v.die d).combines = (u.die d).combines
  quiet : ∀ w : State, w.StaysQuiet { u with fab := w.fab } → w.StaysQuiet { v with fab := w.fab }

/-- Readers whose ranks this module knows are answered one after another. -/
theorem State.answers_foldl (d : Die) (line : List Byte) {readers : List Frame} {u : State}
    (h : ∀ r ∈ readers, (u.job r.job).proofRole = 0 ∧ (u.rankEntry r.job r.srcRank.toNat).isSome = true) :
    u.Answers d line readers (readers.foldl (fun s f => s.memReply d f 0 line) u) := by
  induction readers generalizing u with
  | nil => exact ⟨rfl, ⟨[], by simp, .nil⟩, rfl, fun _ h => h⟩
  | cons r rs ih =>
    obtain ⟨hr, he⟩ := h r (by simp)
    obtain ⟨e, he⟩ := Option.isSome_iff_exists.mp he
    rw [List.foldl_cons, State.memReply_eq he hr]
    obtain ⟨hstate, ⟨gs, hgs, hall⟩, hcs, hquiet⟩ :=
      ih (u := (u.modDie d (DieState.answered r 0)).send (u.memReplyFrame r 0 line e)) fun r' hr' => h r' (by simp [hr'])
    refine ⟨hstate, ⟨(u.memReplyFrame r 0 line e).sealCrc :: gs, ?_, .cons ⟨rfl, rfl⟩ hall⟩, ?_, fun w hw => hquiet w ?_⟩
    · rw [hgs]
      exact List.append_assoc ..
    · have hkept := congrArg DieState.combines (State.die_modDie_same d (DieState.answered r 0) u)
      exact hcs.trans hkept
    · exact hw.modDie d (DieState.answered r 0) rfl

section
variable {u : State} {d : Die} {c : Combine} {w : Window}

/-- The window of an entry is the loaded window of its number, where that is of its job. -/
theorem State.combineWindow_loaded {n : BitVec 12} (hw : u.window n = some w) (hj : c.job = w.job) (hn : c.window = w.number) :
    u.combineWindow c = some w := by
  obtain ⟨hnum, before, after, hl, hbefore⟩ := List.find?_eq_some_iff_append.mp hw
  have hfind : u.windows.find? (fun w => w.number == c.window && w.job == c.job) = some w := by
    refine List.find?_eq_some_iff_append.mpr ⟨by simp [hj, hn], before, after, hl, fun a ha => ?_⟩
    have hne : a.number ≠ n := by simpa using hbefore a ha
    simp [hn, beq_iff_eq.mp hnum, hne]
  simp only [State.combineWindow, hfind]

/-- The entry of a die whose window has ended is read once, for all its readers. -/
theorem State.combineEnd_reads {n : BitVec 12} {off : Word} (hw : u.window n = some w) (hcs : (u.die d).combines = [c]) (hj : c.job = w.job)
    (hn : c.window = w.number) (ho : c.offset = off) (ht : c.closes ≤ u.time) (hs : u.sound) :
    u.combineEnd d n off = c.readers.foldl (fun s f => s.memReply d f 0 (u.read (memAddr w off) 128))
      ((u.modDie d fun x => { x with combines := x.combines.erase c }).noteRead (memAddr w off) 128) := by
  have hnum : w.number = n := by simpa using List.find?_some hw
  have hover : u.combineEnd d n off = u.combineOver d c := by simp [State.combineEnd, hcs, hn, hnum, ho, ht]
  rw [hover, State.combineOver, State.combineWindow_loaded hw hj hn]
  simp only [State.closeCombine, State.serveReads, ho]
  rw [State.demand_sound (s := u.modDie d fun x => { x with combines := x.combines.erase c }) hs _ _ (by decide)]
  rfl

end

/-- The end of a combine window: every reader gets the line, of one read. -/
theorem combineClose_answers {s : State} {d : Die} {n : BitVec 12} {off : Word} {now : Nat} {w : Window} {c : Combine} (hq : s.quiet = true)
    (hw : (s.advanceTo now).window n = some w) (hcs : ((s.advanceTo now).die d).combines = [c]) (hj : c.job = w.job) (hn : c.window = w.number)
    (ho : c.offset = off) (ht : c.closes ≤ (s.advanceTo now).time) (hs : (s.advanceTo now).sound)
    (hr : ∀ r ∈ c.readers, ((s.advanceTo now).job r.job).proofRole = 0 ∧ ((s.advanceTo now).rankEntry r.job r.srcRank.toNat).isSome = true) :
    ∃ v, exec (.combineClose d n off now) s = .next (State.dispatchOwn v) ∧ v = { s.advanceTo now with dies := v.dies, fab := v.fab } ∧
      (v.die d).combines = [] ∧ v.fab = { (s.advanceTo now).fab with selfEgress := v.fab.selfEgress } ∧
      List.Forall₂ (fun r g => g.payload = (s.advanceTo now).read (memAddr w off) 128 ∧ g.ident = r.ident) c.readers v.fab.selfEgress := by
  have huq := State.advanceTo_quiet now hq
  have hexec : exec (.combineClose d n off now) s = (s.advanceTo now).acts fun u => u.combineEnd d n off := State.happens_eq_acts ..
  generalize s.advanceTo now = u at *
  obtain ⟨x, heffect, hstate, hquiet, hnone⟩ : ∃ x, u.combineEnd d n off =
      c.readers.foldl (fun s f => s.memReply d f 0 (u.read (memAddr w off) 128)) x ∧ x = { u with dies := x.dies } ∧ u.StaysQuiet x ∧
      (x.die d).combines = [] := by
    refine ⟨_, State.combineEnd_reads hw hcs hj hn ho ht hs, State.noteRead_dies .., ?_, ?_⟩
    · exact ((State.StaysQuiet.refl huq).modDie d (fun x => { x with combines := x.combines.erase c }) rfl).noteRead _ _
    · rw [State.die_noteRead, State.die_modDie_same]
      simp [hcs]
  have hanswers := State.answers_foldl d (u.read (memAddr w off) 128) (u := x) (readers := c.readers) (by rw [hstate]; exact hr)
  generalize c.readers.foldl (fun s f => s.memReply d f 0 (u.read (memAddr w off) 128)) x = v at heffect hanswers
  obtain ⟨hv, ⟨gs, hgs, hall⟩, hkept, hstays⟩ := hanswers
  obtain ⟨hjobs, -, -, -, -, hself, -⟩ := (State.quiet_iff u).mp huq
  have hxfab : x.fab = u.fab := by rw [hstate]
  have hvu : v = { u with dies := v.dies, fab := { u.fab with selfEgress := v.fab.selfEgress } } := by
    rw [hv, hstate]
  have hcalm : v.calm := by
    have hrest := hstays u (hxfab ▸ hquiet)
    exact State.calm_congr (State.calm_of_quiet hrest.1) rfl rfl rfl rfl (by rw [hvu]) (by rw [hvu])
  rw [hxfab, hself, List.nil_append] at hgs
  have hfab : v.fab = { u.fab with selfEgress := v.fab.selfEgress } := congrArg State.fab hvu
  exact ⟨v, hexec.trans (State.acts_sends heffect hcalm (by rw [hvu]; exact hjobs) (by rw [hvu]) (by rw [hvu]) (by rw [hvu])),
    hvu.trans (congrArg (fun b => { u with dies := v.dies, fab := b }) hfab.symm), hkept.trans hnone, hfab, hgs ▸ hall⟩

/-! ## The end of a remote access (R432) -/

/-- The die whose control processor has the reply to its remote access: a mailbox completes where the command came in one. -/
def DieState.remoteOver (x : RemoteOut) (r : Reply) (y : DieState) : DieState :=
  if x.mbx < 16 then { y with
    remote := []
    mbx := Table.set Mailbox.reset x.mbx { Table.get Mailbox.reset x.mbx y.mbx with
      status := r.status, detail := r.detail, resLen := BitVec.ofNat 16 (4 * r.res.length), res := putWords r.res, owned := false } y.mbx
    busy := y.busy &&& ~~~ (1#16 <<< x.mbx)
    done := y.done ||| (1#16 <<< x.mbx) }
  else { y with remote := [] }

theorem DieState.remoteOver_sigOwn (x : RemoteOut) (r : Reply) (y : DieState) : (y.remoteOver x r).sigOwn = y.sigOwn := by
  unfold DieState.remoteOver
  split <;> rfl

section
variable {b : State} {d : Die} {x : RemoteOut} (hx : (b.die d).remote = [x]) (hg : (b.die d).going = []) (hp : x.msg.path = .internal)
  (hd : Msg.die x.msg = d) (ha : actsOnDies x.code = false)
include hx hg hp hd ha

theorem State.remoteDone_eq (r : Reply) :
    b.remoteDone d x r = (b.modDie d (DieState.remoteOver x r)).output (.reply x.code r.status x.msg.seq r.detail r.res) := by
  have hhub : hubReply x.code r = r := by simp [hubReply, ha]
  have herase : (b.die d).remote.erase x = [] := by simp [hx]
  have hgo (t : State) (ht : (t.die d).going = []) : t.dieGo d = t := by
    rw [State.dieGo, ht]
    rfl
  have hanswer : ((b.modDie d fun y => { y with remote := y.remote.erase x }).answerMsg x.code x.mbx x.msg r) =
      (b.modDie d (DieState.remoteOver x r)).output (.reply x.code r.status x.msg.seq r.detail r.res) := by
    simp only [State.answerMsg, hhub, ite_self, hp, hd, State.mailboxDone, State.modDie, herase, DieState.remoteOver]
    split
    · rw [State.die_setDie_same, State.setDie_setDie]
    · rfl
  rw [State.remoteDone, hanswer]
  refine hgo _ ?_
  refine (congrArg DieState.going (State.die_modDie_same d (DieState.remoteOver x r) b)).trans ?_
  rw [← hg, DieState.remoteOver]
  split <;> rfl

theorem State.StaysQuiet.remoteDone {u : State} (hu : u.StaysQuiet b) (r : Reply) : u.StaysQuiet (b.remoteDone d x r) := by
  rw [State.remoteDone_eq hx hg hp hd ha]
  exact (hu.modDie d _ (DieState.remoteOver_sigOwn ..)).output _

/-- What the end of a remote access leaves: the answer to its command, and its die. -/
theorem State.remoteDone_ends (r : Reply) : ∃ t, b.remoteDone d x r = t ∧
    t = { b with dies := t.dies, outbox := b.outbox ++ [.reply x.code r.status x.msg.seq r.detail r.res] } ∧ (∀ q, q ≠ d → t.die q = b.die q) ∧
    (16 ≤ x.mbx → t.die d = { b.die d with remote := [] }) ∧
    (x.mbx < 16 → t.die d = { b.die d with
        remote := [], mbx := (t.die d).mbx, busy := (b.die d).busy &&& ~~~ (1#16 <<< x.mbx), done := (b.die d).done ||| (1#16 <<< x.mbx) } ∧
      let y := Table.get Mailbox.reset x.mbx (t.die d).mbx
      y.status = r.status ∧ y.detail = r.detail ∧ y.owned = false ∧ ∀ n < 32, Table.get 0 n y.res = r.res.getD n 0) := by
  have hdie : (b.remoteDone d x r).die d = (b.die d).remoteOver x r := by
    rw [State.remoteDone_eq hx hg hp hd ha]
    exact State.die_modDie_same ..
  refine ⟨_, rfl, ?_, fun q hq => ?_, fun hm => ?_, fun hm => ?_⟩
  · rw [State.remoteDone_eq hx hg hp hd ha]
    rfl
  · rw [State.remoteDone_eq hx hg hp hd ha]
    exact (State.die_setDie ..).trans (if_neg hq)
  · rw [hdie, DieState.remoteOver, if_neg (by omega)]
  · rw [hdie, DieState.remoteOver, if_pos hm]
    refine ⟨rfl, ?_⟩
    simp only [Table.get_set_same]
    exact ⟨trivial, trivial, trivial, fun n _ => get_putWords _ n⟩

end

/-- The reply to a remote access as its requester reads it. -/
theorem remoteReply_eq (f : Frame) : remoteReply f = ⟨Code.ok, f.detail.extractLsb' 16 8,
    if f.detail.extractLsb' 16 8 = 0 then wordsOf (f.payload.length / 4) f.payload else []⟩ := by
  have hst : (f.detail.extractLsb' 16 8).toNat = f.detail.toNat / 65536 % 256 := by
    simp [BitVec.extractLsb'_toNat, Nat.shiftRight_eq_div_pow]
  have h0 : f.detail.extractLsb' 16 8 = 0 ↔ f.detail.toNat / 65536 % 256 = 0 := by
    rw [← BitVec.toNat_inj, hst]
    rfl
  simp only [remoteReply, h0, ← hst, BitVec.ofNat_toNat, BitVec.setWidth_eq]

end Sys2Proof.Machine
open Sys2Proof Sys2Proof.Machine

/-- Settles O42: by the status of a request, what its memory unit does with one that is served, and the replies that set out. -/
theorem requestsAreServed : Obligations.RequestsAreServed := by
  intro s now d hq u
  have huq : u.quiet = true := State.advanceTo_quiet now hq
  have hu : u.StaysQuiet u := .refl huq
  refine ⟨?_, ?_, ?_, ?_⟩
  · intro f hwait
    exact State.StaysQuiet.happens_eq (e := fun s => s.memRequest d f) (State.memRequest_waits hwait) hu
  · intro f e hb hp hn hr he op n b good replies
    have hgood : good ↔ memMalformed f = false := (memMalformed_iff f).symm
    refine ⟨?_, ?_⟩
    · intro w hg hw hjob hsize harmed hbad hweak a
      have hs : u.sound := ⟨hbad, hweak, harmed⟩
      have hst := State.memStatus_window (hgood.mp hg) hw
      rw [if_neg (not_not.mpr hjob), if_neg (not_lt.mpr hsize)] at hst
      refine ⟨fun hop hrd hc => ?_, fun hop hrd hc hcs => ?_, fun hop hwr hstop hfence hcode hcs hlen => ?_⟩
      · have h0 : u.memStatus f = 0 := by simp [hst, show memOp f = 1 from hop, hrd]
        exact memReq_reads hq hb hp hn hr he h0 hw hop hc hs
      · have h0 : u.memStatus f = 0 := by simp [hst, show memOp f = 1 from hop, hrd]
        exact memReq_combines hq hb hp hn h0 hw hop hc hcs
      · have h0 : u.memStatus f = 0 := by
          rw [hst]
          simp [show memOp f = 2 from hop, hwr, hstop, hfence, show u.inCode (w.base.toNat + f.offset.toNat) 128 = false from hcode]
        obtain ⟨v, hexec, hv, hwrites, hrep, hmem⟩ := memReq_writes hq hb hp hn hr he h0 hw hop hcs hs
        refine ⟨v, hexec, hv, hwrites, hrep, fun x => ?_⟩
        rw [hmem, Memory.read_writeN, hlen]
        rfl
    · intro hsig status h0
      have hst : u.memStatus f = status := by
        by_cases hg : good
        · have hm := hgood.mp hg
          simp only [status, if_neg (not_not.mpr hg)]
          cases hw : u.window n with
          | none => exact State.memStatus_noWindow hm hw
          | some w => exact State.memStatus_window hm hw
        · have hm : memMalformed f = true := by simpa using mt hgood.mpr hg
          simp only [status, if_pos hg]
          exact State.memStatus_malformed hm
      rw [← hst] at h0 ⊢
      exact memReq_refuses hq hb hp hn hr he hsig h0
  · intro n off w c hw hcs hj hn ho ht harmed hbad hweak hreaders
    obtain ⟨v, hexec, hv, hcs', hfab, hall⟩ := combineClose_answers hq hw hcs hj hn ho ht ⟨hbad, hweak, harmed⟩ hreaders
    refine ⟨v, hexec, hv, hcs', hfab, hall.length_eq.symm, fun i g r hg hr => ?_⟩
    obtain ⟨hi, rfl⟩ := List.getElem?_eq_some_iff.mp hg
    obtain ⟨hi', rfl⟩ := List.getElem?_eq_some_iff.mp hr
    exact hall.get hi' hi
  · intro x hx hg hp hd ha ends
    have hends {b : State} {i : Instr} {r : Reply} (hb : u.StaysQuiet b) (hdies : b.dies = u.dies) (hout : b.outbox = u.outbox)
        (hi : exec i s = u.acts fun _ => b.remoteDone d x r) : ends i b r.status r.detail r.res := by
      have hdie (q : Die) : b.die q = u.die q := by simp only [State.die, hdies]
      obtain ⟨t, ht, hstate, hothers, hmessage, hmailbox⟩ :=
        State.remoteDone_ends ((congrArg DieState.remote (hdie d)).trans hx) ((congrArg DieState.going (hdie d)).trans hg) hp hd ha r
      have hquiet := State.StaysQuiet.remoteDone ((congrArg DieState.remote (hdie d)).trans hx) ((congrArg DieState.going (hdie d)).trans hg) hp hd ha hb r
      rw [hout] at hstate
      simp only [hdie] at hothers hmessage hmailbox
      refine ⟨t, ?_, hstate, hothers, hmessage, hmailbox⟩
      rw [hi, State.StaysQuiet.acts (e := fun _ => b.remoteDone d x r) hquiet, ht]
    refine ⟨fun f hf hb => ?_, fun hlate => ?_⟩
    · obtain ⟨ib, ps, hunbox⟩ := u.unbox_eq (.die d) f
      have hrun : u.remoteIn d f = (u.unbox (.die d) f).remoteDone d x (remoteReply f) := by
        simp [State.remoteIn, hb, hx, hf]
      have hi : exec (.memReply d f now) s = u.acts fun _ => (u.unbox (.die d) f).remoteDone d x (remoteReply f) := by
        rw [← hrun]
        exact State.happens_eq_acts ..
      rw [remoteReply_eq] at hi
      exact hends (hu.unbox _ _) (by rw [hunbox]) (by rw [hunbox]) hi
    · have hrun : u.remoteLate d x.tag = u.remoteDone d x (Reply.fail Code.memTimeout) := by
        simp [State.remoteLate, hx, hlate]
      have hi : exec (.memTimeout d x.tag now) s = u.acts fun _ => u.remoteDone d x (Reply.fail Code.memTimeout) := by
        rw [← hrun]
        exact State.happens_eq_acts ..
      exact hends hu rfl rfl hi
end

section
/-! SUPPORT. Words of registers alone: the integer operations, the immediates, the moves and conversions of the scalar slot, and the mask
operations of the vector slot (07 R162, R168, R177 to R180, R192). -/

namespace Sys2Proof.Machine

open Sys2Proof.Claims

section
variable {i : Instr} {s : State} {p : Place} {op : Byte} {w : Fields} {n : Nat} {u : Form}

/-- A word of the scalar slot whose plan only computes books its results. -/
theorem State.books_scalar (P : Cluster → Plan) (hi : exec i s = s.slotWord p 1 op w)
    (hplan : ∀ (t : State) c k, t.scalarPlan c k ⟨1, op, w⟩ = P k) (hfetch : ∀ n b k, P (Cluster.fetched n b k) = P k)
    (hP : (P (s.clu p.cl)).OnlyComputes) (hT : (P (s.clu p.cl)).targets ≠ []) (hl : (⟨1, op, w⟩ : SlotWord).legal = true)
    (hn : (if w.wide then 10 else 6) = n) (hcl : Closes n p s) :
    Books i n 1 (P (s.clu p.cl)).lat (P (s.clu p.cl)).targets (P (s.clu p.cl)).flags p s :=
  State.books_of_plan P hi (hplan ..) (fun b => hfetch n b _) one_ne_zero hl hn hcl hP hT

/-- A word of the vector slot whose plan only computes books its results. -/
theorem State.books_vector (P : Cluster → Plan) (hi : exec i s = s.slotWord p 2 op w)
    (hplan : ∀ (t : State) c k b, t.vectorPlan c k b ⟨2, op, w⟩ = P k) (hfetch : ∀ n b k, P (Cluster.fetched n b k) = P k)
    (hP : (P (s.clu p.cl)).OnlyComputes) (hT : (P (s.clu p.cl)).targets ≠ []) (hl : (⟨2, op, w⟩ : SlotWord).legal = true)
    (hn : (if w.wide then 10 else 6) = n) (hcl : Closes n p s) :
    Books i n 2 (P (s.clu p.cl)).lat (P (s.clu p.cl)).targets (P (s.clu p.cl)).flags p s :=
  State.books_of_plan P hi (hplan ..) (fun b => hfetch n b _) two_ne_zero hl hn hcl hP hT

end

/-! ## Integer operations (R177) -/

theorem planInt_fetched (n : Nat) (b : Bundle) (k : Cluster) (w : Fields) (g : DWord → DWord → DWord) :
    planInt (k.fetched n b) w g = planInt k w g := by
  obtain ⟨hx, -⟩ := Cluster.fetched_regs n b k
  simp only [planInt, hx]

/-- An integer operation of two registers books its result after its latency. -/
theorem State.books_int {i : Instr} {s : State} {p : Place} {op : Byte} {w : Fields} {lat grp : Nat} {r : DWord → DWord → DWord}
    (g : DWord → DWord → DWord) (hi : exec i s = s.slotWord p 1 op w)
    (hplan : ∀ (t : State) c k, t.scalarPlan c k ⟨1, op, w⟩ = { planInt k w g with lat := lat, group := grp })
    (hform : form 1 op.toNat = some { wide := false, d := true, a := true, b := true }) (hr : ∀ a b, g a b = r a b)
    (hcl : Closes 6 p s) (hw : w.wide = false) (hc : w.c = 0) (hm : w.mod = 0) :
    Books i 6 1 lat [.x w.d (r ((s.clu p.cl).xr w.a) ((s.clu p.cl).xr w.b))] NFlags.none p s := by
  rw [← hr]
  exact State.books_scalar (fun k => { planInt k w g with lat := lat, group := grp }) hi hplan (fun n b k => by rw [planInt_fetched])
    ⟨rfl, by simp [planInt], rfl, rfl, rfl, rfl, rfl⟩ (by simp [planInt])
    (SlotWord.legal_of_form hform hw (.inl rfl) (.inl rfl) (.inl rfl) (.inr hc) (by simp [hm]) rfl) (by simp [hw]) hcl

/-- The low six bits of a shift count. -/
theorem shiftCount_eq (b : DWord) : (b.extractLsb' 0 6).toNat = b.toNat % 64 := by
  simp [BitVec.extractLsb'_toNat]

/-- A shift counts by the low six bits of its second operand. -/
theorem shl_low (a b : DWord) : a <<< (b.toNat % 64) = a <<< (b.extractLsb' 0 6) := by rw [← shiftCount_eq]; rfl
theorem shr_low (a b : DWord) : a >>> (b.toNat % 64) = a >>> (b.extractLsb' 0 6) := by rw [← shiftCount_eq]; rfl

theorem slt_min (a b : DWord) : (if a.slt b then a else b) = if a.toInt ≤ b.toInt then a else b := by
  by_cases h : a.toInt < b.toInt
  · simp [BitVec.slt_eq_decide, h, h.le]
  · by_cases he : a.toInt = b.toInt
    · rw [BitVec.toInt_inj.mp he, ite_self, ite_self]
    · simp [BitVec.slt_eq_decide, h, show ¬ a.toInt ≤ b.toInt by omega]

theorem slt_max (a b : DWord) : (if a.slt b then b else a) = if a.toInt ≤ b.toInt then b else a := by
  by_cases h : a.toInt < b.toInt
  · simp [BitVec.slt_eq_decide, h, h.le]
  · by_cases he : a.toInt = b.toInt
    · rw [BitVec.toInt_inj.mp he, ite_self, ite_self]
    · simp [BitVec.slt_eq_decide, h, show ¬ a.toInt ≤ b.toInt by omega]

/-! ## Immediates (R177) -/

theorem planAddi_fetched (n : Nat) (b : Bundle) (k : Cluster) (w : Fields) : planAddi (k.fetched n b) w = planAddi k w := by
  obtain ⟨hx, -⟩ := Cluster.fetched_regs n b k
  simp only [planAddi, hx]

theorem planLih_fetched (n : Nat) (b : Bundle) (k : Cluster) (w : Fields) : planLih (k.fetched n b) w = planLih k w := by
  obtain ⟨hx, -⟩ := Cluster.fetched_regs n b k
  simp only [planLih, hx]

theorem planSetcx_fetched (n : Nat) (b : Bundle) (k : Cluster) (w : Fields) : planSetcx (k.fetched n b) w = planSetcx k w := by
  obtain ⟨hx, -⟩ := Cluster.fetched_regs n b k
  simp only [planSetcx, hx]

/-- A word above the low half of another. -/
theorem shl_or_low_eq_append (hi : Word) (a : DWord) :
    (hi.setWidth 64 <<< 32) ||| (a.setWidth 32).setWidth 64 = hi ++ a.extractLsb' 0 32 := by
  ext i hi'
  refine Eq.trans ?_ (BitVec.getElem_append (x := hi) (y := a.extractLsb' 0 32) hi').symm
  simp only [BitVec.getElem_or, BitVec.getElem_shiftLeft, BitVec.getElem_setWidth, BitVec.getLsbD_setWidth]
  by_cases h : i < 32
  · simp [h]
  · simp [h, BitVec.getLsbD_eq_getElem, show i - 32 < 32 by omega]

/-- A word below 32 zero bits is the word extended with zeros. -/
theorem zero_append_eq_setWidth (a : Word) : 0#32 ++ a = a.setWidth 64 := by
  refine BitVec.eq_of_toNat_eq ((BitVec.toNat_append ..).trans ?_)
  simp
  omega

section
variable {s : State} {p : Place} {w : Fields}

theorem State.books_addi (hcl : Closes 10 p s) (hw : w.wide = true) (hb : w.b = 0) (hc : w.c = 0) (hm : w.mod = 0) :
    Books (.addi p w) 10 1 1 [.x w.d ((s.clu p.cl).xr w.a + w.imm.signExtend 64)] NFlags.none p s :=
  State.books_scalar (op := 0x10) (planAddi · w) rfl (fun _ _ _ => rfl) (fun n b k => planAddi_fetched n b k w)
    ⟨rfl, by simp [planAddi], rfl, rfl, rfl, rfl, rfl⟩ (by simp [planAddi])
    (SlotWord.legal_of_form (op := 0x10) (u := { wide := true, d := true, a := true }) rfl hw (.inl rfl) (.inl rfl) (.inr hb) (.inr hc)
      (by simp [hm]) rfl) (by simp [hw]) hcl

theorem State.books_lih (hcl : Closes 10 p s) (hw : w.wide = true) (hb : w.b = 0) (hc : w.c = 0) (hm : w.mod = 0) :
    Books (.lih p w) 10 1 1 [.x w.d (w.imm ++ ((s.clu p.cl).xr w.a).extractLsb' 0 32)] NFlags.none p s := by
  rw [← shl_or_low_eq_append]
  exact State.books_scalar (op := 0x11) (planLih · w) rfl (fun _ _ _ => rfl) (fun n b k => planLih_fetched n b k w)
    ⟨rfl, by simp [planLih], rfl, rfl, rfl, rfl, rfl⟩ (by simp [planLih])
    (SlotWord.legal_of_form (op := 0x11) (u := { wide := true, d := true, a := true }) rfl hw (.inl rfl) (.inl rfl) (.inr hb) (.inr hc)
      (by simp [hm]) rfl) (by simp [hw]) hcl

theorem State.books_setcx (hcl : Closes 10 p s) (hw : w.wide = true) (hd : w.d = 0) (hc : w.c = 0) (hm : w.mod = 0)
    (hi : w.imm.toNat < 2 ^ 20) :
    Books (.setcx p w) 10 1 1
      [.cx ⟨((s.clu p.cl).xr w.a).setWidth 32, ((s.clu p.cl).xr w.b).setWidth 32, w.imm.extractLsb' 8 12, w.imm.extractLsb' 0 8⟩]
      NFlags.none p s :=
  State.books_scalar (op := 0x30) (planSetcx · w) rfl (fun _ _ _ => rfl) (fun n b k => planSetcx_fetched n b k w)
    ⟨rfl, by simp [planSetcx], rfl, rfl, rfl, rfl, rfl⟩ (by simp [planSetcx])
    (SlotWord.legal_of_form (op := 0x30) (u := { wide := true, a := true, b := true, ok := fun f => f.imm.toNat < 2 ^ 20 }) rfl hw
      (.inr hd) (.inl rfl) (.inl rfl) (.inr hc) (by simp [hm]) (decide_eq_true hi)) (by simp [hw]) hcl

end

/-! ## Comparisons, moves and conversions of the scalar slot (R177 to R179) -/

theorem planFcmp_fetched (n : Nat) (b : Bundle) (k : Cluster) (w : Fields) : planFcmp (k.fetched n b) w = planFcmp k w := by
  obtain ⟨-, hf, -⟩ := Cluster.fetched_regs n b k
  simp only [planFcmp, hf]

theorem planFmvxf_fetched (n : Nat) (b : Bundle) (k : Cluster) (w : Fields) : planFmvxf (k.fetched n b) w = planFmvxf k w := by
  obtain ⟨-, hf, -⟩ := Cluster.fetched_regs n b k
  simp only [planFmvxf, hf]

theorem planFmvfx_fetched (n : Nat) (b : Bundle) (k : Cluster) (w : Fields) : planFmvfx (k.fetched n b) w = planFmvfx k w := by
  obtain ⟨hx, -⟩ := Cluster.fetched_regs n b k
  simp only [planFmvfx, hx]

theorem planIcvtf_fetched (n : Nat) (b : Bundle) (k : Cluster) (w : Fields) : planIcvtf (k.fetched n b) w = planIcvtf k w := by
  obtain ⟨hx, -⟩ := Cluster.fetched_regs n b k
  simp only [planIcvtf, hx]

theorem planFcvti_fetched (n : Nat) (b : Bundle) (k : Cluster) (w : Fields) : planFcvti (k.fetched n b) w = planFcvti k w := by
  obtain ⟨-, hf, -⟩ := Cluster.fetched_regs n b k
  simp only [planFcvti, hf]

section
variable {s : State} {p : Place} {w : Fields}

theorem State.books_fcmp (hcl : Closes 6 p s) (hw : w.wide = false) (hm : w.mod = 0) (hc : w.c.toNat ≤ 5) :
    Books (.fcmp p w) 6 1 4 [.x w.d (if f32cmp w.c.toNat ((s.clu p.cl).fr w.a) ((s.clu p.cl).fr w.b) then 1 else 0)] NFlags.none p s :=
  State.books_scalar (op := 0x2B) (planFcmp · w) rfl (fun _ _ _ => rfl) (fun n b k => planFcmp_fetched n b k w)
    ⟨rfl, by simp [planFcmp], rfl, rfl, rfl, rfl, rfl⟩ (by simp [planFcmp])
    (SlotWord.legal_of_form (op := 0x2B) (u := { wide := false, d := true, a := true, b := true, c := true, ok := fun f => f.c.toNat ≤ 5 })
      rfl hw (.inl rfl) (.inl rfl) (.inl rfl) (.inl rfl) (by simp [hm]) (decide_eq_true hc)) (by simp [hw]) hcl

/-- A move or a conversion of one register of the scalar slot books the results of its plan. -/
theorem State.books_scalarMove {i : Instr} {op : Byte} (P : Cluster → Plan) (hi : exec i s = s.slotWord p 1 op w)
    (hplan : ∀ (t : State) c k, t.scalarPlan c k ⟨1, op, w⟩ = P k) (hfetch : ∀ n b k, P (Cluster.fetched n b k) = P k)
    (hP : (P (s.clu p.cl)).OnlyComputes) (hT : (P (s.clu p.cl)).targets ≠ [])
    (hform : form 1 op.toNat = some { wide := false, d := true, a := true }) (hcl : Closes 6 p s) (hw : w.wide = false)
    (hm : w.mod = 0) (hb : w.b = 0) (hc : w.c = 0) :
    Books i 6 1 (P (s.clu p.cl)).lat (P (s.clu p.cl)).targets (P (s.clu p.cl)).flags p s :=
  State.books_scalar P hi hplan hfetch hP hT
    (SlotWord.legal_of_form hform hw (.inl rfl) (.inl rfl) (.inr hb) (.inr hc) (by simp [hm]) rfl) (by simp [hw]) hcl

end

/-! ## Masks (R178, R180) -/

theorem planVcmp_fetched (n : Nat) (b : Bundle) (k : Cluster) (w : Fields) : planVcmp (k.fetched n b) w = planVcmp k w := by
  obtain ⟨-, -, hv, -⟩ := Cluster.fetched_regs n b k
  simp only [planVcmp, enOf_fetched, hv]

theorem planM2_fetched (n : Nat) (b : Bundle) (k : Cluster) (w : Fields) (g : BitVec 512 → BitVec 512 → BitVec 512) :
    planM2 (k.fetched n b) w g = planM2 k w g := by
  obtain ⟨-, -, -, hm, -⟩ := Cluster.fetched_regs n b k
  simp only [planM2, hm]

theorem planMnot_fetched (n : Nat) (b : Bundle) (k : Cluster) (w : Fields) : planMnot (k.fetched n b) w = planMnot k w := by
  obtain ⟨-, -, -, hm, -⟩ := Cluster.fetched_regs n b k
  simp only [planMnot, hm]

section
variable {s : State} {p : Place} {w : Fields}

theorem State.books_vcmp (hcl : Closes 6 p s) (hw : w.wide = false) (hd : w.d.toNat < 8) (hc : w.c.toNat ≤ 5) (hm : w.mod.toNat < 8) :
    Books (.vcmp p w) 6 2 4
      [.m (w.d.setWidth 3) (maskOf fun l => f32cmp w.c.toNat (laneOf ((s.clu p.cl).vr w.a) l) (laneOf ((s.clu p.cl).vr w.b) l))
        (enOf (s.clu p.cl) w)] NFlags.none p s :=
  State.books_vector (op := 0x0C) (planVcmp · w) rfl (fun _ _ _ _ => rfl) (fun n b k => planVcmp_fetched n b k w)
    ⟨rfl, by simp [planVcmp], rfl, rfl, rfl, rfl, rfl⟩ (by simp [planVcmp])
    (SlotWord.legal_of_form (op := 0x0C) rfl hw (.inl rfl) (.inl rfl) (.inl rfl) (.inl rfl) hm (by simp [hc, hd])) (by simp [hw]) hcl

/-- A mask operation of two masks books a whole mask. -/
theorem State.books_m2 {i : Instr} {op : Byte} (g : BitVec 512 → BitVec 512 → BitVec 512) (hi : exec i s = s.slotWord p 2 op w)
    (hplan : ∀ (t : State) c k b, t.vectorPlan c k b ⟨2, op, w⟩ = planM2 k w g)
    (hform : form 2 op.toNat = some { wide := false, d := true, a := true, b := true
                                      ok := fun f => f.d.toNat < 8 && f.a.toNat < 8 && f.b.toNat < 8 })
    (hcl : Closes 6 p s) (hw : w.wide = false) (hc : w.c = 0) (hm : w.mod = 0) (hd : w.d.toNat < 8) (ha : w.a.toNat < 8)
    (hb : w.b.toNat < 8) :
    Books i 6 2 1 [.m (w.d.setWidth 3) (g ((s.clu p.cl).mr (w.a.setWidth 3)) ((s.clu p.cl).mr (w.b.setWidth 3))) (BitVec.allOnes 512)]
      NFlags.none p s :=
  State.books_vector (planM2 · w g) hi hplan (fun n b k => planM2_fetched n b k w g)
    ⟨rfl, by simp [planM2], rfl, rfl, rfl, rfl, rfl⟩ (by simp [planM2])
    (SlotWord.legal_of_form hform hw (.inl rfl) (.inl rfl) (.inl rfl) (.inr hc) (by simp [hm]) (by simp [hd, ha, hb])) (by simp [hw]) hcl

theorem State.books_mnot (hcl : Closes 6 p s) (hw : w.wide = false) (hb : w.b = 0) (hc : w.c = 0) (hm : w.mod = 0) (hd : w.d.toNat < 8)
    (ha : w.a.toNat < 8) :
    Books (.mnot p w) 6 2 1 [.m (w.d.setWidth 3) (~~~ (s.clu p.cl).mr (w.a.setWidth 3)) (BitVec.allOnes 512)] NFlags.none p s :=
  State.books_vector (op := 0x1B) (planMnot · w) rfl (fun _ _ _ _ => rfl) (fun n b k => planMnot_fetched n b k w)
    ⟨rfl, by simp [planMnot], rfl, rfl, rfl, rfl, rfl⟩ (by simp [planMnot])
    (SlotWord.legal_of_form (op := 0x1B) rfl hw (.inl rfl) (.inl rfl) (.inr hb) (.inr hc) (by simp [hm]) (by simp [hd, ha])) (by simp [hw]) hcl

end

end Sys2Proof.Machine
open Sys2Proof Sys2Proof.Machine

/-- Settles O1: each operation's plan books what the operation gives, where a shift counts by the low six bits and a signed minimum may take
either of two equal numbers. -/
theorem integerOpsBookTheirResult : Obligations.IntegerOpsBookTheirResult := by
  intro e he s p w hcl hw hc hm
  simp only [Claims.intOps, List.mem_cons, List.not_mem_nil, or_false] at he
  rcases he with rfl | rfl | rfl | rfl | rfl | rfl | rfl | rfl | rfl | rfl | rfl | rfl | rfl | rfl
  · exact State.books_int _ rfl (fun _ _ _ => rfl) rfl (fun _ _ => rfl) hcl hw hc hm
  · exact State.books_int _ rfl (fun _ _ _ => rfl) rfl (fun _ _ => rfl) hcl hw hc hm
  · exact State.books_int _ rfl (fun _ _ _ => rfl) rfl (fun _ _ => rfl) hcl hw hc hm
  · exact State.books_int _ rfl (fun _ _ _ => rfl) rfl (fun _ _ => rfl) hcl hw hc hm
  · exact State.books_int _ rfl (fun _ _ _ => rfl) rfl (fun _ _ => rfl) hcl hw hc hm
  · exact State.books_int _ rfl (fun _ _ _ => rfl) rfl (fun _ _ => rfl) hcl hw hc hm
  · exact State.books_int (fun a b => a <<< (b.toNat % 64)) rfl (fun _ _ _ => rfl) rfl shl_low hcl hw hc hm
  · exact State.books_int (fun a b => a >>> (b.toNat % 64)) rfl (fun _ _ _ => rfl) rfl shr_low hcl hw hc hm
  · exact State.books_int (fun a b => a.sshiftRight (b.toNat % 64)) rfl (fun _ _ _ => rfl) rfl (fun a b => by rw [← shiftCount_eq]) hcl hw hc hm
  · exact State.books_int (fun a b => if a.slt b then 1 else 0) rfl (fun _ _ _ => rfl) rfl (fun a b => by simp [BitVec.slt_eq_decide]) hcl hw hc hm
  · exact State.books_int (fun a b => if a.ult b then 1 else 0) rfl (fun _ _ _ => rfl) rfl (fun a b => by simp [BitVec.ult_eq_decide]) hcl hw hc hm
  · exact State.books_int _ rfl (fun _ _ _ => rfl) rfl (fun _ _ => rfl) hcl hw hc hm
  · exact State.books_int (fun a b => if a.slt b then a else b) rfl (fun _ _ _ => rfl) rfl slt_min hcl hw hc hm
  · exact State.books_int (fun a b => if a.slt b then b else a) rfl (fun _ _ _ => rfl) rfl slt_max hcl hw hc hm

/-- Settles O2: by the plans of the three words. -/
theorem immediateOpsBookTheirResult : Obligations.ImmediateOpsBookTheirResult := by
  intro s p w hcl hw hc hm
  refine ⟨fun hb => State.books_addi hcl hw hb hc hm, fun hb => State.books_lih hcl hw hb hc hm, fun hd hi => ?_⟩
  have hlow : ∀ a : DWord, a.extractLsb' 0 32 = a.setWidth 32 := fun a => by ext i; simp
  rw [hlow, hlow]
  exact State.books_setcx hcl hw hd hc hm hi

/-- Settles O4: by the plans of the five words. -/
theorem movesAndConversionsBookTheirResult : Obligations.MovesAndConversionsBookTheirResult := by
  intro s p w hcl hw hm
  refine ⟨fun hc => State.books_fcmp hcl hw hm hc, fun hb hc => ⟨?_, ?_, ?_, ?_⟩⟩
  · rw [zero_append_eq_setWidth]
    exact State.books_scalarMove (op := 0x2C) (planFmvxf · w) rfl (fun _ _ _ => rfl) (planFmvxf_fetched · · · w)
      ⟨rfl, by simp [planFmvxf], rfl, rfl, rfl, rfl, rfl⟩ (by simp [planFmvxf]) rfl hcl hw hm hb hc
  · have hlow : ∀ a : DWord, a.extractLsb' 0 32 = a.setWidth 32 := fun a => by ext i; simp
    rw [hlow]
    exact State.books_scalarMove (op := 0x2D) (planFmvfx · w) rfl (fun _ _ _ => rfl) (planFmvfx_fetched · · · w)
      ⟨rfl, by simp [planFmvfx], rfl, rfl, rfl, rfl, rfl⟩ (by simp [planFmvfx]) rfl hcl hw hm hb hc
  · exact State.books_scalarMove (op := 0x2E) (planIcvtf · w) rfl (fun _ _ _ => rfl) (planIcvtf_fetched · · · w)
      ⟨rfl, by simp [planIcvtf], rfl, rfl, rfl, rfl, rfl⟩ (by simp [planIcvtf]) rfl hcl hw hm hb hc
  · exact State.books_scalarMove (op := 0x2F) (planFcvti · w) rfl (fun _ _ _ => rfl) (planFcvti_fetched · · · w)
      ⟨rfl, by simp [planFcvti], rfl, rfl, rfl, rfl, rfl⟩ (by simp [planFcvti]) rfl hcl hw hm hb hc

/-- Settles O7: by the plan of the comparison and those of the mask operations. -/
theorem maskOpsBookTheirResult : Obligations.MaskOpsBookTheirResult := by
  intro s p w hcl hw hd
  refine ⟨fun hc hm => State.books_vcmp hcl hw hd hc hm, fun hm hc ha => ⟨fun hb => ⟨?_, ?_, ?_⟩, fun hb => State.books_mnot hcl hw hb hc hm hd ha⟩⟩
  · exact State.books_m2 (fun a b => a &&& b) rfl (fun _ _ _ _ => rfl) rfl hcl hw hc hm hd ha hb
  · exact State.books_m2 (fun a b => a ||| b) rfl (fun _ _ _ _ => rfl) rfl hcl hw hc hm hd ha hb
  · exact State.books_m2 (fun a b => a ^^^ b) rfl (fun _ _ _ _ => rfl) rfl hcl hw hc hm hd ha hb
end

section
/-! SUPPORT. A bundle that stands at issue: what its lines in the cache, its conditions and its holds make of it, and what its issue leaves of
the cluster, whether or not the bundle has been held (06 R139, R156; 07 R168, R170, R195). -/

namespace Sys2Proof.Machine

open Sys2Proof.Claims

/-! ## The bundle at issue -/

/-- What becomes of a bundle whose lines are in the cache: its conditions, its holds, its issue (R170, R195). -/
def State.decides (c : ClusterId) (b : Bundle) (s : State) : State :=
  match firstCond ((s.conds c b).filter fun x => !x.mayPass) with
  | some _ => s.haltAll c (s.conds c b)
  | none =>
    let h := s.holds c ((s.plans c b).map (·.2))
    if !h.1.isEmpty then h.2.modClu c fun k => { k with gstate := .held, holdCause := causeOf h.1 }
    else if !(s.conds c b).isEmpty then h.2.haltAll c (s.conds c b)
    else h.2.issueNow c b

section
variable {c : ClusterId} {b : Bundle} {s v : State}

/-- The lines of a bundle that is in the cache are brought to the front, and the bundle is decided on. -/
theorem State.bundleAt_cached (h : ((linesOf (s.clu c).pc.toNat b.size).all (s.clu c).cached) = true) :
    s.bundleAt c b = (s.setClu c ((linesOf (s.clu c).pc.toNat b.size).foldl (fun k l => Cluster.touch l k) (s.clu c))).decides c b := by
  simp only [State.bundleAt, h, Bool.not_true, Bool.false_eq_true, false_and, if_false, if_true]
  rfl

/-- A bundle without a condition that waits for nothing issues. -/
theorem State.decides_issues (hc : s.conds c b = []) (hh : s.holds c ((s.plans c b).map (·.2)) = ([], v)) :
    s.decides c b = v.issueNow c b := by
  simp [State.decides, hc, firstCond, hh]

/-- A bundle without a condition that waits is held. -/
theorem State.decides_held {l : List HoldCause} (hc : s.conds c b = []) (hh : s.holds c ((s.plans c b).map (·.2)) = (l, v)) (hl : l ≠ []) :
    s.decides c b = v.setClu c { v.clu c with gstate := .held, holdCause := causeOf l } := by
  simp [State.decides, hc, firstCond, hh, hl, State.modClu]

/-- A bundle that meets a condition which no wait changes halts the cluster. -/
theorem State.decides_halts {x : Cond} (hc : firstCond ((s.conds c b).filter fun x => !x.mayPass) = some x) :
    s.decides c b = s.haltAll c (s.conds c b) := by
  simp [State.decides, hc]

/-- The bundle of a cluster whose step has come is decided on. -/
theorem State.tryIssue_decides (hg : (s.clu c).gstate = .running ∨ (s.clu c).gstate = .held) (hs : (s.clu c).startGate = none)
    (hn : (s.clu c).nextIssue ≤ (s.clu c).stepCount) (hi : (s.clu c).issuedAt ≠ some (s.clu c).stepCount) (he : (s.clu c).ending = none)
    {bs : List Bundle} (hq : (s.clu c).fetchQ = b :: bs) (hl : ((linesOf (s.clu c).pc.toNat b.size).all (s.clu c).cached) = true) :
    s.tryIssue c = (s.setClu c ((linesOf (s.clu c).pc.toNat b.size).foldl (fun k l => Cluster.touch l k) (s.clu c))).decides c b := by
  simp only [State.tryIssue, hg, hs, hn, hi, he, hq, ne_eq, not_false_eq_true, and_self, if_true]
  exact State.bundleAt_cached hl

end

/-- A bundle that joins an empty queue of a cluster that is ready but for results in flight is decided on. -/
theorem State.tryIssue_ready {s : State} {c : ClusterId} {b : Bundle} {n : Nat} (hr : ({ s.clu c with inflight := [] } : Cluster).ready n = true)
    (hn : b.size = n) : (s.setClu c { s.clu c with forming := [], fetchQ := [b] }).tryIssue c =
      (s.setClu c ((s.clu c).fetched n b)).decides c b := by
  obtain ⟨h1, h2, h3, h4, -, -, -, -, -, -, -, -, -, he, -, -, -, hl, -⟩ := (Cluster.ready_iff n _).mp hr
  have hk : (s.setClu c { s.clu c with forming := [], fetchQ := [b] }).clu c = { s.clu c with forming := [], fetchQ := [b] } :=
    State.clu_setClu_same ..
  rw [State.tryIssue_decides (b := b) (bs := []) (by rw [hk]; exact .inl h1) (by rw [hk]; exact h2) (by rw [hk]; exact h3) (by rw [hk]; exact h4)
    (by rw [hk]; exact he) (by rw [hk]) (by rw [hk, hn]; exact hl), hk, State.setClu_setClu, hn]
  rfl

/-- A cluster that is ready is ready but for results in flight. -/
theorem Cluster.ready_inflight {n : Nat} {k : Cluster} (h : k.ready n = true) : ({ k with inflight := [] } : Cluster).ready n = true := by
  rw [Cluster.ready_iff] at h ⊢
  obtain ⟨h1, h2, h3, h4, h5, h6, -, h⟩ := h
  exact ⟨h1, h2, h3, h4, h5, h6, rfl, h⟩

/-- A closing word on a cluster that is ready but for results in flight is decided on. -/
theorem State.place_decides {s : State} {p : Place} {slot : Nat} {op : Byte} {w : Fields} {n : Nat} (hm : p.more = false) (hy : p.stray = 0)
    (hn : (if w.wide then 10 else 6) = n) (hr : ({ s.clu p.cl with inflight := [] } : Cluster).ready n = true) :
    s.place p slot op w = (s.atIssue p n (oneWord p slot op w)).decides p.cl (oneWord p slot op w) := by
  have h := (Cluster.ready_iff n _).mp hr
  dsimp only at h
  obtain ⟨h1, -, -, -, h5, h6, -, -, -, -, -, -, -, he, -⟩ := h
  have hz : absentWide 0 [⟨slot, op, w⟩] = 0 := by simp [absentWide]
  rw [State.atIssue, ← State.tryIssue_ready hr ((oneWord_size p slot op w).trans hn), State.place]
  simp only [h1, he, true_or, and_self, if_true, h5, State.place.insertWord, hm, hy, hz, h6, List.nil_append, Bool.false_eq_true, if_false]
  rfl

/-! ## What an issue leaves of the cluster -/

/-- kv is k0 with the bundle b at issue: fetched, and held or released by what it waits for. -/
def Cluster.Stands (b : Bundle) (k0 kv : Cluster) : Prop :=
  kv = { k0 with
    fetchQ := [b], icache := kv.icache, gstate := kv.gstate, holdCause := kv.holdCause, waitDone := kv.waitDone, gateDone := kv.gateDone
    grant := kv.grant, waitDeadline := kv.waitDeadline }

theorem Cluster.Stands.fetched {n : Nat} {b : Bundle} {k : Cluster} (hf : k.forming = []) : k.Stands b (k.fetched n b) := by
  obtain ⟨ic, hk⟩ := Cluster.fetched_eq n b k
  unfold Cluster.Stands
  rw [hk]
  simp [hf]

section
variable {b : Bundle} {k0 kv : Cluster} {n : Nat} (hk : k0.Stands b kv) (hr : k0.ready n = true)
include hk hr

/-- What the issue of one word leaves of a cluster, whatever it has waited for. -/
theorem Cluster.Stands.issued {slot : Nat} {idle : BitVec 4} {P : Plan} (hf : P.fail = none) (ht : P.tile = none) :
    Issued n idle k0 (kv.issues idle slot P (k0.pc + BitVec.ofNat 32 n, k0.loops)) ∧
    (kv.issues idle slot P (k0.pc + BitVec.ofNat 32 n, k0.loops)).inflight =
      if P.targets = [] then [] else [⟨k0.stepCount + P.lat - 1, slot, P.targets, P.flags⟩] := by
  obtain ⟨h1, -, -, -, -, h6, h7, -, h9, h10, h11, -⟩ := (Cluster.ready_iff n _).mp hr
  unfold Cluster.Stands at hk
  unfold Issued Cluster.issues
  rw [hk]
  clear hk
  by_cases hT : P.targets = []
  · simp only [Cluster.book, hf, ht, hT, List.isEmpty_nil, if_true]
    constructor <;> repeat' split
    all_goals simp [h1, h6, h7, h9, h10, h11]
  · simp only [Cluster.book, hf, ht, List.isEmpty_eq_false_iff.mpr hT]
    constructor <;> repeat' split
    all_goals simp_all

end

/-- The header of a bundle without a wide bit of an absent slot, inside the code region, without a failed line, meets no condition. -/
theorem Cluster.headConds_none {b : Bundle} {k : Cluster} (hz : b.wide0 = 0) (hlen : k.pc.toNat + b.size ≤ k.codeLen) (hbad : k.fetchBad = []) :
    k.headConds b = [] := by
  simp [Cluster.headConds, Cluster.badLine, hz, hbad, Nat.not_lt.mpr hlen]

/-- A bundle at issue on a ready cluster has a good header. -/
theorem Cluster.Stands.headConds {b : Bundle} {k0 kv : Cluster} {n : Nat} (hk : k0.Stands b kv) (hr : k0.ready n = true) (hn : b.size = n)
    (hz : b.wide0 = 0) : kv.headConds b = [] := by
  obtain ⟨-, -, -, -, -, -, -, -, -, -, -, -, h13, -, -, -, h16, -, -⟩ := (Cluster.ready_iff n _).mp hr
  unfold Cluster.Stands at hk
  rw [hk]
  exact Cluster.headConds_none hz (hn ▸ h16) h13

/-- The conditions of a bundle of one legal word with a good header: those of its plan, then its hazards. -/
theorem State.conds_word {v : State} {c : ClusterId} {b : Bundle} {w : SlotWord} {P : Plan} (hb : b.words = [w]) (hl : w.legal = true)
    (hhead : (v.clu c).headConds b = []) (hP : v.plan c b w = P) (ht : P.tile = none) :
    v.conds c b = P.conds ++ (v.clu c).hazards (v.clu c).stepCount w.slot [] [] P := by
  simp only [State.conds, State.plans_one hb hl, hP, hhead, List.filterMap_cons, List.filterMap_nil, ht, List.foldl_cons, List.foldl_nil,
    List.nil_append]
  simp [hb, hl]

section
variable {v : State} {c : ClusterId} {b : Bundle} {w : SlotWord} {n : Nat} {k0 : Cluster} (hb : b.words = [w]) (hl : w.legal = true)
  (hk : k0.Stands b (v.clu c)) (hr : k0.ready n = true) (hn : b.size = n)
include hb hl hk hr hn

/-- The conditions of a bundle of one legal word on a ready cluster are those of its plan. -/
theorem State.conds_stands {P : Plan} (hz : b.wide0 = 0) (hP : v.plan c b w = P) (hg : P.gap ≤ 6) (ht : P.tile = none) :
    v.conds c b = P.conds := by
  have hhead := hk.headConds hr hn hz
  obtain ⟨-, -, -, -, -, -, h7, h8, -, -, -, -, -, -, h14, h15, -⟩ := (Cluster.ready_iff n _).mp hr
  have hhaz : (v.clu c).hazards (v.clu c).stepCount w.slot [] P.tile.toList P = [] := by
    unfold Cluster.Stands at hk
    rw [hk]
    exact Cluster.hazards_none h7 h8 h14 h15 hg (by simp [ht])
  rw [ht] at hhaz
  rw [State.conds_word hb hl hhead hP ht]
  simpa using hhaz

/-- The issue of a bundle of one word that ends no impression and moves nothing: its results go in flight, and its act takes place. -/
theorem State.issueNow_stands {P : Plan} (hP : v.plan c b w = P) (hf : P.fail = none) (ht : P.tile = none) (hv : P.conf = [])
    (ha : P.act = .none) : ∃ k', v.issueNow c b = v.setClu c k' ∧ Issued n b.idle k0 k' ∧
      k'.inflight = if P.targets = [] then [] else [⟨k0.stepCount + P.lat - 1, w.slot, P.targets, P.flags⟩] := by
  have hp := State.plans_one (s := v) (c := c) hb hl
  rw [hP] at hp
  have hloop := ((Cluster.ready_iff n _).mp hr).2.2.2.2.2.2.2.2.2.2.2.2.2.2.2.2.2.2
  have hnx : v.nextPc (v.clu c) n .none = (k0.pc + BitVec.ofNat 32 n, k0.loops) := by
    have h := hk
    unfold Cluster.Stands at h
    rw [State.nextPc_ready _ (by rw [h]; exact hloop), h]
  obtain ⟨hi, hin⟩ := hk.issued hr (slot := w.slot) (idle := b.idle) hf ht
  refine ⟨_, ?_, hi, hin⟩
  rw [← hnx]
  by_cases hs : w.slot = 0
  · rw [State.issueNow_control hp hf hs hn (by simp [ha]), ha, State.correctRead_none _ hv, hs]
    rfl
  · rw [State.issueNow_one hp hf hs hn, ha, State.correctRead_none _ hv]
    rfl

end

end Sys2Proof.Machine
end

section
/-! SUPPORT. A cluster that halts at its bundle: its fault record, the event log, the schedule entry of its impression (07 R195 to R200). -/

namespace Sys2Proof.Machine

open Sys2Proof.Claims

/-! ## The job table while an impression ends -/

/-- A change of a job changes no other job. -/
theorem State.job_modJob_other {s : State} {no n : JobNo} {k : Nat} {g : Job → Job} (hr : Rising s) (h : s.jobSlot no = some k)
    (hg : (g (s.job no)).no = no) (hn : n ≠ no) : (s.modJob no g).job n = s.job n := by
  obtain ⟨-, j, hm, hj⟩ := State.jobSlot_mem h
  have hkey : ∀ e ∈ s.jobs, e.1 = k → e.2.no = no := fun e he hk => by
    have hv : e.2 = j := (Table.get_of_mem (d := Job.reset) hr (w := e.2) (hk ▸ he)).symm.trans (Table.get_of_mem hr hm)
    rw [hv, hj]
  have hfind : (s.modJob no g).jobs.find? (fun e => e.2.no == n) =
      (s.jobs.find? fun e => e.2.no == n).map fun e => if e.1 = k then (k, g (s.job no)) else e := by
    rw [State.modJob_eq_map hr h hg, List.find?_map]
    congr 1
    refine List.find?_congr fun e he => ?_
    by_cases hk : e.1 = k
    · simp [hk, hg, hkey e he hk]
    · simp [hk]
  have hslot : (s.modJob no g).jobSlot n = s.jobSlot n := by
    simp only [State.jobSlot, hfind, Option.map_map]
    congr 2
    funext e
    simp only [Function.comp]
    split
    · exact Eq.symm ‹_›
    · rfl
  cases hs : s.jobSlot n with
  | none => simp only [State.job, hslot, hs]
  | some m =>
    obtain ⟨-, i, hmi, hi⟩ := State.jobSlot_mem hs
    have hne : m ≠ k := fun hmk => hn (hi.symm.trans (hkey _ hmi hmk))
    simp only [State.job, hslot, hs]
    rw [State.modJob_of_slot h]
    exact Table.get_set_other _ _ _ hne

section
variable {c : ClusterId} {w : State} (hr : Rising w) (hj : ∀ i, (w.clu c).impr = some i → w.jobSlot i.job ≠ none)
include hr hj

/-- The schedule entry of the impression of a cluster no longer runs, and keeps the code and the record. -/
theorem State.endsEntry_prog (code : BitVec 16) (r : Option FaultRec) {i : ImprRef} (hi : (w.clu c).impr = some i) :
    let q := Table.get EntryProg.reset i.entry ((w.endsEntry c code r).job i.job).prog
    q.running = false ∧ q.ended = w.time ∧ q.code = code ∧ q.record = r := by
  obtain ⟨k, hk⟩ := Option.ne_none_iff_exists'.mp (hj i hi)
  simp only [State.endsEntry, hi]
  rw [State.job_modJob hr hk (State.job_no hr hk), Job.entryEnded]
  simp only [Table.get_set_same, and_self]

/-- The end of an impression changes no job but its own. -/
theorem State.endsEntry_job (code : BitVec 16) (r : Option FaultRec) {n : JobNo} (hn : ∀ i, (w.clu c).impr = some i → n ≠ i.job) :
    (w.endsEntry c code r).job n = w.job n := by
  cases hi : (w.clu c).impr with
  | none => simp only [State.endsEntry, hi]
  | some i =>
    obtain ⟨k, hk⟩ := Option.ne_none_iff_exists'.mp (hj i hi)
    simp only [State.endsEntry, hi]
    exact State.job_modJob_other hr hk (State.job_no hr hk) (hn i hi)

end

/-! ## The halt (R198, R200) -/

/-- The fault record of a condition that halts a cluster. -/
def Cond.record (c : ClusterId) (k : Cluster) (now : Nat) (more inj : Bool) (x : Cond) : FaultRec :=
  { number := x.number, injected := inj, more := more, slot := BitVec.ofNat 3 x.slot, code := x.code, job := k.job
    cls := x.cls, cluster := c, step := BitVec.ofNat 64 k.stepCount, pc := k.pc, detail := x.detail, time := BitVec.ofNat 64 now }

/-- A fault record goes to the event log, and the requests of its cluster wait no longer. -/
def State.faults (c : ClusterId) (r : FaultRec) (s : State) : State :=
  (s.append { s.event r.code clsCluster (c.setWidth 16) r.job r.detail with injected := r.injected }).modDie c.die (DieState.abandons c)

theorem State.die_append (e : Event) (d : Die) (s : State) : (s.append e).die d = s.die d := by simp [State.die]

theorem State.faults_abandons (c : ClusterId) (r : FaultRec) (s : State) : Abandons c s (s.faults c r) := by
  intro d
  rw [State.faults, State.modDie, State.die_setDie, State.die_append, State.die_append]
  split
  · rename_i hd
    rw [hd]
    rfl
  · rfl

/-- A fault changes the event log and what waits on its die. -/
theorem State.faults_state (c : ClusterId) (r : FaultRec) (s : State) :
    s.faults c r = { s with hub := (s.faults c r).hub, dies := (s.faults c r).dies } := by
  simp only [State.faults, State.append, State.modDie, State.setDie]

theorem State.faults_eventSeq (c : ClusterId) (r : FaultRec) (s : State) : (s.faults c r).hub.eventSeq = s.hub.eventSeq + 1 := by
  simp only [State.faults, State.append, State.modDie, State.setDie, State.event]

theorem State.StaysQuiet.faults {u v : State} (h : u.StaysQuiet v) (c : ClusterId) (r : FaultRec) : u.StaysQuiet (v.faults c r) := by
  have happend : u.StaysQuiet (v.append { v.event r.code clsCluster (c.setWidth 16) r.job r.detail with injected := r.injected }) :=
    h.portsHub v.ports _
  exact happend.modDie _ (DieState.abandons c) rfl

/-- A cluster that a fault ends: its record is written, and it halts once all has landed. -/
theorem State.haltCluster_eq {c : ClusterId} {k : Cluster} (hg : k.grant = none) (he : k.ending = none) (r : FaultRec) (s : State) :
    (s.setClu c k).haltCluster c r = ((s.faults c r).setClu c (k.willEnd (.fault r))).endIfLanded c := by
  have happend : ∀ e, (s.setClu c k).append e = (s.append e).setClu c k := fun e => by simp only [State.append, State.setClu]
  have hevent : ∀ code cls unit job detail, (s.setClu c k).event code cls unit job detail = s.event code cls unit job detail :=
    fun _ _ _ _ _ => rfl
  simp only [State.haltCluster, State.clu_setClu_same, he, happend, hevent]
  rw [State.willEnd_eq _ hg he]
  rfl

/-- A bundle whose first condition is x halts its cluster with the record of x. -/
theorem State.haltAll_eq {c : ClusterId} {cs : List Cond} {x : Cond} {b : Bundle} {bs : List Bundle} {s : State} (hx : firstCond cs = some x)
    (hq : (s.clu c).fetchQ = b :: bs) (hrow : x.row ≠ 13) (hcode : x.code ≠ Code.bufferNotOwner) :
    s.haltAll c cs = s.haltCluster c (x.record c (s.clu c) s.time (decide (1 < cs.length)) false) := by
  have hinj : (x.row == 13 && ((s.clu c).badLine b).any (·.2)) = false := by simp [hrow]
  simp only [State.haltAll, hx, hq, hinj, State.haltAt, hcode, if_false]
  rfl

/-- A command that halts a cluster with nothing in flight at its bundle halts it as Halts says. -/
theorem halts_of_haltCluster {i : Instr} {s : State} {c : ClusterId} {x : Cond} {k : Cluster} {more : Bool}
    (hi : exec i s = .next (s.finish s.time ((s.setClu c k).haltCluster c (x.record c (s.clu c) s.time more false)))) (hquiet : s.quiet = true)
    (hknown : Known c s)
    (hk : k = { s.clu c with forming := k.forming, fetchQ := k.fetchQ, icache := k.icache }) (hfly : (s.clu c).inflight = [])
    (htiles : (s.clu c).tiles = []) (hg : (s.clu c).grant = none) (he : (s.clu c).ending = none) :
    Halts i c x.code (BitVec.ofNat 3 x.slot) x.cls x.number x.detail s := by
  generalize hr : x.record c (s.clu c) s.time more false = r at hi
  obtain ⟨hrise, himpr⟩ := hknown
  have hkg : k.grant = none := by rw [hk]; exact hg
  have hke : k.ending = none := by rw [hk]; exact he
  have hki : k.impr = (s.clu c).impr := by rw [hk]
  generalize hw : (s.faults c r).setClu c (k.willEnd (.fault r)) = w
  have hclu : w.clu c = k.willEnd (.fault r) := by rw [← hw, State.clu_setClu_same]
  have hstate : w = { s with clusters := w.clusters, hub := w.hub, dies := w.dies } := by
    rw [← hw, State.faults_state]
    rfl
  have hjobs : w.jobs = s.jobs := by rw [hstate]
  have hrw : Rising w := by rw [Rising, hjobs]; exact hrise
  have hwi : (w.clu c).impr = (s.clu c).impr := by rw [hclu]; exact hki
  have hslot : ∀ i, (w.clu c).impr = some i → w.jobSlot i.job ≠ none ∧ (w.job i.job).proofRole = 0 := fun i h => by
    rw [State.jobSlot_congr hjobs, State.job_congr hjobs]
    exact himpr i (hwi ▸ h)
  have hfault := State.endIfLanded_fault (c := c) (s := w) (r := r) (by rw [hclu, hk]; exact hfly) (by rw [hclu, hk]; exact htiles) hrw hslot
    (by rw [hclu]; simp [Cluster.willEnd])
  rw [State.haltCluster_eq hkg hke, hw, hfault] at hi
  have hq : s.StaysQuiet ((w.endsEntry c r.code (some r)).setClu c ((w.clu c).haltsWith r)) := by
    refine State.StaysQuiet.setClu (.endsEntry ?_ ..) ..
    rw [← hw]
    exact ((State.StaysQuiet.refl hquiet).faults c r).setClu ..
  rw [hq.finish] at hi
  generalize ht : (w.endsEntry c r.code (some r)).setClu c ((w.clu c).haltsWith r) = t at hi
  have hts : t = { w with clusters := t.clusters, jobs := t.jobs } := by
    rw [← ht, State.endsEntry_jobs]
    rfl
  have htj : t.jobs = (w.endsEntry c r.code (some r)).jobs := by rw [← ht]; rfl
  have htc : t.clu c = (k.willEnd (.fault r)).haltsWith r := by rw [← ht, State.clu_setClu_same, hclu]
  have hxpc : (t.clu c).x = (s.clu c).x ∧ (t.clu c).pc = (s.clu c).pc ∧ (t.clu c).inflight = [] := by
    rw [htc, hk]
    exact ⟨rfl, rfl, hfly⟩
  subst hr
  refine ⟨t, x.record c (s.clu c) s.time more false, hi, ?_, fun d => ?_, fun h => ?_, fun y hy => ?_, fun n hn => ?_, ?_,
    fun d hd => ?_, ?_, ?_, ?_, hxpc.2.2, hxpc.1, hxpc.2.1,
    rfl, rfl, rfl, rfl, rfl, rfl, rfl, rfl, rfl, rfl⟩
  · rw [hts, hstate]
  · have hdies : t.dies = (s.faults c (x.record c (s.clu c) s.time more false)).dies := by
      rw [hts, ← hw]
      simp
    rw [State.die, hdies]
    exact State.faults_abandons c _ s d
  · rw [htj, State.endsEntry, hwi, h]
    exact hjobs
  · rw [State.job_congr htj]
    have h := State.endsEntry_prog hrw (fun i hi => (hslot i hi).1) (x.code) (some (x.record c (s.clu c) s.time more false)) (hwi.trans hy)
    rwa [show w.time = s.time by rw [hstate]] at h
  · rw [State.job_congr htj]
    exact (State.endsEntry_job hrw (fun i hi => (hslot i hi).1) _ _ fun i hi => hn i (hwi ▸ hi)).trans (State.job_congr hjobs n)
  · have hhub : t.hub = (s.faults c (x.record c (s.clu c) s.time more false)).hub := by
      rw [hts, ← hw]
      simp
    rw [hhub, State.faults_eventSeq]
  · have hcl : ∀ v : State, v = { w with jobs := v.jobs } → v.clu d = w.clu d := fun v hv => by
      rw [hv]
      rfl
    rw [← ht, State.clu_setClu, if_neg hd, hcl _ (State.endsEntry_jobs ..), ← hw, State.clu_setClu, if_neg hd]
    simp only [State.clu, State.faults, State.modDie_frame, State.append_frame]
  · rw [htc]
    rfl
  · rw [htc]
    rfl
  · rw [htc]
    rfl

end Sys2Proof.Machine
end

section
/-! SUPPORT. Words and bundles that halt their cluster: reserved bits, a LOOP without a place, a read that comes too early (07 R165, R167,
R173, R194 to R200). -/

namespace Sys2Proof.Machine

open Sys2Proof.Claims

/-! ## The first condition of a bundle (R197) -/

theorem firstCond_one (x : Cond) : firstCond [x] = some x := rfl

/-- A condition that comes before the first of the others is the first. -/
theorem firstCond_cons_before {x y : Cond} (h : x.before y = true) : firstCond [x, y] = some x := by simp [firstCond, h]

theorem Cond.record_fetched (c : ClusterId) (n : Nat) (b : Bundle) (k : Cluster) (now : Nat) (more inj : Bool) (x : Cond) :
    x.record c (k.fetched n b) now more inj = x.record c k now more inj := by
  obtain ⟨-, -, -, -, -, hj, -, hpc, -, hstep, -⟩ := Cluster.fetched_regs n b k
  simp only [Cond.record, hj, hpc, hstep]

/-- A bundle with a first condition that no wait changes halts its cluster with the record of the condition. -/
theorem State.decides_faults {s : State} {c : ClusterId} {b : Bundle} {n : Nat} {cs : List Cond} {x : Cond}
    (hcs : (s.setClu c ((s.clu c).fetched n b)).conds c b = cs) (hx : firstCond cs = some x) (hpass : ∀ y ∈ cs, y.mayPass = false)
    (hrow : x.row ≠ 13) (hcode : x.code ≠ Code.bufferNotOwner) :
    (s.setClu c ((s.clu c).fetched n b)).decides c b =
      (s.setClu c ((s.clu c).fetched n b)).haltCluster c (x.record c (s.clu c) s.time (decide (1 < cs.length)) false) := by
  obtain ⟨ic, hk⟩ := Cluster.fetched_eq n b (s.clu c)
  have hall : cs.filter (fun y => !y.mayPass) = cs := List.filter_eq_self.mpr fun y hy => by simp [hpass y hy]
  have hq : ((s.setClu c ((s.clu c).fetched n b)).clu c).fetchQ = b :: [] := by rw [State.clu_setClu_same, hk]
  rw [State.decides_halts (x := x) (by rw [hcs, hall, hx]), hcs, State.haltAll_eq hx hq hrow hcode, State.clu_setClu_same, Cond.record_fetched]
  rfl

/-- A closing word on a ready cluster halts it where its bundle has a first condition that no wait changes. -/
theorem halts_of_conds {i : Instr} {s : State} {p : Place} {slot : Nat} {op : Byte} {w : Fields} {n : Nat} {cs : List Cond} {x : Cond}
    (hi : exec i s = s.slotWord p slot op w) (hcl : Closes n p s) (hknown : Known p.cl s) (hn : (if w.wide then 10 else 6) = n)
    (hcs : (s.atIssue p n (oneWord p slot op w)).conds p.cl (oneWord p slot op w) = cs) (hx : firstCond cs = some x)
    (hpass : ∀ y ∈ cs, y.mayPass = false) (hrow : x.row ≠ 13) (hcode : x.code ≠ Code.bufferNotOwner) :
    Halts i p.cl x.code (BitVec.ofNat 3 x.slot) x.cls x.number x.detail s := by
  obtain ⟨hq, hcc, hm, hy, hr⟩ := hcl
  obtain ⟨-, -, -, -, -, -, h7, h8, -, -, h11, -, -, he, -⟩ := (Cluster.ready_iff n _).mp hr
  obtain ⟨ic, hk⟩ := Cluster.fetched_eq n (oneWord p slot op w) (s.clu p.cl)
  have hplace := State.place_decides (slot := slot) (op := op) hm hy hn (Cluster.ready_inflight hr)
  rw [State.atIssue, State.decides_faults hcs hx hpass hrow hcode] at hplace
  rw [State.slotWord_enabled hcc, hplace] at hi
  exact halts_of_haltCluster hi hq hknown (by rw [hk]) h7 h8 h11 he

/-- The condition of a bundle of one word that is not legal (R167). -/
theorem State.conds_illegal {v : State} {c : ClusterId} {b : Bundle} {w : SlotWord} {n : Nat} {k0 : Cluster} (hb : b.words = [w])
    (hl : w.legal = false) (hk : k0.Stands b (v.clu c)) (hr : k0.ready n = true) (hz : b.wide0 = 0) (hn : b.size = n) :
    v.conds c b = [condIllegal w.slot (b.offset w.slot)] := by
  have hhead := hk.headConds hr hn hz
  simp [State.conds, State.plans, hhead, hb, hl]

/-- A word of a slot stands behind the header of its bundle, where it is the only one. -/
theorem oneWord_offset (p : Place) (slot : Nat) (op : Byte) (w : Fields) : (oneWord p slot op w).offset slot = 2 := by
  simp [oneWord, Bundle.offset]

/-- A cluster that closes a word has the word's bundle at issue. -/
theorem Closes.stands {n : Nat} {p : Place} {s : State} (h : Closes n p s) (b : Bundle) :
    (s.clu p.cl).Stands b ((s.atIssue p n b).clu p.cl) := by
  obtain ⟨-, -, -, -, h5, -⟩ := (Cluster.ready_iff n _).mp h.2.2.2.2
  rw [State.clu_atIssue]
  exact Cluster.Stands.fetched h5

/-- ADD with a reserved bit set is illegal. -/
theorem add_reserved_halts {s : State} {p : Place} {w : Fields} (hknown : Known p.cl s) (hw : w.wide = false) (hcl : Closes 6 p s)
    (hm : w.mod ≠ 0) : Halts (.add p w) p.cl Code.illegalInstruction 1 0 0 2 s := by
  have hl : (⟨1, 0x01, w⟩ : SlotWord).legal = false := by
    have hmod : ¬ w.mod.toNat < 1 := fun h => hm (BitVec.eq_of_toNat_eq (by simpa using h))
    have hform : form 1 (0x01 : Byte).toNat = some { wide := false, d := true, a := true, b := true } := rfl
    simp only [SlotWord.legal, hform, show max 0 1 = 1 from rfl, decide_eq_false hmod, Bool.and_false, Bool.false_and]
  exact halts_of_conds (x := condIllegal 1 2) (op := 0x01) rfl hcl hknown (by simp [hw])
    (by rw [State.conds_illegal rfl hl (hcl.stands _) hcl.2.2.2.2 rfl ((oneWord_size ..).trans (by simp [hw])), oneWord_offset])
    (firstCond_one _) (by simp [condIllegal, Cond.mayPass]) (by decide) (by decide)

/-! ## LOOP (R173) -/

/-- The plan of LOOP with what the fetch of the last bundle of its body meets. -/
def State.loopPlan (k : Cluster) (w : Fields) (s : State) : Plan :=
  { planLoop k 10 2 w with conds := (planLoop k 10 2 w).conds ++ s.loopFetch k (planLoop k 10 2 w).act }

/-- Does the body of a LOOP end before the bundle does, or leave the innermost loop. -/
def Cluster.badLoop (k : Cluster) (imm : Word) : Prop :=
  imm.toInt < 10 ∨ ∃ e ∈ k.loops.head?, k.pc.toNat + 10 < e.first ∨ (e.last : Int) < k.pc.toNat + imm.toInt

/-- The condition of a LOOP whose last bundle has an uncorrectable header (R158, R313). -/
def loopFetchCond (last : Nat) : Cond := ⟨13, 7, 0, Code.fetchUncorrectable, 0, 0, BitVec.ofNat 32 (last / 128 * 128)⟩

section
variable {s : State} {p : Place} {w : Fields} (hcl : Closes 10 p s) (hw : w.wide = true) (hd : w.d = 0) (hb : w.b = 0) (hc : w.c = 0)
  (hm : w.mod = 0) (heven : w.imm.toNat % 2 = 0)

theorem planLoop_fetched (n m off : Nat) (b : Bundle) (k : Cluster) (w : Fields) : planLoop (k.fetched n b) m off w = planLoop k m off w := by
  obtain ⟨hx, -, -, -, -, -, -, hpc, hloops, -⟩ := Cluster.fetched_regs n b k
  simp only [planLoop, hx, hpc, hloops]

include hw in
theorem State.plan_loop : (s.atIssue p 10 (oneWord p 0 0x04 w)).plan p.cl (oneWord p 0 0x04 w) ⟨0, 0x04, w⟩ = s.loopPlan (s.clu p.cl) w := by
  have hsize : (oneWord p 0 0x04 w).size = 10 := (oneWord_size ..).trans (by simp [hw])
  have hbase : ∀ k a, (s.atIssue p 10 (oneWord p 0 0x04 w)).loopFetch k a = s.loopFetch k a := fun _ _ => rfl
  have hcode : ∀ a, s.loopFetch ((s.clu p.cl).fetched 10 (oneWord p 0 0x04 w)) a = s.loopFetch (s.clu p.cl) a := fun a => by
    obtain ⟨-, -, -, -, -, -, -, -, -, -, -, -, -, -, -, hcb, -⟩ := Cluster.fetched_regs 10 (oneWord p 0 0x04 w) (s.clu p.cl)
    simp only [State.loopFetch, hcb]
  have hplan : (s.atIssue p 10 (oneWord p 0 0x04 w)).plan p.cl (oneWord p 0 0x04 w) ⟨0, 0x04, w⟩ =
      (let P := planLoop ((s.atIssue p 10 (oneWord p 0 0x04 w)).clu p.cl) (oneWord p 0 0x04 w).size ((oneWord p 0 0x04 w).offset 0) w
       { P with conds := P.conds ++
          (s.atIssue p 10 (oneWord p 0 0x04 w)).loopFetch ((s.atIssue p 10 (oneWord p 0 0x04 w)).clu p.cl) P.act }) := rfl
  rw [hplan, hsize, oneWord_offset, State.clu_atIssue, planLoop_fetched]
  simp only [hbase, hcode]
  rfl

include hw hd hb hc hm heven in
theorem loop_legal : (⟨0, 0x04, w⟩ : SlotWord).legal = true :=
  SlotWord.legal_of_form (op := 0x04) rfl hw (.inr hd) (.inl rfl) (.inr hb) (.inr hc) (by simp [hm]) (by simp [heven])

include hcl hw hd hb hc hm heven in
/-- The conditions of a LOOP are those of its plan. -/
theorem State.conds_loop : (s.atIssue p 10 (oneWord p 0 0x04 w)).conds p.cl (oneWord p 0 0x04 w) = (s.loopPlan (s.clu p.cl) w).conds :=
  State.conds_stands (n := 10) rfl (loop_legal hw hd hb hc hm heven) (hcl.stands _) hcl.2.2.2.2 ((oneWord_size ..).trans (by simp [hw])) rfl
    (State.plan_loop hw) (by simp [State.loopPlan, planLoop]) rfl

/-- The conditions of a LOOP, by its body and by the places of the loop stack. -/
theorem State.loopPlan_conds (k : Cluster) [Decidable (k.badLoop w.imm)] : (s.loopPlan k w).conds =
    (if k.badLoop w.imm then [condIllegal 0 2] else []) ++ (if 4 ≤ k.loops.length then [⟨7, 0, 0, Code.loopOverflow, 7, 0, 4⟩] else []) ++
      s.loopFetch k (.loop (k.xr w.a) ((k.pc.toNat : Int) + w.imm.toInt).toNat) := by
  by_cases hbad : k.badLoop w.imm
  · rw [if_pos hbad]
    unfold Cluster.badLoop at hbad
    simp only [State.loopPlan, planLoop]
    cases hl : k.loops with
    | nil => simp_all
    | cons e l => simp_all
  · rw [if_neg hbad]
    unfold Cluster.badLoop at hbad
    simp only [State.loopPlan, planLoop]
    cases hl : k.loops with
    | nil => simp_all
    | cons e l => simp_all

/-- What the fetch of the last bundle of a body meets is at most one uncorrectable header. -/
theorem State.loopFetch_cases (k : Cluster) (n : DWord) (last : Nat) :
    s.loopFetch k (.loop n last) = [] ∨ s.loopFetch k (.loop n last) = [loopFetchCond last] := by
  simp only [State.loopFetch]
  split
  · exact .inr rfl
  · exact .inl rfl

include hcl hw hd hb hc hm heven

/-- A LOOP that finds all four places in use halts the core. -/
theorem loop_full_halts (hknown : Known p.cl s) (hfull : (s.clu p.cl).loops.length = 4) (hbody : ¬ (s.clu p.cl).badLoop w.imm) :
    Halts (.loop p w) p.cl Code.loopOverflow 0 7 0 4 s := by
  classical
  have hcs := State.conds_loop hcl hw hd hb hc hm heven
  rw [State.loopPlan_conds, if_neg hbody, if_pos (by omega)] at hcs
  have h : ∀ l, s.loopFetch (s.clu p.cl) (.loop ((s.clu p.cl).xr w.a) (((s.clu p.cl).pc.toNat : Int) + w.imm.toInt).toNat) = l →
      (l = [] ∨ ∃ last, l = [loopFetchCond last]) → Halts (.loop p w) p.cl Code.loopOverflow 0 7 0 4 s := fun l hl hor => by
    rw [hl] at hcs
    rcases hor with rfl | ⟨last, rfl⟩
    · exact halts_of_conds (op := 0x04) rfl hcl hknown (by simp [hw]) hcs (firstCond_one _) (by simp [Cond.mayPass]) (by decide) (by decide)
    · exact halts_of_conds (op := 0x04) rfl hcl hknown (by simp [hw]) hcs (firstCond_cons_before (by simp [Cond.before, loopFetchCond]))
        (by simp [Cond.mayPass, loopFetchCond]) (by decide) (by decide)
  rcases State.loopFetch_cases (s := s) (s.clu p.cl) ((s.clu p.cl).xr w.a) (((s.clu p.cl).pc.toNat : Int) + w.imm.toInt).toNat with hf | hf
  · exact h _ hf (.inl rfl)
  · exact h _ hf (.inr ⟨_, rfl⟩)

/-- A LOOP whose body is not where it may be is illegal. -/
theorem loop_bad_halts (hknown : Known p.cl s) (hroom : (s.clu p.cl).loops.length < 4) (hbody : (s.clu p.cl).badLoop w.imm)
    (hgood : (s.clu p.cl).xr w.a = 0 → s.badWords = []) : Halts (.loop p w) p.cl Code.illegalInstruction 0 0 0 2 s := by
  classical
  have hfetch : ∀ last, s.loopFetch (s.clu p.cl) (.loop ((s.clu p.cl).xr w.a) last) = [] := fun last => by
    by_cases hz : (s.clu p.cl).xr w.a = 0
    · simp [State.loopFetch, hgood hz]
    · simp only [State.loopFetch, decide_eq_false hz, Bool.false_and, Bool.false_eq_true, if_false]
  have hcs := State.conds_loop hcl hw hd hb hc hm heven
  rw [State.loopPlan_conds, if_pos hbody, if_neg (by omega), hfetch] at hcs
  exact halts_of_conds (op := 0x04) rfl hcl hknown (by simp [hw]) hcs (firstCond_one _) (by simp [condIllegal, Cond.mayPass]) (by decide)
    (by decide)

end

/-! ## A read of a register that a result in flight will write (R194) -/

/-- The condition of a word of the scalar slot that reads an integer register too early. -/
def readTooEarly (r : BitVec 5) (steps : Nat) : Cond := condHazard 1 0 steps 1 r.toNat r.toNat

@[simp] theorem Reg.tracked_x (r : BitVec 5) : (Reg.x r).tracked = (r != 0) := rfl
@[simp] theorem Reg.cls_x (r : BitVec 5) : (Reg.x r).cls = 1 := rfl
@[simp] theorem Reg.number_x (r : BitVec 5) : (Reg.x r).number = r.toNat := rfl

section
variable {k : Cluster} {a : BitVec 5} {land slot : Nat} {v : DWord} {fl : NFlags} (hin : k.inflight = [⟨land, slot, [.x a v], fl⟩])
include hin

theorem Cluster.regLand_x (r : BitVec 5) : k.regLand (.x r) = if r = a then some land else none := by
  by_cases h : r = a
  · subst h
    simp [Cluster.regLand, hin, Target.regs]
  · simp [Cluster.regLand, hin, Target.regs, h]

omit hin in
/-- A word whose group has been idle for six steps meets no issue interval (R192). -/
theorem Cluster.intervalEarly_none {slot : Nat} {P : Plan} (hgroup : P.group ≠ 20) (hgap : P.gap ≤ 6)
    (hlast : k.lastIssue.all (fun (e : Nat × Nat) => decide (e.2 + 6 ≤ k.stepCount + 1)) = true) : k.intervalEarly k.stepCount slot P = [] := by
  rw [Cluster.intervalEarly, if_neg hgroup]
  refine if_neg ?_
  rcases Table.get_le (k := P.group) hlast with h | h
  · simp [h]
  · omega

/-- The hazards of ADD where its first operand is in flight: the read, and the write where it goes to the same register. -/
theorem Cluster.hazards_readEarly {w : Fields} (hwa : w.a = a) (ha : a ≠ 0) (hland : k.stepCount ≤ land)
    (hlast : k.lastIssue.all (fun (e : Nat × Nat) => decide (e.2 + 6 ≤ k.stepCount + 1)) = true) :
    k.hazards k.stepCount 1 [] [] (planAdd k w) = ((readTooEarly a (land - k.stepCount + 1) ::
      (if w.b = a then [readTooEarly a (land - k.stepCount + 1)] else [])) ++
      if w.d = a then [condHazard 1 1 (land - k.stepCount) 1 a.toNat a.toNat] else []).dedup := by
  have ha : a ≠ 0#5 := ha
  have hread : k.readEarly k.stepCount 1 (planAdd k w) = readTooEarly a (land - k.stepCount + 1) ::
      (if w.b = a then [readTooEarly a (land - k.stepCount + 1)] else []) := by
    by_cases hb : w.b = a
    · simp [Cluster.readEarly, planAdd, planInt, hwa, hb, ha, Cluster.regLand_x hin, hland, readTooEarly, List.filter_cons]
    · by_cases hb0 : w.b = 0
      · simp [Cluster.readEarly, planAdd, planInt, hwa, hb0, ha, Ne.symm ha, Cluster.regLand_x hin, hland, readTooEarly, List.filter_cons]
      · simp [Cluster.readEarly, planAdd, planInt, hwa, hb, ha, Cluster.regLand_x hin, hland, readTooEarly, List.filter_cons]
  have hwrite : k.writeEarly k.stepCount 1 [] (planAdd k w) =
      if w.d = a then [condHazard 1 1 (land - k.stepCount) 1 a.toNat a.toNat] else [] := by
    by_cases hd : w.d = a
    · simp [Cluster.writeEarly, Plan.writes, Plan.swrites, Plan.cwrites, planAdd, planInt, Target.regs, Target.range, hd, ha,
        Cluster.regLand_x hin, hland, List.filter_cons]
    · simp [Cluster.writeEarly, Plan.writes, Plan.swrites, Plan.cwrites, planAdd, planInt, Target.regs, Target.range, hd,
        Cluster.regLand_x hin, List.filter_cons]
  have hspan : k.intoSpan k.stepCount 1 [] (planAdd k w) = [] := by simp [Cluster.intoSpan, Plan.swrites, planAdd, planInt, Target.range]
  have hinterval : k.intervalEarly k.stepCount 1 (planAdd k w) = [] := Cluster.intervalEarly_none (by simp [planAdd, planInt])
    (by simp [planAdd, planInt]) hlast
  rw [Cluster.hazards, hread, hwrite, hspan, hinterval, List.append_nil, List.append_nil]

end

/-- The read comes first of the hazards of a word, with the number of the register that it reads. -/
theorem firstCond_readTooEarly {a : BitVec 5} {n m : Nat} {b d : Prop} [Decidable b] [Decidable d] :
    firstCond ((readTooEarly a n :: (if b then [readTooEarly a n] else [])) ++ if d then [condHazard 1 1 m 1 a.toNat a.toNat] else []).dedup =
      some (readTooEarly a n) := by
  have hbefore : (readTooEarly a n).before (condHazard 1 1 m 1 a.toNat a.toNat) = true := by simp [Cond.before, readTooEarly, condHazard]
  have htwo : firstCond [readTooEarly a n, condHazard 1 1 m 1 a.toNat a.toNat].dedup = some (readTooEarly a n) := by
    by_cases h : readTooEarly a n = condHazard 1 1 m 1 a.toNat a.toNat
    · rw [← h]
      simp [firstCond_one]
    · rw [List.dedup_eq_self.mpr (by simpa using h)]
      exact firstCond_cons_before hbefore
  by_cases hb : b <;> by_cases hd : d
  · rw [if_pos hb, if_pos hd]
    rw [List.cons_append, List.dedup_cons_of_mem (by simp)]
    exact htwo
  · simp [hb, hd, firstCond_one]
  · rw [if_neg hb, if_pos hd]
    exact htwo
  · simp [hb, hd, firstCond_one]

theorem readTooEarly_detail (r : BitVec 5) {n : Nat} (h : n < 2 ^ 30) : (readTooEarly r n).detail = BitVec.ofNat 32 n := by
  simp [readTooEarly, condHazard, Nat.min_eq_left (show n ≤ 1073741823 by omega)]

/-- The conditions of ADD whose first operand is in flight: a read that comes too early is the first, and no wait changes any. -/
theorem State.conds_readEarly {s : State} {p : Place} {w : Fields} {land slot : Nat} {v : DWord} {fl : NFlags}
    (hl : (⟨1, 0x01, w⟩ : SlotWord).legal = true) (hw : w.wide = false) (hr : ({ s.clu p.cl with inflight := [] } : Cluster).ready 6 = true)
    (hin : (s.clu p.cl).inflight = [⟨land, slot, [.x w.a v], fl⟩]) (ha : w.a ≠ 0) (hland : (s.clu p.cl).stepCount ≤ land) :
    let cs := (s.atIssue p 6 (oneWord p 1 0x01 w)).conds p.cl (oneWord p 1 0x01 w)
    firstCond cs = some (readTooEarly w.a (land - (s.clu p.cl).stepCount + 1)) ∧ ∀ y ∈ cs, y.mayPass = false := by
  have hparts := (Cluster.ready_iff 6 _).mp hr
  dsimp only at hparts
  obtain ⟨-, -, -, -, -, -, -, -, -, -, -, -, h13, -, -, h15, h16, -⟩ := hparts
  have hsize : (oneWord p 1 0x01 w).size = 6 := (oneWord_size ..).trans (by simp [hw])
  obtain ⟨ic, hk⟩ := Cluster.fetched_eq 6 (oneWord p 1 0x01 w) (s.clu p.cl)
  have hclu := State.clu_atIssue p 6 (oneWord p 1 0x01 w) s
  have hcs := State.conds_word (v := s.atIssue p 6 (oneWord p 1 0x01 w)) (c := p.cl) (b := oneWord p 1 0x01 w) rfl hl
    (by rw [hclu, hk]; exact Cluster.headConds_none rfl (hsize ▸ h16) h13) (P := planAdd ((s.clu p.cl).fetched 6 (oneWord p 1 0x01 w)) w)
    (by rw [← hclu]; rfl) rfl
  have hkin : ((s.clu p.cl).fetched 6 (oneWord p 1 0x01 w)).inflight = [⟨land, slot, [.x w.a v], fl⟩] := by rw [hk]; exact hin
  have hstep : ((s.clu p.cl).fetched 6 (oneWord p 1 0x01 w)).stepCount = (s.clu p.cl).stepCount := by rw [hk]
  rw [hclu, show ∀ k, (planAdd k w).conds = [] from fun _ => rfl, List.nil_append,
    Cluster.hazards_readEarly hkin rfl ha (by rw [hstep]; exact hland) (by rw [hk]; exact h15), hstep] at hcs
  refine ⟨by rw [hcs]; exact firstCond_readTooEarly, fun y hy => ?_⟩
  rw [hcs, List.mem_dedup, List.mem_append, List.mem_cons] at hy
  rcases hy with (rfl | hy) | hy
  · rfl
  · rw [List.mem_ite_nil_right] at hy
    rw [List.mem_singleton.mp hy.2]
    rfl
  · rw [List.mem_ite_nil_right] at hy
    rw [List.mem_singleton.mp hy.2]
    rfl

/-- ADD whose first operand is still in flight ends the impression, which goes on until the result has landed. -/
theorem add_readEarly_ends {s : State} {p : Place} {w : Fields} {land slot : Nat} {v : DWord} {fl : NFlags} (hw : w.wide = false)
    (hcl : Closes 6 p (s.setClu p.cl { s.clu p.cl with inflight := [] })) (hin : (s.clu p.cl).inflight = [⟨land, slot, [.x w.a v], fl⟩])
    (hc : w.c = 0) (hm : w.mod = 0) (ha : w.a ≠ 0) (hland : (s.clu p.cl).stepCount ≤ land) :
    ∃ (k : Cluster) (more : Bool), let r := (readTooEarly w.a (land - (s.clu p.cl).stepCount + 1)).record p.cl (s.clu p.cl) s.time more false
      exec (.add p w) s = .next ((s.faults p.cl r).setClu p.cl (k.willEnd (.fault r))) ∧
        k = { s.clu p.cl with forming := k.forming, fetchQ := k.fetchQ, icache := k.icache } := by
  obtain ⟨hq, hcc, hmore, hstray, hr⟩ := hcl
  rw [State.clu_setClu_same] at hr
  have hquiet : s.quiet = true := State.quiet_congr hq rfl rfl rfl rfl rfl rfl
  have hcc : s.hasCluster p.cl = true := hcc
  have hparts := (Cluster.ready_iff 6 _).mp hr
  dsimp only at hparts
  obtain ⟨-, -, -, -, -, -, -, -, -, -, h11, -, -, he, -⟩ := hparts
  have hl : (⟨1, 0x01, w⟩ : SlotWord).legal = true :=
    SlotWord.legal_of_form (op := 0x01) (u := { wide := false, d := true, a := true, b := true }) rfl hw (.inl rfl) (.inl rfl) (.inl rfl) (.inr hc)
      (by simp [hm]) rfl
  obtain ⟨hfirst, hpass⟩ := State.conds_readEarly hl hw hr hin ha hland
  obtain ⟨ic, hk⟩ := Cluster.fetched_eq 6 (oneWord p 1 0x01 w) (s.clu p.cl)
  have hplace := State.place_decides (slot := 1) (op := 0x01) (w := w) hmore hstray (by simp [hw]) hr
  rw [State.atIssue, State.decides_faults rfl hfirst hpass (by simp [readTooEarly, condHazard])
    (by simp [readTooEarly, condHazard, Code.scheduleHazard, Code.bufferNotOwner])] at hplace
  have hkg : ((s.clu p.cl).fetched 6 (oneWord p 1 0x01 w)).grant = none := by rw [hk]; exact h11
  have hke : ((s.clu p.cl).fetched 6 (oneWord p 1 0x01 w)).ending = none := by rw [hk]; exact he
  rw [State.haltCluster_eq hkg hke, State.endIfLanded_waits (by rw [State.clu_setClu_same, hk]; simp [Cluster.willEnd, hin])] at hplace
  have hrun := State.slotWord_enabled (slot := 1) (op := 0x01) (w := w) hcc
  rw [hplace, (((State.StaysQuiet.refl hquiet).faults ..).setClu ..).finish] at hrun
  exact ⟨_, _, hrun, by rw [hk]⟩

end Sys2Proof.Machine
open Sys2Proof Sys2Proof.Machine

/-- Settles O19: by the word's reserved bits, the conditions of LOOP, and the first hazard of a word that reads too early. -/
theorem faultyWordsHaltTheCore : Obligations.FaultyWordsHaltTheCore := by
  intro s p w hknown k
  refine ⟨fun hw hcl hm => add_reserved_halts hknown hw hcl hm, fun hw hcl hd hb hc hm heven hfull hbody hlen => ?_,
    fun hw hcl hd hb hc hm heven hroom hbad hgood => loop_bad_halts hcl hw hd hb hc hm heven hknown hroom hbad hgood, ?_⟩
  · refine loop_full_halts hcl hw hd hb hc hm heven hknown hfull ?_
    rintro (h | ⟨e, he, h⟩)
    · omega
    · obtain ⟨h1, h2⟩ := hbody e he
      exact h.elim (Nat.not_lt.mpr h1) (Int.not_lt.mpr h2)
  · intro land slot v fl hw hcl hin hc hm ha hland hfew
    obtain ⟨k', more, hi, hk⟩ := add_readEarly_ends hw hcl hin hc hm ha hland
    generalize hr : (readTooEarly w.a (land - (s.clu p.cl).stepCount + 1)).record p.cl (s.clu p.cl) s.time more false = r at hi
    have hclu := State.clu_setClu_same p.cl (k'.willEnd (.fault r)) (s.faults p.cl r)
    refine ⟨_, r, hi, ?_, fun d => ?_, ?_, fun c hne => ?_, ?_, ?_, ?_, ?_, ?_, ?_⟩
    · rw [State.faults_state]
      rfl
    · have hd : ((s.faults p.cl r).setClu p.cl (k'.willEnd (.fault r))).die d = (s.faults p.cl r).die d := by simp [State.die]
      rw [hd]
      exact State.faults_abandons p.cl r s d
    · exact State.faults_eventSeq ..
    · rw [State.clu_setClu, if_neg hne]
      simp only [State.clu, State.faults, State.modDie_frame, State.append_frame]
    · rw [hclu]
      rfl
    · rw [hclu]
      rfl
    · rw [hclu, hk]
      rfl
    · rw [hclu, hk]
      rfl
    · rw [hclu, hk]
      rfl
    · rw [← hr]
      exact ⟨rfl, rfl, rfl, BitVec.ofNat_toNat .., readTooEarly_detail w.a hfew, rfl, rfl⟩
end
section
/-! SUPPORT. Empty bundles, branches and LOOP on a ready cluster (07 R165, R171 to R173). -/

namespace Sys2Proof.Machine

open Sys2Proof.Claims

/-! ## Empty bundles (R165) -/

/-- A bundle without a word. -/
def emptyBundle (idle : BitVec 4) (wide : BitVec 6) : Bundle := ⟨[], idle, wide⟩

section
variable {s : State} {cl : ClusterId} (hcc : s.hasCluster cl = true) (hr : (s.clu cl).ready 2 = true)
include hcc hr

/-- The header of an empty bundle on a ready cluster is decided on. -/
theorem exec_emptyBundle {idle : BitVec 4} {wide : BitVec 6} {hdr : BitVec 16} (hi : hdr.extractLsb' 12 4 = idle)
    (hw : hdr.extractLsb' 6 6 = wide) : exec (.emptyBundle cl hdr) s =
      .next (s.finish s.time ((s.setClu cl ((s.clu cl).fetched 2 (emptyBundle idle wide))).decides cl (emptyBundle idle wide))) := by
  obtain ⟨h1, -, -, -, h5, h6, -, -, -, -, -, -, -, he, -⟩ := (Cluster.ready_iff 2 _).mp hr
  have hclu : { s.clu cl with fetchQ := (s.clu cl).fetchQ ++ [emptyBundle idle wide] } =
      { s.clu cl with forming := [], fetchQ := [emptyBundle idle wide] } := by rw [h6, ← h5]; rfl
  have hexec : exec (.emptyBundle cl hdr) s = execEmptyBundle cl hdr s := rfl
  rw [hexec, ← State.tryIssue_ready (Cluster.ready_inflight hr) rfl, ← hclu]
  simp only [execEmptyBundle, State.onCluster, State.happens, State.advanceTo_past (Nat.le_refl s.time), hcc, h1, he, true_or, and_self, if_true,
    hi, hw, emptyBundle]

end

theorem State.conds_empty {v : State} {c : ClusterId} {idle : BitVec 4} {wide : BitVec 6} :
    v.conds c (emptyBundle idle wide) = (v.clu c).headConds (emptyBundle idle wide) := by
  simp [State.conds, State.plans, emptyBundle]

/-- The issue of an empty bundle occupies its step. -/
theorem State.issueNow_empty {v : State} {c : ClusterId} {idle : BitVec 4} {k0 : Cluster} (hk : k0.Stands (emptyBundle idle 0) (v.clu c))
    (hr : k0.ready 2 = true) :
    ∃ k', v.issueNow c (emptyBundle idle 0) = v.setClu c k' ∧ Issued 2 idle k0 k' ∧ k'.inflight = [] := by
  obtain ⟨-, -, -, -, -, -, -, -, -, -, -, -, -, -, -, -, -, -, hloop⟩ := (Cluster.ready_iff 2 _).mp hr
  have hnx : v.nextPc (v.clu c) 2 .none = (k0.pc + BitVec.ofNat 32 2, k0.loops) := by
    have h := hk
    unfold Cluster.Stands at h
    rw [State.nextPc_ready _ (by rw [h]; exact hloop), h]
  obtain ⟨hi, hin⟩ := hk.issued hr (slot := 0) (idle := idle) (P := {}) rfl rfl
  refine ⟨_, ?_, hi, hin⟩
  rw [← hnx]
  rfl

/-- A header that names no slot issues. -/
theorem emptyBundle_issues {s : State} {cl : ClusterId} {idle : BitVec 4} {hdr : BitVec 16} (hq : s.quiet = true) (hcc : s.hasCluster cl = true)
    (hr : (s.clu cl).ready 2 = true) (hi : hdr.extractLsb' 12 4 = idle) (hw : hdr.extractLsb' 6 6 = 0) :
    ∃ k', exec (.emptyBundle cl hdr) s = .next (s.setClu cl k') ∧ Issued 2 idle (s.clu cl) k' ∧ k'.inflight = [] := by
  obtain ⟨-, -, -, -, h5, -⟩ := (Cluster.ready_iff 2 _).mp hr
  have hk : (s.clu cl).Stands (emptyBundle idle 0) ((s.setClu cl ((s.clu cl).fetched 2 (emptyBundle idle 0))).clu cl) := by
    rw [State.clu_setClu_same]
    exact Cluster.Stands.fetched h5
  have hcs := State.conds_empty.trans (hk.headConds hr rfl rfl)
  obtain ⟨k', hrun, hissued, hin⟩ := State.issueNow_empty hk hr
  refine ⟨k', ?_, hissued, hin⟩
  rw [exec_emptyBundle hcc hr hi hw, State.decides_issues hcs rfl, hrun, State.setClu_setClu]
  exact congrArg Host.Outcome.next ((State.StaysQuiet.refl hq).setClu ..).finish

/-- A header that names no slot and has a wide bit set halts the core. -/
theorem emptyBundle_wide_halts {s : State} {cl : ClusterId} {wide : BitVec 6} {hdr : BitVec 16} (hq : s.quiet = true)
    (hcc : s.hasCluster cl = true) (hr : (s.clu cl).ready 2 = true) (hknown : Known cl s) (hw : hdr.extractLsb' 6 6 = wide) (hne : wide ≠ 0) :
    Halts (.emptyBundle cl hdr) cl Code.illegalInstruction 7 0 0 0 s := by
  obtain ⟨-, -, -, -, -, -, h7, h8, -, -, h11, -, h13, he, -, -, h16, -, -⟩ := (Cluster.ready_iff 2 _).mp hr
  obtain ⟨ic, hk⟩ := Cluster.fetched_eq 2 (emptyBundle (hdr.extractLsb' 12 4) wide) (s.clu cl)
  have hlen : (emptyBundle (hdr.extractLsb' 12 4) wide).size = 2 := rfl
  have hne : wide ≠ 0#6 := hne
  have hcs : (s.setClu cl ((s.clu cl).fetched 2 (emptyBundle (hdr.extractLsb' 12 4) wide))).conds cl (emptyBundle (hdr.extractLsb' 12 4) wide) =
      [condIllegal 7 0] := by
    rw [State.conds_empty, State.clu_setClu_same, hk]
    simp [Cluster.headConds, Cluster.badLine, h13, hlen, Nat.not_lt.mpr h16, show (emptyBundle (hdr.extractLsb' 12 4) wide).wide0 = wide from rfl, hne]
  have hi := exec_emptyBundle hcc hr rfl hw
  rw [State.decides_faults hcs (firstCond_one _) (by simp [condIllegal, Cond.mayPass]) (by decide) (by decide)] at hi
  exact halts_of_haltCluster hi hq hknown (by rw [hk]) h7 h8 h11 he

/-! ## Words that move the place of the next bundle (R171 to R173) -/

/-- A plan whose one effect is where the next bundle stands. -/
def Plan.OnlyMoves (P : Plan) : Prop :=
  P.conds = [] ∧ P.gap ≤ 6 ∧ P.hold = .none ∧ P.fail = none ∧ P.tile = none ∧ P.conf = [] ∧ P.targets = [] ∧
    (P.act = .none ∨ (∃ t, P.act = .branch t) ∨ ∃ n last, P.act = .loop n last)

theorem State.nextPc_atIssue (p : Place) (n : Nat) (b : Bundle) (a : Act) (s : State) :
    (s.atIssue p n b).nextPc ((s.clu p.cl).fetched n b) n a = s.nextPc (s.clu p.cl) n a := by
  obtain ⟨-, -, -, -, -, -, -, hpc, hloops, -, -, -, -, -, -, hcode, -⟩ := Cluster.fetched_regs n b (s.clu p.cl)
  have hread : ∀ a, (s.atIssue p n b).readLe a 2 = s.readLe a 2 := fun _ => rfl
  simp only [State.nextPc, hpc, hloops, hcode, hread]

/-- A closing control word whose plan only moves. -/
theorem State.control_moves {i : Instr} {s : State} {p : Place} {op : Byte} {w : Fields} {n : Nat} {P : Plan} {nx : Word × List LoopEntry}
    (hi : exec i s = s.slotWord p 0 op w) (hcl : Closes n p s) (hn : (if w.wide then 10 else 6) = n) (hl : (⟨0, op, w⟩ : SlotWord).legal = true)
    (hP : (s.atIssue p n (oneWord p 0 op w)).plan p.cl (oneWord p 0 op w) ⟨0, op, w⟩ = P) (hmoves : P.OnlyMoves)
    (hnx : s.nextPc (s.clu p.cl) n P.act = nx) : Moves i n nx.1 nx.2 p s := by
  obtain ⟨hc, hg, hh, hf, ht, hv, hT, ha⟩ := hmoves
  have hact : ∀ t : State, t.act p.cl P.act = t := fun t => by
    rcases ha with ha | ⟨a, ha⟩ | ⟨m, last, ha⟩ <;> rw [ha] <;> rfl
  have hhalt : ∀ code, P.act ≠ .halt code := fun code => by
    rcases ha with ha | ⟨a, ha⟩ | ⟨m, last, ha⟩ <;> simp [ha]
  have hrun := State.controlWord_acts hi hcl hn hl hP hc hg (by simp [ht]) hh hf hhalt
  rw [State.nextPc_atIssue, hnx, hact, State.correctRead_none _ hv, ((State.StaysQuiet.refl hcl.1).setClu ..).finish] at hrun
  have hstands := hcl.stands (oneWord p 0 op w)
  rw [State.clu_atIssue] at hstands
  obtain ⟨hissued, hin⟩ := hstands.issued hcl.2.2.2.2 (slot := 0) (idle := p.idle) hf ht
  rw [if_pos hT] at hin
  exact ⟨_, hrun, hissued, rfl, rfl, hin⟩

/-- Where the innermost loop does not end at a bundle, none loops back (R173). -/
theorem loopBack_ready {pc next : Nat} {l : List LoopEntry} (h : l.head?.all (fun e => e.last != pc) = true) : loopBack pc next l = (next, l) := by
  cases l with
  | nil => rfl
  | cons e l => simp [loopBack, show e.last ≠ pc by simpa using h]

/-- The loops that contain the target of a branch. -/
def Cluster.loopsAt (pc : Word) (k : Cluster) : List LoopEntry := k.loops.dropWhile fun e => !e.holds pc.toNat

theorem planBrz_fetched (n : Nat) (b : Bundle) (k : Cluster) (w : Fields) : planBrz (k.fetched n b) w = planBrz k w := by
  obtain ⟨hx, -, -, -, -, -, -, hpc, -⟩ := Cluster.fetched_regs n b k
  simp only [planBrz, branchTo, hx, hpc]

theorem planBrnz_fetched (n : Nat) (b : Bundle) (k : Cluster) (w : Fields) : planBrnz (k.fetched n b) w = planBrnz k w := by
  obtain ⟨hx, -, -, -, -, -, -, hpc, -⟩ := Cluster.fetched_regs n b k
  simp only [planBrnz, branchTo, hx, hpc]

section
variable {s : State} {p : Place} {w : Fields} (hcl : Closes 10 p s) (hw : w.wide = true) (hd : w.d = 0) (hb : w.b = 0) (hc : w.c = 0)
  (hm : w.mod = 0) (heven : w.imm.toNat % 2 = 0)
include hcl hw hd hb hc hm heven

/-- BR goes to its target. -/
theorem br_taken (ha : w.a = 0) : Moves (.br p w) 10 ((s.clu p.cl).pc + w.imm) ((s.clu p.cl).loopsAt ((s.clu p.cl).pc + w.imm)) p s := by
  have hP : (s.atIssue p 10 (oneWord p 0 0x01 w)).plan p.cl (oneWord p 0 0x01 w) ⟨0, 0x01, w⟩ = planBr (s.clu p.cl) w := by
    obtain ⟨-, -, -, -, -, -, -, hpc, -⟩ := Cluster.fetched_regs 10 (oneWord p 0 0x01 w) (s.clu p.cl)
    show planBr ((s.atIssue p 10 (oneWord p 0 0x01 w)).clu p.cl) w = _
    rw [State.clu_atIssue, planBr, branchTo, hpc]
    rfl
  exact State.control_moves (op := 0x01) (nx := (_, _)) rfl hcl (by simp [hw])
    (SlotWord.legal_of_form (op := 0x01) rfl hw (.inr hd) (.inr ha) (.inr hb) (.inr hc) (by simp [hm]) (by simp [heven])) hP
    ⟨rfl, by simp [planBr], rfl, rfl, rfl, rfl, rfl, .inr (.inl ⟨_, rfl⟩)⟩ rfl

/-- A branch on a register goes to its target, or to the bundle that follows. -/
theorem branch_moves {i : Instr} {op : Byte} {P : Cluster → Plan} {taken : Prop} [Decidable taken] (hi : exec i s = s.slotWord p 0 op w)
    (hform : form 0 op.toNat = some { wide := true, a := true, ok := fun f => f.imm.toNat % 2 == 0 })
    (hplan : (s.atIssue p 10 (oneWord p 0 op w)).plan p.cl (oneWord p 0 op w) ⟨0, op, w⟩ = P ((s.atIssue p 10 (oneWord p 0 op w)).clu p.cl))
    (hfetch : ∀ n b k, P (Cluster.fetched n b k) = P k)
    (hP : P (s.clu p.cl) = { reads := [.x w.a], act := if taken then .branch ((s.clu p.cl).pc + w.imm) else .none }) :
    (taken → Moves i 10 ((s.clu p.cl).pc + w.imm) ((s.clu p.cl).loopsAt ((s.clu p.cl).pc + w.imm)) p s) ∧
    (¬ taken → Moves i 10 ((s.clu p.cl).pc + 10) (s.clu p.cl).loops p s) := by
  have hl : (⟨0, op, w⟩ : SlotWord).legal = true :=
    SlotWord.legal_of_form hform hw (.inr hd) (.inl rfl) (.inr hb) (.inr hc) (by simp [hm]) (by simp [heven])
  rw [State.clu_atIssue, hfetch, hP] at hplan
  refine ⟨fun ht => ?_, fun ht => ?_⟩
  · rw [if_pos ht] at hplan
    exact State.control_moves (nx := (_, _)) hi hcl (by simp [hw]) hl hplan
      ⟨rfl, by simp, rfl, rfl, rfl, rfl, rfl, .inr (.inl ⟨_, rfl⟩)⟩ rfl
  · obtain ⟨-, -, -, -, -, -, -, -, -, -, -, -, -, -, -, -, -, -, hloop⟩ := (Cluster.ready_iff 10 _).mp hcl.2.2.2.2
    rw [if_neg ht] at hplan
    exact State.control_moves hi hcl (by simp [hw]) hl hplan ⟨rfl, by simp, rfl, rfl, rfl, rfl, rfl, .inl rfl⟩ (State.nextPc_ready s hloop)

/-- A LOOP whose body is where it may be, with a place on the loop stack. -/
theorem loop_moves (hroom : (s.clu p.cl).loops.length < 4) (hbody : ¬ (s.clu p.cl).badLoop w.imm) (hlow : 10 ≤ w.imm.toInt)
    (hgood : (s.clu p.cl).xr w.a = 0 → ∀ b ∈ s.badWords,
      meets ((s.clu p.cl).codeBase.toNat + ((s.clu p.cl).pc.toNat + w.imm.toNat)) 2 b (codeWord b) = false) :
    let nx := s.nextPc (s.clu p.cl) 10 (.loop ((s.clu p.cl).xr w.a) ((s.clu p.cl).pc.toNat + w.imm.toNat))
    Moves (.loop p w) 10 nx.1 nx.2 p s := by
  classical
  have hlast : (((s.clu p.cl).pc.toNat : Int) + w.imm.toInt).toNat = (s.clu p.cl).pc.toNat + w.imm.toNat := by
    rw [BitVec.toInt_eq_toNat_cond] at hlow ⊢
    split <;> omega
  have hfetch : s.loopFetch (s.clu p.cl) (.loop ((s.clu p.cl).xr w.a) ((s.clu p.cl).pc.toNat + w.imm.toNat)) = [] := by
    simp only [State.loopFetch]
    refine if_neg fun h => ?_
    simp only [Bool.and_eq_true, decide_eq_true_eq, List.any_eq_true] at h
    obtain ⟨hz, b, hmem, hmeets⟩ := h
    rw [hgood hz b hmem] at hmeets
    cases hmeets
  have hconds : (s.loopPlan (s.clu p.cl) w).conds = [] := by
    rw [State.loopPlan_conds, if_neg hbody, if_neg (by omega), hlast, hfetch]
    rfl
  have hact : (s.loopPlan (s.clu p.cl) w).act = .loop ((s.clu p.cl).xr w.a) ((s.clu p.cl).pc.toNat + w.imm.toNat) := by rw [← hlast]; rfl
  exact State.control_moves (op := 0x04) rfl hcl (by simp [hw]) (loop_legal hw hd hb hc hm heven) (State.plan_loop hw)
    ⟨hconds, by simp [State.loopPlan, planLoop], rfl, rfl, rfl, rfl, rfl, .inr (.inr ⟨_, _, hact⟩)⟩ (by rw [hact])

end

section
variable {k : Cluster} {s : State} {n : DWord} {last : Nat}

/-- A LOOP of a count that is not 0 pushes its body. -/
theorem State.nextPc_loop (hn : n ≠ 0) (hlast : last ≠ k.pc.toNat) :
    s.nextPc k 10 (.loop n last) = (k.pc + 10, ⟨k.pc.toNat + 10, last, n⟩ :: k.loops) := by
  simp only [State.nextPc, if_neg hn, loopBack, if_neg hlast]
  congr 1

/-- A LOOP of count 0 skips its body. -/
theorem State.nextPc_loop_zero (h : k.loops.head?.all (fun e => e.last != k.pc.toNat) = true) :
    s.nextPc k 10 (.loop 0 last) = (BitVec.ofNat 32 (last + headerSize (s.readLe (k.codeBase.toNat + last) 2)), k.loops) := by
  simp only [State.nextPc, if_true, loopBack_ready h]

end

/-! ## The fields of a bundle header (R164) -/

theorem header_idle (idle : BitVec 4) : (idle ++ 0#12 : BitVec 16).extractLsb' 12 4 = idle := by
  refine BitVec.eq_of_toNat_eq ?_
  rw [BitVec.extractLsb'_toNat, show (idle ++ 0#12 : BitVec 16).toNat = _ from BitVec.toNat_append idle 0#12, BitVec.toNat_ofNat, Nat.zero_mod,
    Nat.or_zero, Nat.shiftLeft_shiftRight, Nat.mod_eq_of_lt idle.isLt]

theorem header_wide (hi : BitVec 10) : (hi ++ 0#6 : BitVec 16).extractLsb' 6 6 = hi.extractLsb' 0 6 := by
  refine BitVec.eq_of_toNat_eq ?_
  rw [BitVec.extractLsb'_toNat, BitVec.extractLsb'_toNat, show (hi ++ 0#6 : BitVec 16).toNat = _ from BitVec.toNat_append hi 0#6,
    BitVec.toNat_ofNat, Nat.zero_mod, Nat.or_zero, Nat.shiftLeft_shiftRight, Nat.shiftRight_zero]

theorem header_wide_none (idle : BitVec 4) : (idle ++ 0#12 : BitVec 16).extractLsb' 6 6 = 0 := by
  refine BitVec.eq_of_toNat_eq ?_
  rw [BitVec.extractLsb'_toNat, show (idle ++ 0#12 : BitVec 16).toNat = _ from BitVec.toNat_append idle 0#12, BitVec.toNat_ofNat, Nat.zero_mod,
    Nat.or_zero, Nat.shiftLeft_eq, Nat.shiftRight_eq_div_pow]
  change idle.toNat * 2 ^ 12 / 2 ^ 6 % 2 ^ 6 = 0
  omega

theorem low_append (idle : BitVec 4) (wide : BitVec 6) : (idle ++ wide).extractLsb' 0 6 = wide := by
  refine BitVec.eq_of_toNat_eq ?_
  rw [BitVec.extractLsb'_toNat, BitVec.toNat_append, Nat.shiftRight_zero, ← Nat.shiftLeft_add_eq_or_of_lt wide.isLt, Nat.shiftLeft_eq]
  omega

end Sys2Proof.Machine
open Sys2Proof Sys2Proof.Machine

/-- Settles O10: an empty bundle is decided on by its header alone; a branch moves where its plan says, and LOOP by its count. -/
theorem emptyBundlesBranchesAndLoopsMove : Obligations.EmptyBundlesBranchesAndLoopsMove := by
  refine ⟨fun s cl idle hq hcc hr => emptyBundle_issues hq hcc hr (header_idle idle) ?_,
    fun s cl idle wide hq hcc hr hknown hne => emptyBundle_wide_halts hq hcc hr hknown ?_ hne, ?_⟩
  · exact header_wide_none idle
  · exact (header_wide (idle ++ wide)).trans (low_append idle wide)
  · intro s p w hcl hw hd hb hc hm heven k last to_ kept taken falls
    have hbrz := branch_moves (i := .brz p w) (op := 0x02) (P := (planBrz · w)) (taken := k.xr w.a = 0) hcl hw hd hb hc hm heven rfl rfl rfl
      (planBrz_fetched · · · w) rfl
    have hbrnz := branch_moves (i := .brnz p w) (op := 0x03) (P := (planBrnz · w)) (taken := k.xr w.a ≠ 0) hcl hw hd hb hc hm heven rfl rfl rfl
      (planBrnz_fetched · · · w) rfl
    refine ⟨fun ha => br_taken hcl hw hd hb hc hm heven ha, fun hz => ⟨hbrz.1 hz, hbrnz.2 (not_not.mpr hz)⟩, fun hz => ⟨hbrz.2 hz, hbrnz.1 hz⟩,
      fun hroom hlow hbody => ?_⟩
    have himm : (w.imm.toNat : Int) = w.imm.toInt := by
      rw [BitVec.toInt_eq_toNat_cond] at hlow ⊢
      split <;> omega
    have hgood : ¬ k.badLoop w.imm := by
      rintro (h | ⟨e, he, h⟩)
      · omega
      · obtain ⟨h1, h2⟩ := hbody e he
        refine h.elim (Nat.not_lt.mpr h1) (Int.not_lt.mpr ?_)
        rw [← himm]
        exact_mod_cast h2
    have hloop := ((Cluster.ready_iff 10 _).mp hcl.2.2.2.2).2.2.2.2.2.2.2.2.2.2.2.2.2.2.2.2.2.2
    refine ⟨fun hz => ?_, fun hz hbad => ?_⟩
    · have h := loop_moves hcl hw hd hb hc hm heven hroom hgood hlow fun h => absurd h hz
      rwa [State.nextPc_loop hz (by omega)] at h
    · have h := loop_moves hcl hw hd hb hc hm heven hroom hgood hlow fun _ => hbad
      rw [hz, State.nextPc_loop_zero hloop] at h
      exact h
end
section
/-! SUPPORT. WAITC and WAITG: what they wait for, and how a held wait ends (07 R170, R172, R174; 10 R276; 15 R403). -/

namespace Sys2Proof.Machine

open Sys2Proof.Claims

/-! ## Bundles of one word that wait (R170) -/

section
variable {c : ClusterId} {b : Bundle} {w : SlotWord} {n : Nat} {k0 : Cluster} {v : State} {P : Plan} (hb : b.words = [w]) (hl : w.legal = true)
  (hk : k0.Stands b (v.clu c)) (hr : k0.ready n = true) (hn : b.size = n) (hz : b.wide0 = 0) (hP : v.plan c b w = P) (hc : P.conds = [])
  (hg : P.gap ≤ 6) (ht : P.tile = none)
include hb hl hk hr hn hz hP hc hg ht

/-- A bundle of one word whose plan waits is held. -/
theorem State.decides_waits {x : HoldCause} {v' : State} (hh : v.holds c [P] = ([x], v')) :
    v.decides c b = v'.setClu c { v'.clu c with gstate := .held, holdCause := causeOf [x] } := by
  have hcs := (State.conds_stands hb hl hk hr hn hz hP hg ht).trans hc
  refine State.decides_held hcs ?_ (List.cons_ne_nil x [])
  rw [State.plans_one hb hl, hP]
  exact hh

/-- A bundle of one word whose plan has nothing to wait for issues, in the state that its wait has left. -/
theorem State.decides_released {v' : State} {P' : Plan} (hh : v.holds c [P] = ([], v')) (hk' : k0.Stands b (v'.clu c))
    (hP' : v'.plan c b w = P') (hf : P'.fail = none) (ht' : P'.tile = none) (hv : P'.conf = []) (ha : P'.act = .none) :
    ∃ k', v.decides c b = v'.setClu c k' ∧ Issued n b.idle k0 k' ∧
      k'.inflight = if P'.targets = [] then [] else [⟨k0.stepCount + P'.lat - 1, w.slot, P'.targets, P'.flags⟩] := by
  have hcs := (State.conds_stands hb hl hk hr hn hz hP hg ht).trans hc
  have hplans : v.holds c ((v.plans c b).map (·.2)) = ([], v') := by
    rw [State.plans_one hb hl, hP]
    exact hh
  rw [State.decides_issues hcs hplans]
  exact State.issueNow_stands hb hl hk' hr hn hP' hf ht' hv ha

end

/-! ## WAITC (R172, R174, R276) -/

/-- The plan of a WAITC on a counter of the cluster's job, with the status that it writes. -/
def waitcPlan (k : Cluster) (w : Fields) (status : Byte) : Plan :=
  { reads := [.x w.b], targets := [.x w.d (status.setWidth 64)]
    hold := .waitc (w.imm.extractLsb' 0 16) ((k.xr w.b).extractLsb' 0 32).toNat (256 * (w.imm.extractLsb' 16 16).toNat) }

theorem high16_toNat (imm : Word) : (imm.extractLsb' 16 16).toNat = imm.toNat / 65536 := by
  rw [BitVec.extractLsb'_toNat, Nat.shiftRight_eq_div_pow]
  omega

theorem State.planWaitc_eq {k : Cluster} {w : Fields} {v : State} {status : Byte} (hjob : k.job ≠ 0#16)
    (hown : (v.counter (w.imm.extractLsb' 0 16)).job = k.job) (hs : v.waitStatus k (w.imm.extractLsb' 0 16) = status) :
    v.planWaitc k w = waitcPlan k w status := by
  have hlow : (w.imm.setWidth 16 : BitVec 16) = w.imm.extractLsb' 0 16 := BitVec.setWidth_eq_extractLsb' (by omega)
  have hval : (k.xr w.b).toNat % 2 ^ 32 = ((k.xr w.b).extractLsb' 0 32).toNat := by simp [BitVec.extractLsb'_toNat]
  simp only [State.planWaitc, hlow, hown, hs, hval, ← high16_toNat, waitcPlan]
  simp [hjob]

section
variable {c : ClusterId} {v : State} {P : Plan} {n : CounterName} {x t : Nat} (hP : P.hold = .waitc n x t)
include hP

/-- A WAITC whose wait has ended waits no longer. -/
theorem State.holds_waitc_done (hd : (v.clu c).waitDone.isSome = true) : v.holds c [P] = ([], v) := by
  simp only [State.holds, List.foldl_cons, List.foldl_nil, hP, hd, if_true]

variable (hd : (v.clu c).waitDone = none) (ho : (v.counter n).orphaned = false)
include hd ho

/-- A WAITC whose counter has reached its operand is met. -/
theorem State.holds_waitc_met (hx : x ≤ (v.counter n).value.toNat) :
    v.holds c [P] = ([], v.setClu c { v.clu c with waitDone := some 0 }) := by
  simp [State.holds, hP, hd, ho, hx]

/-- A WAITC whose counter has not reached its operand waits, and its timeout runs from now. -/
theorem State.holds_waitc_waits (hx : (v.counter n).value.toNat < x) (hdue : (v.clu c).waitDeadline = none) :
    v.holds c [P] = ([.sync], v.setClu c { v.clu c with waitDeadline := if t = 0 then none else some (v.time + t) }) := by
  simp [State.holds, hP, hd, ho, Nat.not_le.mpr hx, hdue]

end

section
variable {c : ClusterId} {v : State} {w : Fields} {k0 : Cluster} {b : Bundle}

theorem waitc_legal (hw : w.wide = true) (ha : w.a = 0) (hc : w.c = 0) (hm : w.mod = 0) : (⟨0, 0x05, w⟩ : SlotWord).legal = true :=
  SlotWord.legal_of_form (op := 0x05) rfl hw (.inl rfl) (.inr ha) (.inl rfl) (.inr hc) (by simp [hm]) rfl

variable (hb : b.words = [⟨0, 0x05, w⟩]) (hsize : b.size = 10) (hz : b.wide0 = 0) (hl : (⟨0, 0x05, w⟩ : SlotWord).legal = true)
  (hr : k0.ready 10 = true) (hjob : k0.job ≠ 0) (hown : (v.counter (w.imm.extractLsb' 0 16)).job = k0.job) (hk : k0.Stands b (v.clu c))
include hb hsize hz hl hr hjob hown hk

/-- A WAITC at issue whose wait has ended issues with what ended it. -/
theorem State.decides_waitc_done {status : Byte} (hd : (v.clu c).waitDone = some status) :
    ∃ k', v.decides c b = v.setClu c k' ∧ Issued 10 b.idle k0 k' ∧
      k'.inflight = [⟨k0.stepCount, 0, [.x w.d (status.setWidth 64)], NFlags.none⟩] := by
  have hkj : (v.clu c).job = k0.job := by rw [hk]
  have hplan : v.plan c b ⟨0, 0x05, w⟩ = waitcPlan (v.clu c) w status :=
    State.planWaitc_eq (hkj ▸ hjob) (hown.trans hkj.symm) (by simp [State.waitStatus, hd])
  exact State.decides_released (P' := waitcPlan (v.clu c) w status) hb hl hk hr hsize hz hplan rfl (by simp [waitcPlan]) rfl
    (State.holds_waitc_done rfl (by simp [hd])) hk hplan rfl rfl rfl rfl

variable (hd : (v.clu c).waitDone = none) (ho : (v.counter (w.imm.extractLsb' 0 16)).orphaned = false)
include hd ho

omit hb hsize hz hl hr in
/-- The plan of a WAITC at issue whose wait has not ended. -/
theorem State.plan_waitc : v.plan c b ⟨0, 0x05, w⟩ = waitcPlan (v.clu c) w 0 := by
  have hkj : (v.clu c).job = k0.job := by rw [hk]
  exact State.planWaitc_eq (hkj ▸ hjob) (hown.trans hkj.symm) (by simp [State.waitStatus, hd, ho])

/-- A WAITC at issue whose counter has reached its operand issues with MET. -/
theorem State.decides_waitc_met (hx : (((v.clu c).xr w.b).extractLsb' 0 32).toNat ≤ (v.counter (w.imm.extractLsb' 0 16)).value.toNat) :
    ∃ k', v.decides c b = v.setClu c k' ∧ Issued 10 b.idle k0 k' ∧ k'.inflight = [⟨k0.stepCount, 0, [.x w.d 0], NFlags.none⟩] := by
  have hkj : (v.clu c).job = k0.job := by rw [hk]
  have hplan := State.plan_waitc hjob hown hk hd ho
  have hmet := State.holds_waitc_met (P := waitcPlan (v.clu c) w 0) rfl hd ho hx
  generalize hkv : ({ v.clu c with waitDone := some 0 } : Cluster) = kv at hmet
  have hplan' : (v.setClu c kv).plan c b ⟨0, 0x05, w⟩ = waitcPlan kv w 0 := by
    have hjv : kv.job = k0.job := by rw [← hkv]; exact hkj
    refine Eq.trans (b := (v.setClu c kv).planWaitc kv w) ?_
      (State.planWaitc_eq (hjv ▸ hjob) (hown.trans hjv.symm) (by rw [← hkv]; rfl))
    show (v.setClu c kv).planWaitc ((v.setClu c kv).clu c) w = _
    rw [State.clu_setClu_same]
  have hstands : k0.Stands b ((v.setClu c kv).clu c) := by
    rw [State.clu_setClu_same, ← hkv]
    unfold Cluster.Stands at hk ⊢
    rw [hk]
  obtain ⟨k', hrun, hissued⟩ := State.decides_released hb hl hk hr hsize hz hplan rfl (by simp [waitcPlan]) rfl hmet hstands hplan' rfl rfl rfl rfl
  exact ⟨k', hrun.trans (State.setClu_setClu ..), hissued⟩

/-- A WAITC at issue whose counter has not reached its operand is held. -/
theorem State.decides_waitc_waits (hx : (v.counter (w.imm.extractLsb' 0 16)).value.toNat < (((v.clu c).xr w.b).extractLsb' 0 32).toNat)
    (hdue : (v.clu c).waitDeadline = none) :
    v.decides c b = v.setClu c { v.clu c with
      gstate := .held, holdCause := .sync
      waitDeadline := if w.imm.extractLsb' 16 16 = 0 then none else some (v.time + 256 * (w.imm.extractLsb' 16 16).toNat) } := by
  have hplan := State.plan_waitc hjob hown hk hd ho
  have hzero : (256 * (w.imm.extractLsb' 16 16).toNat = 0) ↔ (w.imm.extractLsb' 16 16 = 0) := by
    rw [← BitVec.toNat_inj]
    change _ ↔ _ = 0
    omega
  rw [State.decides_waits hb hl hk hr hsize hz hplan rfl (by simp [waitcPlan]) rfl
    (State.holds_waitc_waits (P := waitcPlan (v.clu c) w 0) rfl hd ho hx hdue), State.clu_setClu_same, State.setClu_setClu]
  simp only [hzero]
  rfl

end

/-! ## WAITG (R172; 15 R403) -/

/-- The plan of a WAITG on an entry that the job's hatch list has. -/
def waitgPlan (e : Nat) : Plan := { hold := .waitg e }

theorem State.planWaitg_eq {k : Cluster} {off : Nat} {w : Fields} {v : State} (h : v.hasEntry k.job w.imm.toNat = true) :
    v.planWaitg k off w = waitgPlan w.imm.toNat := by
  simp only [State.planWaitg, h, if_true, waitgPlan]

/-- A WAITG whose entry starts now waits no longer. -/
theorem State.holds_waitg_open {c : ClusterId} {v : State} {e : Nat} (hd : (v.clu c).gateDone = false)
    (ho : v.gateOpen (v.clu c).job e = true) : v.holds c [waitgPlan e] = ([], v.setClu c { v.clu c with gateDone := true }) := by
  simp [State.holds, waitgPlan, hd, ho]

/-- A WAITG whose entry does not start now waits. -/
theorem State.holds_waitg_closed {c : ClusterId} {v : State} {e : Nat} (hd : (v.clu c).gateDone = false)
    (ho : v.gateOpen (v.clu c).job e = false) : v.holds c [waitgPlan e] = ([.gate], v) := by
  simp [State.holds, waitgPlan, hd, ho]

section
variable {c : ClusterId} {v : State} {w : Fields} {k0 : Cluster} {b : Bundle}

theorem waitg_legal (hw : w.wide = true) (hd : w.d = 0) (ha : w.a = 0) (hb : w.b = 0) (hc : w.c = 0) (hm : w.mod = 0)
    (hi : w.imm.toNat < 4096) : (⟨0, 0x06, w⟩ : SlotWord).legal = true :=
  SlotWord.legal_of_form (op := 0x06) rfl hw (.inr hd) (.inr ha) (.inr hb) (.inr hc) (by simp [hm]) (by simp [hi])

variable (hb : b.words = [⟨0, 0x06, w⟩]) (hsize : b.size = 10) (hz : b.wide0 = 0) (hl : (⟨0, 0x06, w⟩ : SlotWord).legal = true)
  (hr : k0.ready 10 = true) (hentry : v.hasEntry k0.job w.imm.toNat = true) (hk : k0.Stands b (v.clu c)) (hd : (v.clu c).gateDone = false)
include hb hsize hz hl hr hentry hk hd

/-- A WAITG at issue whose entry starts now issues. -/
theorem State.decides_waitg_open (ho : v.gateOpen k0.job w.imm.toNat = true) :
    ∃ k', v.decides c b = v.setClu c k' ∧ Issued 10 b.idle k0 k' ∧ k'.inflight = [] := by
  have hkj : (v.clu c).job = k0.job := by rw [hk]
  have hplan : v.plan c b ⟨0, 0x06, w⟩ = waitgPlan w.imm.toNat := State.planWaitg_eq (hkj ▸ hentry)
  have hopen := State.holds_waitg_open hd (hkj ▸ ho)
  generalize hkv : ({ v.clu c with gateDone := true } : Cluster) = kv at hopen
  have hplan' : (v.setClu c kv).plan c b ⟨0, 0x06, w⟩ = waitgPlan w.imm.toNat := by
    refine Eq.trans (b := (v.setClu c kv).planWaitg ((v.setClu c kv).clu c) (b.offset 0) w) rfl (State.planWaitg_eq ?_)
    rw [State.clu_setClu_same, show kv.job = k0.job by rw [← hkv]; exact hkj]
    exact hentry
  have hstands : k0.Stands b ((v.setClu c kv).clu c) := by
    rw [State.clu_setClu_same, ← hkv]
    unfold Cluster.Stands at hk ⊢
    rw [hk]
  obtain ⟨k', hrun, hissued⟩ :=
    State.decides_released hb hl hk hr hsize hz hplan rfl (by simp [waitgPlan]) rfl hopen hstands hplan' rfl rfl rfl rfl
  exact ⟨k', hrun.trans (State.setClu_setClu ..), hissued⟩

/-- A WAITG at issue whose entry does not start now is held. -/
theorem State.decides_waitg_closed (ho : v.gateOpen k0.job w.imm.toNat = false) :
    v.decides c b = v.setClu c { v.clu c with gstate := .held, holdCause := .gate } := by
  have hkj : (v.clu c).job = k0.job := by rw [hk]
  exact State.decides_waits hb hl hk hr hsize hz (State.planWaitg_eq (hkj ▸ hentry)) rfl (by simp [waitgPlan]) rfl
    (State.holds_waitg_closed hd (hkj ▸ ho))

end

/-! ## A held bundle at the end of its wait (R276) -/

/-- A cluster that is ready but for the bundle that it holds. -/
def Cluster.unheld (k : Cluster) : Cluster := { k with gstate := .running, fetchQ := [], waitDone := none, holdCause := .none }

/-- The bundle of a held cluster whose step has come is decided on. -/
theorem State.tryIssue_held {u : State} {c : ClusterId} {b : Bundle} {n : Nat} (hg : (u.clu c).gstate = .held) (hq : (u.clu c).fetchQ = [b])
    (hr : (u.clu c).unheld.ready n = true) (hn : b.size = n) :
    ∃ ic, u.tryIssue c = (u.setClu c { u.clu c with icache := ic }).decides c b := by
  obtain ⟨-, h2, h3, h4, -, -, -, -, -, -, -, -, -, he, -, -, -, hl, -⟩ := (Cluster.ready_iff n _).mp hr
  obtain ⟨ic, hic⟩ := Cluster.touchAll_eq (linesOf (u.clu c).pc.toNat b.size) (u.clu c)
  refine ⟨ic, ?_⟩
  rw [State.tryIssue_decides (.inr hg) h2 h3 h4 he hq (hn ▸ hl), ← hic]

section
variable {u : State} {c : ClusterId} {w : Fields} {idle : BitVec 4} {status : Byte} (hw : w.wide = true) (ha : w.a = 0) (hc : w.c = 0)
  (hm : w.mod = 0) (hg : (u.clu c).gstate = .held) (hq : (u.clu c).fetchQ = [⟨[⟨0, 0x05, w⟩], idle, 0⟩])
  (hr : (u.clu c).unheld.ready 10 = true) (hjob : (u.clu c).job ≠ 0) (hown : (u.counter (w.imm.extractLsb' 0 16)).job = (u.clu c).job)
  (hd : (u.clu c).waitDone = some status)
include hw ha hc hm hg hq hr hjob hown hd

/-- A held WAITC whose wait has ended issues with what ended it. -/
theorem State.tryIssue_waitc : ∃ k', u.tryIssue c = u.setClu c k' ∧ Issued 10 idle (u.clu c).unheld k' ∧
    k'.inflight = [⟨(u.clu c).stepCount, 0, [.x w.d (status.setWidth 64)], NFlags.none⟩] := by
  have hsize : Bundle.size ⟨[⟨0, 0x05, w⟩], idle, 0⟩ = 10 := by simp [Bundle.size, SlotWord.size, hw]
  obtain ⟨ic, htry⟩ := State.tryIssue_held hg hq hr hsize
  have hstands : (u.clu c).unheld.Stands ⟨[⟨0, 0x05, w⟩], idle, 0⟩ ((u.setClu c { u.clu c with icache := ic }).clu c) := by
    rw [State.clu_setClu_same]
    unfold Cluster.Stands
    rw [← hq]
    rfl
  obtain ⟨k', hrun, hissued, hin⟩ := State.decides_waitc_done (v := u.setClu c { u.clu c with icache := ic }) rfl hsize rfl
    (waitc_legal hw ha hc hm) hr hjob hown hstands (status := status) (by rwa [State.clu_setClu_same])
  exact ⟨k', by rw [htry, hrun, State.setClu_setClu], hissued, hin⟩

end

/-! ## What a closing word that is decided on leaves -/

section
variable {i : Instr} {s : State} {p : Place} {slot n : Nat} {op : Byte} {w : Fields} (hi : exec i s = s.slotWord p slot op w) (hcl : Closes n p s)
  (hn : (if w.wide then 10 else 6) = n)
include hi hcl hn

/-- A closing word whose bundle is decided on leaves the module as the decision does. -/
theorem Closes.exec_decides {v : State}
    (hdec : (s.atIssue p n (oneWord p slot op w)).decides p.cl (oneWord p slot op w) = v) (hv : s.StaysQuiet v) : exec i s = .next v := by
  obtain ⟨hq, hcc, hmore, hstray, hr⟩ := hcl
  rw [hi, State.slotWord_enabled hcc, State.place_decides hmore hstray hn (Cluster.ready_inflight hr), hdec, hv.finish]

/-- A closing word whose bundle changes its cluster alone. -/
theorem Closes.exec_setClu {k' : Cluster}
    (hdec : (s.atIssue p n (oneWord p slot op w)).decides p.cl (oneWord p slot op w) = (s.atIssue p n (oneWord p slot op w)).setClu p.cl k') :
    exec i s = .next (s.setClu p.cl k') :=
  hcl.exec_decides hi hn (hdec.trans (State.setClu_setClu ..)) ((State.StaysQuiet.refl hcl.1).setClu ..)

end

section
variable {s : State} {p : Place} {w : Fields} (hcl : Closes 10 p s) (hw : w.wide = true) (ha : w.a = 0) (hc : w.c = 0) (hm : w.mod = 0)
include hcl hw ha hc hm

section
variable (hjob : (s.clu p.cl).job ≠ 0) (hown : (s.counter (w.imm.extractLsb' 0 16)).job = (s.clu p.cl).job)
  (horph : (s.counter (w.imm.extractLsb' 0 16)).orphaned = false)
include hjob hown horph

theorem waitc_met (hx : (((s.clu p.cl).xr w.b).extractLsb' 0 32).toNat ≤ (s.counter (w.imm.extractLsb' 0 16)).value.toNat) :
    Books (.waitc p w) 10 0 1 [.x w.d 0] NFlags.none p s := by
  obtain ⟨-, -, -, -, -, -, -, -, hdone, -⟩ := (Cluster.ready_iff 10 _).mp hcl.2.2.2.2
  obtain ⟨hxr, -, -, -, -, -, -, -, -, -, -, -, hwd, -⟩ := Cluster.fetched_regs 10 (oneWord p 0 0x05 w) (s.clu p.cl)
  obtain ⟨k', hdec, hissued⟩ := State.decides_waitc_met (v := s.atIssue p 10 (oneWord p 0 0x05 w)) rfl ((oneWord_size ..).trans (by simp [hw])) rfl
    (waitc_legal hw ha hc hm) hcl.2.2.2.2 hjob hown (hcl.stands _) (by rw [State.clu_atIssue, hwd, hdone]) horph
    (by rw [State.clu_atIssue, hxr]; exact hx)
  exact ⟨k', hcl.exec_setClu (slot := 0) (op := 0x05) (w := w) rfl (by simp [hw]) hdec, hissued⟩

theorem waitc_held (hx : (s.counter (w.imm.extractLsb' 0 16)).value.toNat < (((s.clu p.cl).xr w.b).extractLsb' 0 32).toNat)
    (hdue : (s.clu p.cl).waitDeadline = none) :
    ∃ k', exec (.waitc p w) s = .next (s.setClu p.cl k') ∧ k' = { s.clu p.cl with
      gstate := .held, holdCause := .sync, fetchQ := k'.fetchQ, icache := k'.icache
      waitDeadline := if w.imm.extractLsb' 16 16 = 0 then none else some (s.time + 256 * (w.imm.extractLsb' 16 16).toNat) } := by
  obtain ⟨-, -, -, -, hform, -, -, -, hdone, -⟩ := (Cluster.ready_iff 10 _).mp hcl.2.2.2.2
  obtain ⟨hxr, -, -, -, -, -, -, -, -, -, -, -, hwd, -, -, -, -, -, hdl, -⟩ := Cluster.fetched_regs 10 (oneWord p 0 0x05 w) (s.clu p.cl)
  obtain ⟨ic, hk⟩ := Cluster.fetched_eq 10 (oneWord p 0 0x05 w) (s.clu p.cl)
  have hdec := State.decides_waitc_waits (v := s.atIssue p 10 (oneWord p 0 0x05 w)) rfl ((oneWord_size ..).trans (by simp [hw])) rfl
    (waitc_legal hw ha hc hm) hcl.2.2.2.2 hjob hown (hcl.stands _) (by rw [State.clu_atIssue, hwd, hdone]) horph
    (by rw [State.clu_atIssue, hxr]; exact hx) (by rw [State.clu_atIssue, hdl, hdue])
  refine ⟨_, hcl.exec_setClu (slot := 0) (op := 0x05) (w := w) rfl (by simp [hw]) hdec, ?_⟩
  rw [State.clu_atIssue, hk, ← hform]
  rfl

end

section
variable (hd : w.d = 0) (hb : w.b = 0) (himm : w.imm.toNat < 4096) (hentry : s.hasEntry (s.clu p.cl).job w.imm.toNat = true)
include hd hb himm hentry

theorem waitg_open (ho : s.gateOpen (s.clu p.cl).job w.imm.toNat = true) :
    Moves (.waitg p w) 10 ((s.clu p.cl).pc + 10) (s.clu p.cl).loops p s := by
  obtain ⟨-, -, -, -, -, -, -, -, -, hgate, -⟩ := (Cluster.ready_iff 10 _).mp hcl.2.2.2.2
  obtain ⟨-, -, -, -, -, -, -, -, -, -, -, -, -, -, hgd, -⟩ := Cluster.fetched_regs 10 (oneWord p 0 0x06 w) (s.clu p.cl)
  obtain ⟨k', hdec, hissued, hin⟩ := State.decides_waitg_open (v := s.atIssue p 10 (oneWord p 0 0x06 w)) rfl
    ((oneWord_size ..).trans (by simp [hw])) rfl (waitg_legal hw hd ha hb hc hm himm) hcl.2.2.2.2 hentry (hcl.stands _)
    (by rw [State.clu_atIssue, hgd, hgate]) ho
  have hpc : k'.pc = (s.clu p.cl).pc + 10 := by rw [hissued]; rfl
  have hloops : k'.loops = (s.clu p.cl).loops := by rw [hissued]
  refine ⟨k', hcl.exec_setClu (slot := 0) (op := 0x06) (w := w) rfl (by simp [hw]) hdec, ?_, hpc, hloops, hin⟩
  rwa [← hloops, show (s.clu p.cl).pc + BitVec.ofNat 32 10 = k'.pc from hpc.symm]

theorem waitg_held (ho : s.gateOpen (s.clu p.cl).job w.imm.toNat = false) :
    ∃ k', exec (.waitg p w) s = .next (s.setClu p.cl k') ∧
      k' = { s.clu p.cl with gstate := .held, holdCause := .gate, fetchQ := k'.fetchQ, icache := k'.icache } := by
  obtain ⟨-, -, -, -, hform, -, -, -, -, hgate, -⟩ := (Cluster.ready_iff 10 _).mp hcl.2.2.2.2
  obtain ⟨-, -, -, -, -, -, -, -, -, -, -, -, -, -, hgd, -⟩ := Cluster.fetched_regs 10 (oneWord p 0 0x06 w) (s.clu p.cl)
  obtain ⟨ic, hk⟩ := Cluster.fetched_eq 10 (oneWord p 0 0x06 w) (s.clu p.cl)
  have hdec := State.decides_waitg_closed (v := s.atIssue p 10 (oneWord p 0 0x06 w)) rfl ((oneWord_size ..).trans (by simp [hw])) rfl
    (waitg_legal hw hd ha hb hc hm himm) hcl.2.2.2.2 hentry (hcl.stands _) (by rw [State.clu_atIssue, hgd, hgate]) ho
  refine ⟨_, hcl.exec_setClu (slot := 0) (op := 0x06) (w := w) rfl (by simp [hw]) hdec, ?_⟩
  rw [State.clu_atIssue, hk, ← hform]

end

end

/-- An event of an enabled cluster at an instant that changes the cluster alone. -/
theorem State.onCluster_setClu {s : State} {c : ClusterId} {now : Nat} {e : State → State} {k' : Cluster} (hq : s.quiet = true)
    (hc : s.hasCluster c = true) (he : e (s.advanceTo now) = (s.advanceTo now).setClu c k') :
    s.onCluster c now e = .next ((s.advanceTo now).setClu c k') := by
  rw [State.StaysQuiet.onCluster hc (by rw [he]; exact (State.StaysQuiet.refl (State.advanceTo_quiet now hq)).setClu ..), he]

/-- A held WAITC whose timeout has passed tries to issue with TIMEOUT. -/
theorem State.waitTimeout_late {u : State} {c : ClusterId} {d : Nat} (hg : (u.clu c).gstate = .held) (hd : (u.clu c).waitDone = none)
    (hdue : (u.clu c).waitDeadline = some d) (hlate : d ≤ u.time) :
    u.waitTimeout c = (u.setClu c { u.clu c with waitDone := some 2 }).tryIssue c := by
  simp only [State.waitTimeout, hdue, hg, hd, hlate, and_self, if_true]

end Sys2Proof.Machine
open Sys2Proof Sys2Proof.Machine

/-- Settles O11: by what WAITC and WAITG wait for when their bundle is decided on, and by the status that ends a held wait. -/
theorem waitsIssueOrHoldAndEnd : Obligations.WaitsIssueOrHoldAndEnd := by
  refine ⟨fun s p w hcl hw ha hc hm => ?_, fun s cl idle w now hquiet hcc hw ha hc hm => ?_⟩
  · exact ⟨fun hjob hown horph => ⟨waitc_met hcl hw ha hc hm hjob hown horph, waitc_held hcl hw ha hc hm hjob hown horph⟩,
      fun hd hb himm hentry => ⟨waitg_open hcl hw ha hc hm hd hb himm hentry, waitg_held hcl hw ha hc hm hd hb himm hentry⟩⟩
  · intro u k k0 n hg hq hr hjob hown issues
    refine ⟨fun hd => ?_, fun d hd hdue hlate => ?_⟩
    · obtain ⟨k', htry, hissued⟩ := State.tryIssue_waitc hw ha hc hm hg hq hr hjob hown hd
      exact ⟨k', State.onCluster_setClu hquiet hcc ((if_pos hg).trans htry), hissued⟩
    · have hclu := State.clu_setClu_same cl { k with waitDone := some 2 } u
      obtain ⟨k', htry, hissued⟩ := State.tryIssue_waitc (u := u.setClu cl { k with waitDone := some 2 }) (c := cl) (status := 2) hw ha hc hm
        (by rw [hclu]; exact hg) (by rw [hclu]; exact hq) (by rw [hclu]; exact hr) (by rw [hclu]; exact hjob) (by rw [hclu]; exact hown)
        (by rw [hclu])
      rw [hclu] at hissued
      exact ⟨k', State.onCluster_setClu hquiet hcc ((State.waitTimeout_late hg hd hdue hlate).trans (htry.trans (State.setClu_setClu ..))), hissued⟩
end
section
/-! SUPPORT. Words of the move slot and the stream/sync slot whose one effect is their act: MOVE, BFREE, SLAUNCH, CADD, CADDR and BARR
(07 R186, R188, R190; 08 R202; 10 R273, R275, R287; 11 R304). -/

namespace Sys2Proof.Machine

open Sys2Proof.Claims

/-! ## Words that only act -/

/-- A plan whose one effect is its act. -/
def Plan.OnlyActs (P : Plan) : Prop :=
  P.conds = [] ∧ P.gap ≤ 6 ∧ P.hold = .none ∧ P.fail = none ∧ P.tile = none ∧ P.conf = [] ∧ P.targets = []

/-- A closing word on a ready cluster whose plan only acts: its bundle issues, and its act takes place. -/
theorem State.issues_and_acts {i : Instr} {s : State} {p : Place} {slot : Nat} {op : Byte} {w : Fields} {n : Nat} {P : Plan} {v : Cluster → State}
    (hi : exec i s = s.slotWord p slot op w) (hcl : Closes n p s) (hn : (if w.wide then 10 else 6) = n)
    (hl : (⟨slot, op, w⟩ : SlotWord).legal = true) (hs : slot ≠ 0)
    (hP : (s.atIssue p n (oneWord p slot op w)).plan p.cl (oneWord p slot op w) ⟨slot, op, w⟩ = P) (hacts : P.OnlyActs)
    (hv : ∀ k', Issued n p.idle (s.clu p.cl) k' → (s.setClu p.cl k').act p.cl P.act = v k' ∧ s.StaysQuiet (v k')) :
    ∃ k', exec i s = .next (v k') ∧ Issued n p.idle (s.clu p.cl) k' ∧ k'.inflight = [] := by
  obtain ⟨hc, hg, hh, hf, ht, hconf, hT⟩ := hacts
  obtain ⟨k', hrun, hissued, hin⟩ := State.slotWord_acts hi hcl hn hl hs hP hc hg hh hf ht
  obtain ⟨hact, hquiet⟩ := hv k' hissued
  exact ⟨k', by rw [hrun, State.correctRead_none _ hconf, hact, hquiet.finish], hissued, hin.trans (if_pos hT)⟩

/-- What an issue leaves of what the acts read of a cluster. -/
theorem Issued.keeps {n : Nat} {idle : BitVec 4} {k k' : Cluster} (h : Issued n idle k k') :
    k'.impr = k.impr ∧ k'.job = k.job ∧ k'.moves = k.moves ∧ k'.signSeq = k.signSeq ∧ k'.gstate = k.gstate := by
  unfold Issued at h
  rw [h]
  exact ⟨rfl, rfl, rfl, rfl, rfl⟩

theorem low16_eq (imm : Word) : (imm.setWidth 16 : BitVec 16) = imm.extractLsb' 0 16 := BitVec.setWidth_eq_extractLsb' (by omega)

/-! ## MOVE (R186, R188) -/

section
variable {s : State} {p : Place} {w : Fields}

/-- Moves and the number of their signed tiles that an issued cluster has more. -/
theorem Issued.withMoves {n : Nat} {idle : BitVec 4} {k k' : Cluster} (h : Issued n idle k k') (ms : List MoveOut) (q : Nat) :
    Issued n idle { k with moves := ms, signSeq := q } { k' with moves := ms, signSeq := q } := by
  unfold Issued at h ⊢
  conv_lhs => rw [h]

theorem State.planMove_fetched (n m : Nat) (b b' : Bundle) :
    (s.atIssue p m b').planMove ((s.clu p.cl).fetched n b) w = s.planMove (s.clu p.cl) w := by
  obtain ⟨hx, -, -, -, -, hj, -, -, -, -, -, hmv, -⟩ := Cluster.fetched_regs n b (s.clu p.cl)
  have hmir : ∀ no a n, (s.atIssue p m b').mirrorRange no a n = s.mirrorRange no a n := fun _ _ _ => rfl
  have hcode : ∀ a n, (s.atIssue p m b').inCode a n = s.inCode a n := fun _ _ => rfl
  have hclus : ∀ c, (s.atIssue p m b').hasCluster c = s.hasCluster c := fun _ => rfl
  have hcnt : ∀ n, (s.atIssue p m b').counter n = s.counter n := fun _ => rfl
  simp only [State.planMove, hx, hj, hmv, hmir, hcode, hclus, hcnt]

/-- A MOVE between two aligned ranges that nothing forbids only acts. -/
theorem State.planMove_onlyActs {k : Cluster} (hsrc : s.absentAt (k.xr w.a) = false) (hdst : s.absentAt (k.xr w.b) = false)
    (hsa : (k.xr w.a).toNat % 16 = 0) (hda : (k.xr w.b).toNat % 16 = 0) (hna : (k.xr w.c).toNat % 16 = 0) (hlow : 16 ≤ (k.xr w.c).toNat)
    (hhigh : (k.xr w.c).toNat ≤ 16777216) (hss : inSpace (k.xr w.a) (k.xr w.c).toNat = true) (hds : inSpace (k.xr w.b) (k.xr w.c).toNat = true)
    (hsr : inReserve (k.xr w.a) (k.xr w.c).toNat = false) (hdr : inReserve (k.xr w.b) (k.xr w.c).toNat = false)
    (hmeet : meets (k.xr w.a).toNat (k.xr w.c).toNat (k.xr w.b).toNat (k.xr w.c).toNat = false)
    (hcode : s.inCode (k.xr w.b).toNat (k.xr w.c).toNat = false) (hmir : s.mirrorRange k.job (k.xr w.b).toNat (k.xr w.c).toNat = none)
    (hroom : k.moves.length < 64) (hown : w.imm.extractLsb' 16 8 = 0 ∨ (s.counter (w.imm.extractLsb' 0 16)).job = k.job) :
    (s.planMove k w).OnlyActs := by
  have hlen : ¬ ((k.xr w.c).toNat % 16 ≠ 0 ∨ (k.xr w.c).toNat < 16 ∨ 16777216 < (k.xr w.c).toNat) := by omega
  have hconds : (s.planMove k w).conds = [] := by
    simp only [State.planMove, low16_eq, if_neg hlen, hsa, hda, hss, hds, hsr, hdr, hmeet, hcode, hmir, if_pos hown, if_neg (Nat.not_le.mpr hroom)]
    unfold State.absentAt at hsrc hdst
    cases h1 : DWord.loc (k.xr w.a) <;> cases h2 : DWord.loc (k.xr w.b) <;> simp_all
  exact ⟨hconds, by simp [State.planMove], rfl, rfl, rfl, rfl, rfl⟩

/-- A move that writes no mirrored range joins the moves of its cluster. -/
theorem State.startMove_plain {v : State} {c : ClusterId} {src dst : DWord} {n : Nat} {counter : CounterName} {inc : Byte} {i : ImprRef}
    (hi : (v.clu c).impr = some i) (hm : v.mirrorRange i.job dst.toNat n = none) :
    v.startMove c src dst n counter inc = v.setClu c { v.clu c with
      moves := (v.clu c).moves ++ [⟨src, dst, n, counter, inc, i, (v.clu c).signSeq, false, 0, false, []⟩]
      signSeq := (v.clu c).signSeq + moveTiles dst n } := by
  simp only [State.startMove, hi, hm]
  rfl

theorem move_legal (hw : w.wide = true) (hd : w.d = 0) (hm : w.mod = 0) (hi : w.imm.toNat < 2 ^ 24) : (⟨4, 0x01, w⟩ : SlotWord).legal = true :=
  SlotWord.legal_of_form (op := 0x01) rfl hw (.inr hd) (.inl rfl) (.inl rfl) (.inl rfl) (by simp [hm]) (by simpa using hi)

/-- The move that a MOVE of an impression starts. -/
def Cluster.newMove (w : Fields) (i : ImprRef) (k : Cluster) : MoveOut :=
  ⟨k.xr w.a, k.xr w.b, (k.xr w.c).toNat, w.imm.extractLsb' 0 16, w.imm.extractLsb' 16 8, i, k.signSeq, false, 0, false, []⟩

/-- A MOVE that nothing forbids joins the moves of its cluster. -/
theorem move_joins {i : ImprRef} (hcl : Closes 10 p s) (hw : w.wide = true) (hl : (⟨4, 0x01, w⟩ : SlotWord).legal = true)
    (hi : (s.clu p.cl).impr = some i) (hacts : (s.planMove (s.clu p.cl) w).OnlyActs)
    (hm : s.mirrorRange i.job ((s.clu p.cl).xr w.b).toNat ((s.clu p.cl).xr w.c).toNat = none) :
    let k := s.clu p.cl
    ∃ k', exec (.move p w) s = .next (s.setClu p.cl k') ∧
      Issued 10 p.idle { k with
        moves := k.moves ++ [k.newMove w i], signSeq := k.signSeq + moveTiles (k.xr w.b) (k.xr w.c).toNat } k' ∧ k'.inflight = [] := by
  intro k
  generalize hms : k.moves ++ [k.newMove w i] = ms
  generalize hsq : k.signSeq + moveTiles (k.xr w.b) (k.xr w.c).toNat = q
  have hplan : (s.atIssue p 10 (oneWord p 4 0x01 w)).plan p.cl (oneWord p 4 0x01 w) ⟨4, 0x01, w⟩ = s.planMove k w := by
    refine Eq.trans ?_ (State.planMove_fetched 10 10 (oneWord p 4 0x01 w) (oneWord p 4 0x01 w))
    show (s.atIssue p 10 _).planMove ((s.atIssue p 10 _).clu p.cl) w = _
    rw [State.clu_atIssue]
  obtain ⟨k', hrun, hissued, hin⟩ := State.issues_and_acts (i := .move p w) (slot := 4) (op := 0x01)
    (v := fun k' => s.setClu p.cl { k' with moves := ms, signSeq := q }) rfl hcl (by simp [hw]) hl (by decide) hplan hacts fun k' hk' => by
      obtain ⟨himpr, -, hmoves, hseq, -⟩ := hk'.keeps
      refine ⟨?_, (State.StaysQuiet.refl hcl.1).setClu ..⟩
      have hstart := State.startMove_plain (v := s.setClu p.cl k') (c := p.cl) (src := k.xr w.a) (counter := w.imm.extractLsb' 0 16)
        (inc := w.imm.extractLsb' 16 8) (by rw [State.clu_setClu_same, himpr, hi]) hm
      rw [State.clu_setClu_same, State.setClu_setClu, hmoves, hseq, hsq] at hstart
      change _ = s.setClu p.cl { k' with moves := k.moves ++ [k.newMove w i], signSeq := q } at hstart
      rw [hms] at hstart
      rw [← hstart, ← low16_eq]
      rfl
  exact ⟨_, hrun, hissued.withMoves ms q, hin⟩

end

/-! ## BFREE (R186; 11 R304) -/

section
variable {s : State} {p : Place} {w : Fields} {g : Gran}

theorem State.StaysQuiet.setGran {u v : State} (h : u.StaysQuiet v) (g : Gran) (r : GranRec) : u.StaysQuiet (v.setGran g r) :=
  h.modDie _ _ rfl

/-- A free of an SRAM granule by its releaser returns it. -/
theorem State.free_sram {v : State} {u : Nat} {a : DWord} (ha : granuleAt a = some g) (hg : g.dram = false) (hst : (v.gran g).st = .held)
    (ho : (v.gran g).owners.getLast? = some u) : v.free_ u a = v.setGran g GranRec.reset := by
  simp [State.free_, State.freeGranule, State.mayFree, ha, hg, hst, ho]

/-- BFREE of an SRAM granule by its releaser. -/
theorem bfree_frees (hcl : Closes 6 p s) (hw : w.wide = false) (hd : w.d = 0) (hb : w.b = 0) (hc : w.c = 0) (hm : w.mod = 0)
    (ha : granuleAt ((s.clu p.cl).xr w.a) = some g) (hg : g.dram = false) (hst : (s.gran g).st = .held)
    (ho : (s.gran g).owners.getLast? = some p.cl.toNat) :
    ∃ k', exec (.bfree p w) s = .next ((s.setClu p.cl k').setGran g GranRec.reset) ∧ Issued 6 p.idle (s.clu p.cl) k' ∧ k'.inflight = [] := by
  have hplan : (s.atIssue p 6 (oneWord p 4 0x03 w)).plan p.cl (oneWord p 4 0x03 w) ⟨4, 0x03, w⟩ = s.planBfree p.cl (s.clu p.cl) w := by
    obtain ⟨hx, -⟩ := Cluster.fetched_regs 6 (oneWord p 4 0x03 w) (s.clu p.cl)
    show (s.atIssue p 6 _).planBfree p.cl ((s.atIssue p 6 _).clu p.cl) w = _
    rw [State.clu_atIssue, State.planBfree, hx]
    rfl
  have hmay : s.mayFree p.cl.toNat ((s.clu p.cl).xr w.a) = true := by simp [State.mayFree, ha, hst, ho]
  exact State.issues_and_acts (v := fun k' => (s.setClu p.cl k').setGran g GranRec.reset) rfl hcl (by simp [hw])
    (SlotWord.legal_of_form (op := 0x03) rfl hw (.inr hd) (.inl rfl) (.inr hb) (.inr hc) (by simp [hm]) rfl) (by decide) hplan
    ⟨by simp [State.planBfree, hmay], by simp [State.planBfree], rfl, rfl, rfl, rfl, rfl⟩
    fun k' _ => ⟨State.free_sram ha hg hst ho, ((State.StaysQuiet.refl hcl.1).setClu ..).setGran ..⟩

end

/-! ## SLAUNCH (R190; 08 R202) -/

/-- SLAUNCH of a descriptor in sound SRAM queues it. -/
theorem State.slaunch_sram {v : State} {c : ClusterId} {q : Port} {a : DWord} (harm : v.armed = []) (hbad : v.badWords = [])
    (hweak : v.weakIn a.toNat 128 = []) (ha : a.toNat < 2 ^ 31) (hal : a.toNat % 128 = 0) (hab : v.absentAt a = false) :
    v.slaunch c q a = v.enqueue q (Desc.ofBytes (v.read a.toNat 128)) (match (v.clu c).impr with | some i => i.step | none => 0) none := by
  simp only [State.slaunch, inSpace_sram ha hal, hal, hab, State.demand_sram 128 _ _ ha harm hbad hweak]
  rfl

section
variable {s : State} {p : Place} {w : Fields}

theorem slaunch_queues (hcl : Closes 6 p s) (hw : w.wide = false) (hd : w.d = 0) (hb : w.b = 0) (hc : w.c = 0) (hm : w.mod.toNat < 2)
    (harm : s.armed = []) (hbad : s.badWords = []) (hport : s.hasPort (enginePort p.cl (w.mod.getLsbD 0)) = true)
    (hroom : (s.eng (enginePort p.cl (w.mod.getLsbD 0))).queue.length < 64) (hweak : s.weakIn ((s.clu p.cl).xr w.a).toNat 128 = [])
    (ha : ((s.clu p.cl).xr w.a).toNat < 2 ^ 31) (hal : ((s.clu p.cl).xr w.a).toNat % 128 = 0) (hab : s.absentAt ((s.clu p.cl).xr w.a) = false) :
    ∃ k', exec (.slaunch p w) s = .next ((s.setClu p.cl k').enqueue (enginePort p.cl (w.mod.getLsbD 0))
        (Desc.ofBytes (s.read ((s.clu p.cl).xr w.a).toNat 128)) (match (s.clu p.cl).impr with | some i => i.step | none => 0) none) ∧
      Issued 6 p.idle (s.clu p.cl) k' ∧ k'.inflight = [] := by
  have hplan : (s.atIssue p 6 (oneWord p 5 0x01 w)).plan p.cl (oneWord p 5 0x01 w) ⟨5, 0x01, w⟩ = s.planSlaunch p.cl (s.clu p.cl) w := by
    obtain ⟨hx, -⟩ := Cluster.fetched_regs 6 (oneWord p 5 0x01 w) (s.clu p.cl)
    show (s.atIssue p 6 _).planSlaunch p.cl ((s.atIssue p 6 _).clu p.cl) w = _
    rw [State.clu_atIssue, State.planSlaunch, hx]
    rfl
  have hfull : s.queueFull (enginePort p.cl (w.mod.getLsbD 0)) = false := decide_eq_false (Nat.not_le.mpr hroom)
  exact State.issues_and_acts (v := fun k' => (s.setClu p.cl k').enqueue (enginePort p.cl (w.mod.getLsbD 0)) _ _ none) rfl hcl (by simp [hw])
    (SlotWord.legal_of_form (op := 0x01) rfl hw (.inr hd) (.inl rfl) (.inr hb) (.inr hc) (by simpa using hm) rfl) (by decide) hplan
    ⟨by simp only [State.planSlaunch, hport, hfull, if_true, Bool.false_eq_true, if_false, List.append_nil],
      by simp [State.planSlaunch], rfl, rfl, rfl, rfl, rfl⟩
    fun k' hk' => by
      obtain ⟨himpr, -⟩ := hk'.keeps
      have h := State.slaunch_sram (v := s.setClu p.cl k') (c := p.cl) (q := enginePort p.cl (w.mod.getLsbD 0)) harm hbad hweak ha hal hab
      rw [State.clu_setClu_same, himpr] at h
      exact ⟨h, ((State.StaysQuiet.refl hcl.1).setClu ..).modEng _ _ fun _ => ⟨rfl, rfl⟩⟩

end

end Sys2Proof.Machine
open Sys2Proof Sys2Proof.Machine

/-- Settles O15: the plan of such a MOVE meets no condition, and its act adds the move. -/
theorem moveJoinsTheOutstandingMoves : Obligations.MoveJoinsTheOutstandingMoves := by
  intro s p w i hcl hw hd hm himm k src dst n counter inc hi hsrc hdst hsa hda hna hlow hhigh hss hds hsr hdr hmeet hcode hmir hmiri hroom hown
  exact move_joins hcl hw (move_legal hw hd hm himm) hi
    (State.planMove_onlyActs hsrc hdst hsa hda hna hlow hhigh hss hds hsr hdr hmeet hcode hmir hroom hown) hmiri

/-- Settles O17: the descriptor's bytes are read from sound SRAM, and the act of SLAUNCH queues them. -/
theorem slaunchQueuesItsDescriptor : Obligations.SlaunchQueuesItsDescriptor := by
  intro s p w hcl hw hd hb hc hm harm hbad k a q hport hroom hweak ha hal hab
  exact slaunch_queues hcl hw hd hb hc hm harm hbad hport hroom hweak ha hal hab
end
section
/-! SUPPORT. CADD, CADDR and BARR on counters and barriers of the job, and BALLOC that is granted at once (07 R186, R190; 10 R273, R275, R287;
11 R295, R301, R302). -/

namespace Sys2Proof.Machine

open Sys2Proof.Claims

/-! ## CADD and CADDR (R190; 10 R273, R275) -/

/-- An addition of a signed number that no limit, no wait and no shard meets changes the counter alone. -/
theorem State.addCounter_reaches {n : CounterName} {delta : Int} {src : AddSrc} {s : State} {v : Nat} (hu : (s.counter n).underflow = false)
    (ho : (s.counter n).overflow = false) (hv : ((s.counter n).value.toNat : Int) + delta = v) (hlt : v < 2 ^ 32)
    (hw : ∀ e ∈ s.clusters, e.2.heldOn n = false) (hadv : ∀ r ∈ s.shards, r.advance ≠ n) :
    s.addCounter n delta src = s.modCounter n fun c => { c with value := BitVec.ofNat 32 v } := by
  have hneg : ¬ (v : Int) < 0 := by omega
  have hbig : ¬ (0xFFFFFFFF : Int) < (v : Int) := by omega
  have hwake : ∀ g, (s.modCounter n g).wake n = s.modCounter n g := fun g => State.wake_none (by simpa using hw)
  have hnone : ∀ g, (s.modCounter n g).advances n = none := fun g => by
    simp only [State.advances, List.find?_eq_none, Bool.and_eq_true, beq_iff_eq, not_and]
    intro r hr _
    exact hadv r (by simpa using hr)
  simp only [State.addCounter, hu, ho, hv, Bool.or_self, Bool.false_eq_true, if_false, if_neg hneg, if_neg hbig, hwake, hnone, Int.toNat_natCast]

/-- The plan of a word that adds to a counter of the cluster's job. -/
def addPlan (reads : List Reg) (n : CounterName) (delta : Int) : Plan := { reads := reads, act := .add n delta }

section
variable {s : State} {p : Place} {w : Fields} (hcl : Closes 10 p s) (hw : w.wide = true)

/-- A cluster that runs holds nothing on a counter. -/
theorem Cluster.heldOn_running {n : CounterName} {k : Cluster} (h : k.gstate = .running) : k.heldOn n = false := by
  simp [Cluster.heldOn, h]

include hcl hw

/-- A word whose plan adds to a counter. -/
theorem counter_adds {i : Instr} {op : Byte} {reads : List Reg} {n : CounterName} {delta : Int} {v : Nat} (hi : exec i s = s.slotWord p 5 op w)
    (hl : (⟨5, op, w⟩ : SlotWord).legal = true)
    (hplan : (s.atIssue p 10 (oneWord p 5 op w)).plan p.cl (oneWord p 5 op w) ⟨5, op, w⟩ = addPlan reads n delta)
    (hu : (s.counter n).underflow = false) (ho : (s.counter n).overflow = false) (hheld : ∀ e ∈ s.clusters, e.2.heldOn n = false)
    (hadv : ∀ r ∈ s.shards, r.advance ≠ n) (hv : ((s.counter n).value.toNat : Int) + delta = v) (hlt : v < 2 ^ 32) :
    ∃ k', exec i s = .next ((s.setClu p.cl k').modCounter n fun c => { c with value := BitVec.ofNat 32 v }) ∧
      Issued 10 p.idle (s.clu p.cl) k' ∧ k'.inflight = [] := by
  obtain ⟨hrun, -⟩ := (Cluster.ready_iff 10 _).mp hcl.2.2.2.2
  refine State.issues_and_acts (v := fun k' => (s.setClu p.cl k').modCounter n fun c => { c with value := BitVec.ofNat 32 v }) hi hcl (by simp [hw])
    hl (by decide) hplan ⟨rfl, by simp [addPlan], rfl, rfl, rfl, rfl, rfl⟩ fun k' hk' => ?_
  obtain ⟨-, -, -, -, hg⟩ := hk'.keeps
  refine ⟨State.addCounter_reaches hu ho hv hlt (fun e he => ?_) hadv, ((State.StaysQuiet.refl hcl.1).setClu ..).modCounter ..⟩
  rcases Table.mem_set he with rfl | he
  · exact Cluster.heldOn_running (hg.trans hrun)
  · exact hheld e he

section
variable (hd : w.d = 0) (ha : w.a = 0) (hc : w.c = 0) (hm : w.mod = 0) (hjob : (s.clu p.cl).job ≠ 0)
  (hown : (s.counter (w.imm.extractLsb' 0 16)).job = (s.clu p.cl).job) (hu : (s.counter (w.imm.extractLsb' 0 16)).underflow = false)
  (ho : (s.counter (w.imm.extractLsb' 0 16)).overflow = false) (hheld : ∀ e ∈ s.clusters, e.2.heldOn (w.imm.extractLsb' 0 16) = false)
  (hadv : ∀ r ∈ s.shards, r.advance ≠ w.imm.extractLsb' 0 16) {v : Nat} (hlt : v < 2 ^ 32)
include hd ha hc hm hjob hown hu ho hheld hadv hlt

theorem cadd_adds (hb : w.b = 0)
    (hv : ((s.counter (w.imm.extractLsb' 0 16)).value.toNat : Int) + (w.imm.extractLsb' 16 16 : BitVec 16).toInt = v) :
    ∃ k', exec (.cadd p w) s = .next ((s.setClu p.cl k').modCounter (w.imm.extractLsb' 0 16) fun c => { c with value := BitVec.ofNat 32 v }) ∧
      Issued 10 p.idle (s.clu p.cl) k' ∧ k'.inflight = [] := by
  have hplan : (s.atIssue p 10 (oneWord p 5 0x02 w)).plan p.cl (oneWord p 5 0x02 w) ⟨5, 0x02, w⟩ =
      addPlan [] (w.imm.extractLsb' 0 16) (w.imm.extractLsb' 16 16 : BitVec 16).toInt := by
    obtain ⟨-, -, -, -, -, hj, -⟩ := Cluster.fetched_regs 10 (oneWord p 5 0x02 w) (s.clu p.cl)
    show (s.atIssue p 10 _).planCadd ((s.atIssue p 10 _).clu p.cl) w = _
    rw [State.clu_atIssue, State.planCadd, hj, low16_eq]
    exact congrArg (fun l => ({ conds := l, act := .add _ _ } : Plan)) (if_pos ⟨hown, hjob⟩)
  have hl : (⟨5, 0x02, w⟩ : SlotWord).legal = true :=
    SlotWord.legal_of_form (op := 0x02) rfl hw (.inr hd) (.inr ha) (.inr hb) (.inr hc) (by simp [hm]) rfl
  exact counter_adds hcl hw rfl hl hplan hu ho hheld hadv hv hlt

theorem caddr_adds (himm : w.imm.toNat < 2 ^ 16)
    (hv : ((s.counter (w.imm.extractLsb' 0 16)).value.toNat : Int) + (((s.clu p.cl).xr w.b).extractLsb' 0 32).toInt = v) :
    ∃ k', exec (.caddr p w) s = .next ((s.setClu p.cl k').modCounter (w.imm.extractLsb' 0 16) fun c => { c with value := BitVec.ofNat 32 v }) ∧
      Issued 10 p.idle (s.clu p.cl) k' ∧ k'.inflight = [] := by
  have hplan : (s.atIssue p 10 (oneWord p 5 0x03 w)).plan p.cl (oneWord p 5 0x03 w) ⟨5, 0x03, w⟩ =
      addPlan [.x w.b] (w.imm.extractLsb' 0 16) (((s.clu p.cl).xr w.b).extractLsb' 0 32).toInt := by
    obtain ⟨hx, -, -, -, -, hj, -⟩ := Cluster.fetched_regs 10 (oneWord p 5 0x03 w) (s.clu p.cl)
    show (s.atIssue p 10 _).planCaddr ((s.atIssue p 10 _).clu p.cl) w = _
    rw [State.clu_atIssue, State.planCaddr, hj, hx, low16_eq, BitVec.setWidth_eq_extractLsb' (by omega)]
    exact congrArg (fun l => ({ reads := [.x w.b], conds := l, act := .add _ _ } : Plan)) (if_pos ⟨hown, hjob⟩)
  have hl : (⟨5, 0x03, w⟩ : SlotWord).legal = true :=
    SlotWord.legal_of_form (op := 0x03) rfl hw (.inr hd) (.inr ha) (.inl rfl) (.inr hc) (by simp [hm]) (by simpa using himm)
  exact counter_adds hcl hw rfl hl hplan hu ho hheld hadv hv hlt

end

end

/-! ## BARR (R190; 10 R287) -/

/-- The local arrivals of a slot once one more has come for a generation. -/
def Bar.arrivals (gen : Nat) (vote : Bool) (k : Bar) : List (Nat × Nat × Bool) :=
  (k.part.filter fun x => x.1 != gen) ++ [(gen, (k.localAt gen).1 + 1, (k.localAt gen).2 || vote)]

/-- An arrival that is not the last of the lowest generation leaves that generation the lowest. -/
theorem Bar.arrive_floor {local_ : Nat} {vote : Bool} {k : Bar} (h : (k.localAt k.floor).1 + 1 < local_) :
    k.arrive local_ k.floor vote = { k with part := (k.arrivals k.floor vote).filter fun x => decide (k.floor ≤ x.1) } := by
  have hfull : ((k.arrivals k.floor vote).any fun x => x.1 == k.floor && decide (local_ ≤ x.2.1)) = false := by
    simp only [List.any_eq_false, Bool.and_eq_true, beq_iff_eq, decide_eq_true_eq, not_and, Nat.not_le]
    intro x hx hfloor
    rcases List.mem_append.mp hx with hx | hx
    · exact absurd hfloor (by simpa using (List.mem_filter.mp hx).2)
    · rw [List.mem_singleton.mp hx]
      exact h
  have hfold : ∀ l : List Nat, l.foldl (fun f _ => if (k.arrivals k.floor vote).any (fun x => x.1 == f && decide (local_ ≤ x.2.1)) then f + 1 else f)
      k.floor = k.floor := fun l => by
    induction l with
    | nil => rfl
    | cons _ l ih => rw [List.foldl_cons, if_neg (by rw [hfull]; decide), ih]
  have h : k.arrive local_ k.floor vote = { k with
      floor := (List.range ((k.arrivals k.floor vote).length + 1)).foldl
        (fun f _ => if (k.arrivals k.floor vote).any (fun x => x.1 == f && decide (local_ ≤ x.2.1)) then f + 1 else f) k.floor
      part := (k.arrivals k.floor vote).filter fun x => decide ((List.range ((k.arrivals k.floor vote).length + 1)).foldl
        (fun f _ => if (k.arrivals k.floor vote).any (fun x => x.1 == f && decide (local_ ≤ x.2.1)) then f + 1 else f) k.floor ≤ x.1) } := rfl
  rw [h, hfold]

/-- The count of a generation among arrivals. -/
theorem Bar.localAt_arrivals {vote : Bool} {k y : Bar} (hy : y.part = (k.arrivals k.floor vote).filter fun x => decide (k.floor ≤ x.1)) {g : Nat}
    (hg : k.floor ≤ g) : y.localAt g = if g = k.floor then ((k.localAt g).1 + 1, (k.localAt g).2 || vote) else k.localAt g := by
  have hpart : y.part.find? (fun e => e.1 == g) = (k.arrivals k.floor vote).find? fun e => e.1 == g := by
    rw [hy, List.find?_filter]
    refine List.find?_congr fun e _ => ?_
    by_cases he : e.1 = g
    · simp [he, hg]
    · simp [he]
  have hkept : (k.part.filter fun x => x.1 != k.floor).find? (fun e => e.1 == g) =
      if g = k.floor then none else k.part.find? fun e => e.1 == g := by
    rw [List.find?_filter]
    split
    · rw [List.find?_eq_none]
      rintro e -
      simp [*]
    · refine List.find?_congr fun e _ => ?_
      by_cases he : e.1 = g
      · simp [*]
      · simp [he]
  unfold Bar.localAt
  rw [hpart, Bar.arrivals, List.find?_append, hkept]
  by_cases h : g = k.floor
  · simp [h, Bar.localAt]
  · simp [h, Ne.symm h]

/-- A barrier slot is no part of what follows a command. -/
theorem State.StaysQuiet.modBar {u v : State} (h : u.StaysQuiet v) (k : Nat) (g : Bar → Bar) : u.StaysQuiet (v.modBar k g) := by
  obtain ⟨hq, h⟩ := h
  exact ⟨State.quiet_congr hq rfl rfl rfl rfl rfl rfl, h⟩

/-- A local arrival that is not the last of the lowest generation is counted, and does nothing else. -/
theorem State.barBarr_counts {v : State} {no : JobNo} {b : BarDef} (hgen : (v.bar b.slot.toNat).floor < (v.bar b.slot.toNat).gen.toNat + 2)
    (hfew : ((v.bar b.slot.toNat).localAt (v.bar b.slot.toNat).floor).1 + 1 < b.local_) :
    v.barBarr no b false = v.modBar b.slot.toNat fun x => { x with
      part := ((v.bar b.slot.toNat).arrivals (v.bar b.slot.toNat).floor false).filter fun x => decide ((v.bar b.slot.toNat).floor ≤ x.1) } := by
  have harrive := Bar.arrive_floor (vote := false) hfew
  simp only [State.barBarr, State.barLocal, if_neg (Nat.not_le.mpr hgen), if_neg (Nat.ne_of_lt hfew), State.modBar, harrive]

/-- The plan of a BARR on a barrier that the job defines. -/
def barrPlan (slot : BitVec 6) : Plan := { act := .barr slot }

section
variable {s : State} {p : Place} {w : Fields} {b : BarDef}

theorem barr_counts (hcl : Closes 10 p s) (hw : w.wide = true) (hd : w.d = 0) (ha : w.a = 0) (hb : w.b = 0) (hc : w.c = 0) (hm : w.mod = 0)
    (himm : w.imm.toNat < 64) (hdef : s.barDef (s.clu p.cl).job w.imm.toNat = some b)
    (hgen : (s.bar b.slot.toNat).floor < (s.bar b.slot.toNat).gen.toNat + 2)
    (hfew : ((s.bar b.slot.toNat).localAt (s.bar b.slot.toNat).floor).1 + 1 < b.local_) :
    ∃ k', exec (.barr p w) s = .next ((s.setClu p.cl k').modBar b.slot.toNat fun x => { x with
        part := ((s.bar b.slot.toNat).arrivals (s.bar b.slot.toNat).floor false).filter fun x => decide ((s.bar b.slot.toNat).floor ≤ x.1) }) ∧
      Issued 10 p.idle (s.clu p.cl) k' ∧ k'.inflight = [] := by
  have hslot : (BitVec.ofNat 6 w.imm.toNat).toNat = w.imm.toNat := by rw [BitVec.toNat_ofNat, Nat.mod_eq_of_lt himm]
  have hplan : (s.atIssue p 10 (oneWord p 5 0x04 w)).plan p.cl (oneWord p 5 0x04 w) ⟨5, 0x04, w⟩ = barrPlan (BitVec.ofNat 6 w.imm.toNat) := by
    obtain ⟨-, -, -, -, -, hj, -⟩ := Cluster.fetched_regs 10 (oneWord p 5 0x04 w) (s.clu p.cl)
    have hsome : ((s.atIssue p 10 (oneWord p 5 0x04 w)).barDef (s.clu p.cl).job w.imm.toNat).isSome = true := by
      rw [show (s.atIssue p 10 (oneWord p 5 0x04 w)).barDef (s.clu p.cl).job w.imm.toNat = some b from hdef]
      rfl
    show (s.atIssue p 10 _).planBarr ((s.atIssue p 10 _).clu p.cl) w = _
    rw [State.clu_atIssue, State.planBarr, hj, Nat.mod_eq_of_lt himm]
    exact congrArg (fun l => ({ conds := l, act := .barr _ } : Plan)) (if_pos hsome)
  refine State.issues_and_acts (v := fun k' => (s.setClu p.cl k').modBar b.slot.toNat fun x => { x with part := _ }) rfl hcl (by simp [hw])
    (SlotWord.legal_of_form (op := 0x04) rfl hw (.inr hd) (.inr ha) (.inr hb) (.inr hc) (by simp [hm]) (by simpa using himm)) (by decide) hplan
    ⟨rfl, by simp [barrPlan], rfl, rfl, rfl, rfl, rfl⟩ fun k' hk' => ?_
  obtain ⟨-, hj, -⟩ := hk'.keeps
  refine ⟨?_, ((State.StaysQuiet.refl hcl.1).setClu ..).modBar ..⟩
  have hdef' : (s.setClu p.cl k').barDef (s.clu p.cl).job w.imm.toNat = some b := hdef
  simp only [barrPlan, State.act, State.clu_setClu_same, hj, hslot, hdef']
  exact State.barBarr_counts hgen hfew

end

/-! ## BALLOC that is granted at once (R186; 11 R295, R301, R302) -/

/-- The owner number of a cluster stands for its die. -/
theorem ownerDie_cluster (c : ClusterId) : ownerDie c.toNat = c.die := by
  have hc := c.isLt
  rw [ownerDie, if_pos hc]
  refine BitVec.eq_of_toNat_eq ?_
  rw [BitVec.toNat_ofNat, ClusterId.die, BitVec.extractLsb'_toNat, Nat.shiftRight_eq_div_pow]

/-- Where a byte of a cluster's SRAM stands. -/
theorem loc_sramAddr (c : ClusterId) {off : Nat} (h : off < 2 ^ 23) : DWord.loc (BitVec.ofNat 64 (sramAddr c off)) = .sram c off := by
  have hc := c.isLt
  have haddr : (BitVec.ofNat 64 (sramAddr c off)).toNat = c.toNat * 2 ^ 23 + off := by
    rw [BitVec.toNat_ofNat, sramAddr]
    omega
  have hdiv : (BitVec.ofNat 64 (sramAddr c off)).toNat / 2 ^ 23 = c.toNat := by omega
  have hmod : (BitVec.ofNat 64 (sramAddr c off)).toNat % 2 ^ 23 = off := by omega
  rw [loc_sram (by omega), hdiv, hmod, BitVec.ofNat_toNat, BitVec.setWidth_eq]

/-- The granules of a cluster's SRAM, by their offset. -/
theorem granuleAt_sram (c : ClusterId) {off g : Nat} (h : off < 2 ^ 23) (hmod : off % 16384 = 0) (hdiv : off / 16384 = g) :
    granuleAt (BitVec.ofNat 64 (sramAddr c off)) = some ⟨c.die, (c.toNat % 64) * 512 + g, false⟩ := by
  have hloc := loc_sramAddr c h
  generalize BitVec.ofNat 64 (sramAddr c off) = a at hloc
  rw [granuleAt, hloc]
  simp only [hmod, hdiv, if_true]

theorem State.freeSram_lt {v : State} {c : ClusterId} {g : Nat} (h : v.freeSram c = some g) : g < 512 := by
  unfold State.freeSram at h
  exact List.mem_range.mp (List.mem_of_find?_eq_some h)

section
variable {v : State} {c : ClusterId} {no : JobNo} {g : Nat} (hquota : v.charged c.toNat false no < v.quota c.toNat false no)
  (hfree : v.freeSram c = some g)
include hquota hfree

omit hquota in
/-- A request for SRAM that can be met takes the granule that stands at the lowest free address. -/
theorem State.grantNow_at {a : DWord} (hgrant : v.grantable ⟨c.toNat, false, no, none⟩ = true)
    (ha : BitVec.ofNat 64 (sramAddr c (g * 16384)) = a) (hgran : granuleAt a = some ⟨c.die, (c.toNat % 64) * 512 + g, false⟩) :
    v.grantNow ⟨c.toNat, false, no, none⟩ = some (a, v.setGran ⟨c.die, (c.toNat % 64) * 512 + g, false⟩ ⟨.held, no, [c.toNat]⟩) := by
  have hc : BitVec.ofNat 8 c.toNat = c := BitVec.ofNat_toNat ..
  rw [State.grantNow, if_pos hgrant]
  simp only [hc, hfree, Bool.false_eq_true, if_false, Option.map_some, ha]
  rw [hgran]

/-- A request for SRAM within quota takes the lowest free granule. -/
theorem State.grantNow_sram : v.grantNow ⟨c.toNat, false, no, none⟩ = some (BitVec.ofNat 64 (sramAddr c (g * 16384)),
    v.setGran ⟨c.die, (c.toNat % 64) * 512 + g, false⟩ ⟨.held, no, [c.toNat]⟩) := by
  have hc : BitVec.ofNat 8 c.toNat = c := BitVec.ofNat_toNat ..
  have hgrant : v.grantable ⟨c.toNat, false, no, none⟩ = true := by
    simp only [State.grantable, hquota, hc, hfree, decide_true, Bool.true_and]
    rfl
  have hg := State.freeSram_lt hfree
  exact State.grantNow_at hfree hgrant rfl (granuleAt_sram c (by omega) (by omega) (by omega))

/-- A request for SRAM within quota is granted at once where none waits on its die. -/
theorem State.request_sram (hw : (v.die c.die).waiters = []) : v.request ⟨c.toNat, false, no, none⟩ =
    (some (BitVec.ofNat 64 (sramAddr c (g * 16384))), v.setGran ⟨c.die, (c.toNat % 64) * 512 + g, false⟩ ⟨.held, no, [c.toNat]⟩) := by
  simp only [State.request, ownerDie_cluster, hw, List.any_nil, Bool.false_eq_true, if_false, State.grantNow_sram hquota hfree]

end

/-- The plan of a BALLOC for SRAM, with the address that its grant names. -/
def ballocPlan (d : BitVec 5) (a : DWord) : Plan := { lat := 2, targets := [.x d a], hold := .balloc false, group := 23 }

/-- A BALLOC for SRAM within quota, where no request waits on its die, is granted. -/
theorem State.holds_balloc {v : State} {c : ClusterId} {d : BitVec 5} {a : DWord} {g : Nat} (hg : (v.clu c).grant = none)
    (hw : (v.die c.die).waiters = []) (hquota : v.charged c.toNat false (v.clu c).job < v.quota c.toNat false (v.clu c).job)
    (hfree : v.freeSram c = some g) :
    v.holds c [ballocPlan d a] = ([], (v.setGran ⟨c.die, (c.toNat % 64) * 512 + g, false⟩ ⟨.held, (v.clu c).job, [c.toNat]⟩).setClu c
      { v.clu c with grant := some (BitVec.ofNat 64 (sramAddr c (g * 16384))) }) := by
  have hwait : v.waitsForGranule ⟨c.toNat, false, (v.clu c).job, none⟩ = false := by
    simp [State.waitsForGranule, ownerDie_cluster, hw]
  simp only [State.holds, List.foldl_cons, List.foldl_nil, ballocPlan, hg, Option.isSome_none, Bool.false_eq_true, if_false, hwait,
    State.request_sram hquota hfree hw]
  rfl

section
variable {s : State} {p : Place} {w : Fields} {g : Nat}

/-- BALLOC for SRAM that is granted at once. -/
theorem balloc_takes (hcl : Closes 10 p s) (hw : w.wide = true) (ha : w.a = 0) (hb : w.b = 0) (hc : w.c = 0) (hm : w.mod = 0) (himm : w.imm = 0)
    (hwait : (s.die p.cl.die).waiters = []) (hquota : s.charged p.cl.toNat false (s.clu p.cl).job < s.quota p.cl.toNat false (s.clu p.cl).job)
    (hfree : s.freeSram p.cl = some g) :
    ∃ k', exec (.balloc p w) s =
        .next ((s.setGran ⟨p.cl.die, (p.cl.toNat % 64) * 512 + g, false⟩ ⟨.held, (s.clu p.cl).job, [p.cl.toNat]⟩).setClu p.cl k') ∧
      Issued 10 p.idle (s.clu p.cl) k' ∧
      k'.inflight = [⟨(s.clu p.cl).stepCount + 1, 4, [.x w.d (BitVec.ofNat 64 (sramAddr p.cl (g * 16384)))], NFlags.none⟩] := by
  obtain ⟨-, -, -, -, -, -, -, -, -, -, hgrant, -⟩ := (Cluster.ready_iff 10 _).mp hcl.2.2.2.2
  have hstands := hcl.stands (oneWord p 4 0x02 w)
  obtain ⟨ic, hk⟩ := Cluster.fetched_eq 10 (oneWord p 4 0x02 w) (s.clu p.cl)
  generalize hv : s.atIssue p 10 (oneWord p 4 0x02 w) = v at hstands
  have hclu : v.clu p.cl = (s.clu p.cl).fetched 10 (oneWord p 4 0x02 w) := by rw [← hv, State.clu_atIssue]
  have hjob : (v.clu p.cl).job = (s.clu p.cl).job := by rw [hclu, hk]
  have hlow : w.imm.getLsbD 0 = false := by simp [himm]
  have hplan : ∀ u : State, u.plan p.cl (oneWord p 4 0x02 w) ⟨4, 0x02, w⟩ = ballocPlan w.d ((u.clu p.cl).grant.getD 0) := fun u => by
    show planBalloc (u.clu p.cl) w = _
    rw [planBalloc, hlow, ballocPlan]
  have hfree' : v.freeSram p.cl = some g := by
    have hpool : (v.clu p.cl).poolBase = (s.clu p.cl).poolBase := by rw [hclu, hk]
    have hgran : ∀ x, v.gran x = s.gran x := fun x => by rw [← hv]; rfl
    rw [← hfree]
    simp only [State.freeSram, hpool, hgran]
  have hholds := State.holds_balloc (v := v) (c := p.cl) (d := w.d) (a := (v.clu p.cl).grant.getD 0) (by rw [hclu, hk]; exact hgrant)
    (by rw [← hv]; exact hwait) (by rw [hjob, ← hv]; exact hquota) hfree'
  rw [hjob] at hholds
  generalize hG : (⟨p.cl.die, (p.cl.toNat % 64) * 512 + g, false⟩ : Gran) = G at hholds
  generalize hR : (⟨.held, (s.clu p.cl).job, [p.cl.toNat]⟩ : GranRec) = R at hholds
  generalize hA : BitVec.ofNat 64 (sramAddr p.cl (g * 16384)) = A at hholds
  generalize hkv : ({ v.clu p.cl with grant := some A } : Cluster) = kv at hholds
  have hstands' : (s.clu p.cl).Stands (oneWord p 4 0x02 w) (((v.setGran G R).setClu p.cl kv).clu p.cl) := by
    rw [State.clu_setClu_same, ← hkv]
    unfold Cluster.Stands at hstands ⊢
    rw [hstands]
  have hplan' : ((v.setGran G R).setClu p.cl kv).plan p.cl (oneWord p 4 0x02 w) ⟨4, 0x02, w⟩ = ballocPlan w.d A := by
    rw [hplan, State.clu_setClu_same, ← hkv]
    rfl
  obtain ⟨k', hdec, hissued, hin⟩ := State.decides_released (w := ⟨4, 0x02, w⟩) rfl
    (SlotWord.legal_of_form (op := 0x02) rfl hw (.inl rfl) (.inr ha) (.inr hb) (.inr hc) (by simp [hm]) (by simp [himm])) hstands hcl.2.2.2.2
    ((oneWord_size ..).trans (by simp [hw])) rfl (hplan v) rfl (by simp [ballocPlan]) rfl hholds hstands' hplan' rfl rfl rfl rfl
  refine ⟨k', hcl.exec_decides (slot := 4) (op := 0x02) (w := w) rfl (by simp [hw]) ?_ (((State.StaysQuiet.refl hcl.1).setGran ..).setClu ..),
    hissued, hin⟩
  have hcomm : (s.atIssue p 10 (oneWord p 4 0x02 w)).setGran G R = (s.setGran G R).atIssue p 10 (oneWord p 4 0x02 w) := rfl
  rw [hv, hdec, State.setClu_setClu, ← hv, hcomm]
  exact State.setClu_setClu ..

end

end Sys2Proof.Machine
open Sys2Proof Sys2Proof.Machine

/-- Settles O16: the request of BALLOC is granted as its bundle is decided on, and the act of BFREE returns the granule. -/
theorem granulesAreTakenAndFreed : Obligations.GranulesAreTakenAndFreed := by
  intro s p w
  refine ⟨fun g hcl hw ha hb hc hm himm hwait hquota hfree => balloc_takes hcl hw ha hb hc hm himm hwait hquota hfree,
    fun g hcl hw hd hb hc hm ha hg hst ho => bfree_frees hcl hw hd hb hc hm ha hg hst ho⟩

/-- Settles O18: an addition that no limit, wait or shard meets changes its counter; an arrival that is not the last of its generation is counted. -/
theorem countersAndBarriersCount : Obligations.CountersAndBarriersCount := by
  intro s p w hcl hw hd ha hc hm k n adds
  refine ⟨fun hjob hown hu ho hheld hadv => ⟨fun hb v hv hlt => ?_, fun himm v hv hlt => ?_⟩, fun b hb himm hdef => ?_⟩
  · exact cadd_adds hcl hw hd ha hc hm hjob hown hu ho hheld hadv hlt hb hv
  · exact caddr_adds hcl hw hd ha hc hm hjob hown hu ho hheld hadv hlt himm hv
  · intro x hgen hfew
    obtain ⟨k', hrun, hissued⟩ := barr_counts hcl hw hd ha hb hc hm himm hdef hgen hfew
    refine ⟨k', _, hrun, fun y hy => ⟨?_, fun g hg => ?_⟩, hissued⟩
    · rw [Bar.localAt_arrivals hy (Nat.le_refl _), if_pos rfl, Bool.or_false]
    · rw [Bar.localAt_arrivals hy hg.le, if_neg hg.ne']
end
section
/-! SUPPORT. RESULT_LANDING: what the landing of one result writes (02 R52; 06 R150; 07 R162, R168, R175, R181). -/

namespace Sys2Proof.Machine

open Sys2Proof.Claims

/-! ## Registers after a write (R162) -/

section
variable (k : Cluster)

theorem Cluster.xr_zero : k.xr 0 = 0 := rfl

theorem Cluster.setX_eq (d : BitVec 5) (v : DWord) : k.setX d v = { k with x := (k.setX d v).x } := by
  unfold Cluster.setX
  split <;> rfl

theorem Cluster.xr_setX_same {d : BitVec 5} (v : DWord) (h : d ≠ 0) : (k.setX d v).xr d = v := by
  simp only [Cluster.xr, Cluster.setX, if_neg h, Table.get_set_same]

theorem Cluster.xr_setX_other {d q : BitVec 5} (v : DWord) (h : q ≠ d) : (k.setX d v).xr q = k.xr q := by
  unfold Cluster.xr Cluster.setX
  split
  · rfl
  · split
    · rfl
    · exact Table.get_set_other _ _ _ (mt BitVec.eq_of_toNat_eq h)

theorem Cluster.fr_setF_same (d : BitVec 5) (v : Word) : (k.setF d v).fr d = v := Table.get_set_same ..

theorem Cluster.fr_setF_other {d q : BitVec 5} (v : Word) (h : q ≠ d) : (k.setF d v).fr q = k.fr q :=
  Table.get_set_other _ _ _ (mt BitVec.eq_of_toNat_eq h)

theorem Cluster.setM_eq (d : BitVec 3) (v mask : BitVec 512) : k.setM d v mask = { k with m := (k.setM d v mask).m } := by
  unfold Cluster.setM
  split <;> rfl

theorem Cluster.mr_setM_same {d : BitVec 3} (v mask : BitVec 512) (h : d ≠ 0) : (k.setM d v mask).mr d = (k.mr d &&& ~~~mask) ||| (v &&& mask) := by
  rw [Cluster.setM, if_neg h, Cluster.mr, if_neg h]
  exact Table.get_set_same ..

theorem Cluster.mr_setM_other {d q : BitVec 3} (v mask : BitVec 512) (h : q ≠ d) : (k.setM d v mask).mr q = k.mr q := by
  unfold Cluster.mr Cluster.setM
  split
  · rfl
  · split
    · rfl
    · exact Table.get_set_other _ _ _ (mt BitVec.eq_of_toNat_eq h)

end

/-- The sparse form of lanes reads as the lanes. -/
theorem get_packLanes (ls : List Word) (l : Nat) : Table.get 0 l (packLanes ls) = ls.getD l 0 := by
  have h : ∀ n, Table.get 0 l (((List.range' n ls.length).zip ls).filter fun e => e.2 ≠ 0) = if n ≤ l then ls.getD (l - n) 0 else 0 := by
    induction ls with
    | nil => intro n; simp [Table.get]
    | cons w ls ih =>
      intro n
      have htail : (if n + 1 ≤ l then ls.getD (l - (n + 1)) 0 else 0) = if n ≤ l ∧ n ≠ l then (w :: ls).getD (l - n) 0 else 0 := by
        by_cases hl : n + 1 ≤ l
        · rw [if_pos hl, if_pos (by omega), show l - n = (l - (n + 1)) + 1 by omega, List.getD_cons_succ]
        · rw [if_neg hl, if_neg (by omega)]
      rw [List.length_cons, List.range'_succ, List.zip_cons_cons, List.filter_cons]
      by_cases hw : w = 0
      · rw [if_neg (by simpa using hw), ih, htail]
        by_cases hn : n = l
        · subst hn
          simp [hw]
        · simp [hn]
      · rw [if_pos (by simpa using hw), Table.get, ih, htail]
        by_cases hn : n = l
        · subst hn
          simp
        · simp [hn]
  rw [packLanes, List.range_eq_range', h]
  simp

section
variable (k : Cluster) (d : BitVec 5) (ls : List Word) (en : BitVec 512)

theorem Cluster.setV_eq : k.setV d ls en = { k with v := (k.setV d ls en).v } := by simp only [Cluster.setV]

theorem Cluster.vr_setV_other {q : BitVec 5} (h : q ≠ d) : (k.setV d ls en).vr q = k.vr q := by
  simp only [Cluster.vr, Cluster.setV, Table.get_set_other _ _ _ (mt BitVec.eq_of_toNat_eq h)]

/-- A vector write takes the enabled lanes and keeps the others. -/
theorem Cluster.vr_setV_same {l : Nat} (hl : l < 512) :
    ((k.setV d ls en).vr d).getD l 0 = if en.getLsbD l then ls.getD l 0 else (k.vr d).getD l 0 := by
  have hlanes : ∀ f : Nat → Word, ((List.range 512).map f).getD l 0 = f l := fun f => by simp [hl]
  rw [Cluster.vr, Cluster.setV, Table.get_set_same, hlanes, get_packLanes, mergeLanes, hlanes]

end

/-! ## Packed codes (R52) -/

theorem packNat_lt (w : Nat) (cs : List Nat) : packNat w cs < 2 ^ (w * cs.length) := by
  induction cs with
  | nil => simp [packNat]
  | cons c cs ih =>
    have hc : c % 2 ^ w < 2 ^ w := Nat.mod_lt _ (Nat.two_pow_pos w)
    rw [packNat, List.length_cons, Nat.mul_succ, Nat.add_comm (w * cs.length) w, Nat.pow_add]
    calc c % 2 ^ w + 2 ^ w * packNat w cs < 2 ^ w * (packNat w cs + 1) := by rw [Nat.mul_succ]; omega
      _ ≤ 2 ^ w * 2 ^ (w * cs.length) := Nat.mul_le_mul_left _ ih

/-- Codes that fit their width are what their packed form unpacks to. -/
theorem unpackNat_packNat {w : Nat} {cs : List Nat} (h : ∀ c ∈ cs, c < 2 ^ w) : unpackNat w cs.length (packNat w cs) = cs := by
  induction cs with
  | nil => rfl
  | cons c cs ih =>
    have hc : c % 2 ^ w = c := Nat.mod_eq_of_lt (h c List.mem_cons_self)
    rw [List.length_cons, unpackNat, packNat, hc, Nat.add_mul_mod_self_left, hc, Nat.add_mul_div_left _ _ (Nat.two_pow_pos w),
      Nat.div_eq_of_lt (h c List.mem_cons_self), Nat.zero_add, ih fun c hc => h c (List.mem_cons_of_mem _ hc)]

theorem unpackNat_getD_lt (w n v l : Nat) : (unpackNat w n v).getD l 0 < 2 ^ w := by
  induction n generalizing v l with
  | zero => simp [unpackNat]
  | succ n ih =>
    cases l with
    | zero => simpa [unpackNat] using Nat.mod_lt _ (Nat.two_pow_pos w)
    | succ l => exact ih ..

theorem Fmt.bytes_lanes (f : Fmt) : f.bytes 512 = 64 * f.bits := by
  rw [Fmt.bytes]
  omega

theorem length_pack (f : Fmt) (cs : List Nat) : (pack f cs).length = f.bytes cs.length := leBytes_length ..

/-- 512 codes that fit their width are what their packed bytes unpack to. -/
theorem unpack_pack {f : Fmt} {cs : List Nat} (hlen : cs.length = 512) (h : ∀ c ∈ cs, c < 2 ^ f.bits) : unpack f 512 (pack f cs) = cs := by
  have hlt := packNat_lt f.bits cs
  rw [unpack, pack, leNat_leBytes, hlen, Fmt.bytes_lanes, Nat.mod_eq_of_lt, ← hlen]
  · exact unpackNat_packNat h
  · rw [show (256 : Nat) = 2 ^ 8 from rfl, ← Nat.pow_mul, show 8 * (64 * f.bits) = f.bits * cs.length by rw [hlen]; omega]
    exact hlt

/-! ## The landing of one result (R168) -/

/-- A cluster whose one result leaves flight. -/
def Cluster.lands (r : InFlight) (x : Target) (k : Cluster) : Cluster :=
  { k with inflight := [], flags := k.flags.or r.flags, accesses := k.accesses ++ [x.range.toList] }

theorem exec_resultLanding (c : ClusterId) (s : State) : exec (.resultLanding c) s = s.onCluster c s.time fun s => s.resultLanding c := by rfl

theorem dueBefore_one {n : Nat} {r : InFlight} (h : r.land ≤ n) : dueBefore n [r] = [r] := by
  simp [dueBefore, h, sortBy, insertBy]

/-- A result of one target lands by its target. -/
theorem State.landOne_one {s v : State} {c : ClusterId} {r : InFlight} {x : Target} (hx : r.targets = [x])
    (h : (s.modClu c fun k => { k with flags := k.flags.or r.flags }).land c x = (v, none)) : s.landOne c r = (v, none) := by
  simp only [State.landOne, hx, List.foldl_cons, List.foldl_nil, h]
  rfl

section
variable {s v : State} {c : ClusterId} {r : InFlight} {x : Target} (hq : s.quiet = true) (hc : s.hasCluster c = true)
  (ht : (s.clu c).tiles = []) (hin : (s.clu c).inflight = [r]) (hdue : r.land ≤ (s.clu c).landable) (hx : r.targets = [x])
include hq hc ht hin hdue hx

omit hq in
/-- The one result of a cluster that is due lands. -/
theorem resultLanding_lands (hland : (s.setClu c ((s.clu c).lands r x)).land c x = (v, none)) (hv : s.StaysQuiet v) :
    exec (.resultLanding c) s = .next v := by
  have hrange : [x].filterMap Target.range = x.range.toList := by cases h : x.range <;> simp [h]
  have htile : (s.clu c).tileDue (s.clu c).landable = none := by rw [Cluster.tileDue, ht, List.find?_nil]
  have hfirst : dueBefore (s.clu c).landable (s.clu c).inflight = [r] := by rw [hin, dueBefore_one hdue]
  have hrest : (s.clu c).inflight.erase r = [] := by rw [hin, List.erase_cons_head]
  have hrun : s.resultLanding c = v := by
    simp only [State.resultLanding, htile, hfirst, hrest, hx, hrange]
    rw [State.landOne_one hx]
    · rfl
    · rw [State.modClu, State.clu_setClu_same, State.setClu_setClu]
      exact hland
  rw [exec_resultLanding, State.StaysQuiet.onCluster_now hc (by rw [hrun]; exact hv), hrun]

/-- A result of a register changes its cluster alone. -/
theorem resultLanding_setClu {g : Cluster → Cluster} (hland : ∀ t : State, t.land c x = (t.modClu c g, none)) :
    exec (.resultLanding c) s = .next (s.setClu c (g ((s.clu c).lands r x))) := by
  refine resultLanding_lands hc ht hin hdue hx ?_ ((State.StaysQuiet.refl hq).setClu ..)
  rw [hland, State.modClu, State.clu_setClu_same, State.setClu_setClu]

/-- A result of a store changes memory. -/
theorem resultLanding_mem {m : Memory}
    (hland : (s.setClu c ((s.clu c).lands r x)).land c x = ({ s.setClu c ((s.clu c).lands r x) with mem := m }, none)) :
    exec (.resultLanding c) s = .next { s.setClu c ((s.clu c).lands r x) with mem := m } :=
  resultLanding_lands hc ht hin hdue hx hland (((State.StaysQuiet.refl hq).setClu ..).words m s.badWords s.weakWords)

end

/-- The codes that a vector store leaves over its range. -/
def mergedCodes (a : Nat) (f : Fmt) (ls : List Word) (en : BitVec 512) (s : State) : List Nat :=
  (List.range 512).map fun l => if en.getLsbD l then (ls.getD l 0).toNat else (unpack f 512 (s.read a (f.bytes 512))).getD l 0

theorem State.landVst_clean {s : State} (c : ClusterId) (a : Nat) (f : Fmt) (ls : List Word) (en : BitVec 512) (hb : s.badWords = [])
    (hw : s.weakWords = []) : s.landVst c a f ls en = ({ s with mem := Memory.writeN a (pack f (mergedCodes a f ls en s)) s.mem }, none) := by
  cases s
  simp only at hb hw
  subst hb hw
  simp [State.landVst, State.weakIn, State.corrects, writeSkip_nil, mergedCodes]

theorem length_mergedCodes (a : Nat) (f : Fmt) (ls : List Word) (en : BitVec 512) (s : State) : (mergedCodes a f ls en s).length = 512 := by
  simp [mergedCodes]

theorem mergedCodes_lt {a : Nat} {f : Fmt} {ls : List Word} {en : BitVec 512} {s : State}
    (h : ∀ l, l < 512 → (ls.getD l 0).toNat < 2 ^ f.bits) : ∀ x ∈ mergedCodes a f ls en s, x < 2 ^ f.bits := by
  intro x hx
  obtain ⟨l, hl, rfl⟩ := List.mem_map.mp hx
  split
  · exact h l (List.mem_range.mp hl)
  · exact unpackNat_getD_lt ..

theorem mergedCodes_getD {a : Nat} {f : Fmt} {ls : List Word} {en : BitVec 512} {s : State} {l : Nat} (hl : l < 512) :
    (mergedCodes a f ls en s).getD l 0 = if en.getLsbD l then (ls.getD l 0).toNat else (unpack f 512 (s.read a (f.bytes 512))).getD l 0 := by
  simp [mergedCodes, hl]

/-- Bytes that are written are what a read of their range finds. -/
theorem Memory.readN_writeN (a : Nat) (bs : List Byte) (m : Memory) : Memory.readN a bs.length (Memory.writeN a bs m) = bs :=
  Memory.readN_eq fun i hi => by rw [Memory.read_writeN, if_pos (by omega), Nat.add_sub_cancel_left]

end Sys2Proof.Machine
open Sys2Proof Sys2Proof.Machine

/-- Settles O21: by the kind of the result's target. -/
theorem resultsLand : Obligations.ResultsLand := by
  intro s cl r x hq hc k ht hin hdue hx base lands
  cases x with
  | x d v =>
    exact ⟨_, resultLanding_setClu hq hc ht hin hdue hx (g := Cluster.setX d v) fun _ => rfl, Cluster.setX_eq .., Cluster.xr_zero _,
      Cluster.xr_setX_same _ v, fun _ => Cluster.xr_setX_other _ v⟩
  | f d v =>
    exact ⟨_, resultLanding_setClu hq hc ht hin hdue hx (g := Cluster.setF d v) fun _ => rfl, rfl, Cluster.fr_setF_same ..,
      fun _ => Cluster.fr_setF_other _ v⟩
  | v d ls en =>
    exact ⟨_, resultLanding_setClu hq hc ht hin hdue hx (g := Cluster.setV d ls en) fun _ => rfl, Cluster.setV_eq ..,
      fun _ => Cluster.vr_setV_other _ d ls en, fun _ => Cluster.vr_setV_same _ d ls en⟩
  | m d v en =>
    exact ⟨_, resultLanding_setClu hq hc ht hin hdue hx (g := Cluster.setM d v en) fun _ => rfl, Cluster.setM_eq .., rfl,
      Cluster.mr_setM_same _ v en, fun _ => Cluster.mr_setM_other _ v en⟩
  | cx v => exact resultLanding_setClu hq hc ht hin hdue hx (g := fun k => { k with cx := v }) fun _ => rfl
  | sram a bs =>
    intro hb hw
    exact ⟨_, resultLanding_mem hq hc ht hin hdue hx (State.merge_clean cl a bs hb hw), rfl, fun b => Memory.read_writeN ..⟩
  | vst a fm ls en =>
    intro g hb hw hg hfit
    generalize hcodes : mergedCodes (sramAddr cl a) g ls en (s.setClu cl (k.lands r (.vst a fm ls en))) = codes
    have hlen : codes.length = 512 := hcodes ▸ length_mergedCodes ..
    have hbytes : (pack g codes).length = g.bytes 512 := by rw [length_pack, hlen]
    have hland : (s.setClu cl (k.lands r (.vst a fm ls en))).land cl (.vst a fm ls en) =
        ({ s.setClu cl (k.lands r (.vst a fm ls en)) with mem := Memory.writeN (sramAddr cl a) (pack g codes) s.mem }, none) := by
      simp only [State.land, hg]
      rw [State.landVst_clean (s := s.setClu cl (k.lands r (.vst a fm ls en))) cl (sramAddr cl a) g ls en hb hw, hcodes]
      rfl
    refine ⟨_, resultLanding_mem hq hc ht hin hdue hx hland, rfl, fun b hout => ?_, fun l hl => ?_⟩
    · rw [Memory.read_writeN, if_neg (by omega)]
    · have hread : State.read (sramAddr cl a) (g.bytes 512)
          { s.setClu cl (k.lands r (.vst a fm ls en)) with mem := Memory.writeN (sramAddr cl a) (pack g codes) s.mem } = pack g codes := by
        rw [State.read, ← hbytes, Memory.readN_writeN]
      rw [hread, unpack_pack hlen (hcodes ▸ mergedCodes_lt hfit), ← hcodes, mergedCodes_getD hl]
      rfl
end
section
/-! SUPPORT. MOVE_COMPLETE between SRAMs: the bytes of the move line by line, and its increment (07 R186, R188). -/

namespace Sys2Proof.Machine

open Sys2Proof.Claims

/-- Byte i of a run of bytes that is read. -/
theorem Memory.getD_readN {a n i : Nat} (m : Memory) (h : i < n) : (Memory.readN a n m).getD i 0 = Memory.read (a + i) m := by
  induction n generalizing a i with
  | zero => omega
  | succ n ih =>
    cases i with
    | zero => rfl
    | succ i => rw [Memory.readN, List.getD_cons_succ, ih (Nat.lt_of_succ_lt_succ h), Nat.add_right_comm, Nat.add_assoc]

/-! ## The lines of a move (R186) -/

/-- The copy of one line of a move, after the copies before it. -/
def State.copyLine (c : ClusterId) (m : MoveOut) (acc : State × Option ReadFail) (b : Nat × Nat) : State × Option ReadFail :=
  let r := acc.1.demand b.1 b.2 (c.setWidth 16) m.impr.job
  match r.1.2 with
  | none =>
    let w := r.2.storeBy (c.setWidth 16) m.impr.job (m.dst.toNat + (b.1 - m.src.toNat)) r.1.1
    (w.2, acc.2.orElse fun _ => w.1)
  | some f => (r.2, acc.2.orElse fun _ => some f)

theorem State.copyMove_eq (c : ClusterId) (m : MoveOut) (s : State) :
    s.copyMove c m = (blocks128 (m.len / 16 + 1) m.src.toNat m.len).foldl (State.copyLine c m) (s, none) := rfl

section
variable {v : State} (hs : v.sound) {a : Nat} (ha : a < 2 ^ 31)
include ha

theorem loc_low : DWord.loc (BitVec.ofNat 64 a) = .sram (BitVec.ofNat 8 (a / 2 ^ 23)) (a % 2 ^ 23) := by
  have h : (BitVec.ofNat 64 a).toNat = a := by rw [BitVec.toNat_ofNat]; omega
  rw [loc_sram (by omega), h]

include hs

theorem State.demand_low (n : Nat) (req : BitVec 16) (no : JobNo) : v.demand a n req no = ((v.read a n, none), v) := by
  obtain ⟨hb, hw, harm⟩ := hs
  have h : (BitVec.ofNat 64 a).toNat = a := by rw [BitVec.toNat_ofNat]; omega
  have hd := State.demand_sram (a := BitVec.ofNat 64 a) n req no (by omega) harm hb (by simp [State.weakIn, hw])
  rwa [h] at hd

theorem State.storeBy_low (req : BitVec 16) (no : JobNo) (bs : List Byte) :
    v.storeBy req no a bs = (none, { v with mem := Memory.writeN a bs v.mem }) := by
  have hhold : v.holdRefresh a bs.length req = v := by simp only [State.holdRefresh, loc_low ha]
  have hnote : v.noteWrite a bs.length = v := by simp only [State.noteWrite, loc_low ha]
  obtain ⟨hb, hw, -⟩ := hs
  simp only [State.storeBy, State.store, hhold, hnote, State.write_clean a bs hb hw, State.spoiled, hb, List.filter_nil, List.head?_nil]

end

/-- A line of a move between SRAMs is copied. -/
theorem State.copyLine_low {v : State} {c : ClusterId} {m : MoveOut} {a n : Nat} (hs : v.sound) (ha : a < 2 ^ 31)
    (hd : m.dst.toNat + (a - m.src.toNat) < 2 ^ 31) :
    State.copyLine c m (v, none) (a, n) =
      ({ v with mem := Memory.writeN (m.dst.toNat + (a - m.src.toNat)) (v.read a n) v.mem }, none) := by
  simp only [State.copyLine, State.demand_low hs ha, State.storeBy_low hs hd]
  rfl

/-- The memory after the bytes of a range have been copied to another one. -/
def Memory.Copied (src dst n : Nat) (m m' : Memory) : Prop :=
  ∀ b, Memory.read b m' = if dst ≤ b ∧ b < dst + n then Memory.read (src + (b - dst)) m else Memory.read b m

/-- The first bytes of a range, then the others: the source lies apart from the destination. -/
theorem Memory.Copied.extend {src dst n k : Nat} {m m' : Memory} (hk : k ≤ n) (hapart : src + n ≤ dst ∨ dst + n ≤ src)
    (h : Memory.Copied (src + k) (dst + k) (n - k) (Memory.writeN dst (Memory.readN src k m) m) m') : Memory.Copied src dst n m m' := by
  intro b
  rw [h b, Memory.read_writeN, Memory.read_writeN, Memory.length_readN]
  by_cases hin : dst ≤ b ∧ b < dst + n
  · rw [if_pos hin]
    by_cases hfirst : b < dst + k
    · rw [if_neg (by omega), if_pos ⟨hin.1, hfirst⟩, Memory.getD_readN m (by omega)]
    · rw [if_pos (by omega), if_neg (by omega), show src + k + (b - (dst + k)) = src + (b - dst) by omega]
  · rw [if_neg hin, if_neg (by omega), if_neg (by omega)]

section
variable {c : ClusterId} {m : MoveOut} (hsrc : m.src.toNat + m.len ≤ 2 ^ 31) (hdst : m.dst.toNat + m.len ≤ 2 ^ 31)
  (hapart : m.src.toNat + m.len ≤ m.dst.toNat ∨ m.dst.toNat + m.len ≤ m.src.toNat)
include hsrc hdst hapart

/-- The last n bytes of a move, from the byte at offset o on, are copied. -/
theorem State.copyLines_low (k : Nat) {o n : Nat} {v : State} (hs : v.sound) (hn : o + n = m.len) (hfuel : n = 0 ∨ (m.src.toNat + o) % 128 + n ≤ 128 * k) :
    ∃ mem, (blocks128 k (m.src.toNat + o) n).foldl (State.copyLine c m) (v, none) = ({ v with mem := mem }, none) ∧
      Memory.Copied (m.src.toNat + o) (m.dst.toNat + o) n v.mem mem := by
  induction k generalizing o n v with
  | zero =>
    refine ⟨v.mem, rfl, fun b => (if_neg ?_).symm⟩
    omega
  | succ k ih =>
    by_cases hz : n = 0
    · refine ⟨v.mem, by rw [blocks128, if_pos hz]; rfl, fun b => (if_neg ?_).symm⟩
      omega
    · generalize hl : min (128 - (m.src.toNat + o) % 128) n = l
      have hoff : m.dst.toNat + (m.src.toNat + o - m.src.toNat) = m.dst.toNat + o := by omega
      have hline := State.copyLine_low (c := c) (m := m) (a := m.src.toNat + o) (n := l) hs (by omega) (by omega)
      rw [hoff] at hline
      obtain ⟨mem, hrun, hcopied⟩ := ih (o := o + l) (n := n - l)
        (v := { v with mem := Memory.writeN (m.dst.toNat + o) (v.read (m.src.toNat + o) l) v.mem }) hs (by omega) (by omega)
      simp only [← Nat.add_assoc] at hrun hcopied
      refine ⟨mem, ?_, Memory.Copied.extend (k := l) (by omega) (by omega) hcopied⟩
      rw [blocks128, if_neg hz, hl, List.foldl_cons, hline]
      exact hrun

/-- A move between SRAMs copies its bytes. -/
theorem State.copyMove_low {v : State} (hs : v.sound) (hlen : m.len % 16 = 0) :
    ∃ mem, v.copyMove c m = ({ v with mem := mem }, none) ∧ Memory.Copied m.src.toNat m.dst.toNat m.len v.mem mem :=
  State.copyLines_low hsrc hdst hapart (m.len / 16 + 1) (o := 0) hs (Nat.zero_add _) (by omega)

end

/-! ## The end of a move (R186, R188) -/

/-- A move whose destination is no stack signs nothing. -/
theorem State.signMove_low {v : State} {c : ClusterId} {m : MoveOut} (h : m.dst.toNat < 2 ^ 62) : v.signMove c m = v := by
  have h0 : m.dst.toNat / 2 ^ 62 = 0 := Nat.div_eq_of_lt h
  have hloc : ∀ k o, DWord.loc m.dst ≠ .dram k o := fun k o => by
    rw [DWord.loc, if_pos h0]
    split <;> simp
  unfold State.signMove
  split
  · exact absurd ‹_› (hloc _ _)
  · rfl

/-- A cluster waits for a counter or not, whatever its moves. -/
theorem heldOn_dropMove {v : State} {c : ClusterId} {m : MoveOut} {n : CounterName} (h : ∀ e ∈ v.clusters, e.2.heldOn n = false) :
    ∀ e ∈ (v.dropMove c m).clusters, e.2.heldOn n = false := by
  intro e he
  rcases Table.mem_set he with rfl | he
  · rcases Table.get_mem Cluster.reset c.toNat v.clusters with hk | hk
    · show Cluster.heldOn n { v.clu c with moves := _ } = false
      rw [show v.clu c = Cluster.reset from hk]
      rfl
    · exact h (c.toNat, v.clu c) hk
  · exact h e he

/-- A signal that a counter takes raises it by its increment, and does nothing else. -/
theorem State.signal_counts {u s : State} {n : CounterName} {no : JobNo} {inc : Nat} {src : AddSrc} (h : Takes n no inc s) (hq : u.StaysQuiet s) :
    u.StaysQuiet (s.signal n no inc src) ∧ s.signal n no inc src = { s with dies := (s.signal n no inc src).dies } ∧
      ((s.signal n no inc src).counter n).value.toNat = (s.counter n).value.toNat + inc := by
  by_cases hinc : inc = 0
  · have hnone : s.signal n no inc src = s := by rw [State.signal, if_pos hinc]
    rw [hnone, hinc]
    exact ⟨hq, rfl, rfl⟩
  · rw [State.signal_takes h hinc rfl rfl rfl]
    refine ⟨hq.modCounter .., rfl, ?_⟩
    obtain ⟨-, -, -, -, -, hfits, -⟩ := h
    rw [State.counter_modCounter_same, Counter.raised, BitVec.toNat_ofNat, Nat.mod_eq_of_lt hfits]

theorem State.dropMove_one {v : State} {c : ClusterId} {m : MoveOut} (hm : (v.clu c).moves = [m]) :
    v.dropMove c m = v.setClu c { v.clu c with moves := [] } := by
  rw [State.dropMove, State.modClu, hm, List.erase_cons_head]

/-- A counter that takes an addition takes it also once the move is off the outstanding ones. -/
theorem takes_dropMove {v : State} {c : ClusterId} {m : MoveOut} {n : CounterName} {no : JobNo} {inc : Nat} (h : Takes n no inc v) :
    Takes n no inc (v.dropMove c m) := by
  obtain ⟨hno, hjob, horph, hun, hov, hfits, hheld, hadv⟩ := h
  exact ⟨hno, hjob, horph, hun, hov, hfits, heldOn_dropMove hheld, hadv⟩

section
variable {u : State} {c : ClusterId} {m : MoveOut} (hs : u.sound) (hcopied : m.copied = false) (hmir : m.mirrored = false)
  (hsrc : m.src.toNat + m.len ≤ 2 ^ 31) (hdst : m.dst.toNat + m.len ≤ 2 ^ 31) (hlen : m.len % 16 = 0)
  (hapart : m.src.toNat + m.len ≤ m.dst.toNat ∨ m.dst.toNat + m.len ≤ m.src.toNat)
include hs hcopied hmir hsrc hdst hlen hapart

/-- A move between SRAMs completes: its bytes are copied, then its increment applies. -/
theorem State.moveComplete_low :
    ∃ mem, u.moveComplete c m = ({ u with mem := mem } : State).moveDone c m ∧ Memory.Copied m.src.toNat m.dst.toNat m.len u.mem mem := by
  obtain ⟨mem, hcopy, hread⟩ := State.copyMove_low (c := c) hsrc hdst hapart hs hlen
  refine ⟨mem, ?_, hread⟩
  simp only [State.moveComplete, hcopied, hmir, hcopy, Bool.false_eq_true, if_false]
  rw [State.signMove_low (by omega)]

end

theorem exec_moveComplete (c : ClusterId) (idx now : Nat) (s : State) : exec (.moveComplete c idx now) s =
    s.onCluster c now fun s => match (s.clu c).moves[idx]? with | some m => s.moveComplete c m | none => s := by rfl

/-- The first outstanding move of a cluster completes. -/
theorem State.firstMove_completes {s : State} {c : ClusterId} {m : MoveOut} {now : Nat} {t : State} (hc : s.hasCluster c = true)
    (hm : ((s.advanceTo now).clu c).moves = [m]) (hdone : (s.advanceTo now).moveComplete c m = t) (ht : (s.advanceTo now).StaysQuiet t) :
    exec (.moveComplete c 0 now) s = .next t := by
  have hrun : (match ((s.advanceTo now).clu c).moves[0]? with | some m => (s.advanceTo now).moveComplete c m | none => s.advanceTo now) = t := by
    rw [hm]
    exact hdone
  rw [exec_moveComplete, State.StaysQuiet.onCluster hc (by rw [hrun]; exact ht), hrun]

end Sys2Proof.Machine
open Sys2Proof Sys2Proof.Machine

/-- Settles O27: the lines of the move are copied one after another, which its source, apart from its destination, does not see; then the move
is dropped, and its counter takes the increment. -/
theorem movesCopyTheirBytes : Obligations.MovesCopyTheirBytes := by
  intro s cl m now hq hc harm hb hw u hm hcopied hmir hsrc hdst hlen _ hmeet hno _ hjob horph hun hov hfits hheld hadv
  have hmem : u.mem = s.mem := by simp [u]
  have hs : u.sound := by simp [State.sound, u, harm, hb, hw]
  have hapart : m.src.toNat + m.len ≤ m.dst.toNat ∨ m.dst.toNat + m.len ≤ m.src.toNat := by
    simp only [meets, Bool.and_eq_false_iff, decide_eq_false_iff_not] at hmeet
    omega
  obtain ⟨mem, hdone, hread⟩ := State.moveComplete_low (c := cl) hs hcopied hmir hsrc hdst hlen hapart
  generalize hv : ({ u with mem := mem } : State) = v at hdone
  have hvm : (v.clu cl).moves = [m] := by rw [← hv]; exact hm
  have htakes : Claims.Takes m.counter m.impr.job m.inc.toNat v := by
    rw [← hv]
    exact ⟨hno, hjob, horph, hun, hov, hfits, hheld, hadv⟩
  have hquiet : u.StaysQuiet (v.dropMove cl m) := by
    rw [State.dropMove_one hvm, ← hv]
    exact ((State.StaysQuiet.refl (State.advanceTo_quiet now hq)).words mem u.badWords u.weakWords).setClu ..
  obtain ⟨ht, hstate, hvalue⟩ := State.signal_counts (src := srcCluster cl) (takes_dropMove (c := cl) (m := m) htakes) hquiet
  have hdrop := State.dropMove_one hvm
  generalize hw : v.dropMove cl m = w at ht hstate hvalue hdrop
  have hrun : u.moveComplete cl m = w.signal m.counter m.impr.job m.inc.toNat (srcCluster cl) := by rw [hdone, State.moveDone, hw]
  generalize w.signal m.counter m.impr.job m.inc.toNat (srcCluster cl) = t at ht hstate hvalue hrun
  have hclu : t.clu cl = { u.clu cl with moves := [] } := by
    rw [hstate, hdrop, ← hv]
    exact State.clu_setClu_same cl { u.clu cl with moves := [] } { u with mem := mem }
  refine ⟨t, State.firstMove_completes hc hm hrun ht, ?_, ?_, ?_, fun a => ?_⟩
  · rw [hstate, hdrop, ← hv]
    rfl
  · rw [hclu]
  · rw [hvalue, hdrop, ← hv]
    rfl
  · have htm : t.mem = mem := by
      rw [hstate, hdrop, ← hv]
      rfl
    rw [htm, hread a, hmem]
end

section
/-! SUPPORT. The accesses of a stream engine to sound memory, its contexts, and the frames that it takes (08 R203, R204, R216; 17 R440, R450). -/

namespace Sys2Proof.Machine

/-! ## Accesses of an engine (R216, R440, R450) -/

/-- v is u after accesses of an engine: the engine may wait for a refresh, and the stacks count the accesses. -/
structure State.Accessed (p : Port) (u v : State) : Prop where
  state : v = { u with engines := v.engines, dies := v.dies }
  eng : v.eng p = { u.eng p with refreshTill := (v.eng p).refreshTill }
  others : ∀ q, q ≠ p → v.eng q = u.eng q
  die : ∀ d, v.die d = { u.die d with stk := (v.die d).stk }
  listedEngine : ∀ e ∈ v.engines, e ∈ u.engines ∨ ∃ till, e.2 = { u.eng p with refreshTill := till }
  listedDie : ∀ e ∈ v.dies, e ∈ u.dies ∨ ∃ d stk, e.2 = { u.die d with stk := stk }

theorem State.Accessed.refl (p : Port) (u : State) : u.Accessed p u :=
  ⟨rfl, rfl, fun _ _ => rfl, fun _ => rfl, fun _ h => .inl h, fun _ h => .inl h⟩

theorem State.Accessed.trans {p : Port} {u v w : State} (h : u.Accessed p v) (g : v.Accessed p w) : u.Accessed p w where
  state := by rw [g.state, h.state]
  eng := by rw [g.eng, h.eng]
  others q hq := (g.others q hq).trans (h.others q hq)
  die d := by rw [g.die, h.die]
  listedEngine e he := by
    rcases g.listedEngine e he with he | ⟨till, he⟩
    · exact h.listedEngine e he
    · exact .inr ⟨till, by rw [he, h.eng]⟩
  listedDie e he := by
    rcases g.listedDie e he with he | ⟨d, stk, he⟩
    · exact h.listedDie e he
    · exact .inr ⟨d, stk, by rw [he, h.die]⟩

theorem State.Accessed.sound {p : Port} {u v : State} (h : u.Accessed p v) (hs : u.sound) : v.sound := by
  rw [h.state]
  exact hs

/-- What memory holds is no part of an access. -/
theorem State.Accessed.withMem {p : Port} {u v : State} (h : u.Accessed p v) (m : Memory) :
    State.Accessed p { u with mem := m } { v with mem := m } where
  state := by rw [h.state]
  eng := h.eng
  others := h.others
  die := h.die
  listedEngine := h.listedEngine
  listedDie := h.listedDie

/-- Nor are the shards and the fabric. -/
theorem State.Accessed.withParts {p : Port} {u v : State} (h : u.Accessed p v) (m : Memory) (sh : List Shard) (b : Fabric) :
    State.Accessed p { u with mem := m, shards := sh, fab := b } { v with mem := m, shards := sh, fab := b } where
  state := by rw [h.state]
  eng := h.eng
  others := h.others
  die := h.die
  listedEngine := h.listedEngine
  listedDie := h.listedDie

theorem State.Accessed.counter {p : Port} {u v : State} (h : u.Accessed p v) (n : CounterName) : v.counter n = u.counter n := by
  rw [State.counter, State.counter, h.die]

/-- The counts of a stack are all that changes in its die. -/
theorem State.accessed_modStack (p : Port) (k : Nat) (g : Stack → Stack) (s : State) : s.Accessed p (s.modStack k g) where
  state := rfl
  eng := rfl
  others _ _ := rfl
  die d := State.die_modStack k g d s
  listedEngine _ h := .inl h
  listedDie e he := by
    rcases Table.mem_set he with rfl | he
    · exact .inr ⟨_, _, rfl⟩
    · exact .inl he

theorem State.accessed_noteRead (p : Port) (a n : Nat) (s : State) : s.Accessed p (s.noteRead a n) := by
  unfold State.noteRead
  split
  · exact State.accessed_modStack ..
  · exact .refl p s

theorem State.accessed_noteWrite (p : Port) (a n : Nat) (s : State) : s.Accessed p (s.noteWrite a n) := by
  unfold State.noteWrite
  split
  · exact State.accessed_modStack ..
  · exact .refl p s

theorem State.accessed_till (p : Port) (till : Nat) (s : State) : s.Accessed p (s.setEng p { s.eng p with refreshTill := till }) where
  state := rfl
  eng := by rw [State.eng_setEng_same]
  others q hq := (State.eng_setEng ..).trans (if_neg hq)
  die _ := rfl
  listedEngine e he := by
    rcases Table.mem_set he with rfl | he
    · exact .inr ⟨till, rfl⟩
    · exact .inl he
  listedDie _ h := .inl h

theorem toNat_engineReq (p : Port) : (engineReq p).toNat = 256 + p.toNat := by
  have := p.isLt
  rw [engineReq, BitVec.toNat_ofNat]
  omega

theorem State.accessed_holdRefresh (p : Port) (a n : Nat) (s : State) : s.Accessed p (s.holdRefresh a n (engineReq p)) := by
  have hp := p.isLt
  have hport : (BitVec.ofNat 6 ((engineReq p).toNat - 256) : Port) = p := by
    rw [toNat_engineReq, Nat.add_sub_cancel_left, BitVec.ofNat_toNat, BitVec.setWidth_eq]
  unfold State.holdRefresh
  split
  · dsimp only
    rw [hport, if_neg (by rw [toNat_engineReq]; omega : ¬ (engineReq p).toNat < 256),
      if_pos (by rw [toNat_engineReq]; omega : (engineReq p).toNat < 320)]
    split
    · exact .refl p s
    · exact State.accessed_till ..
  · exact .refl p s

/-- An engine reads sound memory. -/
theorem State.pull_sound {s : State} (hs : s.sound) (p : Port) (c : Ctx) (a n : Nat) :
    ∃ v, s.pull p c a n = (some (s.read a n), v) ∧ s.Accessed p v := by
  have hh := State.accessed_holdRefresh p a n s
  have hread : (s.holdRefresh a n (engineReq p)).read a n = s.read a n := by rw [hh.state]; rfl
  refine ⟨_, ?_, hh.trans (State.accessed_noteRead p a n _)⟩
  rw [State.pull, State.demand_reads (hh.sound hs), hread]

/-- An engine writes into sound memory outside the code regions. -/
theorem State.put_sound {s : State} (hs : s.sound) (p : Port) (c : Ctx) {a : Nat} {bs : List Byte} (hcode : s.inCode a bs.length = false) :
    ∃ v, s.put p c a bs = (true, v) ∧ State.Accessed p { s with mem := Memory.writeN a bs s.mem } v := by
  have hh := State.accessed_holdRefresh p a bs.length s
  have hmem : (s.holdRefresh a bs.length (engineReq p)).mem = s.mem := by rw [hh.state]
  have hspoiled : (s.spoiled a bs.length).head? = none := by
    obtain ⟨hb, -⟩ := hs
    simp [State.spoiled, hb]
  refine ⟨_, ?_, (hh.trans (State.accessed_noteWrite p a bs.length _)).withMem (Memory.writeN a bs s.mem)⟩
  rw [State.put, if_neg (by simp [hcode]), State.storeBy, hspoiled]
  simp only [State.store_sound (hh.sound hs), hmem]

/-! ## What every engine has -/

/-- Every engine, also one that the table does not list, has a property. -/
def State.enginesAll (Q : Engine → Prop) (s : State) : Prop := Q Engine.reset ∧ ∀ e ∈ s.engines, Q e.2

section EnginesAll
variable {Q : Engine → Prop} {s v : State} (h : s.enginesAll Q)
include h

theorem State.enginesAll.eng (p : Port) : Q (s.eng p) := by
  rcases Table.get_mem Engine.reset p.toNat s.engines with g | g
  · rw [State.eng, g]
    exact h.1
  · exact h.2 _ g

theorem State.enginesAll.setEng (p : Port) {e : Engine} (he : Q e) : (s.setEng p e).enginesAll Q := by
  refine ⟨h.1, fun x hx => ?_⟩
  rcases Table.mem_set hx with rfl | hx
  · exact he
  · exact h.2 x hx

theorem State.enginesAll.accessed {p : Port} (ha : s.Accessed p v) (hQ : ∀ e till, Q e → Q { e with refreshTill := till }) : v.enginesAll Q := by
  refine ⟨h.1, fun x hx => ?_⟩
  rcases ha.listedEngine x hx with hx | ⟨till, hx⟩
  · exact h.2 x hx
  · rw [hx]
    exact hQ _ till (h.eng p)

end EnginesAll

/-- An engine of whose contexts none waits, and that holds no frame back, f least of all. -/
def Engine.restsFrom (f : Frame) (e : Engine) : Prop := (∀ c ∈ e.ctxs, c.rests = true ∧ f ∉ c.held) ∧ e.held = []

/-- Dies without a signature that has not left. -/
def State.unsigned (s : State) : Prop := ∀ e ∈ s.dies, e.2.sigOwn = []

theorem State.unsigned.die {s : State} (h : s.unsigned) (d : Die) : (s.die d).sigOwn = [] := by
  rcases Table.get_mem DieState.reset d.toNat s.dies with g | g
  · rw [State.die, g]
    rfl
  · exact h _ g

theorem State.unsigned.accessed {p : Port} {u v : State} (h : u.unsigned) (ha : u.Accessed p v) : v.unsigned := fun e he => by
  rcases ha.listedDie e he with he | ⟨d, stk, he⟩
  · exact h e he
  · rw [he]
    exact h.die d

/-! ## Contexts (R203) -/

theorem State.eng_setCtx_same (p : Port) (c : Ctx) (s : State) :
    (s.setCtx p c).eng p = { s.eng p with ctxs := (s.eng p).ctxs.map fun x => if x.id = c.id then c else x } := State.eng_modEng_same ..

theorem State.ctx_setCtx {p : Port} {c x : Ctx} {s : State} (h : s.ctx p c.id = some x) : (s.setCtx p c).ctx p c.id = some c := by
  have hpred : ((fun y : Ctx => y.id == c.id) ∘ fun y => if y.id = c.id then c else y) = fun y => y.id == c.id := by
    funext y
    by_cases hy : y.id = c.id <;> simp [hy]
  rw [State.ctx] at h
  have hx : x.id = c.id := by simpa using List.find?_some h
  rw [State.ctx, State.eng_setCtx_same, List.find?_map, hpred, h]
  simp [hx]

theorem State.Accessed.ctx {p : Port} {u v : State} (h : u.Accessed p v) (id : Nat) : v.ctx p id = u.ctx p id := by
  rw [State.ctx, State.ctx, h.eng]

theorem State.enginesAll.setCtx {f : Frame} {s : State} (h : s.enginesAll (Engine.restsFrom f)) (p : Port) {c : Ctx} (hc : c.rests = true)
    (hf : f ∉ c.held) : (s.setCtx p c).enginesAll (Engine.restsFrom f) := by
  obtain ⟨hctxs, hheld⟩ := h.eng p
  refine h.setEng p ⟨fun x hx => ?_, hheld⟩
  obtain ⟨y, hy, rfl⟩ := List.mem_map.mp hx
  split
  · exact ⟨hc, hf⟩
  · exact hctxs y hy

/-! ## Frames that an engine takes (R18, R40, R204) -/

/-- In a quiet module every engine rests, and none holds back a frame that is not held back. -/
theorem State.enginesAll_of_quiet {f : Frame} {s : State} (hq : s.quiet = true) (hf : s.heldBack f = false) : s.enginesAll (Engine.restsFrom f) := by
  obtain ⟨-, -, -, he, -⟩ := (State.quiet_iff s).mp hq
  have hfree : ∀ e ∈ s.engines, ∀ c ∈ e.2.ctxs, f ∉ c.held := fun e hm c hc hh => by
    rw [State.heldBack, List.any_eq_false] at hf
    refine hf e hm ?_
    rw [Bool.or_eq_true, List.any_eq_true]
    exact .inr ⟨c, hc, by simpa using hh⟩
  refine ⟨⟨fun c hc => absurd hc List.not_mem_nil, rfl⟩, fun e hm => ⟨fun c hc => ⟨(he e hm).1 c hc, hfree e hm c hc⟩, (he e hm).2⟩⟩

theorem State.heldBack_of_rests {f : Frame} {s : State} (h : s.enginesAll (Engine.restsFrom f)) : s.heldBack f = false := by
  rw [State.heldBack, List.any_eq_false]
  intro e he
  obtain ⟨hc, hh⟩ := h.2 e he
  simp only [hh, List.contains_nil, Bool.false_or, List.any_eq_true, not_exists, not_and]
  exact fun c hm => by simpa using (hc c hm).2

/-- What a unit leaves that takes a frame into its hold, and what it leaves once it has disposed of the frame. -/
theorem State.unboxHeld_frees {u : State} (hu : u.fab.unitHeld = []) (w : LocalUnit) (f : Frame) : ∃ ib qs ps,
    u.unboxHeld w f = { u with fab := { u.fab with inbox := ib, unitHeld := qs } } ∧
      u.unbox w f = { u with fab := { u.fab with inbox := ib }, ports := ps } ∧
      ∀ v : State, v.ports = u.ports → v.fab = { u.fab with inbox := ib, unitHeld := qs, selfEgress := v.fab.selfEgress } →
        v.heldBack f = false → v.freeUnits = { v with fab := { v.fab with unitHeld := [] }, ports := ps } := by
  obtain ⟨ib, ps, htaken, hunbox, hfree⟩ := u.takeOut_frees w f
  cases hb : u.boxed w f with
  | none =>
    refine ⟨u.fab.inbox, [], u.ports, ?_, ?_, fun v hp hfab _ => ?_⟩
    · rw [State.unboxHeld, hb, ← hu]
    · simp only [State.unbox, State.takeOut, hb]
    · have hv : v.fab.unitHeld = [] := by rw [hfab]
      have hsame : { v with fab := { v.fab with unitHeld := [] }, ports := v.ports } = v := by rw [← hv]
      simp only [State.freeUnits, hv, List.filter_nil, List.foldl_nil]
      rw [← hp, hsame]
  | some q =>
    have hqf : q.f = f := by
      unfold State.boxed at hb
      split at hb
      · split at hb
        · rename_i hf
          rw [← hf]
          exact congrArg Queued.f (Option.some.inj hb).symm
        · cases hb
      · cases hb
    simp only [State.takeOut, hb] at htaken hfree
    have hib : u.fab.inbox.erase (w, q) = ib := congrArg (·.fab.inbox) htaken
    refine ⟨ib, [q], ps, ?_, hunbox, fun v hp hfab hheld => ?_⟩
    · rw [State.unboxHeld, hb, ← hib]
      simp only [State.modFab, hu, List.nil_append]
    · have hv : v.fab.unitHeld = [q] := by rw [hfab]
      simp only [State.freeUnits, hv, hqf, hheld, Bool.not_false, List.filter_cons, if_true, List.filter_nil, List.foldl_cons, List.foldl_nil,
        State.modFab, List.erase_cons_head]
      refine (hfree { v with fab := { v.fab with unitHeld := [] } } hp ?_).trans rfl
      rw [hfab, ← hu]

/-- What the disposal of a frame leaves in b: the memory, the engines, the dies, the shards and the frames of the module's own of v. -/
def State.disposed (v b : State) : State :=
  { b with mem := v.mem, engines := v.engines, dies := v.dies, shards := v.shards, fab := { b.fab with selfEgress := v.fab.selfEgress } }

/-- Where every engine rests, the contexts do nothing of themselves. -/
theorem State.settle_rests {f : Frame} {s : State} (h : s.enginesAll (Engine.restsFrom f)) : s.settle = s.freeUnits := by
  have e : s.engines.foldl (fun s e =>
      (e.2.ctxs.foldl (fun s c => s.settleCtx (BitVec.ofNat 6 e.1) c.id) s).settleEngine (BitVec.ofNat 6 e.1)) s = s :=
    foldl_eq_self fun e _ => by
      obtain ⟨hc, hh⟩ := h.eng (BitVec.ofNat 6 e.1)
      rw [foldl_eq_self fun c _ => State.settleCtx_rests fun d hd => (hc d (List.mem_of_find?_eq_some hd)).1]
      simp [State.settleEngine, hh]
  rw [State.settle, e]

/-- What follows the disposal of a frame: its units are free, and the frames of the module's own take their routes. -/
theorem State.aftermath_frees {f : Frame} {v w : State} (hj : ∀ e ∈ v.jobs, e.2.settled) (hd : v.unsigned) (hs : ∀ r ∈ v.shards, r.advDue = 0)
    (he : v.enginesAll (Engine.restsFrom f)) (hp : v.pair.seals = []) (hfree : v.freeUnits = w) (hw : w.calm) : v.aftermath = w.dispatchOwn := by
  obtain ⟨-, -, hwe, -, hwh, -⟩ := (State.calm_iff w).mp hw
  have h1 : v.answerStopped = v := State.answerStopped_none fun e he => .inl (hj e he).1
  have h2 : v.matchSigs = v := by simp [State.matchSigs, DieState.sigPairs, hd.die]
  have h3 : v.advancesDue = v := foldl_eq_self fun r g => by simp [hs r g]
  have h4 : v.mapSwitches = v := State.mapSwitches_none fun e he => (hj e he).2
  have h5 : v.sealShadows = v := by simp [State.sealShadows, hp]
  have h7 : w.sendBatches = w := foldl_eq_self fun d _ => by simp [State.calm_sigOwn hw d]
  have h8 : w.releaseStream = w := by simp [State.releaseStream, hwh]
  obtain ⟨hroutes, -⟩ := State.Routes.dispatchOwn w
  have h10 : w.dispatchOwn.settleSent = w.dispatchOwn := State.settleSent_rests fun e hm => (hwe e (hroutes ▸ hm)).1
  simp only [State.aftermath, h1, h2, h3, h4, h5, State.settle_rests he, hfree, h7, h8, h10]

section EngineFrame
variable {s v : State} {p : Port} {f : Frame} {now : Nat} (hq : s.quiet = true) (hp : s.hasPort p = true)
  (hcomes : Claims.Comes (.engine p) f (s.advanceTo now)) (hin : ((s.advanceTo now).unboxHeld (.engine p) f).ingress p f = v)
  (hframe : v = v.disposed ((s.advanceTo now).unboxHeld (.engine p) f)) (he : v.enginesAll (Engine.restsFrom f)) (hd : v.unsigned)
  (hs : ∀ r ∈ v.shards, r.advDue = 0)
include hq hp hcomes hin hframe he hd hs

/-- A frame that comes to an engine in order is disposed of; then its units are free, and the frames that its disposal has made take their
routes. -/
theorem engineFrame_disposes :
    s.onPort p now (fun s => s.engineFrame p f) = .next (v.disposed ((s.advanceTo now).unbox (.engine p) f)).dispatchOwn := by
  have hq' := State.advanceTo_quiet now hq
  have hp' := (State.hasPort_advanceTo p now s).trans hp
  obtain ⟨-, hpend, hfuse, htime⟩ := State.Routes.dispatchOwn (v.disposed ((s.advanceTo now).unbox (.engine p) f))
  obtain ⟨hbehind, -, hholds⟩ := hcomes
  have hrun : (s.advanceTo now).engineFrame p f = v := by rw [State.engineFrame, if_neg (by simp [hbehind, hholds]), hin]
  have hpq : (s.advanceTo now).pending = s.pending := by simp
  have hfq : (s.advanceTo now).fuse = s.fuse := by simp
  have htq : (s.advanceTo now).time = max s.time now := by simp
  rw [State.onPort, State.happens, if_pos hp', hrun, State.finish, ← hpq, ← hfq, ← htq]
  generalize s.advanceTo now = u at *
  obtain ⟨hj, -, -, -, hseals, -, hstream, hunit⟩ := (State.quiet_iff u).mp hq'
  obtain ⟨ib, qs, ps, hheld, hunbox, hfree⟩ := State.unboxHeld_frees hunit (.engine p) f
  rw [hheld] at hframe
  have hw : v.freeUnits = v.disposed (u.unbox (.engine p) f) := by
    rw [hfree v (by rw [hframe]; rfl) (by rw [hframe]; rfl) (State.heldBack_of_rests he), hunbox, hframe, ← hunit]
    rfl
  have hcalm : (v.disposed (u.unbox (.engine p) f)).calm := by
    rw [hunbox]
    exact (State.calm_iff _).mpr ⟨hd, hs, fun e hm => ⟨fun c hc => ((he.2 e hm).1 c hc).1, (he.2 e hm).2⟩, hseals, hstream, hunit⟩
  rw [State.aftermath_frees (by rw [hframe]; exact hj) hd hs he (by rw [hframe]; exact hseals) hw hcalm]
  have hpend' : u.pending = (v.disposed (u.unbox (.engine p) f)).dispatchOwn.pending := by rw [hpend, hunbox]; rfl
  have hfuse' : u.fuse = (v.disposed (u.unbox (.engine p) f)).dispatchOwn.fuse := by rw [hfuse, hunbox]; rfl
  have htime' : u.time = (v.disposed (u.unbox (.engine p) f)).dispatchOwn.time := by rw [htime, hunbox]; rfl
  rw [hpend', hfuse', htime']

/-- A frame whose disposal makes no frame. -/
theorem engineFrame_disposes_silently (hnone : v.fab.selfEgress = []) :
    s.onPort p now (fun s => s.engineFrame p f) = .next (v.disposed ((s.advanceTo now).unbox (.engine p) f)) :=
  (engineFrame_disposes hq hp hcomes hin hframe he hd hs).trans (congrArg Host.Outcome.next (State.dispatchOwn_none hnone))

end EngineFrame

end Sys2Proof.Machine
end

section
/-! SUPPORT. Launches that enter a queue, and descriptors that become active (08 R202, R203, R211, R224). -/

namespace Sys2Proof.Machine

/-! ## Changes of an engine that leave the module quiet -/

/-- A change of an engine after which its contexts rest and it holds no frame back. -/
theorem State.StaysQuiet.setEng {u v : State} (h : u.StaysQuiet v) (p : Port) {e : Engine} (hc : ∀ c ∈ e.ctxs, c.rests = true) (hh : e.held = []) :
    u.StaysQuiet (v.setEng p e) := by
  obtain ⟨hq, h⟩ := h
  refine ⟨?_, h⟩
  rw [State.quiet_iff] at hq ⊢
  obtain ⟨hj, hd, hs, he, hrest⟩ := hq
  refine ⟨hj, hd, hs, fun x hm => ?_, hrest⟩
  rcases Table.mem_set hm with rfl | hm
  · exact ⟨hc, hh⟩
  · exact he x hm

theorem State.StaysQuiet.accessed {p : Port} {u v w : State} (h : u.StaysQuiet v) (ha : v.Accessed p w) : u.StaysQuiet w := by
  obtain ⟨hq, hrest⟩ := h
  have hctxs := State.quiet_ctx hq p
  have hheld := State.quiet_held hq p
  refine ⟨?_, by rw [ha.state]; exact hrest⟩
  rw [State.quiet_iff] at hq
  obtain ⟨hj, hd, hs, he, hseals, hfab⟩ := hq
  have hd' := State.unsigned.accessed hd ha
  have he' : ∀ e ∈ w.engines, (∀ c ∈ e.2.ctxs, c.rests = true) ∧ e.2.held = [] := fun e hm => by
    rcases ha.listedEngine e hm with hm | ⟨till, hm⟩
    · exact he e hm
    · rw [hm]
      exact ⟨hctxs, hheld⟩
  rw [ha.state] at hd' he' ⊢
  exact (State.quiet_iff _).mpr ⟨hj, hd', hs, he', hseals, hfab⟩

/-! ## PACOR_LAUNCH (R202) -/

/-- The oldest waiting launch enters a queue with room. -/
theorem State.pacorLaunch_enters {u : State} {p : Port} {q : QEntry} {w : DWord} {waits : List (QEntry × DWord)}
    (hw : (u.eng p).pacorWait = (q, w) :: waits) (hroom : (u.eng p).queue.length < 64) :
    u.pacorLaunch p = u.setEng p { u.eng p with pacorWait := waits, queue := (u.eng p).queue ++ [⟨q.desc, u.time, q.step, q.entry⟩] } := by
  have hfull : u.queueFull p = false := decide_eq_false (by omega)
  simp only [State.pacorLaunch, hw, hfull, State.enqueue, State.modEng, State.eng_setEng_same, State.setEng_setEng, Bool.false_eq_true, if_false]
  rfl

/-! ## The place of a descriptor and its gate (R203) -/

theorem Engine.freeId_lowest {e : Engine} {id : Nat} (hid : id < 16) (hfree : ∀ c ∈ e.ctxs, c.id ≠ id) (hlow : ∀ j < id, ∃ c ∈ e.ctxs, c.id = j) :
    e.freeId = some id := by
  rw [Engine.freeId, List.find?_range_eq_some]
  refine ⟨?_, List.mem_range.mpr hid, fun j hj => ?_⟩
  · simpa using hfree
  · simpa using hlow j hj

theorem State.gateHolds_open {u : State} {q : QEntry} (hop : q.desc.op ≠ 1) (hgate : q.desc.startGate = 0xFFF)
    (hentry : ∀ i, q.entry = some i → (Table.get EntryProg.reset i (u.job q.desc.job).prog).start ≤ u.time) : u.gateHolds q = true := by
  have hstart : (match q.entry with
      | some e => decide ((Table.get EntryProg.reset e (u.job q.desc.job).prog).start ≤ u.time) | none => true) = true := by
    cases h : q.entry with
    | none => rfl
    | some i => exact decide_eq_true (hentry i h)
  rw [State.gateHolds, hgate, beq_false_of_ne hop]
  exact hstart

/-- A fresh context rests. -/
theorem Ctx.rests_fresh (id : Nat) (q : QEntry) (start : Nat) (mask : List Nat) : (Ctx.fresh id q start mask).rests = true := by
  simp [Ctx.rests, Ctx.fresh]

theorem Job.settled_ledgerOpens (step : Word) {j : Job} (h : j.settled) : (j.ledgerOpens step).settled := by
  unfold Job.ledgerOpens
  split <;> exact h

/-! ## The checks of a descriptor (R211) -/

theorem checkCode_none {l : List Chk} : checkCode l = none ↔ Chk.bad ∉ l ∧ Chk.absent ∉ l := by
  unfold checkCode
  by_cases hb : Chk.bad ∈ l <;> by_cases ha : Chk.absent ∈ l <;> simp [hb, ha]

theorem checkCode_append {l m : List Chk} (hl : checkCode l = none) (hm : checkCode m = none) : checkCode (l ++ m) = none := by
  rw [checkCode_none] at *
  simp [hl, hm]

/-- An engine reads the tables of a descriptor in sound memory. -/
theorem State.pullTables_sound {s : State} (hs : s.sound) (p : Port) (c : Ctx) (l : List (Chk × DWord × Nat)) :
    ∃ w, s.pullTables p c l = (true, w) ∧ s.Accessed p w := by
  induction l generalizing s with
  | nil => exact ⟨s, rfl, .refl p s⟩
  | cons t l ih =>
    by_cases ht : t.1 = .ok
    · obtain ⟨v, hv, ha⟩ := State.pull_sound hs p c t.2.1.toNat t.2.2
      obtain ⟨w, hw, hb⟩ := ih (ha.sound hs)
      exact ⟨w, by simp only [State.pullTables, if_pos ht, hv, hw], ha.trans hb⟩
    · obtain ⟨w, hw, hb⟩ := ih hs
      exact ⟨w, by simp only [State.pullTables, if_neg ht, hw], hb⟩

/-- The checks of a descriptor without a tensor see neither what its engine waits for nor what the stacks count. -/
theorem State.Accessed.tableChecks {p : Port} {s w : State} (h : s.Accessed p w) {c : Ctx} (ht : c.desc.usesTensor = false) (hop : c.desc.op ≠ 1) :
    w.tableChecks p c = s.tableChecks p c := by
  rw [h.state]
  simp only [State.tableChecks, ht, Bool.false_and, Bool.false_eq_true, if_false, if_neg hop]
  rfl

/-! ## Activation (R203, R204, R224) -/

/-- Putting the last context of an engine, the one with its number. -/
theorem State.setCtx_last (p : Port) (e : Engine) {l : List Ctx} {c d : Ctx} (hl : ∀ x ∈ l, x.id ≠ d.id) (hid : c.id = d.id) (s : State) :
    (s.setEng p { e with ctxs := l ++ [c] }).setCtx p d = s.setEng p { e with ctxs := l ++ [d] } := by
  have hmap : (l ++ [c]).map (fun x => if x.id = d.id then d else x) = l ++ [d] := by
    rw [List.map_append, List.map_cons, List.map_nil, if_pos hid, List.map_congr_left fun x hx => if_neg (hl x hx), List.map_id']
  simp only [State.setCtx, State.modEng, State.eng_setEng_same, State.setEng_setEng, hmap]

/-- What a SHIFT or a SORT does at once: the tiles of a SHIFT have their sequence numbers by their place in the ring (R326). -/
def Ctx.begun (c : Ctx) : Ctx :=
  if c.desc.op = 3 then { c with signSeq := c.desc.ringN * tilesAt (bitsOf c.desc.dest.toNat 0 32) c.desc.length } else c

section Begins
variable {v w : State} {p : Port} {c : Ctx} {l : List Ctx} (hop : c.desc.op = 3 ∨ c.desc.op = 5) (hl : ∀ x ∈ l, x.id ≠ c.id)
include hop hl

theorem State.begin_last (e : Engine) : (w.setEng p { e with ctxs := l ++ [c] }).begin_ p c = w.setEng p { e with ctxs := l ++ [c.begun] } := by
  have hid : c.begun.id = c.id := by
    unfold Ctx.begun
    split <;> rfl
  rcases hop with h | h
  · have hput : ∀ s : State, s.begin_ p c = s.setCtx p c.begun := fun s => by simp only [State.begin_, h, Ctx.begun, if_true]
    rw [hput, State.setCtx_last p e (fun x hx => hid ▸ hl x hx) hid.symm]
  · rw [Ctx.begun, if_neg (by omega)]
    simp only [State.begin_, h]

/-- A descriptor that breaks no rule begins; its engine may wait for the reads of its tables. -/
theorem State.checkIn_begins (hs : v.sound) (htensor : c.desc.tensorAddr = 0) (hlast : (v.eng p).ctxs = l ++ [c])
    (hplain : checkCode ((v.tables c.desc).map (·.1) ++ v.plainChecks p c) = none) (htable : checkCode (v.tableChecks p c) = none) :
    ∃ w, v.Accessed p w ∧ v.checkIn p c = w.setEng p { w.eng p with ctxs := l ++ [c.begun] } := by
  have hop1 : c.desc.op ≠ 1 := by omega
  have huses : c.desc.usesTensor = false := by
    have h6 : c.desc.op ≠ 6 := by omega
    simp [Desc.usesTensor, htensor, hop1, h6]
  obtain ⟨w, hpull, ha⟩ := State.pullTables_sound hs p c (v.tables c.desc)
  have hcode := checkCode_append hplain (ha.tableChecks huses hop1 ▸ htable)
  have hgood : ((v.tables c.desc).map (·.1) ++ v.plainChecks p c).contains .bad = false := by simpa using (checkCode_none.mp hplain).1
  have harrived : ((List.range c.mask.length).filter fun q => c.desc.op == 1 && c.hasArrived q) = [] := by simp [hop1]
  have hctxs : (w.eng p).ctxs = l ++ [c] := by rw [ha.eng, hlast]
  have hput : w.setCtx p c = w.setEng p { w.eng p with ctxs := l ++ [c] } := by
    have hmap : (l ++ [c]).map (fun x => if x.id = c.id then c else x) = l ++ [c] := by
      rw [List.map_append, List.map_cons, List.map_nil, if_pos rfl, List.map_congr_left fun x hx => if_neg (hl x hx), List.map_id']
    rw [State.setCtx, State.modEng, hctxs, hmap]
  refine ⟨w, ha, ?_⟩
  simp only [State.checkIn, hgood, hpull, hcode, if_neg hop1, harrived, State.arriveAll, Bool.not_true, Bool.false_eq_true, if_false, if_true]
  rw [hput, State.setCtx_last p (w.eng p) hl rfl, State.begin_last hop hl]

end Begins

/-- An engine that holds no frame back assigns none anew. -/
theorem State.releaseHeld_none {s : State} {p : Port} {e : Engine} (h : e.held = []) : (s.setEng p e).releaseHeld p = s.setEng p e := by
  have he : { e with held := [] } = e := by rw [← h]
  simp only [State.releaseHeld, State.eng_setEng_same, h, List.foldl_nil, State.modEng, State.setEng_setEng, he]

/-- The head descriptor of an engine takes the lowest free context, and the step of its ledger opens. -/
theorem State.activate_takes {u : State} {p : Port} {q : QEntry} {rest : List QEntry} {id : Nat} (hid : id < 16) (hqueue : (u.eng p).queue = q :: rest)
    (hfree : ∀ c ∈ (u.eng p).ctxs, c.id ≠ id) (hlow : ∀ j < id, ∃ c ∈ (u.eng p).ctxs, c.id = j) (hgate : u.gateHolds q = true) :
    u.activate p =
      let c := Ctx.fresh id q u.time (u.ranksNamed q.desc)
      (((u.modJob q.desc.job (Job.ledgerOpens q.step)).setEng p { u.eng p with
        queue := rest, lastGate := Table.set 0 q.desc.startGate u.time (u.eng p).lastGate, ctxs := (u.eng p).ctxs ++ [c] }).checkIn p c).releaseHeld p := by
  have heng : ∀ g, (u.modJob q.desc.job g).eng p = u.eng p := fun g => by simp [State.eng]
  have htime : ∀ g, (u.modJob q.desc.job g).time = u.time := fun g => by simp
  have hkeep : (u.eng p).ctxs.filter (fun x => x.id != id) = (u.eng p).ctxs := List.filter_eq_self.mpr fun c hc => by simpa using hfree c hc
  simp only [State.activate, hqueue, Engine.freeId_lowest hid hfree hlow, hgate, State.modEng, heng, htime, hkeep, Bool.not_true, Bool.false_eq_true,
    if_false]

end Sys2Proof.Machine

open Sys2Proof Sys2Proof.Machine

/-- Settles O28: a waiting launch joins the queue; an activation opens the ledger's step, reads the tables of its descriptor, and puts its context,
with the tiles of a SHIFT numbered, behind the others. -/
theorem launchesEnterAndActivate : Obligations.LaunchesEnterAndActivate := by
  intro s p now q rest hq hp u e
  have hqu : u.quiet = true := State.advanceTo_quiet now hq
  refine ⟨fun w waits hw hroom => ?_, fun id hid hqueue hfree hlow hop hgate htensor hheld harm hbad hweak hentry => ?_⟩
  · have hrun := State.pacorLaunch_enters hw hroom
    have hquiet : u.StaysQuiet (u.pacorLaunch p) := by
      rw [hrun]
      exact (State.StaysQuiet.refl hqu).setEng p (State.quiet_ctx hqu p) (State.quiet_held hqu p)
    exact (State.StaysQuiet.onPort (e := fun s => s.pacorLaunch p) hp hquiet).trans (congrArg Host.Outcome.next hrun)
  · intro c v hplain htable
    have hop1 : q.desc.op ≠ 1 := by omega
    have hs : v.sound := by simp [State.sound, v, hbad, hweak, harm]
    have hengv : v.eng p = { e with queue := rest, lastGate := Table.set 0 0xFFF u.time e.lastGate, ctxs := e.ctxs ++ [c] } :=
      State.eng_setEng_same ..
    have hrests : ∀ x ∈ (v.eng p).ctxs, x.rests = true := fun x hx => by
      rw [hengv] at hx
      rcases List.mem_append.mp hx with hx | hx
      · exact State.quiet_ctx hqu p x hx
      · rw [List.mem_singleton.mp hx]
        exact Ctx.rests_fresh ..
    have hquietv : u.StaysQuiet v :=
      ((State.StaysQuiet.refl hqu).modJob _ fun _ => Job.settled_ledgerOpens _).setEng p (by rwa [hengv] at hrests) hheld
    obtain ⟨w, ha, hcheck⟩ := State.checkIn_begins (v := v) (p := p) (c := c) (l := e.ctxs) hop hfree hs htensor (by rw [hengv]) hplain htable
    have hheldw : (w.eng p).held = [] := by rw [ha.eng, hengv]; exact hheld
    have hrun : u.activate p = w.setEng p { w.eng p with ctxs := e.ctxs ++ [c.begun] } := by
      rw [State.activate_takes hid hqueue hfree hlow (State.gateHolds_open hop1 hgate hentry), hgate]
      exact (congrArg (State.releaseHeld p) hcheck).trans (State.releaseHeld_none hheldw)
    have hbegun : c.begun.rests = true := by
      unfold Ctx.begun
      split <;> exact Ctx.rests_fresh id q u.time (u.ranksNamed q.desc)
    have hquiet : u.StaysQuiet (u.activate p) := by
      rw [hrun]
      refine (hquietv.accessed ha).setEng p (fun x hx => ?_) hheldw
      rcases List.mem_append.mp hx with hx | hx
      · exact State.quiet_ctx hqu p x hx
      · rwa [List.mem_singleton.mp hx]
    refine ⟨_, (State.StaysQuiet.onPort (e := fun s => s.activate p) hp hquiet).trans (congrArg Host.Outcome.next hrun), ?_, fun r hr => ?_, fun n => ?_, ?_⟩
    · rw [ha.state]
      rfl
    · rw [State.eng_setEng, if_neg hr]
      exact ha.others r hr
    · refine (ha.counter n).trans ?_
      simp [v, State.counter, State.die]
    · rw [State.eng_setEng_same, ha.eng]
      rfl
end

section
/-! SUPPORT. Frames that are disposed of: pieces of a GATHER, blocks of a PERMUTE, parts of a SHIFT's blocks, and requests for a state
(08 R218, R232 to R234, R236, R237). -/

namespace Sys2Proof.Machine

/-! ## The context of a frame (R204) -/

section Ingress
variable {x : State} {p : Port} {f : Frame} {c : Ctx} (hkind : f.kind ≠ 1)
  (hfind : (x.eng p).ctxs.find? (fun x => x.desc.op != 1 && x.desc.job == f.job && x.desc.impr == f.ident &&
    decide (2 ≤ x.desc.op ∧ x.desc.op ≤ 4)) = some c)
include hkind hfind

omit hkind in
/-- A frame that is no contribution goes to the GATHER, SHIFT or PERMUTE of its job and impression. -/
theorem State.toCtx_finds (go : Ctx → State → State) :
    x.toCtx p f (fun c => c.desc.op == 2 || c.desc.op == 3 || c.desc.op == 4) go = go c x := by
  have hop : ∀ n : Nat, (n == 2 || n == 3 || n == 4) = decide (2 ≤ n ∧ n ≤ 4) := fun n => by
    rw [Bool.eq_iff_iff]
    simp only [Bool.or_eq_true, beq_iff_eq, decide_eq_true_eq]
    omega
  simp only [State.toCtx, hop, hfind]

theorem State.ingress_gather (hop : c.desc.op = 2) : x.ingress p f = if c.desc.serve then x.serveReq p c f else x.collect p c f := by
  simp only [State.ingress, if_neg hkind, State.toCtx_finds hfind, hop]

theorem State.ingress_shift (hop : c.desc.op = 3) : x.ingress p f = x.shiftFrame p c f := by
  simp only [State.ingress, if_neg hkind, State.toCtx_finds hfind, hop]

theorem State.ingress_permute (hop : c.desc.op = 4) : x.ingress p f = x.permuteFrame p c f := by
  simp only [State.ingress, if_neg hkind, State.toCtx_finds hfind, hop]

end Ingress

/-- Before its deadline an impression has not expired (R221). -/
theorem Ctx.expired_onTime {c : Ctx} {now : Nat} (h : now ≤ c.start + 256 * c.desc.deadline) : c.expired now = false := by
  unfold Ctx.expired Ctx.due
  split
  · rename_i d hd
    split at hd
    · cases hd
    · rw [← Option.some.inj hd]
      exact decide_eq_false (by omega)
  · rfl

/-! ## A frame whose bytes are written -/

/-- Taking a frame into the engine's hold changes what waits in the fabric's boxes alone. -/
theorem State.unboxHeld_eq (w : LocalUnit) (f : Frame) (u : State) :
    ∃ b, u.unboxHeld w f = { u with fab := b } ∧ b.selfEgress = u.fab.selfEgress ∧ b.module = u.fab.module := by
  unfold State.unboxHeld
  split
  · exact ⟨_, rfl, rfl, rfl⟩
  · exact ⟨u.fab, rfl, rfl, rfl⟩

section Leaves
variable {s w : State} {p : Port} {f : Frame} {now : Nat} {c c' : Ctx} {m : Memory} {sh : List Shard} {fs : List Frame} (hq : s.quiet = true)
  (hp : s.hasPort p = true) (hcomes : Claims.Comes (.engine p) f (s.advanceTo now)) (hctx : (s.advanceTo now).ctx p c.id = some c) (hid : c'.id = c.id)
  (hrests : c'.rests = true) (hheld : f ∉ c'.held) (hin : ((s.advanceTo now).unboxHeld (.engine p) f).ingress p f = w.setCtx p c')
include hq hp hcomes hctx hid hrests hheld hin

/-- A frame whose disposal changes its context, and may write memory, change shards and make frames. -/
theorem engineFrame_leaves (hsh : ∀ r ∈ sh, r.advDue = 0)
    (hw : State.Accessed p { (s.advanceTo now).unboxHeld (.engine p) f with
      mem := m, shards := sh, fab := { ((s.advanceTo now).unboxHeld (.engine p) f).fab with selfEgress := fs } } w) :
    let b := (s.advanceTo now).unbox (.engine p) f
    let v : State := { b with mem := m, engines := (w.setCtx p c').engines, dies := w.dies, shards := sh, fab := { b.fab with selfEgress := fs } }
    s.onPort p now (fun s => s.engineFrame p f) = .next v.dispatchOwn ∧ v.ctx p c.id = some c' := by
  intro b v
  have hqu := State.advanceTo_quiet now hq
  have hback : (s.advanceTo now).heldBack f = false := hcomes.2.1
  have hrun := engineFrame_disposes hq hp hcomes hin
  obtain ⟨x, hx, -⟩ := (s.advanceTo now).unboxHeld_eq (.engine p) f
  obtain ⟨-, hd, -⟩ := (State.quiet_iff _).mp hqu
  have hallu := State.enginesAll_of_quiet hqu hback
  rw [hx] at hrun hw
  have hall : w.enginesAll (Engine.restsFrom f) :=
    State.enginesAll.accessed (s := { s.advanceTo now with mem := m, shards := sh, fab := { x with selfEgress := fs } }) hallu hw fun e till h => h
  have hsign : w.unsigned :=
    State.unsigned.accessed (u := { s.advanceTo now with mem := m, shards := sh, fab := { x with selfEgress := fs } }) hd hw
  have hctxw : w.ctx p c'.id = some c := by rw [hw.ctx, hid]; exact hctx
  have hv : (w.setCtx p c').disposed b = v := by
    rw [State.disposed, hw.state]
    rfl
  refine ⟨?_, ?_⟩
  · rw [← hv]
    refine hrun ?_ (hall.setCtx p hrests hheld) hsign ?_
    · rw [hw.state]
      rfl
    · rw [hw.state]
      exact hsh
  · rw [← hid]
    exact State.ctx_setCtx hctxw

/-- A frame whose disposal writes bytes and changes its context. -/
theorem engineFrame_writes {a : Nat} {bs : List Byte}
    (hw : State.Accessed p { (s.advanceTo now).unboxHeld (.engine p) f with mem := Memory.writeN a bs (s.advanceTo now).mem } w) :
    ∃ t, s.onPort p now (fun s => s.engineFrame p f) = .next t ∧
      t = { (s.advanceTo now).unbox (.engine p) f with mem := t.mem, engines := t.engines, dies := t.dies } ∧ t.ctx p c.id = some c' ∧
      ∀ b, Memory.read b t.mem = if a ≤ b ∧ b < a + bs.length then bs.getD (b - a) 0 else Memory.read b (s.advanceTo now).mem := by
  obtain ⟨x, hx, hself, -⟩ := (s.advanceTo now).unboxHeld_eq (.engine p) f
  obtain ⟨ib, ps, hunbox⟩ := (s.advanceTo now).unbox_eq (.engine p) f
  obtain ⟨-, -, hs, -, -, hnone, -⟩ := (State.quiet_iff _).mp (State.advanceTo_quiet now hq)
  have hw' := hw
  rw [hx] at hw'
  obtain ⟨hrun, hput⟩ := engineFrame_leaves hq hp hcomes hctx hid hrests hheld hin (sh := (s.advanceTo now).shards)
    (fs := (s.advanceTo now).fab.selfEgress) (m := Memory.writeN a bs (s.advanceTo now).mem) hs (by rw [hx, ← hself]; exact hw')
  rw [State.dispatchOwn_none (by exact hnone)] at hrun
  refine ⟨_, hrun, ?_, hput, fun b => Memory.read_writeN ..⟩
  rw [hunbox]

end Leaves

/-! ## A piece of a GATHER (R218, R232) -/

/-- A context that has taken a frame of a rank: its units, its payload, and the rank's arrival with its last unit. -/
theorem Ctx.take_eq (q : Nat) (f : Frame) (a : Nat) (c : Ctx) : c.take q f a = { c with
    units := c.units ++ (List.range (f.payload.length / 128)).map fun x => (q, f.offset.toNat / 128 + x)
    payloads := insertPayload a f.payload c.payloads
    arrived := c.arrived + (if (c.take q f a).hasArrived q then 1 else 0), firstArrival := (c.take q f a).firstArrival } := by
  unfold Ctx.take
  simp only [frameUnits, List.map_map, Function.comp_def]
  split
  · rename_i h
    have h' : ∀ n b, Ctx.hasArrived { c with
        units := c.units ++ (List.range (f.payload.length / 128)).map fun x => (q, f.offset.toNat / 128 + x)
        payloads := insertPayload a f.payload c.payloads, arrived := n, firstArrival := b } q = true := fun _ _ => h
    rw [if_pos (h' _ _)]
  · rfl

/-- The units that a frame covers are those between its ends. -/
theorem mem_frameUnits {f : Frame} {x : Nat} (h : x ∈ frameUnits f) (hlen : f.payload.length % 128 = 0) :
    f.offset.toNat / 128 ≤ x ∧ x < (f.offset.toNat + f.payload.length) / 128 := by
  obtain ⟨i, hi, rfl⟩ := List.mem_map.mp h
  have := List.mem_range.mp hi
  omega

theorem breaks218_false {n : Nat} {f : Frame} (hoff : f.offset.toNat % 128 = 0) (hlen : f.payload.length % 128 = 0)
    (hend : f.offset.toNat + f.payload.length ≤ n) : breaks218 n f = false := by
  simp [breaks218, hoff, hlen, hend]

/-- A piece of a collecting GATHER that is on time and new is written at its rank's place. -/
theorem State.collect_writes {x : State} (p : Port) {c : Ctx} {f : Frame} {q : Nat} (hs : x.sound) (htime : x.time ≤ c.start + 256 * c.desc.deadline)
    (hkind : f.kind = 2) (hq : c.mask.idxOf f.srcRank.toNat = q) (hlt : q < c.mask.length) (hnew : c.hasArrived q = false)
    (hoff : f.offset.toNat % 128 = 0) (hlen : f.payload.length % 128 = 0) (hend : f.offset.toNat + f.payload.length ≤ c.desc.length)
    (hmore : c.arrived + 1 < c.mask.length)
    (hunits : ∀ y, f.offset.toNat / 128 ≤ y → y < (f.offset.toNat + f.payload.length) / 128 → (q, y) ∉ c.units)
    (hcode : x.inCode (c.desc.dest.toNat + q * c.desc.length + f.offset.toNat) f.payload.length = false) :
    ∃ w, x.collect p c f = w.setCtx p (c.take q f (c.desc.dest.toNat + q * c.desc.length + f.offset.toNat)) ∧
      State.Accessed p { x with mem := Memory.writeN (c.desc.dest.toNat + q * c.desc.length + f.offset.toNat) f.payload x.mem } w := by
  obtain ⟨w, hput, hw⟩ := State.put_sound hs p c hcode
  have hbreaks : ¬ (f.kind ≠ 2 ∨ c.mask.length ≤ q ∨ breaks218 c.desc.length f = true) := by
    rw [breaks218_false hoff hlen hend]
    simp [hkind, hlt]
  have hdup : (c.hasArrived q || (frameUnits f).any fun u => c.units.contains (q, u)) = false := by
    rw [hnew, Bool.false_or, List.any_eq_false]
    intro y hy
    obtain ⟨hlo, hhi⟩ := mem_frameUnits hy hlen
    simpa using hunits y hlo hhi
  have harrived : (c.take q f (c.desc.dest.toNat + q * c.desc.length + f.offset.toNat)).arrived < c.mask.length := by
    rw [Ctx.take_eq]
    dsimp only
    split <;> omega
  have hmask : (c.take q f (c.desc.dest.toNat + q * c.desc.length + f.offset.toNat)).mask = c.mask := by rw [Ctx.take_eq]
  refine ⟨w, ?_, hw⟩
  simp only [State.collect, hq, Ctx.expired_onTime htime, if_neg hbreaks, hdup, hput, hmask, if_pos harrived, Bool.not_true, Bool.false_eq_true, if_false]

/-! ## A block of a PERMUTE (R236, R237) -/

/-- A whole block, the first one of a PERMUTE that is not in_place, is written at its destination. -/
theorem State.blockIn_writes {x : State} (p : Port) {c : Ctx} {b : PBlock} (hs : x.sound) (hplace : c.desc.inPlace = false) (hblocks : c.blocks = [b])
    (hlen : b.bytes.length = c.desc.blockSize) (hmore : c.arrived + 1 < c.desc.incoming) (hmap : (x.job c.desc.job).mapOn = none)
    (hmay : x.mayWrite c.desc.dest (c.desc.dest.toNat + b.index * c.desc.blockSize) c.desc.blockSize = true)
    (hcode : x.inCode (c.desc.dest.toNat + b.index * c.desc.blockSize) c.desc.blockSize = false) :
    ∃ w, x.blockIn p c b = w.setCtx p { c with arrived := c.arrived + 1 } ∧
      State.Accessed p { x with mem := Memory.writeN (c.desc.dest.toNat + b.index * c.desc.blockSize) b.bytes x.mem } w := by
  obtain ⟨w, hput, hw⟩ := State.put_sound hs p { c with arrived := c.arrived + 1 }
    (a := c.desc.dest.toNat + b.index * c.desc.blockSize) (bs := b.bytes) (by rwa [hlen])
  have hnote : x.noteHeader c.desc.job b.bytes = x := by simp [State.noteHeader, hmap]
  have hsame : (c.blocks.filter fun y => y.index == b.index && !(y.srcRank == b.srcRank && y.srcBlock == b.srcBlock) &&
      decide (c.desc.blockSize / 128 ≤ y.units.length)) = [] := by simp [hblocks]
  refine ⟨w, ?_, hw⟩
  simp only [State.blockIn, hsame, hmay, hnote, hplace, hput, blockWins, hmore, List.isEmpty_nil, List.all_nil, Nat.add_zero, Bool.not_true,
    Bool.not_false, Bool.true_or, Bool.and_self, Bool.false_eq_true, if_false, if_true, true_or]

/-- The block that one frame of a PERMUTE with blocks of b bytes brings whole. -/
def wholeBlock (b : Nat) (f : Frame) : PBlock :=
  ⟨f.offset.toNat / b, f.srcRank.toNat, f.detail.toNat % 2 ^ 32, f.payload, List.range (b / 128)⟩

/-- A PERMUTE that holds a whole block, its first one. -/
def Ctx.withBlock (f : Frame) (c : Ctx) : Ctx :=
  { c with
    blocks := [wholeBlock c.desc.blockSize f]
    payloads := insertPayload (permuteKey f.offset.toNat f.srcRank.toNat (f.detail.toNat % 2 ^ 32)) f.payload c.payloads, firstArrival := true }

/-- A frame that brings the first block of a PERMUTE whole. -/
theorem State.permuteFrame_whole {x : State} (p : Port) {c : Ctx} {f : Frame} (htime : x.time ≤ c.start + 256 * c.desc.deadline)
    (hkind : f.kind = 2) (hplace : c.desc.inPlace = false) (hclosing : c.closing = none) (hblocks : c.blocks = []) (hpos : 0 < c.desc.blockSize)
    (hsize : c.desc.blockSize % 128 = 0) (hoff : f.offset.toNat % c.desc.blockSize = 0) (hlen : f.payload.length = c.desc.blockSize) :
    x.permuteFrame p c f = x.blockIn p (c.withBlock f) (wholeBlock c.desc.blockSize f) := by
  have hmax : max c.desc.blockSize 1 = c.desc.blockSize := by omega
  have hbytes : putBytes (List.replicate c.desc.blockSize 0) 0 f.payload = f.payload := by simp [putBytes, hlen]
  have hpart : ¬ (f.kind ≠ 2 ∨ 0 % 128 ≠ 0 ∨ c.desc.blockSize % 128 ≠ 0 ∨ c.desc.blockSize < 0 + c.desc.blockSize) := by
    simp [hkind, hsize]
  have hunits : ((List.range (c.desc.blockSize / 128)).map fun i => 0 / 128 + i) = List.range (c.desc.blockSize / 128) := by simp
  have hnew : (List.range (c.desc.blockSize / 128)).any ([] : List Nat).contains = false := by simp
  simp only [State.permuteFrame, hmax, Ctx.expired_onTime htime, hoff, hlen, if_neg hpart, hplace, hblocks, hclosing, List.find?_nil,
    Option.getD_none, hunits, hnew, hbytes, List.nil_append, List.filter_nil, List.length_range, Nat.lt_irrefl, Bool.false_and, Option.toList_none,
    List.append_nil, Bool.false_eq_true, if_false, Option.isSome_none, Ctx.withBlock, wholeBlock]

/-! ## A part of a SHIFT's block (R234) -/

/-- The units of a ring block are the 32 bytes in which frames count their payload. -/
theorem Ctx.unitsPer_shift {c : Ctx} (hop : c.desc.op = 3) : c.unitsPer = (c.desc.length + 31) / 32 := by
  have hop' : c.op = 3 := by
    rw [← hop, Ctx.op, Desc.op, bitsOf, Nat.pow_zero, Nat.div_one]
    rfl
  have hlt : (c.desc.w.getD 3 0).toNat / 2 ^ 32 < 2 ^ 32 := by
    have := (c.desc.w.getD 3 0).isLt
    omega
  rw [Ctx.unitsPer, if_pos hop', Desc.length, bitsOf, Desc.word, Nat.mod_eq_of_lt hlt]

/-- A SHIFT that has taken a part of the block of an ordinal. -/
def Ctx.takePart (f : Frame) (c : Ctx) : Ctx :=
  { c with
    units := c.units ++ (shiftUnits f).map fun u => (c.mask.idxOf f.srcRank.toNat, u)
    payloads := insertPayload (c.mask.idxOf f.srcRank.toNat * 2 ^ 32 + f.offset.toNat) f.payload c.payloads, firstArrival := true }

/-- The frame in which a part that does not complete its block goes on to the successor (log entry 24). -/
def Ctx.forwards (e : RankEntry) (f : Frame) (c : Ctx) : Frame :=
  { f with
    offset := BitVec.ofNat 32 (bitsOf c.desc.dest.toNat 0 32 + f.offset.toNat), transfer := c.desc.impr.setWidth 16, cls := BitVec.ofNat 3 c.desc.cls
    ttl := 1023, ecn := false, sig := e.kind == 1, sigDie := if e.kind == 1 then CounterName.die (c.desc.impr.extractLsb' 16 16) else 0
    counter := 0, inc := 0, announced := 0 }

/-- A part that ends before the block does leaves the block incomplete. -/
theorem Ctx.takePart_incomplete {c : Ctx} {f : Frame} (hop : c.desc.op = 3) (hunits : c.units = [])
    (hend : f.offset.toNat + f.payload.length < c.desc.length) : (c.takePart f).hasArrived (c.mask.idxOf f.srcRank.toNat) = false := by
  have hall : ((c.takePart f).units.filter fun u => u.1 == c.mask.idxOf f.srcRank.toNat).length = f.payload.length / 32 := by
    simp [Ctx.takePart, hunits, shiftUnits, List.filter_map, Function.comp_def]
  rw [Ctx.hasArrived, hall, Ctx.unitsPer_shift (c := c.takePart f) hop]
  exact decide_eq_false (by simp only [Ctx.takePart]; omega)

theorem State.sendJob_plain {x : State} {no : JobNo} (h : (x.job no).proofRole = 0) (f : Frame) : x.sendJob no f = x.send f :=
  if_neg (by rw [h]; decide)

/-- A part of a ring block that is on time and new goes on to the successor in the ring. -/
theorem State.shiftFrame_forwards {x : State} (p : Port) {c : Ctx} {f : Frame} {e : RankEntry} (hrole : (x.job c.desc.job).proofRole = 0)
    (htime : x.time ≤ c.start + 256 * c.desc.deadline) (hop : c.desc.op = 3) (hkind : f.kind = 2) (hpos : c.mask.idxOf f.srcRank.toNat < c.mask.length)
    (hoff : f.offset.toNat % 32 = 0) (hend : f.offset.toNat + f.payload.length < c.desc.length) (hunits : c.units = [])
    (hmore : c.arrived < c.mask.length)
    (he : x.rankEntry c.desc.job (c.mask.getD ((c.mask.idxOf f.srcRank.toNat + c.desc.ringK) % c.mask.length) 0) = some e) :
    x.shiftFrame p c f = (x.send ((c.forwards e f).toRank e)).setCtx p (c.takePart f) := by
  have hmax : max c.mask.length 1 = c.mask.length := by omega
  have hpart : ¬ (f.kind ≠ 2 ∨ c.mask.length ≤ c.mask.idxOf f.srcRank.toNat ∨ breaks234 c.desc.length f = true) := by
    have hb : breaks234 c.desc.length f = false := by
      simp only [breaks234, hoff, bne_self_eq_false, Bool.false_or, decide_eq_false_iff_not]
      omega
    simp [hkind, hpos, hb]
  have hnew : ((shiftUnits f).any fun u => c.units.contains (c.mask.idxOf f.srcRank.toNat, u)) = false := by simp [hunits]
  have hwhole := Ctx.takePart_incomplete hop hunits hend
  rw [Ctx.takePart] at hwhole
  simp only [State.shiftFrame, Ctx.expired_onTime htime, if_neg hpart, hnew, hmax, he, hwhole, hmore, Bool.and_false, Bool.false_eq_true, if_false,
    if_true, State.sendJob_plain hrole]
  rfl

/-! ## A request for a state (R233) -/

section Plain
variable {x : State} {p : Port} {c : Ctx} (hrole : (x.job c.desc.job).proofRole = 0)
include hrole

theorem State.signTile_plain (seq : Nat) (bs : List Byte) : x.signTile p c seq bs = x := by
  rw [State.signTile, State.sign, State.inProof, hrole]
  rfl

theorem State.signCut_plain (n seq off : Nat) (bs : List Byte) : State.signCut p c seq off n bs x = x := by
  induction n generalizing seq off bs with
  | zero => rfl
  | succ n ih =>
    rw [State.signCut]
    split
    · rfl
    · dsimp only
      rw [State.signTile_plain hrole, ih]

/-- Where the job is not in proof mode, nothing is signed (R326). -/
theorem State.signTiles_plain (seq off : Nat) (bs : List Byte) : x.signTiles p c seq off bs = x := by
  unfold State.signTiles
  split
  · rfl
  · split
    · exact State.signTile_plain hrole ..
    · exact State.signCut_plain hrole ..

end Plain

/-- Frames of a job that is not in proof mode wait to leave, in their order. -/
theorem State.sendJob_foldl {no : JobNo} (g : Frame → Frame) (fs : List Frame) {x : State} (hrole : (x.job no).proofRole = 0) :
    fs.foldl (fun s f => s.sendJob no (g f)) x =
      { x with fab := { x.fab with selfEgress := x.fab.selfEgress ++ fs.map fun f => (g f).sealCrc } } := by
  induction fs generalizing x with
  | nil => simp
  | cons f fs ih =>
    rw [List.foldl_cons, State.sendJob_plain hrole, ih (by exact hrole)]
    simp [State.send]

theorem pad32_whole {bs : List Byte} (h : bs.length % 32 = 0) : pad32 bs = bs := by
  have h0 : (bs.length + 31) / 32 * 32 - bs.length = 0 := by omega
  rw [pad32, h0, List.replicate_zero, List.append_nil]

/-- The frames that whole units of 32 bytes are cut into carry them all, in their order. -/
theorem cutFrames_payloads (base : Frame) {tag : Frame → Frame} (htag : ∀ f, (tag f).payload = f.payload) (n off : Nat) {bs : List Byte}
    (hunits : bs.length % 32 = 0) (hn : bs.length < 4096 * n) : (cutFrames base off tag n bs).flatMap (·.payload) = bs := by
  induction n generalizing off bs with
  | zero => omega
  | succ n ih =>
    have hpart : pad32 (bs.take 4096) = bs.take 4096 := pad32_whole (by rw [List.length_take]; omega)
    rw [cutFrames, hpart]
    split
    · rename_i hrest
      rw [List.isEmpty_iff, List.drop_eq_nil_iff] at hrest
      simp [htag, List.take_of_length_le hrest]
    · rename_i hrest
      rw [List.isEmpty_iff, List.drop_eq_nil_iff] at hrest
      rw [List.flatMap_cons, ih (off + 4096) (by rw [List.length_drop]; omega) (by rw [List.length_drop]; omega), List.take_append_drop]

/-- The frames of a stream carry its bytes. -/
theorem streamFrames_payloads (c : Ctx) (me fmt : Nat) (detail : DWord) (off : Nat) (signal : Bool) (announced : Option Nat) {bs : List Byte}
    (hunits : bs.length % 32 = 0) : (streamFrames c me fmt detail off signal announced bs).flatMap (·.payload) = bs := by
  refine cutFrames_payloads _ (fun f => ?_) _ _ hunits (by omega)
  split <;> rfl

/-- A notice without entries has 128 bytes (R228). -/
theorem length_noticeBytes (kind : Nat) (no : JobNo) (shard step st : Word) (rung : Nat) :
    (noticeBytes kind no shard step st rung []).length = 128 := by
  simp [noticeBytes, up128]

theorem State.shardRec_only {x : State} {r : Shard} {no : JobNo} {shard : Word} (h : x.shards = [r]) (hno : r.job = no) (hshard : r.shard = shard) :
    x.shardRec no shard = some r := by
  simp [State.shardRec, h, hno, hshard]

theorem State.modShard_only {x : State} {r : Shard} (h : x.shards = [r]) (g : Shard → Shard) :
    x.modShard r.job r.shard g = { x with shards := [g r] } := by
  simp [State.modShard, h]

/-- The weights of a state and the notice that follows them (R228, R233). -/
def State.replyBytes (c : Ctx) (f : Frame) (weights : List Byte) (s : State) : List Byte :=
  weights ++ noticeBytes 4 c.desc.job c.desc.shard8 c.step (f.detail.setWidth 32) (s.serveRung c true) []

/-- The frames of a reply to the rank with entry e. -/
def State.replyFrames (c : Ctx) (f : Frame) (e : RankEntry) (bs : List Byte) (s : State) : List Frame :=
  streamFrames c ((s.ownRank c.desc.job).getD 0) (s.serveRung c true) (c.step.setWidth 64) f.offset.toNat (e.kind == 1) (some bs.length) bs

/-- A context that has sent n bytes of a reply. -/
def Ctx.replied (f : Frame) (n : Nat) (c : Ctx) : Ctx := { c with signSeq := c.signSeq + tilesAt f.offset.toNat n, result := c.result + n }

/-- Where the job is not in proof mode, an answer is its frames. -/
theorem State.answer_plain {x : State} {p : Port} {c : Ctx} {f : Frame} {e : RankEntry} (hrole : (x.job c.desc.job).proofRole = 0)
    (he : x.rankEntry c.desc.job f.srcRank.toNat = some e) (weights : List Byte) :
    x.answer p c f 4 weights = (c.replied f (x.replyBytes c f weights).length, { x with fab := { x.fab with
      selfEgress := x.fab.selfEgress ++ (x.replyFrames c f e (x.replyBytes c f weights)).map fun g => (g.toRank e).sealCrc } }) := by
  simp only [State.answer, State.emit, he, State.signOut, State.sendJob_foldl _ _ hrole, BEq.rfl]
  rw [State.signTiles_plain (by exact hrole)]
  rfl

/-- A GATHER that takes its first request. -/
def Ctx.requested (f : Frame) (c : Ctx) : Ctx := { c with requests := [f], firstArrival := true }

/-- A GATHER that is sending a reply of n bytes, its last one asked for, for the state in an area. -/
def Ctx.replying (f : Frame) (area n : Nat) (c : Ctx) : Ctx :=
  { c.replied f n with requests := [], phase := .sending, serving := some (BitVec.ofNat 32 area) }

/-- x after a reply of the bytes bs for the state in an area of its shard. -/
def State.repliedTo (c : Ctx) (f : Frame) (e : RankEntry) (r : Shard) (area : Nat) (bs : List Byte) (x : State) : State :=
  { x with
    shards := [{ r with readers := r.readers ++ [area] }]
    fab := { x.fab with selfEgress := x.fab.selfEgress ++ (x.replyFrames c f e bs).map fun (g : Frame) => (g.toRank e).sealCrc } }

section ServeReq
variable {x : State} {p : Port} {c : Ctx} {f : Frame} {r : Shard} {area : Nat} {e : RankEntry} (hs : x.sound)
  (hrole : (x.job c.desc.job).proofRole = 0) (htime : x.time ≤ c.start + 256 * c.desc.deadline) (hserving : c.serving = none)
  (hshards : x.shards = [r]) (hjob : r.job = c.desc.job) (hshard : r.shard = c.desc.shard8) (harea : r.areaOf (f.detail.setWidth 32) = some area)
  (he : x.rankEntry c.desc.job f.srcRank.toNat = some e)
include hs hrole htime hserving hshards hjob hshard harea he

/-- The one request that waits, for a state that the shard holds, is answered, and pins the state's area. -/
theorem State.serveHeads_answers (hreqs : c.requests = [f]) (n : Nat) :
    let bs := x.replyBytes c f (x.read (r.wireBase.toNat + area * r.areaSize) c.desc.length)
    ∃ w, State.serveHeads p (n + 1) c x = w.setCtx p (c.replying f area bs.length) ∧ (x.repliedTo c f e r area bs).Accessed p w := by
  intro bs
  obtain ⟨v, hpull, hv⟩ := State.pull_sound hs p c (r.wireBase.toNat + area * r.areaSize) c.desc.length
  have hanswer := State.answer_plain (x := v.modShard r.job r.shard fun x => { x with readers := x.readers ++ [area] }) (p := p)
    (c := { c with phase := .sending, requests := [f], serving := none }) (f := f) (by rw [hv.state]; exact hrole) (by rw [hv.state]; exact he)
    (x.read (r.wireBase.toNat + area * r.areaSize) c.desc.length)
  refine ⟨_, ?_, hv.withParts x.mem [{ r with readers := r.readers ++ [area] }] (x.repliedTo c f e r area bs).fab⟩
  simp only [State.serveHeads, Ctx.expired_onTime htime, hreqs, hserving, State.shardRec_only hshards hjob hshard, harea, hpull, hanswer,
    Bool.false_eq_true, if_false]
  rw [State.modShard_only (by rw [hv.state]; exact hshards), hv.state]
  rfl

/-- So is a GATHER's first request. -/
theorem State.serveReq_answers (hreqs : c.requests = []) (hkind : f.kind = 3) (hshard8 : f.detail.toNat / 2 ^ 32 = c.desc.shard8.toNat) :
    let bs := x.replyBytes c f (x.read (r.wireBase.toNat + area * r.areaSize) c.desc.length)
    ∃ w, x.serveReq p c f = w.setCtx p ((c.requested f).replying f area bs.length) ∧ (x.repliedTo c f e r area bs).Accessed p w := by
  have hof : (f.detail >>> 32).setWidth 32 = c.desc.shard8 := by
    apply BitVec.eq_of_toNat_eq
    rw [← hshard8, BitVec.toNat_setWidth, BitVec.toNat_ushiftRight, Nat.shiftRight_eq_div_pow]
    have := f.detail.isLt
    omega
  rw [State.serveReq, if_neg (by simp [hkind, hof]), hreqs]
  exact State.serveHeads_answers (c := c.requested f) hs hrole htime hserving hshards hjob hshard harea he rfl 0

end ServeReq

/-! ## What a frame leaves for what follows it -/

/-- A context whose phase, descriptor and held frames stay still rests. -/
theorem Ctx.rests_of_eq {c d : Ctx} (h : c.rests = true) (hdesc : d.desc = c.desc) (hphase : d.phase = c.phase) (hheld : d.held = c.held)
    (hclosing : d.closing = c.closing) : d.rests = true := by
  rw [Ctx.rests, hdesc, hphase, hheld, hclosing]
  exact h

theorem Ctx.rests_sending {c : Ctx} (hphase : c.phase = .sending) (hheld : c.held = []) (hclosing : c.closing = none) : c.rests = true := by
  simp [Ctx.rests, hphase, hheld, hclosing]

section StreamFrame
variable {s : State} {p : Port} {f : Frame} {now : Nat} {c : Ctx} (hq : s.quiet = true) (hp : s.hasPort p = true)
  (hact : Claims.Active p c (s.advanceTo now)) (hcomes : Claims.Comes (.engine p) f (s.advanceTo now)) (hkind : f.kind ≠ 1)
  (htime : (s.advanceTo now).time ≤ c.start + 256 * c.desc.deadline)
  (hfind : ((s.advanceTo now).eng p).ctxs.find? (fun x => x.desc.op != 1 && x.desc.job == f.job && x.desc.impr == f.ident &&
    decide (2 ≤ x.desc.op ∧ x.desc.op ≤ 4)) = some c)
include hq hp hact hcomes hkind htime hfind

/-- A piece of a collecting GATHER is written at its rank's place. -/
theorem gatherPiece_writes {q : Nat} (hop : c.desc.op = 2) (hserve : c.desc.serve = false) (hkind2 : f.kind = 2)
    (hrank : c.mask.idxOf f.srcRank.toNat = q) (hlt : q < c.mask.length) (hnew : c.hasArrived q = false) (hoff : f.offset.toNat % 128 = 0)
    (hlen : f.payload.length % 128 = 0) (hend : f.offset.toNat + f.payload.length ≤ c.desc.length) (hmore : c.arrived + 1 < c.mask.length)
    (hunits : ∀ y, f.offset.toNat / 128 ≤ y → y < (f.offset.toNat + f.payload.length) / 128 → (q, y) ∉ c.units)
    (hcode : (s.advanceTo now).inCode (c.desc.dest.toNat + q * c.desc.length + f.offset.toNat) f.payload.length = false) :
    let a := c.desc.dest.toNat + q * c.desc.length + f.offset.toNat
    ∃ t, s.onPort p now (fun s => s.engineFrame p f) = .next t ∧
      t = { (s.advanceTo now).unbox (.engine p) f with mem := t.mem, engines := t.engines, dies := t.dies } ∧ t.ctx p c.id = some (c.take q f a) ∧
      ∀ b, Memory.read b t.mem = if a ≤ b ∧ b < a + f.payload.length then f.payload.getD (b - a) 0 else Memory.read b (s.advanceTo now).mem := by
  intro a
  obtain ⟨hctx, -, hbad, harmed, hweak, hheld, -⟩ := hact
  obtain ⟨x, hx, -⟩ := (s.advanceTo now).unboxHeld_eq (.engine p) f
  have hrests := State.quiet_ctx (State.advanceTo_quiet now hq) p c (List.mem_of_find?_eq_some hctx)
  have hsound : State.sound { s.advanceTo now with fab := x } := ⟨hbad, hweak, harmed⟩
  obtain ⟨w, hw, ha⟩ := State.collect_writes p hsound htime hkind2 hrank hlt hnew hoff hlen hend hmore hunits hcode
  have hin := (State.ingress_gather (x := { s.advanceTo now with fab := x }) hkind hfind hop).trans ((if_neg (by simp [hserve])).trans hw)
  refine engineFrame_writes hq hp hcomes hctx (by rw [Ctx.take_eq]) (Ctx.rests_of_eq hrests ?_ ?_ ?_ ?_) ?_ (hx ▸ hin) (hx ▸ ha)
  all_goals rw [Ctx.take_eq]
  rw [hheld]
  exact List.not_mem_nil

/-- The whole block of a PERMUTE that is not in_place is written at its destination. -/
theorem permuteBlock_writes (hop : c.desc.op = 4) (hplace : c.desc.inPlace = false) (hkind2 : f.kind = 2) (hblocks : c.blocks = [])
    (hpos : 0 < c.desc.blockSize) (hsize : c.desc.blockSize % 128 = 0) (hoff : f.offset.toNat % c.desc.blockSize = 0)
    (hlen : f.payload.length = c.desc.blockSize) (hmore : c.arrived + 1 < c.desc.incoming)
    (hmay : (s.advanceTo now).mayWrite c.desc.dest (c.desc.dest.toNat + f.offset.toNat) c.desc.blockSize = true)
    (hcode : (s.advanceTo now).inCode (c.desc.dest.toNat + f.offset.toNat) c.desc.blockSize = false)
    (hmap : ((s.advanceTo now).job c.desc.job).mapOn = none) :
    let a := c.desc.dest.toNat + f.offset.toNat
    ∃ t, s.onPort p now (fun s => s.engineFrame p f) = .next t ∧
      t = { (s.advanceTo now).unbox (.engine p) f with mem := t.mem, engines := t.engines, dies := t.dies } ∧
      t.ctx p c.id = some { c.withBlock f with arrived := c.arrived + 1 } ∧
      ∀ b, Memory.read b t.mem =
        if a ≤ b ∧ b < a + c.desc.blockSize then f.payload.getD (b - a) 0 else Memory.read b (s.advanceTo now).mem := by
  intro a
  obtain ⟨hctx, -, hbad, harmed, hweak, hheld, hclosing, -⟩ := hact
  obtain ⟨x, hx, -⟩ := (s.advanceTo now).unboxHeld_eq (.engine p) f
  have hrests := State.quiet_ctx (State.advanceTo_quiet now hq) p c (List.mem_of_find?_eq_some hctx)
  have hsound : State.sound { s.advanceTo now with fab := x } := ⟨hbad, hweak, harmed⟩
  have hplaceOf : f.offset.toNat / c.desc.blockSize * c.desc.blockSize = f.offset.toNat := Nat.div_mul_cancel (Nat.dvd_of_mod_eq_zero hoff)
  have haddr : c.desc.dest.toNat + (wholeBlock c.desc.blockSize f).index * c.desc.blockSize = a := congrArg (c.desc.dest.toNat + ·) hplaceOf
  obtain ⟨w, hw, ha⟩ := State.blockIn_writes (c := c.withBlock f) (b := wholeBlock c.desc.blockSize f) p hsound hplace rfl hlen hmore hmap
    (haddr.symm ▸ hmay) (haddr.symm ▸ hcode)
  have hin := ((State.ingress_permute (x := { s.advanceTo now with fab := x }) hkind hfind hop).trans
    (State.permuteFrame_whole p htime hkind2 hplace hclosing hblocks hpos hsize hoff hlen)).trans hw
  rw [← hlen]
  refine engineFrame_writes (c' := { c.withBlock f with arrived := c.arrived + 1 }) hq hp hcomes hctx rfl
    (Ctx.rests_of_eq hrests rfl rfl rfl rfl) ?_ (by rw [hx]; exact hin) ?_
  · exact fun h => absurd (hheld ▸ h) List.not_mem_nil
  · have ha' := haddr ▸ ha
    exact hx ▸ ha'

/-- A request for a state that the shard holds is answered, and pins the state's area. -/
theorem gatherReq_answers {r : Shard} {area : Nat} {e : RankEntry} (hop : c.desc.op = 2) (hserve : c.desc.serve = true) (hkind3 : f.kind = 3)
    (hshard8 : f.detail.toNat / 2 ^ 32 = c.desc.shard8.toNat) (hreqs : c.requests = []) (hserving : c.serving = none)
    (hshards : (s.advanceTo now).shards = [r]) (hjob : r.job = c.desc.job) (hshard : r.shard = c.desc.shard8)
    (harea : r.areaOf (f.detail.setWidth 32) = some area) (he : (s.advanceTo now).rankEntry c.desc.job f.srcRank.toNat = some e) :
    let bs := (s.advanceTo now).replyBytes c f ((s.advanceTo now).read (r.wireBase.toNat + area * r.areaSize) c.desc.length)
    let fs := (s.advanceTo now).replyFrames c f e bs
    let b := (s.advanceTo now).unbox (.engine p) f
    ∃ v : State, s.onPort p now (fun s => s.engineFrame p f) = .next v.dispatchOwn ∧
      v = { b with
        engines := v.engines, dies := v.dies, shards := [{ r with readers := r.readers ++ [area] }]
        fab := { b.fab with selfEgress := fs.map fun (g : Frame) => (g.toRank e).sealCrc } } ∧
      v.ctx p c.id = some ((c.requested f).replying f area bs.length) := by
  intro bs fs b
  obtain ⟨hctx, hrole, hbad, harmed, hweak, hheld, hclosing, -⟩ := hact
  obtain ⟨x, hx, hself, hmodule⟩ := (s.advanceTo now).unboxHeld_eq (.engine p) f
  obtain ⟨-, -, hs, -, -, hnone, -⟩ := (State.quiet_iff _).mp (State.advanceTo_quiet now hq)
  have hadv : r.advDue = 0 := hs r (hshards ▸ List.mem_singleton_self r)
  have hsound : State.sound { s.advanceTo now with fab := x } := ⟨hbad, hweak, harmed⟩
  obtain ⟨w, hw, ha⟩ := State.serveReq_answers (x := { s.advanceTo now with fab := x }) (p := p) hsound hrole htime hserving hshards hjob hshard
    harea he hreqs hkind3 hshard8
  have hin := (State.ingress_gather (x := { s.advanceTo now with fab := x }) hkind hfind hop).trans ((if_pos hserve).trans hw)
  have hown : State.ownRank c.desc.job { s.advanceTo now with fab := x } = (s.advanceTo now).ownRank c.desc.job := by
    simp only [State.ownRank, hmodule]
    rfl
  have hfs : State.replyFrames c f e bs { s.advanceTo now with fab := x } = fs := by
    rw [State.replyFrames, hown]
    rfl
  have hfab : (State.repliedTo c f e r area bs { s.advanceTo now with fab := x }).fab =
      { x with selfEgress := fs.map fun (g : Frame) => (g.toRank e).sealCrc } := by
    rw [State.repliedTo, hfs, hself, hnone]
    rfl
  obtain ⟨hrun, hput⟩ := engineFrame_leaves (c' := (c.requested f).replying f area bs.length) hq hp hcomes hctx rfl
    (Ctx.rests_sending rfl hheld hclosing) (by exact fun h => absurd (hheld ▸ h) List.not_mem_nil) (by rw [hx]; exact hin)
    (m := (s.advanceTo now).mem) (sh := [{ r with readers := r.readers ++ [area] }]) (fs := fs.map fun (g : Frame) => (g.toRank e).sealCrc)
    (by simpa using hadv) (by rw [hx, ← hfab]; exact ha)
  refine ⟨_, hrun, ?_, hput⟩
  obtain ⟨ib, ps, hunbox⟩ := (s.advanceTo now).unbox_eq (.engine p) f
  simp only [b, hunbox]

/-- A part of a ring block that is on time goes on to the successor in the ring. -/
theorem shiftBlock_forwards {e : RankEntry} (hop : c.desc.op = 3) (hkind2 : f.kind = 2) (hpos : c.mask.idxOf f.srcRank.toNat < c.mask.length)
    (hoff : f.offset.toNat % 32 = 0) (hend : f.offset.toNat + f.payload.length < c.desc.length) (hunits : c.units = [])
    (hmore : c.arrived < c.mask.length)
    (he : (s.advanceTo now).rankEntry c.desc.job (c.mask.getD ((c.mask.idxOf f.srcRank.toNat + c.desc.ringK) % c.mask.length) 0) = some e) :
    let b := (s.advanceTo now).unbox (.engine p) f
    ∃ v : State, s.onPort p now (fun s => s.engineFrame p f) = .next v.dispatchOwn ∧
      v = { b with engines := v.engines, fab := { b.fab with selfEgress := [((c.forwards e f).toRank e).sealCrc] } } ∧
      v.ctx p c.id = some (c.takePart f) := by
  intro b
  obtain ⟨hctx, hrole, -, -, -, hheld, -⟩ := hact
  obtain ⟨x, hx, hself, -⟩ := (s.advanceTo now).unboxHeld_eq (.engine p) f
  obtain ⟨-, -, hs, -, -, hnone, -⟩ := (State.quiet_iff _).mp (State.advanceTo_quiet now hq)
  have hrests := State.quiet_ctx (State.advanceTo_quiet now hq) p c (List.mem_of_find?_eq_some hctx)
  have hin := (State.ingress_shift (x := { s.advanceTo now with fab := x }) hkind hfind hop).trans
    (State.shiftFrame_forwards p hrole htime hop hkind2 hpos hoff hend hunits hmore he)
  have hsent : State.send ((c.forwards e f).toRank e) { s.advanceTo now with fab := x } =
      { s.advanceTo now with fab := { x with selfEgress := [((c.forwards e f).toRank e).sealCrc] } } := by
    rw [State.send, hself, hnone]
    rfl
  obtain ⟨hrun, hput⟩ := engineFrame_leaves (c' := c.takePart f) hq hp hcomes hctx rfl
    (Ctx.rests_of_eq hrests rfl rfl rfl rfl) (by exact fun h => absurd (hheld ▸ h) List.not_mem_nil) (by rw [hx]; exact hin)
    (m := (s.advanceTo now).mem) (sh := (s.advanceTo now).shards) (fs := [((c.forwards e f).toRank e).sealCrc]) hs
    (by rw [hx, hsent]; exact .refl p _)
  refine ⟨_, hrun, ?_, hput⟩
  obtain ⟨ib, ps, hunbox⟩ := (s.advanceTo now).unbox_eq (.engine p) f
  simp only [b, hunbox]
  rfl

end StreamFrame

/-- The bytes of a reply of whole units of 128 bytes are those of its frames. -/
theorem State.replyFrames_payloads {u : State} {c : Ctx} {f : Frame} (e : RankEntry) {weights : List Byte} (h : weights.length % 128 = 0) :
    (u.replyFrames c f e (u.replyBytes c f weights)).flatMap (·.payload) = u.replyBytes c f weights := by
  refine streamFrames_payloads _ _ _ _ _ _ _ ?_
  rw [State.replyBytes, List.length_append, length_noticeBytes]
  omega

end Sys2Proof.Machine

open Sys2Proof Sys2Proof.Machine

/-- Settles O30: each of the four frames comes to the context of its job and impression, is on time and new, and its disposal changes that
context, what it writes, reads or pins, and the frames that it makes; nothing waits behind it, so what follows the command sends those frames
on. -/
theorem streamFramesAreDisposedOf : Obligations.StreamFramesAreDisposedOf := by
  unfold Obligations.StreamFramesAreDisposedOf
  intro s p now c f hq hp u d b hact hcomes hkinds _ _ htime hfind
  have hkind : f.kind ≠ 1 := by
    rcases hkinds with h | h <;> rw [h] <;> decide
  refine ⟨?piece, ?request, ?part, ?block⟩
  case piece =>
    intro q hop hserve hkind2 hrank hlt hnew hoff hlen hend hmore hunits a hcode
    obtain ⟨t, hrun, hframe, hctx, hread⟩ :=
      gatherPiece_writes hq hp hact hcomes hkind htime hfind hop hserve hkind2 hrank hlt hnew hoff hlen hend hmore hunits hcode
    exact ⟨t, _, hrun, hframe, hctx, congrArg Ctx.units (Ctx.take_eq q f a c), congrArg Ctx.arrived (Ctx.take_eq q f a c), hread⟩
  case request =>
    intro r area e hop hserve hkind3 hshard8 hreqs hserving hshards hjob hshard harea he hlen bs fs
    obtain ⟨v, hrun, hframe, hctx⟩ :=
      gatherReq_answers hq hp hact hcomes hkind htime hfind hop hserve hkind3 hshard8 hreqs hserving hshards hjob hshard harea he
    exact ⟨v, _, hrun, hframe, State.replyFrames_payloads e (by rw [State.length_read]; exact hlen), hctx, rfl, rfl, rfl⟩
  case part =>
    intro e ring pos succ hop hkind2 hpos hoff hend hunits hmore he
    obtain ⟨v, hrun, hframe, hctx⟩ := shiftBlock_forwards hq hp hact hcomes hkind htime hfind hop hkind2 hpos hoff hend hunits hmore he
    refine ⟨v, _, _, hrun, hframe, hctx, ?_, rfl, rfl, rfl, rfl, ?_, rfl, rfl, rfl, rfl, rfl, rfl⟩
    · simp [Ctx.takePart, hunits, shiftUnits, pos, ring]
    · simp [Ctx.forwards, Frame.toRank, Frame.sealCrc, bitsOf, d]
  case block =>
    intro hop hplace hkind2 hblocks hpos hsize hoff hlen hmore hmay hcode hmap
    obtain ⟨t, hrun, hframe, hctx, hread⟩ :=
      permuteBlock_writes hq hp hact hcomes hkind htime hfind hop hplace hkind2 hblocks hpos hsize hoff hlen hmore hmay hcode hmap
    exact ⟨t, _, hrun, hframe, hctx, rfl, rfl, hread⟩
end

section
/-! SUPPORT. An impression that ends at its deadline while the job table lists its slots out of order: the ledger's entry puts them in order,
and the number of the job then names a job in proof mode, whose signature of the status leaves (08 R557; 12 R317, R326). -/

namespace Sys2Proof.Machine.DisorderedJobs

/-- The descriptor of a MULTICAST of job 7 with a deadline 256 ns after its start and its status record at 0x1000. -/
def desc : Desc := ⟨[BitVec.ofNat 64 (7 + 7 * 2 ^ 16), 0x1000, BitVec.ofNat 64 (0xFFF * 2 ^ 32), 1]⟩

/-- Its context, active since the instant 0. -/
def ctx : Ctx := Ctx.fresh 0 ⟨desc, 0, 0, none⟩ 0 []

/-- The engine of the context. -/
def engine : Port := 0

/-- A job table that lists slot 1 before slot 0, each with a job 7; that of slot 0 is in proof mode. -/
def jobs : Table Job := [(1, { Job.reset with no := 7 }), (0, { Job.reset with no := 7, proofRole := 1 })]

/-- The module after reset with these jobs, that context and a fabric map, which names its partner. -/
def state : State :=
  { State.reset.setEng engine { Engine.reset with ctxs := [ctx] } with jobs := jobs, fab := { Fabric.reset with map := some ⟨0, 1, 1, [], []⟩ } }

/-- How many frames the module has routed, in what a command leaves. -/
def routed (o : Host.Outcome State Fault Refusal) : Option Nat :=
  match o with
  | .next t => some t.fab.nextUid
  | _ => none

theorem active : Claims.Active engine ctx (state.advanceTo 257) := by
  unfold Claims.Active Claims.Takes
  decide +kernel

/-- No frame has been routed before the deadline. -/
theorem none_routed : (state.advanceTo 257).fab.nextUid = 0 := by decide +kernel

/-- The end of the impression sends a frame, the signature of its status. -/
theorem one_routed : routed (exec (.streamDeadline engine ctx.id 257) state) = some 1 := by decide +kernel

end Sys2Proof.Machine.DisorderedJobs

open Sys2Proof Sys2Proof.Machine

/-- Refutes O31: where the job table lists its slots out of order, and so lacks the canonical form that `Claims.Rising` states, the ledger's entry of
the impression changes which slot the number of its job names. The job found there may be in proof mode, and then the end of the impression also
sends a signature through the fabric, which `Claims.Ends` says is unchanged. -/
theorem not_streamDeadlinesEndImpressions : ¬ Obligations.StreamDeadlinesEndImpressions := by
  intro h
  obtain ⟨hlate, -⟩ := h DisorderedJobs.state DisorderedJobs.engine 257 DisorderedJobs.ctx (by decide +kernel) (by decide +kernel)
    DisorderedJobs.active
  obtain ⟨-, -, -, hstream, -⟩ := hlate (by decide +kernel) (by decide +kernel)
  obtain ⟨t, hexec, hframe, -⟩ := hstream (by decide +kernel) rfl
  have hfab : t.fab.nextUid = 0 := (congrArg (·.fab.nextUid) hframe).trans DisorderedJobs.none_routed
  have hone := DisorderedJobs.one_routed
  rw [hexec] at hone
  simp only [DisorderedJobs.routed, hfab] at hone
  exact absurd hone (by decide)
end
